-- ==== Sys2Proof/Word.lean ====
section
/-! DEFINITION. The word types of the Talveur G8 and the table of key and value pairs that every sparse store of the
model is made of (registers, scratchpads, memory). A table lists its keys in rising order; a store with a default
lists no entry equal to it, so that equal stores are equal lists. -/

namespace Sys2Proof

/-- One byte of memory (00_scope R5). -/
abbrev Byte := BitVec 8
/-- One 32-bit register (01_machine R22). -/
abbrev Word := BitVec 32
/-- A 64-bit value, held in an even pair of registers (01_machine R22). -/
abbrev DWord := BitVec 64
/-- A 128-bit value: a tile map, a quad of registers, a trap detail. -/
abbrev QWord := BitVec 128
/-- One Eopel instruction word (05_encoding R104). -/
abbrev InsnWord := BitVec 96

/-- Keys and values in rising order of key. -/
abbrev Tbl (β : Type) := List (Nat × β)

namespace Tbl

variable {β : Type}

/-- The value listed at a key. -/
def get? : Tbl β → Nat → Option β
  | [], _ => none
  | (k, v) :: t, j => if k = j then some v else get? t j

/-- Lists a value at a key, in order. -/
def put : Tbl β → Nat → β → Tbl β
  | [], k, v => [(k, v)]
  | (k', v') :: t, k, v =>
    if k < k' then (k, v) :: (k', v') :: t
    else if k = k' then (k, v) :: t
    else (k', v') :: put t k v

/-- Removes a key. -/
def del (m : Tbl β) (k : Nat) : Tbl β := m.filter fun e => e.1 ≠ k

/-- The keys listed. -/
def keys (m : Tbl β) : List Nat := m.map (·.1)

/-- Changes the value at a key that is listed. -/
def modify (m : Tbl β) (k : Nat) (f : β → β) : Tbl β :=
  match m.get? k with
  | some v => m.put k (f v)
  | none => m

/-- Reads a store: the default where nothing is listed. -/
def read (m : Tbl β) (d : β) (k : Nat) : β := (m.get? k).getD d

/-- Writes a store and keeps its canonical form: a default is not listed. -/
def write [DecidableEq β] (m : Tbl β) (d : β) (k : Nat) (v : β) : Tbl β :=
  if v = d then m.del k else m.put k v

/-- Keys strictly rising. -/
def sorted (m : Tbl β) : Bool := decide (m.keys.Pairwise (· < ·))

/-- The canonical form of a store: keys strictly rising and no entry equal to the default. -/
def canonical [DecidableEq β] (m : Tbl β) (d : β) : Bool := m.sorted && m.all fun e => e.2 ≠ d

/-- Keys and values of an interval of keys that are not the default. -/
def inRange (m : Tbl β) (lo hi : Nat) : Tbl β := m.filter fun e => lo ≤ e.1 && e.1 < hi

/-- Drops every entry of an interval of keys: the interval reads as the default. -/
def dropRange (m : Tbl β) (lo hi : Nat) : Tbl β := m.filter fun e => !(lo ≤ e.1 && e.1 < hi)

/-- Two tables of numbers as one, with the larger number where both list a key. -/
def join (a b : Tbl Nat) : Tbl Nat := b.foldl (fun m e => m.put e.1 (max e.2 (m.read 0 e.1))) a

end Tbl

/-- A finite set of numbers as a list without repeats; used for poisoned places. -/
def addTo (l : List Nat) (n : Nat) : List Nat := if n ∈ l then l else n :: l

/-- Removes a number from such a set. -/
def dropFrom (l : List Nat) (n : Nat) : List Nat := l.filter (· ≠ n)

/-- Bit `i` of a mask. -/
def bitOf {w : Nat} (m : BitVec w) (i : Nat) : Bool := m.getLsbD i

/-- The set bits of a lane mask, ascending (06_issue: lanes 0 to 31). -/
def lanesOf (m : Word) : List Nat := (List.range 32).filter fun i => bitOf m i

/-- The mask of a list of lanes. -/
def maskOf (l : List Nat) : Word := l.foldl (fun m i => m ||| (1#32 <<< i)) 0#32

/-- The bytes of a number, least significant first (00_scope R5: little-endian). -/
def bytesOf (n : Nat) : Nat → List Byte
  | 0 => []
  | k + 1 => BitVec.ofNat 8 n :: bytesOf (n / 256) k

/-- The number that bytes spell, least significant first. -/
def ofBytes : List Byte → Nat
  | [] => 0
  | b :: t => b.toNat + 256 * ofBytes t

/-- Sign extension of the low `w` bits of a number to an integer. -/
def signedOf (w n : Nat) : Int :=
  let m := n % 2 ^ w
  if 2 ^ (w - 1) ≤ m ∧ 0 < w then (m : Int) - (2 ^ w : Nat) else m

/-- The low `w` bits of an integer (00_scope, trunc_n). -/
def truncI (w : Nat) (i : Int) : Nat := (i % ((2 ^ w : Nat) : Int)).toNat

end Sys2Proof
end

