-- ==== Sys2Proof/Syntax.lean ====
section
/-! DEFINITION. The abstract syntax of the device's steps: type codes, rounding variants, operands, the five shapes of
field of an instruction word (05_encoding R104 to R111, R200, R296, R317), and Instr, the one inductive with a
constructor for every row of the opcode table. -/

namespace Sys2Proof

/-- The type codes of the form field (05_encoding R109). -/
inductive Ty where
  | none | i8 | i16 | i32 | i64 | n8 | n16 | n32 | n64 | b8 | b16 | b32 | b64 | b128
  | f16 | bf16 | f32 | f64 | e4m3 | e5m2 | e3m2 | e2m3 | e2m1 | e8m0 | mx8 | mx6 | mx4
deriving DecidableEq, Repr, Inhabited

/-- The rounding variants (08_numbers R187). -/
inductive Rm where
  | rn | rz | ru | rd | rs
deriving DecidableEq, Repr, Inhabited

/-- An operand field (05_encoding R105); an immediate carries its IMM value. -/
inductive Operand where
  | win (i : Nat) | scal (i : Nat) | pred (i : Nat) | tmap (i : Nat) | acc (i : Nat) | special (i : Nat)
  | imm (v : Word) | zero
deriving DecidableEq, Repr, Inhabited

/-- The guard and the end-of-run bit of every word (05_encoding R112, R113). -/
structure Head where
  /-- GN: the guard is negated. -/
  neg : Bool
  /-- GP: the guard predicate. -/
  gp : Nat
  /-- E: the run ends after this instruction. -/
  last : Bool
deriving DecidableEq, Repr, Inhabited

/-- Fields of an instruction of "Scalar and vector instructions" (09_compute R200, R201). -/
structure Arith where
  h : Head
  /-- The type of F: the destination type of a conversion. -/
  ty : Ty
  rm : Rm
  /-- SUB: ELT of `cvt`, SH of `lea`, zero elsewhere. -/
  sub : Nat
  /-- The source type of a conversion; `none` elsewhere. -/
  sty : Ty
  d : Operand
  a : Operand
  b : Operand
  /-- The third source operand; `zero` where there is none. -/
  c : Operand
deriving DecidableEq, Repr, Inhabited

/-- The address spaces (01_machine R24), in the order of their codes (05_encoding R110). -/
inductive Space where
  | gl | sp | ks | xs | ln
deriving DecidableEq, Repr, Inhabited

/-- The sizes of a memory access (05_encoding R110). -/
inductive Size where
  | s8 | s16 | s32 | s64 | s128 | i8 | i16
deriving DecidableEq, Repr, Inhabited

/-- The orderings (05_encoding R111). -/
inductive Ord where
  | plain | rlx | acq | rel | ar | rp
deriving DecidableEq, Repr, Inhabited

/-- The scopes, narrowest first (05_encoding R111). -/
inductive Scope where
  | none | group | core | cluster | die | device | system
deriving DecidableEq, Repr, Inhabited

/-- The element class of an atomic (05_encoding R111). -/
inductive Ecl where
  | natural | signed | float
deriving DecidableEq, Repr, Inhabited

/-- Fields of a memory instruction or an atomic (05_encoding R110, R111; 11_memory_ops R258; 15_synchronisation R368). -/
structure MemF where
  h : Head
  space : Space
  size : Size
  ord : Ord
  sco : Scope
  ecl : Ecl
  /-- OFS, the signed byte offset. -/
  ofs : BitVec 24
  d : Operand
  a : Operand
  b : Operand
  /-- RD, the reuse-distance hint. -/
  rd : BitVec 3
  /-- HV and HD, the home-die hint. -/
  home : Option (BitVec 3)
deriving DecidableEq, Repr, Inhabited

/-- Fields of an instruction of the control, system, engine, barrier and transaction families: the operands and IMM
(a target, an offset, a code, a mask or a bitmap, as each instruction states; the value of an immediate operand
stands in the operand). `rd` is used by `cpy` alone (05_encoding R114). -/
structure Op3 where
  h : Head
  d : Operand
  a : Operand
  b : Operand
  imm : Word
  rd : BitVec 3
deriving DecidableEq, Repr, Inhabited

/-- Fields of a matrix instruction (12_matrix R296). -/
structure MatF where
  h : Head
  ty : Ty
  /-- ET, the element format of a block-scaled A type. -/
  et : Ty
  rm : Rm
  row : Nat
  blk : Nat
  d : Operand
  a : Operand
  b : Operand
deriving DecidableEq, Repr, Inhabited

/-- Fields of a residency instruction (13_residency R317). -/
structure ResF where
  h : Head
  ty : Ty
  et : Ty
  pin : Bool
  pair : Bool
  watch : Bool
  half : Bool
  /-- NS: the slot count less one. -/
  ns : Nat
  /-- PF: the predicate set by the status. -/
  pf : Nat
  blk : Nat
  d : Operand
  a : Operand
  b : Operand
deriving DecidableEq, Repr, Inhabited

/-- The register spaces that the host and the firmware write (03_launching R56, R69; 23_platform R475). -/
inductive RegSpace where
  /-- BAR0 of a function. -/
  | bar0 (fn : Nat)
  /-- BAR2 of the physical function. -/
  | bar2
  /-- The function register block of a firmware core. -/
  | fnBlock (fn : Nat)
  /-- The dispatcher register block. -/
  | dispatcher
  /-- The MSI-X table of a function (00_scope R8; 03 R71). -/
  | msix (fn : Nat)
  /-- The PCI Express capabilities of a function (00_scope R8; 03 R489). -/
  | config (fn : Nat)
deriving DecidableEq, Repr, Inhabited

/-- What self-test measures (22_package R472): the absent cores by physical die and position, the absent compute dies
the absent physical pages, and the links with failed lanes. -/
structure UnitMap where
  absentCores : List Nat
  absentDies : List Nat
  absentPages : List Nat
  /-- package links and die ports with failed lanes: port number and lanes that work -/
  narrowed : List (Nat × Nat)
deriving DecidableEq, Repr, Inhabited

/-- A request that a peer sends over a package link (22_package R466). -/
structure RemoteReq where
  /-- The function and context of this device that the peer's entry names. -/
  fn : Nat
  ctx : Nat
  va : DWord
  size : Nat
  /-- 0 a read, 1 a write of the bytes below, 2 an atomic. -/
  kind : Nat
  data : List Byte := []
  /-- The atomic's operation (0 to 7: add, min, max, and, or, xor, swap, cas) and class, and the operands of each lane. -/
  op : Nat := 0
  ecl : Ecl := .natural
  ops : List (Nat × Nat) := []
  /-- The core that sends it, and for a release the count of that core's writes sent before it (14_consistency R352). -/
  core : Nat := 0
  marker : Option Nat := none
  /-- The payload is poisoned (22_package R459, R471). -/
  poi : Bool := false
  tag : Nat := 0
deriving DecidableEq, Repr, Inhabited

/-- One constructor per row of the table of operations and events: the 224 instruction words first, then the steps of
the device's other agents and of the outside world. -/
inductive Instr where
  /-- MOV: Scalar move of A to D at the type's width (R214). -/
  | mov (f : Arith)
  /-- VMOV: Per-lane move of A to D; the .b32 form also accepts a predicate on either side (R214). -/
  | vmov (f : Arith)
  /-- ADD: Scalar integer or floating-point addition (R205). -/
  | add (f : Arith)
  /-- VADD: Per-lane integer or floating-point addition (R205). -/
  | vadd (f : Arith)
  /-- SUB: Scalar subtraction (R205). -/
  | sub (f : Arith)
  /-- VSUB: Per-lane subtraction (R205). -/
  | vsub (f : Arith)
  /-- MUL: Scalar multiplication, keeping the low bits for integers (R205). -/
  | mul (f : Arith)
  /-- VMUL: Per-lane multiplication (R205). -/
  | vmul (f : Arith)
  /-- MULHI: Scalar high half of an integer product (R205). -/
  | mulhi (f : Arith)
  /-- VMULHI: Per-lane high half of an integer product (R205). -/
  | vmulhi (f : Arith)
  /-- MAD: Scalar integer multiply-add a × b + c (R205). -/
  | mad (f : Arith)
  /-- VMAD: Per-lane integer multiply-add (R205). -/
  | vmad (f : Arith)
  /-- MADHI: Scalar high half of a product plus c (R205). -/
  | madhi (f : Arith)
  /-- VMADHI: Per-lane high half of a product plus c (R205). -/
  | vmadhi (f : Arith)
  /-- DIV: Scalar division, truncating for integers and giving all ones on division by zero (R206). -/
  | div (f : Arith)
  /-- VDIV: Per-lane division (R206). -/
  | vdiv (f : Arith)
  /-- REM: Scalar integer remainder with truncation toward zero (R206). -/
  | rem (f : Arith)
  /-- VREM: Per-lane integer remainder (R206). -/
  | vrem (f : Arith)
  /-- MIN: Scalar minimum, integer or floating point (R205). -/
  | min (f : Arith)
  /-- VMIN: Per-lane minimum (R205). -/
  | vmin (f : Arith)
  /-- MAX: Scalar maximum (R205). -/
  | max (f : Arith)
  /-- VMAX: Per-lane maximum (R205). -/
  | vmax (f : Arith)
  /-- ABS: Scalar absolute value (R205). -/
  | abs (f : Arith)
  /-- VABS: Per-lane absolute value (R205). -/
  | vabs (f : Arith)
  /-- NEG: Scalar negation (R205). -/
  | neg (f : Arith)
  /-- VNEG: Per-lane negation (R205). -/
  | vneg (f : Arith)
  /-- ADDS: Scalar saturating integer addition (R205). -/
  | adds (f : Arith)
  /-- VADDS: Per-lane saturating integer addition (R205). -/
  | vadds (f : Arith)
  /-- SUBS: Scalar saturating integer subtraction (R205). -/
  | subs (f : Arith)
  /-- VSUBS: Per-lane saturating integer subtraction (R205). -/
  | vsubs (f : Arith)
  /-- AND: Scalar bitwise and (R207). -/
  | and (f : Arith)
  /-- VAND: Per-lane bitwise and (R207). -/
  | vand (f : Arith)
  /-- OR: Scalar bitwise or (R207). -/
  | or (f : Arith)
  /-- VOR: Per-lane bitwise or (R207). -/
  | vor (f : Arith)
  /-- XOR: Scalar bitwise exclusive or (R207). -/
  | xor (f : Arith)
  /-- VXOR: Per-lane bitwise exclusive or (R207). -/
  | vxor (f : Arith)
  /-- NOT: Scalar bitwise complement (R207). -/
  | not (f : Arith)
  /-- VNOT: Per-lane bitwise complement (R207). -/
  | vnot (f : Arith)
  /-- SHL: Scalar shift left (R207). -/
  | shl (f : Arith)
  /-- VSHL: Per-lane shift left (R207). -/
  | vshl (f : Arith)
  /-- SHR: Scalar logical shift right (R207). -/
  | shr (f : Arith)
  /-- VSHR: Per-lane logical shift right (R207). -/
  | vshr (f : Arith)
  /-- SAR: Scalar arithmetic shift right (R207). -/
  | sar (f : Arith)
  /-- VSAR: Per-lane arithmetic shift right (R207). -/
  | vsar (f : Arith)
  /-- ROT: Scalar rotate left (R207). -/
  | rot (f : Arith)
  /-- VROT: Per-lane rotate left (R207). -/
  | vrot (f : Arith)
  /-- BFX: Scalar bit-field extract (R208). -/
  | bfx (f : Arith)
  /-- VBFX: Per-lane bit-field extract (R208). -/
  | vbfx (f : Arith)
  /-- BFI: Scalar bit-field insert (R208). -/
  | bfi (f : Arith)
  /-- VBFI: Per-lane bit-field insert (R208). -/
  | vbfi (f : Arith)
  /-- POPC: Scalar population count (R207). -/
  | popc (f : Arith)
  /-- VPOPC: Per-lane population count (R207). -/
  | vpopc (f : Arith)
  /-- CLZ: Scalar count of leading zeros (R207). -/
  | clz (f : Arith)
  /-- VCLZ: Per-lane count of leading zeros (R207). -/
  | vclz (f : Arith)
  /-- CTZ: Scalar count of trailing zeros (R207). -/
  | ctz (f : Arith)
  /-- VCTZ: Per-lane count of trailing zeros (R207). -/
  | vctz (f : Arith)
  /-- BREV: Scalar bit reversal (R207). -/
  | brev (f : Arith)
  /-- VBREV: Per-lane bit reversal (R207). -/
  | vbrev (f : Arith)
  /-- BSWP: Scalar byte swap (R207). -/
  | bswp (f : Arith)
  /-- VBSWP: Per-lane byte swap (R207). -/
  | vbswp (f : Arith)
  /-- LEA: Scalar 64-bit address formation A + B × 2^sh (R209). -/
  | lea (f : Arith)
  /-- VLEA: Per-lane 64-bit address formation (R209). -/
  | vlea (f : Arith)
  /-- FMA: Scalar fused multiply-add rounded once (R210). -/
  | fma (f : Arith)
  /-- VFMA: Per-lane fused multiply-add rounded once (R210). -/
  | vfma (f : Arith)
  /-- RCP: Scalar reciprocal, correctly rounded (R212). -/
  | rcp (f : Arith)
  /-- VRCP: Per-lane reciprocal (R212). -/
  | vrcp (f : Arith)
  /-- RSQ: Scalar reciprocal square root (R212). -/
  | rsq (f : Arith)
  /-- VRSQ: Per-lane reciprocal square root (R212). -/
  | vrsq (f : Arith)
  /-- SQRT: Scalar square root (R212). -/
  | sqrt (f : Arith)
  /-- VSQRT: Per-lane square root (R212). -/
  | vsqrt (f : Arith)
  /-- EXP2: Scalar base-2 exponential (R212). -/
  | exp2 (f : Arith)
  /-- VEXP2: Per-lane base-2 exponential (R212). -/
  | vexp2 (f : Arith)
  /-- LOG2: Scalar base-2 logarithm (R212). -/
  | log2 (f : Arith)
  /-- VLOG2: Per-lane base-2 logarithm (R212). -/
  | vlog2 (f : Arith)
  /-- SIN: Scalar sine of the argument in half-turns (R212). -/
  | sin (f : Arith)
  /-- VSIN: Per-lane sine in half-turns (R212). -/
  | vsin (f : Arith)
  /-- COS: Scalar cosine of the argument in half-turns (R212). -/
  | cos (f : Arith)
  /-- VCOS: Per-lane cosine in half-turns (R212). -/
  | vcos (f : Arith)
  /-- TANH: Scalar hyperbolic tangent (R212). -/
  | tanh (f : Arith)
  /-- VTANH: Per-lane hyperbolic tangent (R212). -/
  | vtanh (f : Arith)
  /-- FRND: Scalar round to an integral value in the same format (R213). -/
  | frnd (f : Arith)
  /-- VFRND: Per-lane round to an integral value (R213). -/
  | vfrnd (f : Arith)
  /-- FCLS: Scalar floating-point class mask (R213). -/
  | fcls (f : Arith)
  /-- VFCLS: Per-lane floating-point class mask (R213). -/
  | vfcls (f : Arith)
  /-- CSGN: Scalar copy of a with the sign of b (R211). -/
  | csgn (f : Arith)
  /-- VCSGN: Per-lane copy-sign (R211). -/
  | vcsgn (f : Arith)
  /-- SCL: Scalar scaling a × 2^b rounded once (R210). -/
  | scl (f : Arith)
  /-- VSCL: Per-lane scaling a × 2^b (R210). -/
  | vscl (f : Arith)
  /-- DP2: Scalar two-element dot product plus c (R210). -/
  | dp2 (f : Arith)
  /-- VDP2: Per-lane two-element dot product plus c (R210). -/
  | vdp2 (f : Arith)
  /-- CMP_EQ: Scalar equality comparison writing 1 or 0 (R216). -/
  | cmpEq (f : Arith)
  /-- VCMP_EQ: Per-lane equality comparison (R216). -/
  | vcmpEq (f : Arith)
  /-- CMP_NE: Scalar inequality comparison (R216). -/
  | cmpNe (f : Arith)
  /-- VCMP_NE: Per-lane inequality comparison (R216). -/
  | vcmpNe (f : Arith)
  /-- CMP_LT: Scalar less-than comparison (R216). -/
  | cmpLt (f : Arith)
  /-- VCMP_LT: Per-lane less-than comparison (R216). -/
  | vcmpLt (f : Arith)
  /-- CMP_LE: Scalar less-or-equal comparison (R216). -/
  | cmpLe (f : Arith)
  /-- VCMP_LE: Per-lane less-or-equal comparison (R216). -/
  | vcmpLe (f : Arith)
  /-- CMP_GT: Scalar greater-than comparison (R216). -/
  | cmpGt (f : Arith)
  /-- VCMP_GT: Per-lane greater-than comparison (R216). -/
  | vcmpGt (f : Arith)
  /-- CMP_GE: Scalar greater-or-equal comparison (R216). -/
  | cmpGe (f : Arith)
  /-- VCMP_GE: Per-lane greater-or-equal comparison (R216). -/
  | vcmpGe (f : Arith)
  /-- CMP_NUM: Scalar test that neither operand is NaN (R216). -/
  | cmpNum (f : Arith)
  /-- VCMP_NUM: Per-lane test that neither operand is NaN (R216). -/
  | vcmpNum (f : Arith)
  /-- CMP_NAN: Scalar test that either operand is NaN (R216). -/
  | cmpNan (f : Arith)
  /-- VCMP_NAN: Per-lane test that either operand is NaN (R216). -/
  | vcmpNan (f : Arith)
  /-- SEL: Scalar select of A or B by a scalar condition C (R215). -/
  | sel (f : Arith)
  /-- VSEL: Per-lane select of A or B by predicate C (R215). -/
  | vsel (f : Arith)
  /-- CVT: Scalar conversion from source type S to destination type T (R218). -/
  | cvt (f : Arith)
  /-- VCVT: Per-lane conversion between types, with stochastic rounding where allowed (R218). -/
  | vcvt (f : Arith)
  /-- PACK: Scalar packing of halves or of six-bit elements into dense form (R220). -/
  | pack (f : Arith)
  /-- VPACK: Per-lane packing (R220). -/
  | vpack (f : Arith)
  /-- UNPK: Scalar unpacking of dense six-bit elements to byte-aligned form (R220). -/
  | unpk (f : Arith)
  /-- VUNPK: Per-lane unpacking of six-bit elements (R220). -/
  | vunpk (f : Arith)
  /-- PAND: Per-lane predicate and (R217). -/
  | pand (f : Arith)
  /-- POR: Per-lane predicate or (R217). -/
  | por (f : Arith)
  /-- PXOR: Per-lane predicate exclusive or (R217). -/
  | pxor (f : Arith)
  /-- PNOT: Per-lane predicate negation (R217). -/
  | pnot (f : Arith)
  /-- VTOS: Copies one lane's register to a scalar, reading 0 for a vacant lane (R221). -/
  | vtos (f : Arith)
  /-- STOV: Broadcasts a scalar to the masked lanes of active (R221). -/
  | stov (f : Arith)
  /-- VSHFL: Reads each lane's value from an indexed source lane of the contributing set (R223). -/
  | vshfl (f : Arith)
  /-- VBFLY: Butterfly exchange with the lane at index L xor distance (R223). -/
  | vbfly (f : Arith)
  /-- VBCAST: Broadcasts one lane's value, chosen by the lowest contributing lane, to all contributing lanes (R223). -/
  | vbcast (f : Arith)
  /-- VBALLOT: Writes the mask of contributing lanes whose predicate holds (R224). -/
  | vballot (f : Arith)
  /-- VMATCH: Writes in each lane the mask of contributing lanes holding an equal value (R224). -/
  | vmatch (f : Arith)
  /-- VRED_ADD: Reduces contributing lanes by addition over the fixed tree (R225). -/
  | vredAdd (f : Arith)
  /-- VRED_MIN: Reduces contributing lanes by minimum (R225). -/
  | vredMin (f : Arith)
  /-- VRED_MAX: Reduces contributing lanes by maximum (R225). -/
  | vredMax (f : Arith)
  /-- VRED_AND: Reduces contributing lanes by bitwise and (R225). -/
  | vredAnd (f : Arith)
  /-- VRED_OR: Reduces contributing lanes by bitwise or (R225). -/
  | vredOr (f : Arith)
  /-- VRED_XOR: Reduces contributing lanes by bitwise exclusive or (R225). -/
  | vredXor (f : Arith)
  /-- VSCAN_ADD: Inclusive scan by addition over the contributing lanes (R225). -/
  | vscanAdd (f : Arith)
  /-- VSCAN_MIN: Inclusive scan by minimum (R225). -/
  | vscanMin (f : Arith)
  /-- VSCAN_MAX: Inclusive scan by maximum (R225). -/
  | vscanMax (f : Arith)
  /-- LD_SCALAR: Group-uniform load of one address into a scalar (R260). -/
  | ldScalar (f : MemF)
  /-- LD_VECTOR: Per-lane load into window registers (R260). -/
  | ldVector (f : MemF)
  /-- LD_NR: Per-lane global load that yields zero and sets a flag predicate for non-resident pages (R263). -/
  | ldNr (f : MemF)
  /-- ST_SCALAR: Group-uniform store of a scalar to one address (R260). -/
  | stScalar (f : MemF)
  /-- ST_VECTOR: Per-lane store, highest lane winning on equal bytes (R260). -/
  | stVector (f : MemF)
  /-- PF_SCALAR: Group-uniform prefetch of a global line into L2 and L1 (R264). -/
  | pfScalar (f : MemF)
  /-- PF_VECTOR: Per-lane prefetch of global lines (R264). -/
  | pfVector (f : MemF)
  /-- PGREQ_SCALAR: Group-uniform page request writing an event record for a non-resident page (R265). -/
  | pgreqScalar (f : MemF)
  /-- PGREQ_VECTOR: Per-lane page request, one record per unique page (R265). -/
  | pgreqVector (f : MemF)
  /-- CINV: Invalidates every valid line of the issuing core's L1 (R266). -/
  | cinv (f : MemF)
  /-- CDEM: Demotes a global range in L2 and invalidates it in the core's L1 (R267). -/
  | cdem (f : MemF)
  /-- ATOM_ADD: Atomic add at the home, returning the old value (R369). -/
  | atomAdd (f : MemF)
  /-- ATOM_MIN: Atomic minimum at the home (R369). -/
  | atomMin (f : MemF)
  /-- ATOM_MAX: Atomic maximum at the home (R369). -/
  | atomMax (f : MemF)
  /-- ATOM_AND: Atomic bitwise and at the home (R369). -/
  | atomAnd (f : MemF)
  /-- ATOM_OR: Atomic bitwise or at the home (R369). -/
  | atomOr (f : MemF)
  /-- ATOM_XOR: Atomic bitwise exclusive or at the home (R369). -/
  | atomXor (f : MemF)
  /-- ATOM_EXCH: Atomic exchange at the home (R369). -/
  | atomExch (f : MemF)
  /-- ATOM_CAS: Atomic compare-and-swap at the home (R369). -/
  | atomCas (f : MemF)
  /-- ARED_ADD: Atomic add with no returned value (R369). -/
  | aredAdd (f : MemF)
  /-- ARED_MIN: Atomic minimum with no returned value (R369). -/
  | aredMin (f : MemF)
  /-- ARED_MAX: Atomic maximum with no returned value (R369). -/
  | aredMax (f : MemF)
  /-- ARED_AND: Atomic and with no returned value (R369). -/
  | aredAnd (f : MemF)
  /-- ARED_OR: Atomic or with no returned value (R369). -/
  | aredOr (f : MemF)
  /-- ARED_XOR: Atomic exclusive or with no returned value (R369). -/
  | aredXor (f : MemF)
  /-- XBEGIN: Starts a lane's transaction with an abort target (R372). -/
  | xbegin (f : Op3)
  /-- XEND: Ends a transaction and takes part in the group's commit (R375). -/
  | xend (f : Op3)
  /-- XABORT: Aborts the lane's transaction with a code (R372). -/
  | xabort (f : Op3)
  /-- XSTAT: Writes the lane's transaction status word (R371). -/
  | xstat (f : Op3)
  /-- MMA: Queues a multiply of an A tile by a resident weight block into an accumulator tile (R299). -/
  | mma (f : MatF)
  /-- MMA_N2: Queues an N-paired multiply on a core pair against a pair residency (R299). -/
  | mmaN2 (f : MatF)
  /-- MMA_K2: Queues a K-paired multiply summing both halves into the leader's tile (R299). -/
  | mmaK2 (f : MatF)
  /-- MMT: Queues a multiply of an A tile by a B tile map (R299). -/
  | mmt (f : MatF)
  /-- MMT_N2: Queues an N-paired tile-by-tile multiply (R299). -/
  | mmtN2 (f : MatF)
  /-- MMT_K2: Queues a K-paired tile-by-tile multiply (R299). -/
  | mmtK2 (f : MatF)
  /-- MZERO: Queues the zeroing of an accumulator tile (R300). -/
  | mzero (f : MatF)
  /-- MLD: Queues a load of a tile map into an accumulator tile (R301). -/
  | mld (f : MatF)
  /-- MST: Queues a store of an accumulator tile to a tile map (R301). -/
  | mst (f : MatF)
  /-- MROW: Queues a read of one accumulator row into window registers (R302). -/
  | mrow (f : MatF)
  /-- MWAIT: Waits for the group's own matrix operations and ends its pair binding (R305). -/
  | mwait (f : MatF)
  /-- TMSET: Checks and writes a tile map from four scalars (R293). -/
  | tmset (f : MatF)
  /-- TMGET: Copies a tile map into four scalars (R293). -/
  | tmget (f : MatF)
  /-- RALLOC: Allocates a weight residency, reclaiming unpinned ones if needed, and returns a handle (R319). -/
  | ralloc (f : ResF)
  /-- RLOAD_MAP: Loads one residency block from a scratchpad tile map (R321). -/
  | rloadMap (f : ResF)
  /-- RLOAD_GLOBAL: Loads one residency block from global memory, optionally watching the source (R321). -/
  | rloadGlobal (f : ResF)
  /-- RPIN: Pins a residency so that it is never reclaimed (R328). -/
  | rpin (f : ResF)
  /-- RUNPIN: Unpins a residency (R328). -/
  | runpin (f : ResF)
  /-- RREV: Revokes a residency, freeing and zeroing its slots (R328). -/
  | rrev (f : ResF)
  /-- RSTAT: Writes a residency's state word and stale mask (R329). -/
  | rstat (f : ResF)
  /-- RQUOTA: Reads or sets a function's weight-slot quota (R330). -/
  | rquota (f : ResF)
  /-- CPY: Submits a job card to the copy engines and returns a promise (R268). -/
  | cpy (f : Op3)
  /-- SLEEPU: Puts the group to sleep until a context-clock time (R279). -/
  | sleepu (f : Op3)
  /-- SLEEPU_CHK: Sleeps until a time and then checks that a job is complete (R280). -/
  | sleepuChk (f : Op3)
  /-- BARX: Posts an expected byte count to a core barrier object (R283). -/
  | barx (f : Op3)
  /-- BAR: Arrives at a core barrier object in scratchpad (R360). -/
  | bar (f : Op3)
  /-- BARC: Arrives at a counted team slot of the barrier unit (R362). -/
  | barc (f : Op3)
  /-- BART: Arrives at the whole-team barrier slot (R362). -/
  | bart (f : Op3)
  /-- BARG: Arrives at the grid slot of a co-resident grid (R362). -/
  | barg (f : Op3)
  /-- NOP: Advances the counters of active by one (R154). -/
  | nop (f : Op3)
  /-- BRA: Sets each guarded lane's counter to the target (R152). -/
  | bra (f : Op3)
  /-- BRX: Branches each guarded lane to a register value plus offset (R152). -/
  | brx (f : Op3)
  /-- CALL: Calls a target, moving the window and spilling the oldest frame if needed (R157). -/
  | call (f : Op3)
  /-- CALLX: Calls an indirect target from a register (R157). -/
  | callx (f : Op3)
  /-- RET: Returns to the caller's link, filling a frame if needed (R158). -/
  | ret (f : Op3)
  /-- JOPEN: Pushes a join entry naming its join (R170). -/
  | jopen (f : Op3)
  /-- JOIN: Records lanes as waiting at their join entry (R171). -/
  | join (f : Op3)
  /-- EJECT: Removes selected threads from the group as continuations (R174). -/
  | eject (f : Op3)
  /-- REJOIN: Returns continuation threads to their home lanes (R176). -/
  | rejoin (f : Op3)
  /-- ENROL: Sets lanes' bits in a rejoin mask (R178). -/
  | enrol (f : Op3)
  /-- BWAITM: Waits at a rejoin mask until all its lanes arrive (R178). -/
  | bwaitm (f : Op3)
  /-- BSZ: Branches the group when a scalar is zero (R153). -/
  | bsz (f : Op3)
  /-- BSNZ: Branches the group when a scalar is not zero (R153). -/
  | bsnz (f : Op3)
  /-- LOOP: Decrements a scalar and branches while it is not zero (R153). -/
  | loop (f : Op3)
  /-- EXIT: Ends every guarded lane's thread (R177). -/
  | exit (f : Op3)
  /-- LAUNCH: Submits a child launch packet from scratchpad to the device queue (R76). -/
  | launch (f : Op3)
  /-- FENCE: Lends acquire or release ordering to a neighbouring strong access (R367). -/
  | fence (f : Op3)
  /-- REGROUP: Arrives at a rendezvous that re-packs the domain's threads by key (R379). -/
  | regroup (f : Op3)
  /-- REGROUP_HOME: Arrives at a rendezvous that returns threads to their home lanes (R385). -/
  | regroupHome (f : Op3)
  /-- CQSTAT: Writes a snapshot of the team's continuations on the core (R389). -/
  | cqstat (f : Op3)
  /-- TRAP: Raises class 21 with a code in every guarded lane (R402). -/
  | trap (f : Op3)
  /-- TRET: Ends a handler lane, optionally skipping the trapping instruction (R403). -/
  | tret (f : Op3)
  /-- YIELDL: Offers a save point with a liveness hint while a pre-emption is pending (R409). -/
  | yieldl (f : Op3)
  /-- MRS: Reads a special register (R404). -/
  | mrs (f : Op3)
  /-- MSR: Writes or clears bits of a special register (R405). -/
  | msr (f : Op3)
  /-- BKPT: Raises class 19 with a code (R427). -/
  | bkpt (f : Op3)
  /-- WPT: Sets the thread's watchpoint (R427). -/
  | wpt (f : Op3)
  /-- PCNT: Reads the team's top-down or L2 counter on the core (R425). -/
  | pcnt (f : Op3)
  /-- TRC: Writes a software trace record (R425). -/
  | trc (f : Op3)
  /-- HALT: Halts the issuing context (R406). -/
  | halt (f : Op3)
  /-- TLBINV: Runs a TLB shoot-down for the issuing context and waits for it (R407). -/
  | tlbinv (f : Op3)
  /-- TRAP_ENTRY_POP: When every parked lane has returned or exited, the trap entry pops and lanes resume (R399). -/
  | trapEntryPop (gk : Nat)
  /-- JOIN_COMPLETION: A top join entry with all lanes arrived and no ejected threads pops and releases them (R172). -/
  | joinCompletion (gk : Nat)
  /-- BWAITM_RELEASE: All lanes of a rejoin mask are waiting or exited and are released together (R178). -/
  | bwaitmRelease (gk n : Nat)
  /-- CONTINUATION_GROUP_FORM: Swarm packs a class of continuations into a continuation group in an available slot (R388). -/
  | continuationGroupForm (core : Nat)
  /-- REGROUP_COMPLETION: Every group of the domain has arrived and the rendezvous completes (R380). -/
  | regroupCompletion (team core : Nat)
  /-- REGROUP_TIMEOUT: The regroup timer reaches sr.rgtmo and the rendezvous completes with the groups present (R381). -/
  | regroupTimeout (team core : Nat)
  /-- RELOCATION_END: Swarm's relocation ends and the arrived threads advance (R386). -/
  | relocationEnd (team core : Nat)
  /-- SLOT_ARBITRATION: A free issue slot chooses the greedy or oldest ready group for a run (R142). -/
  | slotArbitration (core slot : Nat)
  /-- LL_WINDOW_END: At the end of a 1,024-clock window the load-issue cap is adjusted (R145). -/
  | llWindowEnd (core : Nat)
  /-- SLEW_WINDOW_END: A 64-clock window ends and the matrix issue allowance is recomputed (R308). -/
  | slewWindowEnd (core : Nat)
  /-- SLEEPU_WAKE: The context clock reaches the sleep time and the group becomes ready (R279). -/
  | sleepuWake (gk : Nat)
  /-- SLEEPU_CHK_WAKE: The sleep time is reached and the named job is checked, acquiring or trapping with class 15 (R280). -/
  | sleepuChkWake (gk : Nat)
  /-- LOAD_DATA_RETURN: Data of a long-latency load returns and its destination is written (R260). -/
  | loadDataReturn (id : Nat)
  /-- STORE_PERFORM: A store is performed at its home with byte masks (R237). -/
  | storePerform (id : Nat)
  /-- ATOMIC_PERFORM: An atomic is performed in one step at its Scarab engine or atomic unit (R369). -/
  | atomicPerform (id : Nat)
  /-- RELEASE_MARKER_MET: A held release takes its place in the home order once the core's performed count reaches its marker (R352). -/
  | releaseMarkerMet (id : Nat)
  /-- SPILL_FILL_COMPLETE: A window spill write or fill read is performed and the lane may issue again (R165). -/
  | spillFillComplete (id : Nat)
  /-- PAGE_WALK_COMPLETE: A walker finishes a page-table walk and fills the TLBs or reports a fault (R247). -/
  | pageWalkComplete (id : Nat)
  /-- TRANSACTION_COMMIT: The group's surviving transaction lanes lock their lines, validate and commit (R375). -/
  | transactionCommit (gk : Nat)
  /-- TRANSACTION_TIMEOUT: A transaction reaching 65,536 context clocks aborts with cause 0x0A (R374). -/
  | transactionTimeout (gk lane : Nat)
  /-- TOKEN_GRANT: A locality's serial token is granted to the next requesting lane (R377). -/
  | tokenGrant (d : Nat)
  /-- COPY_JOB_DELIVERY: An engine performs job bytes at their destination and counts them on the barrier (R285). -/
  | copyJobDelivery (job elements : Nat)
  /-- COPY_JOB_FINISH: A job applies its barrier updates, writes its record and frees its footprint entry (R272). -/
  | copyJobFinish (job : Nat)
  /-- PAGE_MIGRATION: A migration job copies its pages and remaps their leaves (R255). -/
  | pageMigration (job : Nat)
  /-- COMPLETION_RECORD_WRITE: A record held on a full ring is written once room appears (R53). -/
  | completionRecordWrite (id : Nat)
  /-- CORE_BARRIER_PHASE_COMPLETE: At the end of a clock a core barrier object completes its phase (R287). -/
  | coreBarrierPhaseComplete (core off : Nat)
  /-- BARRIER_SLOT_COMPLETE: A barrier-unit slot reaches its expected arrivals and releases its waiters (R363). -/
  | barrierSlotComplete (unit slot : Nat)
  /-- MATRIX_OP_EXECUTE: The operation at the head of the matrix queue executes (R299). -/
  | matrixOpExecute (core : Nat)
  /-- MATRIX_OP_RETIRE: A queued matrix operation retires and frees its footprint entry (R307). -/
  | matrixOpRetire (core : Nat)
  /-- RESIDENCY_REFILL: An absent residency is refilled from its recorded sources (R333). -/
  | residencyRefill (core res : Nat)
  /-- RLOAD_FILL_COMPLETE: An rload's block fill ends and its status is written (R322). -/
  | rloadFillComplete (core fill : Nat)
  /-- MWAIT_COMPLETE: The group's earlier matrix operations have retired and mwait completes (R305). -/
  | mwaitComplete (gk : Nat)
  /-- PACKET_FETCH: A queue's fetch context reads the next launch packet and validates it (R63). -/
  | packetFetch (qk : Nat)
  /-- WAIT_CONDITION_CHECK: The device re-reads a grid's wait condition until it is met (R46). -/
  | waitConditionCheck (grid : Nat)
  /-- GRID_RELEASE: A grid with met conditions is released to the dispatchers in queue order (R64). -/
  | gridRelease (grid : Nat)
  /-- DEVICE_QUEUE_ENQUEUE: A launch waiting for room enqueues its packet and writes its status (R76). -/
  | deviceQueueEnqueue (gk : Nat)
  /-- TEAM_CLAIM: A locality dispatcher claims a batch of up to eight teams from the team counter (R80). -/
  | teamClaim (d grid : Nat)
  /-- TEAM_PLACEMENT: A dispatcher places a team on cores, with back-fill, all or nothing (R88). -/
  | teamPlacement (d : Nat)
  /-- CORESIDENT_PLACEMENT: The global dispatcher places a whole co-resident grid in one step (R99). -/
  | coresidentPlacement (grid : Nat)
  /-- TEAM_START: After zeroing and the acquire, a placed team's groups enter arbitration together (R92). -/
  | teamStart (team : Nat)
  /-- AGEING_LIMIT_REACHED: The head's wait timer reaches AGELIM and only the head may start (R97). -/
  | ageingLimitReached (d : Nat)
  /-- SLICE_EXPIRY: A slice expires and the next function takes it, pre-empting if needed (R74). -/
  | sliceExpiry
  /-- PREEMPT_GRACE_EXPIRY: The grace period runs out and the group is saved in full (R408). -/
  | preemptGraceExpiry (team : Nat)
  /-- GROUP_SAVE: A group stops for pre-emption at yieldl or a wait point (R408). -/
  | groupSave (gk : Nat)
  /-- TEAM_SAVE: After drains, the save engine writes a team's record and frees its resources (R410). -/
  | teamSave (team : Nat)
  /-- TEAM_RESUME: A saved team's state is written back and its groups resume (R414). -/
  | teamResume (team : Nat)
  /-- TEAM_RETIRE: A finished team retires, revokes residencies, frees resources and writes its record (R418). -/
  | teamRetire (team : Nat)
  /-- GRID_RETIRE: A grid whose teams and children have ended writes its grid record (R419). -/
  | gridRetire (grid : Nat)
  /-- QTAIL_WRITE: Software writes QTAIL, covering new packets or setting OVR (R61). -/
  | qtailWrite (qk : Nat) (v : Word)
  /-- QUEUE_ENABLE: Setting QCTL EN sets QHEAD to QTAIL and clears the error bits (R61). -/
  | queueEnable (qk : Nat) (v : Word)
  /-- QUEUE_DISABLE: Clearing QCTL EN stops fetch after the packet being read (R61). -/
  | queueDisable (qk : Nat) (v : Word)
  /-- QSTAT_FLT_CLEAR: Writing 1 to FLT makes the queue read the faulted packet again (R65). -/
  | qstatFltClear (qk : Nat)
  /-- QSTAT_OVR_CLEAR: Writing 1 to OVR clears it, or it is set again if the ring still overflows (R61). -/
  | qstatOvrClear (qk : Nat)
  /-- MBIN_WRITE: A host write to MBIN raises the mailbox event at the firmware core (R57). -/
  | mbinWrite (fn : Nat) (v : Word)
  /-- MBOUT_POST: Firmware posts a mailbox reply, raising MSI-X vector 0 (R57). -/
  | mboutPost (fn : Nat)
  /-- HOST_WINDOW_WRITE: A host write through BAR4 is translated and performed at system scope or dropped (R489). -/
  | hostWindowWrite (fn off : Nat) (data : List (Option Byte))
  /-- HOST_WINDOW_READ: A host read through BAR4 is translated and returned or completed with Completer Abort (R489). -/
  | hostWindowRead (fn off n : Nat)
  /-- FUNCTION_LEVEL_RESET: A Function Level Reset stops, aborts and restarts a function's contexts and firmware (R59). -/
  | functionLevelReset (fn : Nat)
  /-- CONTEXT_DISABLE: Clearing CCTL EN aborts every unended grid of the context (R72). -/
  | contextDisable (ck : Nat)
  /-- EVENT_RING_ENABLE: Setting ERCTL EN sets ERRIDX to ERWIDX (R70). -/
  | eventRingEnable (fn : Nat) (v : Word)
  /-- ERSTAT_WRITE: A write to ERSTAT sets LOST to zero (R70). -/
  | erstatWrite (fn : Nat)
  /-- EVENT_RING_DRAIN: Held event records move into the ring as room appears (R70). -/
  | eventRingDrain (fn : Nat)
  /-- SHOOT_DOWN_START: Writing SDCTL GO starts a shoot-down for the context's range (R249). -/
  | shootDownStart (ck : Nat) (v : Word)
  /-- SHOOT_DOWN_COMPLETE: Accesses through removed entries are performed and the shoot-down completes (R250). -/
  | shootDownComplete (ck : Nat)
  /-- OVCHK_WRITE: Setting or clearing OVCHK EN starts or discards overlap records (R348). -/
  | ovchkWrite (ck : Nat) (v : Word)
  /-- LMAP_WRITE: A link-map write takes effect, leaving EN clear when LO exceeds HI (R465). -/
  | lmapWrite (ck i : Nat) (v : DWord)
  /-- XS_GRANT_WRITE: A chip-scratchpad grant write is stored or discarded when it exceeds 256 units (R231). -/
  | xsGrantWrite (ck d : Nat) (v : Word)
  /-- CHALT_HALT: Setting CHALT HALT stops new issues and placements of the context (R432). -/
  | chaltHalt (ck : Nat)
  /-- CHALT_RELEASE: Clearing CHALT HALT releases the context and its clocks (R432). -/
  | chaltRelease (ck : Nat)
  /-- CHALT_DUMP: A dump request writes full-save records of a stopped context's teams (R433). -/
  | chaltDump (ck : Nat)
  /-- CONTEXT_STOPPED: Work of a halted context drains and STOPPED is set (R432). -/
  | contextStopped (ck : Nat)
  /-- DIE_RESET: DIECTL RST resets a die, destroying its state and starting self-test (R469). -/
  | dieReset (p : Nat)
  /-- DIE_FENCE: DIECTL FENCE holds a die fenced, destroying its state (R469). -/
  | dieFence (p : Nat)
  /-- DIE_FENCE_RELEASE: Writing FENCE 0 releases a fenced die into reset (R468). -/
  | dieFenceRelease (p : Nat)
  /-- DIE_DROP: DIECTL DROP fences a die and keeps it out until the next lease or cold reset (R469). -/
  | dieDrop (p : Nat)
  /-- DIE_FATAL_ERROR: A fatal error in a die fences it and writes a KIND 0x18 event (R469). -/
  | dieFatalError (p : Nat)
  /-- DIE_SELF_TEST_END: A reset die's self-test ends, returning it to running or fencing it (R469). -/
  | dieSelfTestEnd (p : Nat) (pass : Bool)
  /-- BASE_FATAL_ERROR: A fatal error in the base stops every context (R32). -/
  | baseFatalError
  /-- CELL_RECEIVE: A cell arrives and is accepted or discarded with a negative acknowledgement (R462). -/
  | cellReceive (port : Nat) (cell : List Byte)
  /-- CELL_NAK_RECEIVE: A negative acknowledgement makes the sender resend every cell after ASEQ (R462). -/
  | cellNakReceive (port : Nat) (aseq : BitVec 12)
  /-- LINK_RETRAIN: A link retrains on working lanes or goes down (R463). -/
  | linkRetrain (link lanes : Nat)
  /-- DIE_PORT_DOWN: A failing die port goes down and other ports carry its traffic (R463). -/
  | diePortDown (p port : Nat)
  /-- REMOTE_ACCESS_RECEIVE: A peer receives a remote access, checks its link map and performs it (R466). -/
  | remoteAccessReceive (peer : Nat) (r : RemoteReq)
  /-- DOP_WRITE: A write to DOP changes a die's operating point and relocks its clock (R484). -/
  | dopWrite (p : Nat) (v : Word)
  /-- CLOCK_RELOCK_COMPLETE: The die's clock relocks and its cores resume (R484). -/
  | clockRelockComplete (p : Nat)
  /-- PASS_WRITE: A write to PASS requests a pass count, discarding the reserved code (R483). -/
  | passWrite (k : Nat) (v : Word)
  /-- SWAL_WRITE: A write to SWAL sets a swallow pattern, discarding one with more than 12 bits (R483). -/
  | swalWrite (k : Nat) (v : Word)
  /-- SLEW_WRITE: A write to SLEW sets STEP, clamped to STEPMAX (R483). -/
  | slewWrite (k : Nat) (v : Word)
  /-- POWER_CAP_CONTROL: The controller throttles a die or the module to hold ICAP and PCAP over 1 ms (R485). -/
  | powerCapControl (k : Nat) (pass : Nat) (bits : BitVec 16)
  /-- THERMAL_THRESHOLD: A die's temperature crosses a threshold and throttling is applied or removed (R486). -/
  | thermalThreshold (p : Nat) (temp : Nat)
  /-- LEAK_DETECTED: The leak ring pulls LEAK_N low and every cluster is throttled (R488). -/
  | leakDetected
  /-- LEAK_CLEARED: The leak clears and the leak throttling is removed (R488). -/
  | leakCleared
  /-- MAIN_EN_HIGH: The platform drives MAIN_EN high and the module may draw full power (R487). -/
  | mainEnHigh
  /-- RAILS_IN_REGULATION: Every internal rail is in regulation, MAIN_OK rises and the boot stage starts (R487). -/
  | railsInRegulation
  /-- MAIN_INPUT_DROPOUT: The main input falls below 42 V for 100 µs and the compute-die rails drop (R487). -/
  | mainInputDropout
  /-- COLD_RESET: A cold reset starts the boot stage from mask ROM (R474). -/
  | coldReset
  /-- LEASE_N_ASSERT: Holding LEASE_N low for 1 µs asserts a lease reset (R477). -/
  | leaseNAssert
  /-- BCTL_LRST: Writing BCTL LRST asserts a lease reset (R475). -/
  | bctlLrst
  /-- BCTL_GO: Writing BCTL GO in state 0x3 starts reading and measuring the image (R476). -/
  | bctlGo
  /-- BOOT_SELF_TEST_COMPLETE: Self-test measures the unit map and numbers logical dies (R474). -/
  | bootSelfTestComplete (map : UnitMap)
  /-- SCRUB_COMPLETE: The scrub zeroes every storage element, signs a record and locks limits (R478). -/
  | scrubComplete
  /-- IMAGE_MEASURED: The image read ends, is checked, a record is signed and firmware starts or STATE fails (R480). -/
  | imageMeasured (image : Option (List Byte))
  /-- SMBUS_LEASE_RESET: SMBus command 0x01 asserts a lease reset (R482). -/
  | smbusLeaseReset
  /-- SMBUS_WRITE_LIMITS: SMBus command 0x02 writes the pending limits (R482). -/
  | smbusWriteLimits (bytes : List Byte)
  /-- SMBUS_READ_RECORD: SMBus command 0x03 reads the latest signed record (R482). -/
  | smbusReadRecord
  /-- SMBUS_READ_LIMITS: SMBus command 0x04 reads the locked and pending limits (R482). -/
  | smbusReadLimits
  /-- SMBUS_READ_COOLANT: SMBus command 0x05 reads the coolant sensors (R488). -/
  | smbusReadCoolant
  /-- REGISTER_WRITE: A write to a register with no row of its own stores the value or is discarded (R69). -/
  | registerWrite (space : RegSpace) (off : Nat) (v : DWord)
  /-- INSTRUCTION_FETCH: A fetch of a block's instruction-cache lines completes, making the words present or recording a translation fault or uncorrectable data against the instructions in the failed line (R102). -/
  | instructionFetch (gk : Nat)
  /-- ISSUE_SLOT_CHARGE: In every master clock, swallowed pulses included, each core charges each of its two issue slots to one top-down leaf (R421). -/
  | issueSlotCharge
  /-- LINK_TRAINING: A package link or die port trains and its receivers advertise their channel buffers, for example when a peer that was down or in lease reset comes back (R461). -/
  | linkTraining (link lanes : Nat)
  /-- VF_ENABLE: The physical function enables its sixteen virtual functions in one block through the SR-IOV capability (R8). -/
  | vfEnable
deriving DecidableEq, Repr

end Sys2Proof
end

