-- ==== Sys2Proof/Decode.lean ====
section
/-! DEFINITION. The instruction word (05_encoding R104 to R111), the checks of R118 in their order, the decoder, total on
any bytes, and after it the encoder. A word that fails is rejected by the name of the failing check. -/

namespace Sys2Proof

/-- The type code of F (05_encoding R109). -/
def Ty.code : Ty → Nat
  | .none => 0x00 | .i8 => 0x01 | .i16 => 0x02 | .i32 => 0x03 | .i64 => 0x04 | .n8 => 0x05 | .n16 => 0x06
  | .n32 => 0x07 | .n64 => 0x08 | .b8 => 0x09 | .b16 => 0x0A | .b32 => 0x0B | .b64 => 0x0C | .b128 => 0x0D
  | .f16 => 0x10 | .bf16 => 0x11 | .f32 => 0x12 | .f64 => 0x13 | .e4m3 => 0x14 | .e5m2 => 0x15 | .e3m2 => 0x16
  | .e2m3 => 0x17 | .e2m1 => 0x18 | .e8m0 => 0x19 | .mx8 => 0x1A | .mx6 => 0x1B | .mx4 => 0x1C

/-- Every type, in the order of the codes. -/
def Ty.all : List Ty :=
  [.none, .i8, .i16, .i32, .i64, .n8, .n16, .n32, .n64, .b8, .b16, .b32, .b64, .b128, .f16, .bf16, .f32, .f64, .e4m3,
   .e5m2, .e3m2, .e2m3, .e2m1, .e8m0, .mx8, .mx6, .mx4]

/-- The type of a code; a reserved code has none (R109). -/
def Ty.ofCode? (n : Nat) : Option Ty := Ty.all.find? fun t => t.code = n

/-- The type of a code that the checks have accepted. -/
def Ty.ofCode (n : Nat) : Ty := (Ty.ofCode? n).getD .none

/-- Registers that an operand of a type occupies (R106). -/
def Ty.regs : Ty → Nat
  | .i64 | .n64 | .b64 | .f64 => 2
  | .b128 => 4
  | _ => 1

/-- The code of a rounding mode (09 R200). -/
def Rm.code : Rm → Nat
  | .rn => 0 | .rz => 1 | .ru => 2 | .rd => 3 | .rs => 4

/-- The rounding mode of a code (09 R200). -/
def Rm.ofCode : Nat → Rm
  | 1 => .rz | 2 => .ru | 3 => .rd | 4 => .rs | _ => .rn

/-- The code of a space (05 R110). -/
def Space.code : Space → Nat
  | .gl => 0 | .sp => 1 | .ks => 2 | .xs => 3 | .ln => 4

/-- The space of a code (05 R110). -/
def Space.ofCode : Nat → Space
  | 1 => .sp | 2 => .ks | 3 => .xs | 4 => .ln | _ => .gl

/-- The code of an access size (05 R110). -/
def Size.code : Size → Nat
  | .s8 => 0 | .s16 => 1 | .s32 => 2 | .s64 => 3 | .s128 => 4 | .i8 => 5 | .i16 => 6

/-- The access size of a code (05 R110). -/
def Size.ofCode : Nat → Size
  | 1 => .s16 | 2 => .s32 | 3 => .s64 | 4 => .s128 | 5 => .i8 | 6 => .i16 | _ => .s8

/-- Bytes of an access (R110). -/
def Size.bytes : Size → Nat
  | .s8 | .i8 => 1 | .s16 | .i16 => 2 | .s32 => 4 | .s64 => 8 | .s128 => 16

/-- Registers of a data operand of a size (R106). -/
def Size.regs : Size → Nat
  | .s64 => 2 | .s128 => 4 | _ => 1

/-- The code of an ordering (05 R111). -/
def Ord.code : Ord → Nat
  | .plain => 0 | .rlx => 1 | .acq => 2 | .rel => 3 | .ar => 4 | .rp => 5

/-- The ordering of a code (05 R111). -/
def Ord.ofCode : Nat → Ord
  | 1 => .rlx | 2 => .acq | 3 => .rel | 4 => .ar | 5 => .rp | _ => .plain

/-- The code of a scope (05 R111). -/
def Scope.code : Scope → Nat
  | .none => 0 | .group => 1 | .core => 2 | .cluster => 3 | .die => 4 | .device => 5 | .system => 6

/-- The scope of a code (05 R111). -/
def Scope.ofCode : Nat → Scope
  | 1 => .group | 2 => .core | 3 => .cluster | 4 => .die | 5 => .device | 6 => .system | _ => .none

/-- The code of an element class of an atomic (05 R111). -/
def Ecl.code : Ecl → Nat
  | .natural => 0 | .signed => 1 | .float => 2

/-- The element class of a code (05 R111). -/
def Ecl.ofCode : Nat → Ecl
  | 1 => .signed | 2 => .float | _ => .natural

/-- The 12 bits of an operand field (R105). -/
def Operand.bits : Operand → BitVec 12
  | .win i => BitVec.ofNat 12 (0x000 + i)
  | .scal i => BitVec.ofNat 12 (0x200 + i)
  | .pred i => BitVec.ofNat 12 (0x400 + i)
  | .tmap i => BitVec.ofNat 12 (0x600 + i)
  | .acc i => BitVec.ofNat 12 (0x800 + i)
  | .special i => BitVec.ofNat 12 (0xA00 + i)
  | .imm _ => 0xC00#12
  | .zero => 0xE00#12

/-- The kind of an operand field (R105). -/
def kindOf (v : BitVec 12) : Nat := v.toNat / 512

/-- The index of an operand field (R105). -/
def indexOf (v : BitVec 12) : Nat := v.toNat % 512

/-- The operand that a field names, with the value of IMM for an immediate (R105, R107). -/
def Operand.ofBits (v : BitVec 12) (imm : Word) : Operand :=
  match kindOf v with
  | 0 => .win (indexOf v)
  | 1 => .scal (indexOf v)
  | 2 => .pred (indexOf v)
  | 3 => .tmap (indexOf v)
  | 4 => .acc (indexOf v)
  | 5 => .special (indexOf v)
  | 6 => .imm imm
  | _ => .zero

/-- The operand is the immediate (05 R105). -/
def Operand.isImm : Operand → Bool
  | .imm _ => true
  | _ => false

/-- The fields of a word, each at its own width (R104). -/
structure Raw where
  u : BitVec 2
  op : BitVec 8
  f : BitVec 6
  gn : BitVec 1
  gp : BitVec 3
  d : BitVec 12
  a : BitVec 12
  b : BitVec 12
  imm : BitVec 32
  e : BitVec 1
  rd : BitVec 3
  hv : BitVec 1
  hd : BitVec 3
deriving DecidableEq, Repr

/-- The word that the fields make (R104). -/
def Raw.word (r : Raw) : InsnWord :=
  r.u ++ r.op ++ r.f ++ r.gn ++ r.gp ++ r.d ++ r.a ++ r.b ++ r.imm ++ r.e ++ r.rd ++ r.hv ++ r.hd

/-- The fields of a word (R104). -/
def Raw.ofWord (w : InsnWord) : Raw where
  u := w.extractLsb' 94 2
  op := w.extractLsb' 86 8
  f := w.extractLsb' 80 6
  gn := w.extractLsb' 79 1
  gp := w.extractLsb' 76 3
  d := w.extractLsb' 64 12
  a := w.extractLsb' 52 12
  b := w.extractLsb' 40 12
  imm := w.extractLsb' 8 32
  e := w.extractLsb' 7 1
  rd := w.extractLsb' 4 3
  hv := w.extractLsb' 3 1
  hd := w.extractLsb' 0 3

/-- The unit class and the opcode as one number. -/
def Raw.key (r : Raw) : Nat := r.u.toNat * 256 + r.op.toNat

/-- One of the three operand fields holds an immediate (R107). -/
def Raw.hasImm (r : Raw) : Bool := kindOf r.d = 6 || kindOf r.a = 6 || kindOf r.b = 6

/-- Bits of IMM. -/
def Raw.immBits (r : Raw) (lo n : Nat) : Nat := r.imm.toNat / 2 ^ lo % 2 ^ n

/-- The failing check of R118, steps 2 to 8; step 1 is fetch. -/
inductive Reject where
  /-- Step 2: U and OP name no assigned opcode; class 0. -/
  | unassigned
  /-- Step 3: GN = 1 with GP = 0; class 1. -/
  | guardReserved
  /-- Step 4: a form that the opcode does not accept; class 1. -/
  | form
  /-- Step 5: an operand field (1 D, 2 A, 3 B); class 1. -/
  | operand (field : Nat)
  /-- Step 6: IMM modifiers or unused IMM bits; class 1. -/
  | modifiers
  /-- Step 7: RD, HV or HD; class 1. -/
  | hints
  /-- Step 8: a privileged opcode in an unprivileged context; class 2. -/
  | privilege
  /-- Fewer than the twelve bytes of a word (R100). -/
  | short
deriving DecidableEq, Repr

/-- The step of R118 that fails. -/
def Reject.step : Reject → Nat
  | .unassigned => 2 | .guardReserved => 3 | .form => 4 | .operand _ => 5 | .modifiers => 6 | .hints => 7
  | .privilege => 8 | .short => 1

/-- The trap class of a failing step (R118). -/
def Reject.cls : Reject → Nat
  | .unassigned => 0 | .privilege => 2 | .short => 3 | _ => 1

/-- Detail byte 13 (R120). DEDUCED (log 10). -/
def Reject.field : Reject → Nat
  | .operand f => f | _ => 0

/-! ## The special-register map -/

/-- Access to a special register (R116). -/
inductive SrAccess where
  | ro | rw | w1c
deriving DecidableEq, Repr

/-- Width in registers and access of an assigned special register (R116). -/
def srInfo : Nat → Option (Nat × SrAccess)
  | 0x010 => some (2, .ro) | 0x011 => some (2, .ro) | 0x012 => some (1, .rw) | 0x013 => some (2, .rw)
  | 0x014 => some (2, .rw) | 0x017 => some (1, .rw) | 0x019 => some (1, .w1c) | 0x01A => some (1, .w1c)
  | 0x01B => some (1, .rw)
  | n => if n ≤ 0x024 then some (1, .ro) else none

/-! ## What each opcode accepts -/

/-- The integer types (05 R109). -/
def tyI : List Nat := [1, 2, 3, 4, 5, 6, 7, 8]
/-- The untyped widths (05 R109). -/
def tyB : List Nat := [9, 10, 11, 12]
/-- The four arithmetic formats (05 R109). -/
def tyF : List Nat := [0x10, 0x11, 0x12, 0x13]
/-- The 16-bit formats (05 R109). -/
def tyH : List Nat := [0x10, 0x11, 0x12]

/-- Types of the shared arithmetic opcodes (09_compute R204, R216, R218 check 1). -/
def arithTypes (op : Nat) : List Nat :=
  if op = 0x01 then [0x0B, 0x0C, 0x0D]
  else if op ≤ 0x04 then tyI ++ tyF
  else if op ≤ 0x07 then tyI
  else if op = 0x08 then tyI ++ tyF
  else if op = 0x09 then tyI
  else if op ≤ 0x0D then tyI ++ tyF
  else if op ≤ 0x0F then tyI
  else if op ≤ 0x17 then tyB ++ tyI
  else if op = 0x18 then [3, 4, 7, 8]
  else if op = 0x19 then [0x0B, 0x0C]
  else if op ≤ 0x1D then tyB ++ tyI
  else if op = 0x1E then [0x0A, 0x0B, 0x0C]
  else if op = 0x1F then [3, 7]
  else if op = 0x20 then tyF
  else if op ≤ 0x22 then tyH
  else if op = 0x23 then tyF
  else if op ≤ 0x28 then tyH
  else if op ≤ 0x2C then tyF
  else if op = 0x2D then [0x10, 0x11, 2, 6]
  else if op ≤ 0x31 then tyI ++ tyB ++ tyF
  else if op ≤ 0x35 then tyI ++ tyF
  else if op ≤ 0x37 then tyF
  else if op = 0x38 then [0x0B, 0x0C]
  else if op = 0x40 then tyI ++ tyF ++ [0x14, 0x15, 0x16, 0x17, 0x18, 0x19]
  else if op = 0x41 then [0x0A, 0x16, 0x17]
  else if op = 0x42 then [0x16, 0x17]
  else []

/-- Opcodes of shape 1, with no B operand (09_compute R204). -/
def shapeOne (op : Nat) : Bool :=
  op ∈ [0x01, 0x0C, 0x0D, 0x13, 0x1A, 0x1B, 0x1C, 0x1D, 0x1E, 0x21, 0x22, 0x23, 0x24, 0x25, 0x26, 0x27, 0x28, 0x29, 0x2A, 0x42]

/-- Opcodes with a C operand (R200). -/
def usesC (op : Nat) : Bool := op ∈ [0x06, 0x07, 0x19, 0x20, 0x2D, 0x38]

/-- Opcodes that accept no immediate operand: a C operand, a shift or element number, a second type (R200). -/
def noImmediate (op : Nat) : Bool := usesC op || op ∈ [0x1F, 0x40]

/-- Opcodes with a rounding variant under a floating-point type (R204). -/
def rounds (op : Nat) : Bool :=
  op ∈ [0x02, 0x03, 0x04, 0x08, 0x20, 0x21, 0x22, 0x23, 0x24, 0x25, 0x26, 0x27, 0x28, 0x29, 0x2C, 0x2D]

/-- Registers that each field of a shared opcode occupies: D, A and B (R199 and the descriptions it points to). A conversion
whose source type only step 6 rejects has A of that type's width. DEDUCED (log 70). -/
def arithRegs (op f s : Nat) (field : Nat) : Nat :=
  let w := (Ty.ofCode f).regs
  if op = 0x1F then (if field = 3 then 1 else 2)
  else if op = 0x40 then (if field = 1 then w else if field = 2 then (Ty.ofCode s).regs else 2)
  else if op = 0x41 ∨ op = 0x42 then (if f = 0x0A then 1 else 4)
  else if op = 0x2D then 1
  else if field = 1 ∧ (op = 0x2A ∨ (0x30 ≤ op ∧ op ≤ 0x37)) then 1
  else if field = 3 ∧ op ∈ [0x18, 0x19, 0x2C] then 1
  else w

/-- Kinds and register counts that a field of a shared opcode accepts (R108, R199 to R220). A comparison accepts the zero as D, as
the bound of its class does. DEDUCED (log 69). -/
def arithAccepts (u op f s rm field : Nat) : List (Nat × Nat) :=
  let w := arithRegs op f s field
  let regs := if u = 0 then [(1, w)] else [(0, w), (1, w)]
  if field = 1 then
    (if u = 0 then [(1, w)] else [(0, w)]) ++ [(7, 0)] ++
      (if u = 1 ∧ ((op = 0x01 ∧ f = 0x0B) ∨ (0x30 ≤ op ∧ op ≤ 0x37)) then [(2, 0)] else [])
  else if field = 2 then
    regs ++ [(7, 0)] ++ (if noImmediate op then [] else [(6, 0)]) ++ (if u = 1 ∧ op = 0x01 ∧ f = 0x0B then [(2, 0)] else [])
  else if shapeOne op ∨ (op = 0x41 ∧ f ≠ 0x0A) then [(7, 0)]
  else if op = 0x40 then (if rm = 4 then regs ++ [(7, 0)] else [(7, 0)])
  else regs ++ [(7, 0)] ++ (if noImmediate op then [] else [(6, 0)])

/-- Kinds and register counts of the lane instructions of class 0b01 (R217, R221 to R225; the widths are those of R199). For
`vshfl`, `vbfly`, `vbcast` and `vmatch` the manual names no kinds of D, A and B: D is a window register, A a window register or a
scalar, and B either of these, an immediate or the zero. DESIGN CHOICE (log 55). -/
def laneAccepts (op f field : Nat) : List (Nat × Nat) :=
  let w := (Ty.ofCode f).regs
  if op ≤ 0x3C then (if field = 3 ∧ op = 0x3C then [(7, 0)] else [(2, 0), (7, 0)])
  else if op = 0x50 then
    (if field = 1 then [(1, w)] else if field = 2 then [(0, w)] else [(1, w), (6, 0), (7, 0)])
  else if op = 0x51 then
    (if field = 1 then [(0, w)] else if field = 2 then [(1, w), (6, 0)] else [(1, w), (6, 0)])
  else if op ≤ 0x54 then
    (if field = 1 then [(0, w)] else if field = 2 then [(0, w), (1, w)] else [(0, w), (1, w), (6, 0), (7, 0)])
  else if op = 0x55 then (if field = 1 then [(0, 1)] else if field = 2 then [(2, 0)] else [(7, 0)])
  else if op = 0x56 then (if field = 1 then [(0, 1)] else if field = 2 then [(0, w), (1, w)] else [(7, 0)])
  else if op ≤ 0x5D then (if field = 1 then [(1, w), (0, w)] else if field = 2 then [(0, w), (1, w)] else [(7, 0)])
  else (if field = 1 then [(0, w)] else if field = 2 then [(0, w), (1, w)] else [(7, 0)])

/-- Kinds and register counts of the memory instructions and atomics (11_memory_ops R258; 15_synchronisation R368). -/
def memAccepts (u op f field : Nat) : List (Nat × Nat) :=
  let base := if f / 8 = 0 then 2 else 1
  let w := (Size.ofCode (f % 8)).regs
  let bases := (if u = 1 then [(0, base)] else []) ++ [(1, base), (7, 0)]
  let datas := if u = 1 then [(0, w), (1, w)] else [(1, w)]
  if op = 0x80 then (if field = 1 then (if u = 1 then [(0, w)] else [(1, w)]) else if field = 2 then bases else [(7, 0)])
  else if op = 0x81 then (if field = 1 then [(0, w)] else if field = 2 then bases else [(2, 0)])
  else if op = 0x82 then (if field = 1 then [(7, 0)] else if field = 2 then bases else datas)
  else if op ≤ 0x84 then (if field = 2 then bases else [(7, 0)])
  else if op = 0x85 then [(7, 0)]
  else if op = 0x86 then (if field = 1 then [(7, 0)] else if field = 2 then [(1, 2)] else [(1, 1)])
  else if field = 1 then (if op ≤ 0x97 then [(0, w), (7, 0)] else [(7, 0)])
  else if field = 2 then bases
  else if op = 0x97 then [(0, 2 * w), (1, 2 * w)]
  else datas

/-- Kinds and register counts of class 0b10 (12_matrix R296; 13_residency R317; 11_memory_ops R268, R279, R280, R283;
15_synchronisation R366). -/
def engineAccepts (op f bKind field : Nat) : List (Nat × Nat) :=
  let mask := [(0, 1), (1, 1), (6, 0), (7, 0)]
  match op, field with
  | 0x00, 1 | 0x01, 1 | 0x02, 1 | 0x03, 1 | 0x04, 1 | 0x05, 1 | 0x06, 1 | 0x07, 1 => [(4, 0)]
  | 0x00, 2 | 0x01, 2 | 0x03, 2 | 0x04, 2 | 0x07, 2 => [(3, 1)]
  | 0x02, 2 | 0x05, 2 => [(3, 2)]
  | 0x00, 3 | 0x01, 3 | 0x02, 3 => [(1, 1)]
  | 0x03, 3 => [(3, 1)]
  | 0x04, 3 | 0x05, 3 => [(3, 2)]
  | 0x08, 1 => [(3, 1)]
  | 0x08, 2 => [(4, 0)]
  | 0x09, 1 => [(0, if f = 0x12 then 2 else 1)]
  | 0x09, 2 => [(4, 0)]
  | 0x09, 3 => [(1, 1), (7, 0)]
  | 0x0B, 1 => [(3, 1)]
  | 0x0B, 2 => [(1, 4)]
  | 0x0C, 1 => [(1, 4)]
  | 0x0C, 2 => [(3, 1)]
  | 0x20, 1 => [(1, 2)]
  | 0x21, 1 => [(1, 1), (7, 0)]
  | 0x21, 2 => [(1, if bKind = 3 then 1 else 2)]
  | 0x21, 3 => [(3, 1), (1, 2)]
  | 0x22, 2 | 0x23, 2 | 0x24, 2 | 0x25, 2 => [(1, 1)]
  | 0x25, 1 => [(1, 2)]
  | 0x26, 1 => [(1, 1), (7, 0)]
  | 0x26, 2 | 0x26, 3 => [(1, 1)]
  | 0x40, 1 => [(1, 2), (7, 0)]
  | 0x40, 2 => [(1, 1)]
  | 0x41, 2 | 0x42, 2 => [(1, 2), (0, 2)]
  | 0x42, 3 => [(1, 1)]
  | 0x43, 2 => [(1, 1)]
  | 0x43, 3 => [(1, 1), (6, 0)]
  | 0x44, 2 => [(1, 1)]
  | 0x45, 2 => [(1, 1), (6, 0)]
  | 0x44, 3 | 0x45, 3 | 0x46, 3 | 0x47, 3 => mask
  | _, _ => [(7, 0)]

/-- Kinds and register counts of class 0b11 (07_control R150; 03_launching R76; 15 R367; 16 R378; 17 R401; 18 R425,
R427). The width of `mrs` and `msr` is that of the special register (R404, R405). -/
def controlAccepts (op : Nat) (d a : BitVec 12) (field : Nat) : List (Nat × Nat) :=
  let sr (v : BitVec 12) : Nat := ((srInfo (indexOf v)).map (·.1)).getD 1
  match op, field with
  | 0x02, 2 | 0x04, 2 => [(0, 1), (1, 1)]
  | 0x08, 2 => [(2, 0)]
  | 0x0C, 2 | 0x0D, 2 => [(1, 1)]
  | 0x0E, 1 => [(1, 1)]
  | 0x12, 1 => [(1, 1), (7, 0)]
  | 0x12, 2 => [(1, 1)]
  | 0x30, 2 => [(0, 1)]
  | 0x32, 1 => [(1, 1)]
  | 0x62, 2 => [(1, 1), (7, 0)]
  | 0x62, 3 => [(1, 2), (7, 0)]
  | 0x63, 1 => if kindOf a = 5 then [(0, sr a), (1, sr a)] else [(0, 1), (1, 1)]
  | 0x63, 2 => [(5, 0)]
  | 0x64, 1 => [(5, 0)]
  | 0x64, 2 => [(0, sr d), (1, sr d), (6, 0)]
  | 0x66, 2 => [(0, 2), (1, 2)]
  | 0x66, 3 => [(0, 1), (1, 1)]
  | 0x67, 1 => [(1, 2)]
  | 0x68, 2 => [(1, 1), (7, 0)]
  | 0x6A, 2 => [(1, 2)]
  | 0x6A, 3 => [(1, 1)]
  | _, _ => [(7, 0)]

/-- Kinds and register counts that a field of a word accepts. -/
def Raw.accepts (r : Raw) (field : Nat) : List (Nat × Nat) :=
  let op := r.op.toNat
  let f := r.f.toNat
  match r.u.toNat with
  | 0 => if 0x80 ≤ op then memAccepts 0 op f field else arithAccepts 0 op f (r.immBits 0 6) (r.immBits 17 3) field
  | 1 =>
    if 0xA0 ≤ op then (if (op = 0xA1 ∨ op = 0xA3) ∧ field = 1 then (if op = 0xA1 then [(0, 1), (7, 0)] else [(0, 1)]) else [(7, 0)])
    else if 0x80 ≤ op then memAccepts 1 op f field
    else if (0x39 ≤ op ∧ op ≤ 0x3C) ∨ 0x50 ≤ op then laneAccepts op f field
    else arithAccepts 1 op f (r.immBits 0 6) (r.immBits 17 3) field
  | 2 => engineAccepts op f (kindOf r.b) field
  | _ => controlAccepts op r.d r.a field

/-- The index range of a kind (R105); accumulator tiles are those the team declares (12_matrix R294). -/
def indexOk (tiles kind idx : Nat) : Bool :=
  match kind with
  | 0 => idx < 32
  | 1 => idx < 384
  | 2 => idx < 8
  | 3 => idx < 16
  | 4 => idx < tiles
  | 5 => (srInfo idx).isSome
  | _ => idx = 0

/-- One operand field is in order: kind, index and the alignment of a pair or quad (R105, R106). -/
def fieldOk (tiles : Nat) (acc : List (Nat × Nat)) (v : BitVec 12) : Bool :=
  acc.any fun kw => kw.1 = kindOf v && indexOk tiles (kindOf v) (indexOf v) && (indexOf v % max kw.2 1 = 0)

/-- Step 5 of R118: the first field that fails. DEDUCED (log 10). -/
def Raw.operandCheck (r : Raw) (tiles : Nat) : Option Nat :=
  if !fieldOk tiles (r.accepts 1) r.d || (r.key = 0x364 && ((srInfo (indexOf r.d)).map (·.2)) = some .ro) then some 1
  else if !fieldOk tiles (r.accepts 2) r.a then some 2
  else if !fieldOk tiles (r.accepts 3) r.b || (kindOf r.a = 6 && kindOf r.b = 6)
      || (r.key = 0x181 && indexOf r.b = 0) then some 3
  else none

/-- Element formats of a block-scaled type (08_numbers R185), or code zero for any other type (12_matrix R296). -/
def etOk (f et : Nat) : Bool :=
  if f = 0x1A then et = 0x14 || et = 0x15
  else if f = 0x1B then et = 0x16 || et = 0x17
  else if f = 0x1C then et = 0x18
  else et = 0

/-- Types of an A operand of a multiply (12_matrix R295). -/
def tyMul : List Nat := [0x01, 0x10, 0x11, 0x14, 0x15, 0x16, 0x17, 0x18, 0x1A, 0x1B, 0x1C]

/-- Step 4 of R118: the form field. -/
def Raw.formOk (r : Raw) : Bool :=
  let op := r.op.toNat
  let f := r.f.toNat
  let sp := f / 8
  let sz := f % 8
  match r.u.toNat with
  | 0 =>
    if 0x80 ≤ op then
      (if op = 0x80 then sp ≤ 3 && sz ≤ 6 else if op = 0x82 then sp ≤ 3 && sz ≤ 4 else f = 0)
    else f ∈ arithTypes op
  | 1 =>
    if 0xA0 ≤ op then f = 0
    else if 0x90 ≤ op then sp ≤ 3 && (sz = 2 || sz = 3)
    else if 0x80 ≤ op then
      (if op = 0x80 then sp ≤ 4 && sz ≤ 6 else if op = 0x81 then sp = 0 && sz ≤ 6
       else if op = 0x82 then sp ≤ 4 && sz ≤ 4 else f = 0)
    else if 0x39 ≤ op ∧ op ≤ 0x3C then f = 0
    else if 0x50 ≤ op then
      (if op = 0x55 then f = 0
       else if op ≤ 0x56 then f = 0x0B || f = 0x0C
       else if 0x5B ≤ op ∧ op ≤ 0x5D then f ∈ tyB ++ tyI
       else f ∈ tyI ++ tyF)
    else f ∈ arithTypes op
  | 2 =>
    if op ≤ 0x05 then f ∈ tyMul
    else if op = 0x07 then f ∈ [0x12, 0x10, 0x11, 0x03]
    else if op = 0x08 then f ∈ [0x12, 0x10, 0x11, 0x14, 0x15, 0x03, 0x01]
    else if op = 0x09 then f ∈ [0x12, 0x10, 0x11]
    else if op = 0x20 then f ∈ tyMul
    else f = 0
  | _ => f = 0

/-- The slot width of an element type (08_numbers R186; 09_compute R219). -/
def Ty.slot : Ty → Nat
  | .i8 | .n8 | .b8 | .e4m3 | .e5m2 | .e8m0 | .e3m2 | .e2m3 | .mx8 | .mx6 => 8
  | .i16 | .n16 | .b16 | .f16 | .bf16 => 16
  | .e2m1 | .mx4 => 4
  | .i64 | .n64 | .b64 | .f64 => 64
  | .b128 => 128
  | _ => 32

/-- Floating-point types whose elements are narrower than 16 bits (R188). -/
def tyNarrow : List Nat := [0x14, 0x15, 0x16, 0x17, 0x18, 0x19]

/-- Checks 5 to 10 of `cvt` (R218) with the reserved bits of its modifier word (R200). -/
def cvtModOk (t : Nat) (r : Raw) : Bool :=
  let s := r.immBits 0 6
  let rm := r.immBits 17 3
  let elt := r.immBits 12 3
  let m := min (Ty.ofCode s).slot (Ty.ofCode t).slot
  r.immBits 20 12 = 0 && rm ≤ 4 && r.immBits 15 2 = 0 && r.immBits 6 6 = 0
    && s ∈ tyI ++ tyF ++ tyNarrow
    && s ≠ t
    && (if s = 0x19 then t = 0x12 else if t = 0x19 then s = 0x12 else true)
    && (rm = 0 || !(s ∈ tyI && t ∈ tyI))
    && (rm ≠ 4 || t ∈ tyNarrow)
    && (if m < 32 then elt < 32 / m else elt = 0)

/-- The C field of an opcode that has one (R201, R215). -/
def cOk (u op f : Nat) (c : BitVec 12) : Bool :=
  let w := if op = 0x2D ∨ op = 0x38 then 1 else (Ty.ofCode f).regs
  if op = 0x38 then fieldOk 16 (if u = 1 then [(2, 0)] else [(1, 1)]) c
  else fieldOk 16 ((if u = 1 then [(0, w)] else []) ++ [(1, w), (7, 0)]) c

/-- Step 6 for the instructions of "Scalar and vector instructions" (R200, R201). -/
def arithModOk (r : Raw) : Bool :=
  let u := r.u.toNat
  let op := r.op.toNat
  let f := r.f.toNat
  let lane := u = 1 && ((0x39 ≤ op && op ≤ 0x3C) || 0x50 ≤ op)
  let rnd := (if lane then op = 0x58 || op = 0x5E else rounds op) && f ∈ tyF
  let c : BitVec 12 := r.imm.extractLsb' 0 12
  if r.hasImm then true
  else if !lane && op = 0x40 then cvtModOk f r
  else r.immBits 20 12 = 0
    && (if rnd then r.immBits 17 3 ≤ 3 else r.immBits 17 3 = 0)
    && (if !lane && op = 0x1F then r.immBits 15 2 = 0 else r.immBits 12 5 = 0)
    && (if !lane && usesC op then cOk u op f c else c = 0xE00#12)

/-- Scopes that a space accepts for a strong access (11_memory_ops R259). -/
def scopeOk (sp sco : Nat) : Bool :=
  match sp with
  | 0 => 1 ≤ sco && sco ≤ 6
  | 1 => 1 ≤ sco && sco ≤ 2
  | 2 => 1 ≤ sco && sco ≤ 3
  | 3 => 1 ≤ sco && sco ≤ 5
  | _ => false

/-- Step 6 for the memory instructions and the atomics (05 R111; 11 R259; 15 R368). -/
def memModOk (r : Raw) : Bool :=
  let op := r.op.toNat
  let sp := r.f.toNat / 8
  let sz := r.f.toNat % 8
  let ord := r.immBits 5 3
  let sco := r.immBits 2 3
  let ecl := r.immBits 0 2
  let strong := (sz = 2 || sz = 3) && scopeOk sp sco
  if op = 0x85 then r.imm = 0
  else if op = 0x81 ∨ op = 0x83 ∨ op = 0x84 ∨ op = 0x86 then ord = 0 && sco = 0 && ecl = 0
  else if op = 0x80 then
    ecl = 0 && (if ord = 0 then sco = 0
      else if ord = 5 then sp = 0 && strong && 5 ≤ sco
      else (ord = 1 || ord = 2) && strong)
  else if op = 0x82 then ecl = 0 && (if ord = 0 then sco = 0 else (ord = 1 || ord = 3) && strong)
  else
    let k := if 0x98 ≤ op then op - 0x98 else op - 0x90
    scopeOk sp sco && (if 0x98 ≤ op then ord = 1 || ord = 3 else 1 ≤ ord && ord ≤ 4)
      && (if k ≤ 2 then ecl ≤ 2 else ecl = 0)

/-- Step 6 for class 0b10. -/
def engineModOk (r : Raw) : Bool :=
  let op := r.op.toNat
  let f := r.f.toNat
  let et := r.immBits 0 6
  let blk := r.immBits 6 5
  let row := r.immBits 11 6
  let rm := r.immBits 17 3
  if op ≤ 0x02 then r.immBits 11 21 = 0 && etOk f et
  else if op ≤ 0x05 then r.immBits 6 26 = 0 && etOk f et
  else if op = 0x07 ∨ op = 0x08 then r.immBits 20 12 = 0 && rm ≤ 3 && r.immBits 0 17 = 0
      && !(f = 0x03 && rm ≠ 0 && op = 0x08)
  else if op = 0x09 then r.immBits 20 12 = 0 && rm ≤ 3 && row ≤ 63 && blk = 0 && et = 0
  else if op = 0x20 then
    r.immBits 22 10 = 0 && r.immBits 18 2 = 0 && blk = 0 && etOk f et
      && !((f = 0x10 || f = 0x11) && r.immBits 14 4 % 2 = 0)
  else if op = 0x21 then
    r.immBits 20 12 = 0 && r.immBits 14 4 = 0 && et = 0 && !(r.immBits 19 1 = 1 && kindOf r.b = 3)
  else if 0x43 ≤ op ∧ op ≤ 0x47 then r.hasImm || r.imm = 0
  else r.imm = 0

/-- Step 6 for class 0b11. -/
def controlModOk (r : Raw) : Bool :=
  match r.op.toNat with
  | 0x01 | 0x02 | 0x03 | 0x04 | 0x06 | 0x08 | 0x0C | 0x0D | 0x0E | 0x30 | 0x31 | 0x62 => true
  | 0x0A | 0x0B => r.immBits 2 30 = 0
  | 0x20 =>
    r.immBits 8 24 = 0 && r.immBits 0 2 = 0 && 2 ≤ r.immBits 5 3 && r.immBits 5 3 ≤ 4
      && 1 ≤ r.immBits 2 3 && r.immBits 2 3 ≤ 6
  | 0x60 | 0x65 | 0x68 => r.immBits 8 24 = 0
  | 0x61 => r.immBits 1 31 = 0
  | 0x64 => r.hasImm || r.imm = 0
  | 0x67 => r.immBits 8 24 = 0 && (r.immBits 0 8 ≤ 0x11 || (0x20 ≤ r.immBits 0 8 && r.immBits 0 8 ≤ 0x23))
  | _ => r.imm = 0

/-- Step 6 of R118. -/
def Raw.modifiersOk (r : Raw) : Bool :=
  let op := r.op.toNat
  match r.u.toNat with
  | 0 => if 0x80 ≤ op then memModOk r else arithModOk r
  | 1 =>
    if 0xA0 ≤ op then
      (if op = 0xA0 then true else if op = 0xA2 then r.immBits 8 24 = 0 else r.imm = 0)
    else if 0x80 ≤ op then memModOk r else arithModOk r
  | 2 => engineModOk r
  | _ => controlModOk r

/-- Step 7 of R118: the hints (R114, R115). -/
def Raw.hintsOk (r : Raw) : Bool :=
  let op := r.op.toNat
  let mem := r.u.toNat ≤ 1 && 0x80 ≤ op && op < 0xA0
  let gl := mem && r.f.toNat / 8 = 0
  (r.rd = 0 || (gl && (op = 0x80 || op = 0x81 || op = 0x83)) || r.key = 0x240)
    && (if r.hv = 1 then gl else r.hd = 0)

/-- The opcodes marked P (R121). -/
def privileged (key : Nat) : Bool := key ∈ [0x226, 0x369, 0x36A]

/-! ## From fields to instructions -/

/-- The guard and end bits. -/
def Raw.head (r : Raw) : Head := ⟨r.gn = 1, r.gp.toNat, r.e = 1⟩

/-- Reads the fields of a "Scalar and vector" word (R200). -/
def arithOf (r : Raw) : Arith :=
  let cvt := r.op = 0x40 && r.u.toNat ≤ 1
  { h := r.head
    ty := Ty.ofCode r.f.toNat
    rm := if r.hasImm then .rn else Rm.ofCode (r.immBits 17 3)
    sub := if r.hasImm then 0 else r.immBits 12 5
    sty := if !r.hasImm && cvt then Ty.ofCode (r.immBits 0 6) else .none
    d := Operand.ofBits r.d r.imm
    a := Operand.ofBits r.a r.imm
    b := Operand.ofBits r.b r.imm
    c := if r.hasImm || cvt then .zero else Operand.ofBits (r.imm.extractLsb' 0 12) 0 }

/-- Reads the fields of a memory word (R110, R111). -/
def memOf (r : Raw) : MemF :=
  { h := r.head
    space := Space.ofCode (r.f.toNat / 8)
    size := Size.ofCode (r.f.toNat % 8)
    ord := Ord.ofCode (r.immBits 5 3)
    sco := Scope.ofCode (r.immBits 2 3)
    ecl := Ecl.ofCode (r.immBits 0 2)
    ofs := r.imm.extractLsb' 8 24
    d := Operand.ofBits r.d 0
    a := Operand.ofBits r.a 0
    b := Operand.ofBits r.b 0
    rd := r.rd
    home := if r.hv = 1 then some r.hd else none }

/-- Reads the fields of a matrix word (12_matrix R296). -/
def matOf (r : Raw) : MatF :=
  { h := r.head
    ty := Ty.ofCode r.f.toNat
    et := Ty.ofCode (r.immBits 0 6)
    rm := Rm.ofCode (r.immBits 17 3)
    row := r.immBits 11 6
    blk := r.immBits 6 5
    d := Operand.ofBits r.d 0
    a := Operand.ofBits r.a 0
    b := Operand.ofBits r.b 0 }

/-- Reads the fields of a residency word (13_residency R317). -/
def resOf (r : Raw) : ResF :=
  { h := r.head
    ty := Ty.ofCode r.f.toNat
    et := Ty.ofCode (r.immBits 0 6)
    pin := r.immBits 21 1 = 1
    pair := r.immBits 20 1 = 1
    watch := r.immBits 19 1 = 1
    half := r.immBits 18 1 = 1
    ns := r.immBits 14 4
    pf := r.immBits 11 3
    blk := r.immBits 6 5
    d := Operand.ofBits r.d 0
    a := Operand.ofBits r.a 0
    b := Operand.ofBits r.b 0 }

/-- Reads the fields of any other word; IMM stands in the immediate operand where there is one. -/
def op3Of (r : Raw) : Op3 :=
  { h := r.head
    d := Operand.ofBits r.d r.imm
    a := Operand.ofBits r.a r.imm
    b := Operand.ofBits r.b r.imm
    imm := if r.hasImm then 0 else r.imm
    rd := r.rd }

/-- Class 0b00 arithmetic (R121). -/
def scalarTable : List (Nat × (Arith → Instr)) :=
  [(0x001, Instr.mov),
   (0x002, Instr.add),
   (0x003, Instr.sub),
   (0x004, Instr.mul),
   (0x005, Instr.mulhi),
   (0x006, Instr.mad),
   (0x007, Instr.madhi),
   (0x008, Instr.div),
   (0x009, Instr.rem),
   (0x00A, Instr.min),
   (0x00B, Instr.max),
   (0x00C, Instr.abs),
   (0x00D, Instr.neg),
   (0x00E, Instr.adds),
   (0x00F, Instr.subs),
   (0x010, Instr.and),
   (0x011, Instr.or),
   (0x012, Instr.xor),
   (0x013, Instr.not),
   (0x014, Instr.shl),
   (0x015, Instr.shr),
   (0x016, Instr.sar),
   (0x017, Instr.rot),
   (0x018, Instr.bfx),
   (0x019, Instr.bfi),
   (0x01A, Instr.popc),
   (0x01B, Instr.clz),
   (0x01C, Instr.ctz),
   (0x01D, Instr.brev),
   (0x01E, Instr.bswp),
   (0x01F, Instr.lea),
   (0x020, Instr.fma),
   (0x021, Instr.rcp),
   (0x022, Instr.rsq),
   (0x023, Instr.sqrt),
   (0x024, Instr.exp2),
   (0x025, Instr.log2),
   (0x026, Instr.sin),
   (0x027, Instr.cos),
   (0x028, Instr.tanh),
   (0x029, Instr.frnd),
   (0x02A, Instr.fcls),
   (0x02B, Instr.csgn),
   (0x02C, Instr.scl),
   (0x02D, Instr.dp2),
   (0x030, Instr.cmpEq),
   (0x031, Instr.cmpNe),
   (0x032, Instr.cmpLt),
   (0x033, Instr.cmpLe),
   (0x034, Instr.cmpGt),
   (0x035, Instr.cmpGe),
   (0x036, Instr.cmpNum),
   (0x037, Instr.cmpNan),
   (0x038, Instr.sel),
   (0x040, Instr.cvt),
   (0x041, Instr.pack),
   (0x042, Instr.unpk)]

/-- Class 0b01 arithmetic, predicate and lane instructions (R121). -/
def vectorTable : List (Nat × (Arith → Instr)) :=
  [(0x101, Instr.vmov),
   (0x102, Instr.vadd),
   (0x103, Instr.vsub),
   (0x104, Instr.vmul),
   (0x105, Instr.vmulhi),
   (0x106, Instr.vmad),
   (0x107, Instr.vmadhi),
   (0x108, Instr.vdiv),
   (0x109, Instr.vrem),
   (0x10A, Instr.vmin),
   (0x10B, Instr.vmax),
   (0x10C, Instr.vabs),
   (0x10D, Instr.vneg),
   (0x10E, Instr.vadds),
   (0x10F, Instr.vsubs),
   (0x110, Instr.vand),
   (0x111, Instr.vor),
   (0x112, Instr.vxor),
   (0x113, Instr.vnot),
   (0x114, Instr.vshl),
   (0x115, Instr.vshr),
   (0x116, Instr.vsar),
   (0x117, Instr.vrot),
   (0x118, Instr.vbfx),
   (0x119, Instr.vbfi),
   (0x11A, Instr.vpopc),
   (0x11B, Instr.vclz),
   (0x11C, Instr.vctz),
   (0x11D, Instr.vbrev),
   (0x11E, Instr.vbswp),
   (0x11F, Instr.vlea),
   (0x120, Instr.vfma),
   (0x121, Instr.vrcp),
   (0x122, Instr.vrsq),
   (0x123, Instr.vsqrt),
   (0x124, Instr.vexp2),
   (0x125, Instr.vlog2),
   (0x126, Instr.vsin),
   (0x127, Instr.vcos),
   (0x128, Instr.vtanh),
   (0x129, Instr.vfrnd),
   (0x12A, Instr.vfcls),
   (0x12B, Instr.vcsgn),
   (0x12C, Instr.vscl),
   (0x12D, Instr.vdp2),
   (0x130, Instr.vcmpEq),
   (0x131, Instr.vcmpNe),
   (0x132, Instr.vcmpLt),
   (0x133, Instr.vcmpLe),
   (0x134, Instr.vcmpGt),
   (0x135, Instr.vcmpGe),
   (0x136, Instr.vcmpNum),
   (0x137, Instr.vcmpNan),
   (0x138, Instr.vsel),
   (0x140, Instr.vcvt),
   (0x141, Instr.vpack),
   (0x142, Instr.vunpk),
   (0x139, Instr.pand),
   (0x13A, Instr.por),
   (0x13B, Instr.pxor),
   (0x13C, Instr.pnot),
   (0x150, Instr.vtos),
   (0x151, Instr.stov),
   (0x152, Instr.vshfl),
   (0x153, Instr.vbfly),
   (0x154, Instr.vbcast),
   (0x155, Instr.vballot),
   (0x156, Instr.vmatch),
   (0x158, Instr.vredAdd),
   (0x159, Instr.vredMin),
   (0x15A, Instr.vredMax),
   (0x15B, Instr.vredAnd),
   (0x15C, Instr.vredOr),
   (0x15D, Instr.vredXor),
   (0x15E, Instr.vscanAdd),
   (0x15F, Instr.vscanMin),
   (0x160, Instr.vscanMax)]

/-- Memory instructions and atomics (R121). -/
def memTable : List (Nat × (MemF → Instr)) :=
  [(0x080, Instr.ldScalar),
   (0x180, Instr.ldVector),
   (0x181, Instr.ldNr),
   (0x082, Instr.stScalar),
   (0x182, Instr.stVector),
   (0x083, Instr.pfScalar),
   (0x183, Instr.pfVector),
   (0x084, Instr.pgreqScalar),
   (0x184, Instr.pgreqVector),
   (0x185, Instr.cinv),
   (0x186, Instr.cdem),
   (0x190, Instr.atomAdd),
   (0x191, Instr.atomMin),
   (0x192, Instr.atomMax),
   (0x193, Instr.atomAnd),
   (0x194, Instr.atomOr),
   (0x195, Instr.atomXor),
   (0x196, Instr.atomExch),
   (0x197, Instr.atomCas),
   (0x198, Instr.aredAdd),
   (0x199, Instr.aredMin),
   (0x19A, Instr.aredMax),
   (0x19B, Instr.aredAnd),
   (0x19C, Instr.aredOr),
   (0x19D, Instr.aredXor)]

/-- Matrix instructions (R121). -/
def matTable : List (Nat × (MatF → Instr)) :=
  [(0x200, Instr.mma),
   (0x201, Instr.mmaN2),
   (0x202, Instr.mmaK2),
   (0x203, Instr.mmt),
   (0x204, Instr.mmtN2),
   (0x205, Instr.mmtK2),
   (0x206, Instr.mzero),
   (0x207, Instr.mld),
   (0x208, Instr.mst),
   (0x209, Instr.mrow),
   (0x20A, Instr.mwait),
   (0x20B, Instr.tmset),
   (0x20C, Instr.tmget)]

/-- Residency instructions but `rload`, whose B operand chooses its form (R121, 13_residency R317). -/
def resTable : List (Nat × (ResF → Instr)) :=
  [(0x220, Instr.ralloc),
   (0x222, Instr.rpin),
   (0x223, Instr.runpin),
   (0x224, Instr.rrev),
   (0x225, Instr.rstat),
   (0x226, Instr.rquota)]

/-- Transactions, engines, barriers, control and system instructions (R121). -/
def op3Table : List (Nat × (Op3 → Instr)) :=
  [(0x1A0, Instr.xbegin),
   (0x1A1, Instr.xend),
   (0x1A2, Instr.xabort),
   (0x1A3, Instr.xstat),
   (0x240, Instr.cpy),
   (0x241, Instr.sleepu),
   (0x242, Instr.sleepuChk),
   (0x243, Instr.barx),
   (0x244, Instr.bar),
   (0x245, Instr.barc),
   (0x246, Instr.bart),
   (0x247, Instr.barg),
   (0x300, Instr.nop),
   (0x301, Instr.bra),
   (0x302, Instr.brx),
   (0x303, Instr.call),
   (0x304, Instr.callx),
   (0x305, Instr.ret),
   (0x306, Instr.jopen),
   (0x307, Instr.join),
   (0x308, Instr.eject),
   (0x309, Instr.rejoin),
   (0x30A, Instr.enrol),
   (0x30B, Instr.bwaitm),
   (0x30C, Instr.bsz),
   (0x30D, Instr.bsnz),
   (0x30E, Instr.loop),
   (0x30F, Instr.exit),
   (0x312, Instr.launch),
   (0x320, Instr.fence),
   (0x330, Instr.regroup),
   (0x331, Instr.regroupHome),
   (0x332, Instr.cqstat),
   (0x360, Instr.trap),
   (0x361, Instr.tret),
   (0x362, Instr.yieldl),
   (0x363, Instr.mrs),
   (0x364, Instr.msr),
   (0x365, Instr.bkpt),
   (0x366, Instr.wpt),
   (0x367, Instr.pcnt),
   (0x368, Instr.trc),
   (0x369, Instr.halt),
   (0x36A, Instr.tlbinv)]

/-- Finds a constructor in an opcode table. -/
def lookupOp {α : Type} (t : List (Nat × (α → Instr))) (key : Nat) : Option (α → Instr) :=
  (t.find? fun e => e.1 = key).map (·.2)

/-- The instruction that checked fields name; `none` where U and OP are unassigned (R121). -/
def Raw.instr? (r : Raw) : Option Instr :=
  match r.u.toNat with
  | 0 =>
    match lookupOp scalarTable r.key with
    | some c => some (c (arithOf r))
    | none => (lookupOp memTable r.key).map fun c => c (memOf r)
  | 1 =>
    match lookupOp vectorTable r.key with
    | some c => some (c (arithOf r))
    | none =>
      match lookupOp memTable r.key with
      | some c => some (c (memOf r))
      | none => (lookupOp op3Table r.key).map fun c => c (op3Of r)
  | 2 =>
    if r.key = 0x221 then
      (if kindOf r.b = 3 then some (.rloadMap (resOf r)) else some (.rloadGlobal (resOf r)))
    else
      match lookupOp matTable r.key with
      | some c => some (c (matOf r))
      | none =>
        match lookupOp resTable r.key with
        | some c => some (c (resOf r))
        | none => (lookupOp op3Table r.key).map fun c => c (op3Of r)
  | _ => (lookupOp op3Table r.key).map fun c => c (op3Of r)

/-- Steps 2 to 8 of R118 in their order, for a team that declares `tiles` accumulator tiles and a context that is
privileged or not. DEDUCED (log 10). -/
def Raw.check (r : Raw) (tiles : Nat) (priv : Bool) : Option Reject :=
  if r.instr?.isNone then some .unassigned
  else if r.gn = 1 ∧ r.gp = 0 then some .guardReserved
  else if !r.formOk then some .form
  else match r.operandCheck tiles with
    | some f => some (.operand f)
    | none =>
      if !r.modifiersOk then some .modifiers
      else if !r.hintsOk then some .hints
      else if privileged r.key && !priv then some .privilege
      else none

/-- Decodes a word (R118). -/
def decodeWord (tiles : Nat) (priv : Bool) (w : InsnWord) : Except Reject Instr :=
  let r := Raw.ofWord w
  match r.check tiles priv with
  | some e => .error e
  | none =>
    match r.instr? with
    | some i => .ok i
    | none => .error .unassigned

/-- The word of twelve little-endian bytes (R100). -/
def wordOfBytes (l : List Byte) : InsnWord := BitVec.ofNat 96 (ofBytes (l.take 12))

/-- The twelve bytes of a word, lowest address first (R100). -/
def bytesOfWord (w : InsnWord) : List Byte := bytesOf w.toNat 12

/-- Decodes the first instruction of any list of bytes and returns the bytes after it. -/
def decodeBytes (tiles : Nat) (priv : Bool) (l : List Byte) : Except Reject (Instr × List Byte) :=
  if l.length < 12 then .error .short
  else match decodeWord tiles priv (wordOfBytes l) with
    | .ok i => .ok (i, l.drop 12)
    | .error e => .error e

/-- What the decoder reads from an instruction whose bits are `w` numbered as the opcode table numbers them: bit 0 of
the word is bit 0 of the first byte (R100). Tiles and privilege are the widest. -/
def decodeTableWord (_nbits w : Nat) : Option Instr :=
  match decodeBytes 16 true (bytesOf w 12) with
  | .ok (i, _) => some i
  | .error _ => none

/-! ## The encoder -/

/-- The value that an immediate operand puts into IMM. -/
def immOf (d a b : Operand) : Option Word :=
  match d, a, b with
  | .imm v, _, _ => some v
  | _, .imm v, _ => some v
  | _, _, .imm v => some v
  | _, _, _ => none

/-- One bit of a word. -/
def bit1 (b : Bool) : BitVec 1 := if b then 1 else 0

/-- Fields that every word has, with no hint. -/
def baseRaw (u op f : Nat) (h : Head) (d a b : Operand) (imm : Word) : Raw :=
  { u := BitVec.ofNat 2 u, op := BitVec.ofNat 8 op, f := BitVec.ofNat 6 f, gn := bit1 h.neg, gp := BitVec.ofNat 3 h.gp
    d := d.bits, a := a.bits, b := b.bits, imm := imm, e := bit1 h.last, rd := 0, hv := 0, hd := 0 }

/-- The fields of a "Scalar and vector" word (R200). -/
def arithRaw (u op : Nat) (f : Arith) : Raw :=
  baseRaw u op f.ty.code f.h f.d f.a f.b <|
    match immOf f.d f.a f.b with
    | some v => v
    | none => BitVec.ofNat 32 (f.rm.code * 2 ^ 17 + f.sub * 2 ^ 12 + (if op = 0x40 then f.sty.code else f.c.bits.toNat))

/-- The fields of a memory word (R110, R111). -/
def memRaw (u op : Nat) (f : MemF) : Raw :=
  { baseRaw u op (f.space.code * 8 + f.size.code) f.h f.d f.a f.b
      (BitVec.ofNat 32 (f.ofs.toNat * 2 ^ 8 + f.ord.code * 2 ^ 5 + f.sco.code * 2 ^ 2 + f.ecl.code)) with
    rd := f.rd, hv := bit1 f.home.isSome, hd := f.home.getD 0 }

/-- The fields of a matrix word (12_matrix R296). -/
def matRaw (u op : Nat) (f : MatF) : Raw :=
  baseRaw u op f.ty.code f.h f.d f.a f.b
    (BitVec.ofNat 32 (f.rm.code * 2 ^ 17 + f.row * 2 ^ 11 + f.blk * 2 ^ 6 + f.et.code))

/-- The fields of a residency word (13_residency R317). -/
def resRaw (u op : Nat) (f : ResF) : Raw :=
  baseRaw u op f.ty.code f.h f.d f.a f.b
    (BitVec.ofNat 32 (f.pin.toNat * 2 ^ 21 + f.pair.toNat * 2 ^ 20 + f.watch.toNat * 2 ^ 19 + f.half.toNat * 2 ^ 18
      + f.ns * 2 ^ 14 + f.pf * 2 ^ 11 + f.blk * 2 ^ 6 + f.et.code))

/-- The fields of any other word. -/
def op3Raw (u op : Nat) (f : Op3) : Raw :=
  { baseRaw u op 0 f.h f.d f.a f.b ((immOf f.d f.a f.b).getD f.imm) with rd := f.rd }

/-- The fields of the word of an instruction; `none` for a step that is no instruction word. -/
def Instr.toRaw? : Instr → Option Raw
  | .mov f => some (arithRaw 0 0x01 f)
  | .vmov f => some (arithRaw 1 0x01 f)
  | .add f => some (arithRaw 0 0x02 f)
  | .vadd f => some (arithRaw 1 0x02 f)
  | .sub f => some (arithRaw 0 0x03 f)
  | .vsub f => some (arithRaw 1 0x03 f)
  | .mul f => some (arithRaw 0 0x04 f)
  | .vmul f => some (arithRaw 1 0x04 f)
  | .mulhi f => some (arithRaw 0 0x05 f)
  | .vmulhi f => some (arithRaw 1 0x05 f)
  | .mad f => some (arithRaw 0 0x06 f)
  | .vmad f => some (arithRaw 1 0x06 f)
  | .madhi f => some (arithRaw 0 0x07 f)
  | .vmadhi f => some (arithRaw 1 0x07 f)
  | .div f => some (arithRaw 0 0x08 f)
  | .vdiv f => some (arithRaw 1 0x08 f)
  | .rem f => some (arithRaw 0 0x09 f)
  | .vrem f => some (arithRaw 1 0x09 f)
  | .min f => some (arithRaw 0 0x0A f)
  | .vmin f => some (arithRaw 1 0x0A f)
  | .max f => some (arithRaw 0 0x0B f)
  | .vmax f => some (arithRaw 1 0x0B f)
  | .abs f => some (arithRaw 0 0x0C f)
  | .vabs f => some (arithRaw 1 0x0C f)
  | .neg f => some (arithRaw 0 0x0D f)
  | .vneg f => some (arithRaw 1 0x0D f)
  | .adds f => some (arithRaw 0 0x0E f)
  | .vadds f => some (arithRaw 1 0x0E f)
  | .subs f => some (arithRaw 0 0x0F f)
  | .vsubs f => some (arithRaw 1 0x0F f)
  | .and f => some (arithRaw 0 0x10 f)
  | .vand f => some (arithRaw 1 0x10 f)
  | .or f => some (arithRaw 0 0x11 f)
  | .vor f => some (arithRaw 1 0x11 f)
  | .xor f => some (arithRaw 0 0x12 f)
  | .vxor f => some (arithRaw 1 0x12 f)
  | .not f => some (arithRaw 0 0x13 f)
  | .vnot f => some (arithRaw 1 0x13 f)
  | .shl f => some (arithRaw 0 0x14 f)
  | .vshl f => some (arithRaw 1 0x14 f)
  | .shr f => some (arithRaw 0 0x15 f)
  | .vshr f => some (arithRaw 1 0x15 f)
  | .sar f => some (arithRaw 0 0x16 f)
  | .vsar f => some (arithRaw 1 0x16 f)
  | .rot f => some (arithRaw 0 0x17 f)
  | .vrot f => some (arithRaw 1 0x17 f)
  | .bfx f => some (arithRaw 0 0x18 f)
  | .vbfx f => some (arithRaw 1 0x18 f)
  | .bfi f => some (arithRaw 0 0x19 f)
  | .vbfi f => some (arithRaw 1 0x19 f)
  | .popc f => some (arithRaw 0 0x1A f)
  | .vpopc f => some (arithRaw 1 0x1A f)
  | .clz f => some (arithRaw 0 0x1B f)
  | .vclz f => some (arithRaw 1 0x1B f)
  | .ctz f => some (arithRaw 0 0x1C f)
  | .vctz f => some (arithRaw 1 0x1C f)
  | .brev f => some (arithRaw 0 0x1D f)
  | .vbrev f => some (arithRaw 1 0x1D f)
  | .bswp f => some (arithRaw 0 0x1E f)
  | .vbswp f => some (arithRaw 1 0x1E f)
  | .lea f => some (arithRaw 0 0x1F f)
  | .vlea f => some (arithRaw 1 0x1F f)
  | .fma f => some (arithRaw 0 0x20 f)
  | .vfma f => some (arithRaw 1 0x20 f)
  | .rcp f => some (arithRaw 0 0x21 f)
  | .vrcp f => some (arithRaw 1 0x21 f)
  | .rsq f => some (arithRaw 0 0x22 f)
  | .vrsq f => some (arithRaw 1 0x22 f)
  | .sqrt f => some (arithRaw 0 0x23 f)
  | .vsqrt f => some (arithRaw 1 0x23 f)
  | .exp2 f => some (arithRaw 0 0x24 f)
  | .vexp2 f => some (arithRaw 1 0x24 f)
  | .log2 f => some (arithRaw 0 0x25 f)
  | .vlog2 f => some (arithRaw 1 0x25 f)
  | .sin f => some (arithRaw 0 0x26 f)
  | .vsin f => some (arithRaw 1 0x26 f)
  | .cos f => some (arithRaw 0 0x27 f)
  | .vcos f => some (arithRaw 1 0x27 f)
  | .tanh f => some (arithRaw 0 0x28 f)
  | .vtanh f => some (arithRaw 1 0x28 f)
  | .frnd f => some (arithRaw 0 0x29 f)
  | .vfrnd f => some (arithRaw 1 0x29 f)
  | .fcls f => some (arithRaw 0 0x2A f)
  | .vfcls f => some (arithRaw 1 0x2A f)
  | .csgn f => some (arithRaw 0 0x2B f)
  | .vcsgn f => some (arithRaw 1 0x2B f)
  | .scl f => some (arithRaw 0 0x2C f)
  | .vscl f => some (arithRaw 1 0x2C f)
  | .dp2 f => some (arithRaw 0 0x2D f)
  | .vdp2 f => some (arithRaw 1 0x2D f)
  | .cmpEq f => some (arithRaw 0 0x30 f)
  | .vcmpEq f => some (arithRaw 1 0x30 f)
  | .cmpNe f => some (arithRaw 0 0x31 f)
  | .vcmpNe f => some (arithRaw 1 0x31 f)
  | .cmpLt f => some (arithRaw 0 0x32 f)
  | .vcmpLt f => some (arithRaw 1 0x32 f)
  | .cmpLe f => some (arithRaw 0 0x33 f)
  | .vcmpLe f => some (arithRaw 1 0x33 f)
  | .cmpGt f => some (arithRaw 0 0x34 f)
  | .vcmpGt f => some (arithRaw 1 0x34 f)
  | .cmpGe f => some (arithRaw 0 0x35 f)
  | .vcmpGe f => some (arithRaw 1 0x35 f)
  | .cmpNum f => some (arithRaw 0 0x36 f)
  | .vcmpNum f => some (arithRaw 1 0x36 f)
  | .cmpNan f => some (arithRaw 0 0x37 f)
  | .vcmpNan f => some (arithRaw 1 0x37 f)
  | .sel f => some (arithRaw 0 0x38 f)
  | .vsel f => some (arithRaw 1 0x38 f)
  | .cvt f => some (arithRaw 0 0x40 f)
  | .vcvt f => some (arithRaw 1 0x40 f)
  | .pack f => some (arithRaw 0 0x41 f)
  | .vpack f => some (arithRaw 1 0x41 f)
  | .unpk f => some (arithRaw 0 0x42 f)
  | .vunpk f => some (arithRaw 1 0x42 f)
  | .pand f => some (arithRaw 1 0x39 f)
  | .por f => some (arithRaw 1 0x3A f)
  | .pxor f => some (arithRaw 1 0x3B f)
  | .pnot f => some (arithRaw 1 0x3C f)
  | .vtos f => some (arithRaw 1 0x50 f)
  | .stov f => some (arithRaw 1 0x51 f)
  | .vshfl f => some (arithRaw 1 0x52 f)
  | .vbfly f => some (arithRaw 1 0x53 f)
  | .vbcast f => some (arithRaw 1 0x54 f)
  | .vballot f => some (arithRaw 1 0x55 f)
  | .vmatch f => some (arithRaw 1 0x56 f)
  | .vredAdd f => some (arithRaw 1 0x58 f)
  | .vredMin f => some (arithRaw 1 0x59 f)
  | .vredMax f => some (arithRaw 1 0x5A f)
  | .vredAnd f => some (arithRaw 1 0x5B f)
  | .vredOr f => some (arithRaw 1 0x5C f)
  | .vredXor f => some (arithRaw 1 0x5D f)
  | .vscanAdd f => some (arithRaw 1 0x5E f)
  | .vscanMin f => some (arithRaw 1 0x5F f)
  | .vscanMax f => some (arithRaw 1 0x60 f)
  | .ldScalar f => some (memRaw 0 0x80 f)
  | .ldVector f => some (memRaw 1 0x80 f)
  | .ldNr f => some (memRaw 1 0x81 f)
  | .stScalar f => some (memRaw 0 0x82 f)
  | .stVector f => some (memRaw 1 0x82 f)
  | .pfScalar f => some (memRaw 0 0x83 f)
  | .pfVector f => some (memRaw 1 0x83 f)
  | .pgreqScalar f => some (memRaw 0 0x84 f)
  | .pgreqVector f => some (memRaw 1 0x84 f)
  | .cinv f => some (memRaw 1 0x85 f)
  | .cdem f => some (memRaw 1 0x86 f)
  | .atomAdd f => some (memRaw 1 0x90 f)
  | .atomMin f => some (memRaw 1 0x91 f)
  | .atomMax f => some (memRaw 1 0x92 f)
  | .atomAnd f => some (memRaw 1 0x93 f)
  | .atomOr f => some (memRaw 1 0x94 f)
  | .atomXor f => some (memRaw 1 0x95 f)
  | .atomExch f => some (memRaw 1 0x96 f)
  | .atomCas f => some (memRaw 1 0x97 f)
  | .aredAdd f => some (memRaw 1 0x98 f)
  | .aredMin f => some (memRaw 1 0x99 f)
  | .aredMax f => some (memRaw 1 0x9A f)
  | .aredAnd f => some (memRaw 1 0x9B f)
  | .aredOr f => some (memRaw 1 0x9C f)
  | .aredXor f => some (memRaw 1 0x9D f)
  | .xbegin f => some (op3Raw 1 0xA0 f)
  | .xend f => some (op3Raw 1 0xA1 f)
  | .xabort f => some (op3Raw 1 0xA2 f)
  | .xstat f => some (op3Raw 1 0xA3 f)
  | .mma f => some (matRaw 2 0x00 f)
  | .mmaN2 f => some (matRaw 2 0x01 f)
  | .mmaK2 f => some (matRaw 2 0x02 f)
  | .mmt f => some (matRaw 2 0x03 f)
  | .mmtN2 f => some (matRaw 2 0x04 f)
  | .mmtK2 f => some (matRaw 2 0x05 f)
  | .mzero f => some (matRaw 2 0x06 f)
  | .mld f => some (matRaw 2 0x07 f)
  | .mst f => some (matRaw 2 0x08 f)
  | .mrow f => some (matRaw 2 0x09 f)
  | .mwait f => some (matRaw 2 0x0A f)
  | .tmset f => some (matRaw 2 0x0B f)
  | .tmget f => some (matRaw 2 0x0C f)
  | .ralloc f => some (resRaw 2 0x20 f)
  | .rloadMap f => some (resRaw 2 0x21 f)
  | .rloadGlobal f => some (resRaw 2 0x21 f)
  | .rpin f => some (resRaw 2 0x22 f)
  | .runpin f => some (resRaw 2 0x23 f)
  | .rrev f => some (resRaw 2 0x24 f)
  | .rstat f => some (resRaw 2 0x25 f)
  | .rquota f => some (resRaw 2 0x26 f)
  | .cpy f => some (op3Raw 2 0x40 f)
  | .sleepu f => some (op3Raw 2 0x41 f)
  | .sleepuChk f => some (op3Raw 2 0x42 f)
  | .barx f => some (op3Raw 2 0x43 f)
  | .bar f => some (op3Raw 2 0x44 f)
  | .barc f => some (op3Raw 2 0x45 f)
  | .bart f => some (op3Raw 2 0x46 f)
  | .barg f => some (op3Raw 2 0x47 f)
  | .nop f => some (op3Raw 3 0x00 f)
  | .bra f => some (op3Raw 3 0x01 f)
  | .brx f => some (op3Raw 3 0x02 f)
  | .call f => some (op3Raw 3 0x03 f)
  | .callx f => some (op3Raw 3 0x04 f)
  | .ret f => some (op3Raw 3 0x05 f)
  | .jopen f => some (op3Raw 3 0x06 f)
  | .join f => some (op3Raw 3 0x07 f)
  | .eject f => some (op3Raw 3 0x08 f)
  | .rejoin f => some (op3Raw 3 0x09 f)
  | .enrol f => some (op3Raw 3 0x0A f)
  | .bwaitm f => some (op3Raw 3 0x0B f)
  | .bsz f => some (op3Raw 3 0x0C f)
  | .bsnz f => some (op3Raw 3 0x0D f)
  | .loop f => some (op3Raw 3 0x0E f)
  | .exit f => some (op3Raw 3 0x0F f)
  | .launch f => some (op3Raw 3 0x12 f)
  | .fence f => some (op3Raw 3 0x20 f)
  | .regroup f => some (op3Raw 3 0x30 f)
  | .regroupHome f => some (op3Raw 3 0x31 f)
  | .cqstat f => some (op3Raw 3 0x32 f)
  | .trap f => some (op3Raw 3 0x60 f)
  | .tret f => some (op3Raw 3 0x61 f)
  | .yieldl f => some (op3Raw 3 0x62 f)
  | .mrs f => some (op3Raw 3 0x63 f)
  | .msr f => some (op3Raw 3 0x64 f)
  | .bkpt f => some (op3Raw 3 0x65 f)
  | .wpt f => some (op3Raw 3 0x66 f)
  | .pcnt f => some (op3Raw 3 0x67 f)
  | .trc f => some (op3Raw 3 0x68 f)
  | .halt f => some (op3Raw 3 0x69 f)
  | .tlbinv f => some (op3Raw 3 0x6A f)
  | .trapEntryPop _ => none
  | .joinCompletion _ => none
  | .bwaitmRelease _ _ => none
  | .continuationGroupForm _ => none
  | .regroupCompletion _ _ => none
  | .regroupTimeout _ _ => none
  | .relocationEnd _ _ => none
  | .slotArbitration _ _ => none
  | .llWindowEnd _ => none
  | .slewWindowEnd _ => none
  | .sleepuWake _ => none
  | .sleepuChkWake _ => none
  | .loadDataReturn _ => none
  | .storePerform _ => none
  | .atomicPerform _ => none
  | .releaseMarkerMet _ => none
  | .spillFillComplete _ => none
  | .pageWalkComplete _ => none
  | .transactionCommit _ => none
  | .transactionTimeout _ _ => none
  | .tokenGrant _ => none
  | .copyJobDelivery _ _ => none
  | .copyJobFinish _ => none
  | .pageMigration _ => none
  | .completionRecordWrite _ => none
  | .coreBarrierPhaseComplete _ _ => none
  | .barrierSlotComplete _ _ => none
  | .matrixOpExecute _ => none
  | .matrixOpRetire _ => none
  | .residencyRefill _ _ => none
  | .rloadFillComplete _ _ => none
  | .mwaitComplete _ => none
  | .packetFetch _ => none
  | .waitConditionCheck _ => none
  | .gridRelease _ => none
  | .deviceQueueEnqueue _ => none
  | .teamClaim _ _ => none
  | .teamPlacement _ => none
  | .coresidentPlacement _ => none
  | .teamStart _ => none
  | .ageingLimitReached _ => none
  | .sliceExpiry => none
  | .preemptGraceExpiry _ => none
  | .groupSave _ => none
  | .teamSave _ => none
  | .teamResume _ => none
  | .teamRetire _ => none
  | .gridRetire _ => none
  | .qtailWrite _ _ => none
  | .queueEnable _ _ => none
  | .queueDisable _ _ => none
  | .qstatFltClear _ => none
  | .qstatOvrClear _ => none
  | .mbinWrite _ _ => none
  | .mboutPost _ => none
  | .hostWindowWrite _ _ _ => none
  | .hostWindowRead _ _ _ => none
  | .functionLevelReset _ => none
  | .contextDisable _ => none
  | .eventRingEnable _ _ => none
  | .erstatWrite _ => none
  | .eventRingDrain _ => none
  | .shootDownStart _ _ => none
  | .shootDownComplete _ => none
  | .ovchkWrite _ _ => none
  | .lmapWrite _ _ _ => none
  | .xsGrantWrite _ _ _ => none
  | .chaltHalt _ => none
  | .chaltRelease _ => none
  | .chaltDump _ => none
  | .contextStopped _ => none
  | .dieReset _ => none
  | .dieFence _ => none
  | .dieFenceRelease _ => none
  | .dieDrop _ => none
  | .dieFatalError _ => none
  | .dieSelfTestEnd _ _ => none
  | .baseFatalError => none
  | .cellReceive _ _ => none
  | .cellNakReceive _ _ => none
  | .linkRetrain _ _ => none
  | .diePortDown _ _ => none
  | .remoteAccessReceive _ _ => none
  | .dopWrite _ _ => none
  | .clockRelockComplete _ => none
  | .passWrite _ _ => none
  | .swalWrite _ _ => none
  | .slewWrite _ _ => none
  | .powerCapControl _ _ _ => none
  | .thermalThreshold _ _ => none
  | .leakDetected => none
  | .leakCleared => none
  | .mainEnHigh => none
  | .railsInRegulation => none
  | .mainInputDropout => none
  | .coldReset => none
  | .leaseNAssert => none
  | .bctlLrst => none
  | .bctlGo => none
  | .bootSelfTestComplete _ => none
  | .scrubComplete => none
  | .imageMeasured _ => none
  | .smbusLeaseReset => none
  | .smbusWriteLimits _ => none
  | .smbusReadRecord => none
  | .smbusReadLimits => none
  | .smbusReadCoolant => none
  | .registerWrite _ _ _ => none
  | .instructionFetch _ => none
  | .issueSlotCharge => none
  | .linkTraining _ _ => none
  | .vfEnable => none

/-- The word of an instruction (R104); `none` for a step that is no instruction word. -/
def encode (i : Instr) : Option InsnWord := i.toRaw?.map Raw.word

end Sys2Proof
end

