-- ==== Sys2Proof/Machine/Number.lean ====
section
/-! DEFINITION. Number formats and exact arithmetic (08_numbers R180 to R191): decoding an encoding to an exact value, one
rounding of an exact value into a format, range and special values, and the functions of R210 to R213 on encodings. A
result is a pair of bits and raised flags. -/

namespace Sys2Proof.Machine

/-! ## Formats -/

/-- How a format spends its all-ones exponent (08 R181). -/
inductive Specials where
  /-- infinities and NaNs -/
  | ieee
  /-- one NaN code, no infinity -/
  | e4m3
  /-- every code finite -/
  | finite
deriving DecidableEq, Repr

/-- A floating-point format: exponent and fraction bits, bias, specials (08 R181). -/
structure Fmt where
  e : Nat
  m : Nat
  bias : Nat
  sp : Specials
  /-- IEEE overflow (R189), or saturation to the largest finite value -/
  sat : Bool
deriving DecidableEq, Repr

/-- f64 (08 R181). -/
def fmt64 : Fmt := ⟨11, 52, 1023, .ieee, false⟩
/-- f32 (08 R181). -/
def fmt32 : Fmt := ⟨8, 23, 127, .ieee, false⟩
/-- f16 (08 R181). -/
def fmt16 : Fmt := ⟨5, 10, 15, .ieee, false⟩
/-- bf16 (08 R181). -/
def fmtB16 : Fmt := ⟨8, 7, 127, .ieee, false⟩

end Sys2Proof.Machine

namespace Sys2Proof

open Machine in
/-- The format of a floating-point type; binary32 for any other (08 R181). -/
def Ty.fmt : Ty → Fmt
  | .f64 => fmt64
  | .f16 => fmt16
  | .bf16 => fmtB16
  | .e5m2 => ⟨5, 2, 15, .ieee, true⟩
  | .e4m3 => ⟨4, 3, 7, .e4m3, true⟩
  | .e3m2 => ⟨3, 2, 3, .finite, true⟩
  | .e2m3 => ⟨2, 3, 1, .finite, true⟩
  | .e2m1 => ⟨2, 1, 1, .finite, true⟩
  | _ => fmt32

end Sys2Proof

namespace Sys2Proof.Machine

/-- The width of a format in bits (08 R181). -/
def Fmt.width (f : Fmt) : Nat := 1 + f.e + f.m

/-- The largest exponent field of a finite value, and the largest fraction beside it. -/
def Fmt.topExp (f : Fmt) : Nat := match f.sp with | .ieee => 2 ^ f.e - 2 | _ => 2 ^ f.e - 1
/-- The greatest fraction of a finite value at the top exponent (08 R181). -/
def Fmt.topFrac (f : Fmt) : Nat := match f.sp with | .e4m3 => 2 ^ f.m - 2 | _ => 2 ^ f.m - 1

/-- The largest finite encoding without sign. -/
def Fmt.maxBits (f : Fmt) : Nat := f.topExp * 2 ^ f.m + f.topFrac

/-- The infinity without sign. -/
def Fmt.infBits (f : Fmt) : Nat := (2 ^ f.e - 1) * 2 ^ f.m

/-- The default NaN (08 R182); +0 where the format has none (R189). -/
def Fmt.nanBits (f : Fmt) : Nat :=
  match f.sp with
  | .ieee => if f.sat then 0x7F else f.infBits + 2 ^ (f.m - 1)
  | .e4m3 => 0x7F
  | .finite => 0

/-- The sign as a number in its place. -/
def Fmt.signBit (f : Fmt) (neg : Bool) : Nat := if neg then 2 ^ (f.e + f.m) else 0

/-! ## Flags (08 R191) -/

/-- INV (08 R191). -/
def flagINV : Word := 1
/-- DBZ (08 R191). -/
def flagDBZ : Word := 2
/-- OVF (08 R191). -/
def flagOVF : Word := 4
/-- UNF (08 R191). -/
def flagUNF : Word := 8
/-- INX (08 R191). -/
def flagINX : Word := 16
/-- SAT (08 R191). -/
def flagSAT : Word := 32

/-- An encoding and the flags raised. -/
abbrev FRes := Nat × Word

/-! ## Exact values -/

/-- An exact value: a finite value is (-1)^neg × man × 2^exp. -/
inductive FVal where
  | nan (signalling : Bool)
  | inf (neg : Bool)
  | fin (neg : Bool) (man : Nat) (exp : Int)
deriving DecidableEq, Repr

/-- The value of an encoding (08 R181, R182). -/
def Fmt.decode (f : Fmt) (bits : Nat) : FVal :=
  let frac := bits % 2 ^ f.m
  let ex := bits / 2 ^ f.m % 2 ^ f.e
  let neg := decide (bits / 2 ^ (f.e + f.m) % 2 = 1)
  let special := match f.sp with
    | .ieee => decide (ex = 2 ^ f.e - 1)
    | .e4m3 => decide (ex = 2 ^ f.e - 1 ∧ frac = 2 ^ f.m - 1)
    | .finite => false
  if special then
    (if f.sp = .ieee ∧ frac = 0 then .inf neg
     else .nan (f.sp = .ieee && !f.sat && frac < 2 ^ (f.m - 1)))
  else if ex = 0 then .fin neg frac (1 - f.bias - f.m)
  else .fin neg (2 ^ f.m + frac) (ex - f.bias - f.m)

/-- A NaN. -/
def FVal.isNan : FVal → Bool
  | .nan _ => true
  | _ => false

/-- A signalling NaN. -/
def FVal.isSnan : FVal → Bool
  | .nan b => b
  | _ => false

/-- A zero. -/
def FVal.isZero : FVal → Bool
  | .fin _ 0 _ => true
  | _ => false

/-- An infinity. -/
def FVal.isInf : FVal → Bool
  | .inf _ => true
  | _ => false

/-- The value with its sign inverted. -/
def FVal.neg? : FVal → Bool
  | .nan _ => false
  | .inf n => n
  | .fin n _ _ => n

/-! ## Rounding -/

/-- Rounding of magnitudes: one of the modes of R187, or `.rs` with its random byte (08 R187, R188). `m` is the kept
magnitude, `rem` of 2^`sh` the discarded part, `sticky` a further non-zero part below it. -/
def roundUp (rm : Rm) (rnd : Nat) (neg : Bool) (m rem sh : Nat) (sticky : Bool) : Bool :=
  let inexact := decide (rem ≠ 0) || sticky
  match rm with
  | .rn => decide (2 ^ sh < 2 * rem) || (decide (2 * rem = 2 ^ sh) && (sticky || decide (m % 2 = 1)))
  | .rz => false
  | .ru => !neg && inexact
  | .rd => neg && inexact
  | .rs => inexact && decide (256 ≤ 256 * rem / 2 ^ sh + rnd)

/-- Position of the leading bit. -/
def leadBit (q : Nat) : Nat := Nat.log2 q

/-- One rounding of the exact magnitude (q + δ) × 2^e, with 0 < δ < 1 when `sticky` and δ = 0 otherwise, into a format,
then its range (08 R187 to R189, R191). -/
def Fmt.round (f : Fmt) (rm : Rm) (rnd : Nat) (neg : Bool) (q : Nat) (e : Int) (sticky : Bool) : FRes :=
  if q = 0 ∧ !sticky then (f.signBit neg, 0)
  else
    let low : Int := 1 - f.bias - f.m
    let u : Int := if q = 0 then low else max (e + leadBit q - f.m) low
    let sh := (u - e).toNat
    let m := q * 2 ^ (e - u).toNat / 2 ^ sh
    let rem := q * 2 ^ (e - u).toNat % 2 ^ sh
    let inexact := decide (rem ≠ 0) || sticky
    let m' := m + if roundUp rm rnd neg m rem sh sticky then 1 else 0
    let (m', u) : Nat × Int := if m' = 2 ^ (f.m + 1) then (2 ^ f.m, u + 1) else (m', u)
    let inx := if inexact then flagINX else 0
    let ex : Int := u + f.m + f.bias
    let bits : Int := if m' < 2 ^ f.m then m' else ex * (2 ^ f.m : Nat) + (m' - 2 ^ f.m : Nat)
    if (f.maxBits : Int) < bits then
      if f.sat then (f.signBit neg + f.maxBits, flagOVF ||| flagSAT ||| flagINX)
      else
        let toInf := match rm with
          | .rz => false
          | .ru => !neg
          | .rd => neg
          | _ => true
        (f.signBit neg + (if toInf then f.infBits else f.maxBits), flagOVF ||| flagINX)
    else
      let unf := if inexact && decide (m' ≠ 0) && decide (m' < 2 ^ f.m) then flagUNF else 0
      (f.signBit neg + bits.toNat, inx ||| unf)

/-- The default NaN, with INV when asked. -/
def Fmt.nan (f : Fmt) (inv : Bool) : FRes := (f.nanBits, if inv then flagINV else 0)

/-- An infinity of a format that has one. -/
def Fmt.inf (f : Fmt) (neg : Bool) : FRes := (f.signBit neg + f.infBits, 0)

/-! ## Sums and products -/

/-- A term of an exact sum. -/
abbrev Term := Bool × Nat × Int

/-- The exact sum of finite terms rounded once, with the sign of an exact zero by R187. -/
def Fmt.sum (f : Fmt) (rm : Rm) (ts : List Term) : FRes :=
  let base := ts.foldl (fun m t => min m t.2.2) ((ts.head?.map (·.2.2)).getD 0)
  let total : Int := ts.foldl (fun a t =>
    let v : Int := (t.2.1 * 2 ^ (t.2.2 - base).toNat : Nat)
    if t.1 then a - v else a + v) 0
  if total = 0 then
    if ts.all fun t => t.2.1 = 0 && !t.1 then (f.signBit false, 0)
    else if ts.all fun t => t.2.1 = 0 && t.1 then (f.signBit true, 0)
    else (f.signBit (rm = .rd), 0)
  else f.round rm 0 (total < 0) total.natAbs base false

/-- The product of two values as a term, where both are finite. -/
def mulTerm (a b : FVal) : FVal :=
  match a, b with
  | .nan x, .nan y => .nan (x || y)
  | .nan x, _ => .nan x
  | _, .nan y => .nan y
  | .inf n, b => if b.isZero then .nan true else .inf (n != b.neg?)
  | a, .inf n => if a.isZero then .nan true else .inf (a.neg? != n)
  | .fin n m e, .fin n' m' e' => .fin (n != n') (m * m') (e + e')

/-- The sum of values rounded once. A term that is an invalid product stands as a signalling NaN (08 R187, R210). -/
def Fmt.sumVals (f : Fmt) (rm : Rm) (snan : Bool) (vs : List FVal) : FRes :=
  let inv := snan || vs.any FVal.isSnan
  let pos := vs.any fun v => v.isInf && !v.neg?
  let neg := vs.any fun v => v.isInf && v.neg?
  if vs.any FVal.isNan || (pos && neg) then f.nan (inv || (pos && neg))
  else
    if pos then f.inf false
    else if neg then f.inf true
    else f.sum rm (vs.map fun
      | .fin n m e => (n, m, e)
      | _ => (false, 0, 0))

/-- The sum, rounded once (09 R210). -/
def Fmt.add (f : Fmt) (rm : Rm) (a b : Nat) : FRes := f.sumVals rm false [f.decode a, f.decode b]

/-- The value with its sign inverted; a NaN stays. -/
def FVal.negate : FVal → FVal
  | .nan s => .nan s
  | .inf n => .inf (!n)
  | .fin n m e => .fin (!n) m e

/-- The difference, rounded once (09 R210). -/
def Fmt.sub (f : Fmt) (rm : Rm) (a b : Nat) : FRes := f.sumVals rm false [f.decode a, (f.decode b).negate]

/-- A product; a quiet NaN operand raises nothing, 0 × ∞ and a signalling NaN raise INV (08 R210). -/
def Fmt.mul (f : Fmt) (rm : Rm) (a b : Nat) : FRes :=
  match mulTerm (f.decode a) (f.decode b) with
  | .nan i => f.nan i
  | .inf n => f.inf n
  | .fin n m e => f.round rm 0 n m e false

/-- The product plus an addend, rounded once (09 R210). -/
def Fmt.fma (f : Fmt) (rm : Rm) (a b c : Nat) : FRes :=
  f.sumVals rm false [mulTerm (f.decode a) (f.decode b), f.decode c]

/-- Rounds the exact quotient of two positive magnitudes times a power of two. -/
def Fmt.quot (f : Fmt) (rm : Rm) (neg : Bool) (n d : Nat) (e : Int) : FRes :=
  let k := 2 * f.m + 8 + leadBit d
  let x := n * 2 ^ k
  f.round rm 0 neg (x / d) (e - k) (decide (x % d ≠ 0))

/-- The quotient, rounded once (09 R210). -/
def Fmt.div (f : Fmt) (rm : Rm) (a b : Nat) : FRes :=
  let x := f.decode a
  let y := f.decode b
  let neg := x.neg? != y.neg?
  if x.isNan || y.isNan then f.nan (x.isSnan || y.isSnan)
  else match x, y with
    | .inf _, .inf _ => f.nan true
    | .inf _, _ => f.inf neg
    | _, .inf _ => (f.signBit neg, 0)
    | .fin _ m e, .fin _ m' e' =>
      if m' = 0 then (if m = 0 then f.nan true else ((f.inf neg).1, flagDBZ))
      else if m = 0 then (f.signBit neg, 0)
      else f.quot rm neg m m' (e - e')
    | _, _ => f.nan false

/-- a × 2^b (08 R210). -/
def Fmt.scl (f : Fmt) (rm : Rm) (a : Nat) (b : Int) : FRes :=
  match f.decode a with
  | .nan s => f.nan s
  | .inf n => f.inf n
  | .fin n m e =>
    let b := max (-5000) (min 5000 b)
    f.round rm 0 n m (e + b) false

/-- a0 × b0 + a1 × b1 + c into binary32 (08 R210). -/
def Fmt.dp2 (f : Fmt) (rm : Rm) (a b c : Nat) : FRes :=
  fmt32.sumVals rm false
    [mulTerm (f.decode (a % 2 ^ 16)) (f.decode (b % 2 ^ 16)),
     mulTerm (f.decode (a / 2 ^ 16 % 2 ^ 16)) (f.decode (b / 2 ^ 16 % 2 ^ 16)), fmt32.decode c]

/-! ## Comparison -/

/-- The order of two values that are not NaN; -0 and +0 are equal. -/
def FVal.cmp (a b : FVal) : Ordering :=
  let key (v : FVal) : Bool × Nat × Int :=
    match v with
    | .fin n m e => (n, m, e)
    | .inf n => (n, 1, 100000)
    | .nan _ => (false, 0, 0)
  let (n, m, e) := key a
  let (n', m', e') := key b
  let base := min e e'
  let x : Int := (m * 2 ^ (e - base).toNat : Nat)
  let y : Int := (m' * 2 ^ (e' - base).toNat : Nat)
  compare (if n then -x else x) (if n' then -y else y)

/-- `min` (`less`) and `max` of R211: one NaN gives the other operand; -0 counts as less than +0. -/
def Fmt.minmax (f : Fmt) (less : Bool) (a b : Nat) : FRes :=
  let x := f.decode a
  let y := f.decode b
  let inv := if x.isSnan || y.isSnan then flagINV else 0
  if x.isNan && y.isNan then (f.nanBits, inv)
  else if x.isNan then (b, inv)
  else if y.isNan then (a, inv)
  else
    let o := match x.cmp y with
      | .eq => if x.neg? && !y.neg? then Ordering.lt else if !x.neg? && y.neg? then .gt else .eq
      | o => o
    (match o with
     | .lt => if less then a else b
     | .gt => if less then b else a
     | .eq => a, 0)

/-! ## Square roots -/

/-- The integer square root, bit by bit from bit `n` down. -/
def isqrt (x : Nat) : Nat → Nat → Nat
  | 0, r => if (r + 1) * (r + 1) ≤ x then r + 1 else r
  | n + 1, r => isqrt x n (if (r + 2 ^ (n + 1)) * (r + 2 ^ (n + 1)) ≤ x then r + 2 ^ (n + 1) else r)

/-- The integer square root. -/
def natSqrt (x : Nat) : Nat := isqrt x (leadBit x / 2 + 1) 0

/-- A magnitude with an even exponent: m × 2^(2t). -/
def evenExp (m : Nat) (e : Int) : Nat × Int := if e % 2 = 0 then (m, e / 2) else (2 * m, (e - 1) / 2)

/-- The square root (09 R212). -/
def Fmt.sqrt (f : Fmt) (rm : Rm) (a : Nat) : FRes :=
  match f.decode a with
  | .nan s => f.nan s
  | .inf n => if n then f.nan true else f.inf false
  | .fin n m e =>
    if m = 0 then (f.signBit n, 0)
    else if n then f.nan true
    else
      let (m, t) := evenExp m e
      let k := f.m + 8
      let x := m * 2 ^ (2 * k)
      let q := natSqrt x
      f.round rm 0 false q (t - k) (decide (q * q ≠ x))

/-- The reciprocal square root (09 R212). -/
def Fmt.rsq (f : Fmt) (rm : Rm) (a : Nat) : FRes :=
  match f.decode a with
  | .nan s => f.nan s
  | .inf n => if n then f.nan true else (0, 0)
  | .fin n m e =>
    if m = 0 then ((f.inf n).1, flagDBZ)
    else if n then f.nan true
    else
      let (m, t) := evenExp m e
      let k := 2 * f.m + 16 + leadBit m
      let x := 2 ^ (2 * k) / m
      let q := natSqrt x
      f.round rm 0 false q (-t - k) (decide (q * q * m ≠ 2 ^ (2 * k)))

/-- The reciprocal (09 R212). -/
def Fmt.rcp (f : Fmt) (rm : Rm) (a : Nat) : FRes :=
  match f.decode a with
  | .nan s => f.nan s
  | .inf n => (f.signBit n, 0)
  | .fin n m e => if m = 0 then ((f.inf n).1, flagDBZ) else f.quot rm n 1 m (-e)

/-! ## Functions whose value is irrational

A value is enclosed at W fractional bits by an integer with an error bound of 2^20 units; the enclosure is refined until
both its ends round alike. -/

/-- Sum of x^(2k+1) / (2k+1) at W bits: the inverse hyperbolic tangent. `p` is the current odd power. -/
def atanhSum (w x2 : Nat) : Nat → Nat → Nat → Nat → Nat
  | 0, _, _, acc => acc
  | n + 1, p, k, acc => atanhSum w x2 n (p * x2 / 2 ^ w) (k + 2) (acc + p / k)

/-- atanh(x / 2^w) for 0 ≤ x / 2^w ≤ 1/3, at w bits. -/
def atanhFix (w x : Nat) : Nat := atanhSum w (x * x / 2 ^ w) (w / 3 + 2) x 1 0

/-- ln 2 at w bits. -/
def ln2Fix (w : Nat) : Nat := 2 * atanhFix w (2 ^ w / 3)

/-- Sum of x^k / k! at w bits; `t` is the current term. -/
def expSum (w x : Nat) : Nat → Nat → Nat → Nat → Nat
  | 0, _, _, acc => acc
  | n + 1, t, k, acc => expSum w x n (t * x / 2 ^ w / k) (k + 1) (acc + t)

/-- e^(x / 2^w) for 0 ≤ x / 2^w ≤ 1, at w bits. -/
def expFix (w x : Nat) : Nat := expSum w x (w / 4 + 16) (2 ^ w) 1 0

/-- Alternating sum for sine and cosine: `t` the current term, `k` the factorial step. -/
def trigSum (w x2 : Nat) : Nat → Nat → Nat → Int → Bool → Int
  | 0, _, _, acc, _ => acc
  | n + 1, t, k, acc, neg =>
    trigSum w x2 n (t * x2 / 2 ^ w / (k * (k + 1))) (k + 2) (if neg then acc - t else acc + t) (!neg)

/-- The sine of a fixed-point value. -/
def sinFix (w x : Nat) : Nat := (trigSum w (x * x / 2 ^ w) (w / 8 + 12) x 2 0 false).toNat
/-- The cosine of a fixed-point value. -/
def cosFix (w x : Nat) : Nat := (trigSum w (x * x / 2 ^ w) (w / 8 + 12) (2 ^ w) 1 0 false).toNat

/-- Alternating sum for the inverse tangent of 1/d. -/
def atanInv (w d : Nat) : Nat → Nat → Nat → Int → Bool → Int
  | 0, _, _, acc, _ => acc
  | n + 1, t, k, acc, neg => atanInv w d n (t / (d * d)) (k + 2) (if neg then acc - (t / k : Nat) else acc + (t / k : Nat)) (!neg)

/-- π at w bits, by Machin's formula. -/
def piFix (w : Nat) : Nat :=
  (16 * atanInv w 5 (w / 4 + 4) (2 ^ w / 5) 1 0 false - 4 * atanInv w 239 (w / 15 + 4) (2 ^ w / 239) 1 0 false).toNat

/-- Rounds an enclosure of a positive magnitude v × 2^(s - w), known to 2^20 units, where both ends agree. -/
def Fmt.agree (f : Fmt) (rm : Rm) (neg : Bool) (w : Nat) (v : Nat) (s : Int) : Option FRes :=
  if v ≤ 2 ^ 20 then none
  else
    let lo := f.round rm 0 neg (v - 2 ^ 20) (s - w) true
    let hi := f.round rm 0 neg (v + 2 ^ 20) (s - w) true
    if lo = hi then some lo else none

/-- Refines an enclosure until it rounds; the precisions listed exceed what any operand of the formats needs. -/
def Fmt.refine (f : Fmt) (rm : Rm) (neg : Bool) (v : Nat → Nat) (s : Int) : List Nat → FRes
  | [] => f.round rm 0 neg (v 96) (s - 96) true
  | w :: ws =>
    match f.agree rm neg w (v w) s with
    | some r => r
    | none => f.refine rm neg v s ws

/-- The working precisions tried in turn until rounding is certain. -/
def precisions : List Nat := [96, 192, 384, 768, 1536]

/-- A dyadic magnitude at w bits, truncated. -/
def dyadicFix (w m : Nat) (e : Int) : Nat := m * 2 ^ (e + w).toNat / 2 ^ (-(e + w)).toNat

/-- The floor of a finite value and the fraction above it as a dyadic. -/
def floorFrac (n : Bool) (m : Nat) (e : Int) : Int × Nat × Int :=
  if 0 ≤ e then ((if n then -1 else 1) * ((m * 2 ^ e.toNat : Nat) : Int), 0, 0)
  else
    let d := 2 ^ (-e).toNat
    let i := m / d
    let r := m % d
    if !n then (i, r, e) else if r = 0 then (-(i : Int), 0, e) else (-(i : Int) - 1, d - r, e)

/-- 2^x (08 R212). -/
def Fmt.exp2 (f : Fmt) (rm : Rm) (a : Nat) : FRes :=
  match f.decode a with
  | .nan s => f.nan s
  | .inf n => if n then (0, 0) else f.inf false
  | .fin n m e =>
    if m ≠ 0 ∧ (12 : Int) < e + leadBit m then f.round rm 0 false 1 (if n then -5000 else 5000) true
    else
      let (i, r, e') := floorFrac n m e
      if r = 0 then f.round rm 0 false 1 i false
      else f.refine rm false (fun w => expFix w (dyadicFix w r e' * ln2Fix w / 2 ^ w)) i precisions

/-- log₂ x (09 R212). -/
def Fmt.log2 (f : Fmt) (rm : Rm) (a : Nat) : FRes :=
  match f.decode a with
  | .nan s => f.nan s
  | .inf n => if n then f.nan true else f.inf false
  | .fin n m e =>
    if m = 0 then ((f.inf true).1, flagDBZ)
    else if n then f.nan true
    else
      let l := leadBit m
      let i : Int := e + l
      if m = 2 ^ l then f.round rm 0 (i < 0) i.natAbs 0 false
      else
        let lg (w : Nat) : Int :=
          i * (2 ^ w : Nat) + (2 * atanhFix w ((m - 2 ^ l) * 2 ^ w / (m + 2 ^ l)) * 2 ^ w / ln2Fix w : Nat)
        f.refine rm (i < 0) (fun w => (lg w).natAbs) 0 precisions

/-- sin(π r) or cos(π r) at w bits for a dyadic 0 ≤ r ≤ 1/2. -/
def sinPiFix (w r : Nat) (e : Int) : Nat :=
  let x := dyadicFix w r e
  if 4 * x ≤ 2 ^ w then sinFix w (x * piFix w / 2 ^ w) else cosFix w ((2 ^ w / 2 - x) * piFix w / 2 ^ w)

/-- The quadrant of x modulo 2 in half-turns: sign of the sine, and r in [0, 1/2] with |sin πx| = sin πr. -/
def quadrant (n : Bool) (m : Nat) (e : Int) : Bool × Nat × Int :=
  let e0 := min e (-1)
  let x := m * 2 ^ (e - e0).toNat
  let one := 2 ^ (-e0).toNat
  let x := x % (2 * one)
  let neg := n != decide (one ≤ x)
  let x := x % one
  (neg, if 2 * x ≤ one then x else one - x, e0)

/-- sin(πx) (09 R212). -/
def Fmt.sin (f : Fmt) (rm : Rm) (a : Nat) : FRes :=
  match f.decode a with
  | .nan s => f.nan s
  | .inf _ => f.nan true
  | .fin n m e =>
    let (neg, r, e0) := quadrant n m e
    if r = 0 then (f.signBit n, 0)
    else if 2 * r = 2 ^ (-e0).toNat then f.round rm 0 neg 1 0 false
    else f.refine rm neg (fun w => sinPiFix w r e0) 0 precisions

/-- cos(πx) = sin(π(|x| + 1/2)) (09 R212). -/
def Fmt.cos (f : Fmt) (rm : Rm) (a : Nat) : FRes :=
  match f.decode a with
  | .nan s => f.nan s
  | .inf _ => f.nan true
  | .fin _ m e =>
    let e0 := min e (-1)
    let x := m * 2 ^ (e - e0).toNat + 2 ^ (-e0).toNat / 2
    let (neg, r, e1) := quadrant false x e0
    if r = 0 then (0, 0)
    else if 2 * r = 2 ^ (-e1).toNat then f.round rm 0 neg 1 0 false
    else f.refine rm neg (fun w => sinPiFix w r e1) 0 precisions

/-- e^(-y) at w bits for a dyadic 0 ≤ y < 256. -/
def expNegFix (w m : Nat) (e : Int) : Nat :=
  let y := dyadicFix w m e
  let l := ln2Fix w
  let n := y / l
  2 ^ w * 2 ^ w / expFix w (y - n * l) / 2 ^ n

/-- tanh x (09 R212). -/
def Fmt.tanh (f : Fmt) (rm : Rm) (a : Nat) : FRes :=
  match f.decode a with
  | .nan s => f.nan s
  | .inf n => f.round rm 0 n 1 0 false
  | .fin n m e =>
    if m = 0 then (f.signBit n, 0)
    else if (5 : Int) < e + leadBit m then f.round rm 0 n (2 ^ 80 - 1) (-80) true
    else f.refine rm n (fun w =>
      let t := expNegFix w m (e + 1)
      (2 ^ w - t) * 2 ^ w / (2 ^ w + t)) 0 precisions

/-! ## Integral values and classes -/

/-- A finite value rounded to an integer by a mode: the integer and whether it differs from the value (09 R213; 08 R190). -/
def toIntegral (rm : Rm) (rnd : Nat) (n : Bool) (m : Nat) (e : Int) : Int × Bool :=
  if 0 ≤ e then ((if n then -1 else 1) * ((m * 2 ^ e.toNat : Nat) : Int), false)
  else
    let sh := (-e).toNat
    let q := m / 2 ^ sh
    let rem := m % 2 ^ sh
    let q := q + if roundUp rm rnd n q rem sh false then 1 else 0
    ((if n then -1 else 1) * (q : Int), decide (rem ≠ 0))

/-- `frnd` (09 R213). -/
def Fmt.frnd (f : Fmt) (rm : Rm) (a : Nat) : FRes :=
  match f.decode a with
  | .nan s => f.nan s
  | .inf _ => (a, 0)
  | .fin n m e =>
    let (i, inx) := toIntegral rm 0 n m e
    if inx then (if i = 0 then f.signBit n else (f.round rm 0 n i.natAbs 0 false).1, flagINX) else (a, 0)

/-- The class mask of `fcls` (09 R213). -/
def Fmt.fcls (f : Fmt) (a : Nat) : Nat :=
  match f.decode a with
  | .nan true => 2 ^ 0
  | .nan false => 2 ^ 1
  | .inf n => if n then 2 ^ 2 else 2 ^ 9
  | .fin n m _ =>
    if m = 0 then (if n then 2 ^ 5 else 2 ^ 6)
    else if m < 2 ^ f.m then (if n then 2 ^ 4 else 2 ^ 7)
    else (if n then 2 ^ 3 else 2 ^ 8)

/-! ## Conversions (08 R189, R190; 09 R219) -/

/-- Bounds of an integer type. -/
def intLo (signed : Bool) (w : Nat) : Int := if signed then -(2 ^ (w - 1) : Nat) else 0
/-- The greatest integer of a width. -/
def intHi (signed : Bool) (w : Nat) : Int := if signed then (2 ^ (w - 1) : Nat) - 1 else (2 ^ w : Nat) - 1

/-- Floating point to integer (08 R190). -/
def FVal.toInt (v : FVal) (rm : Rm) (signed : Bool) (w : Nat) : FRes :=
  match v with
  | .nan _ => (0, flagINV ||| flagSAT)
  | .inf n => (truncI w (if n then intLo signed w else intHi signed w), flagINV ||| flagSAT)
  | .fin n m e =>
    let (i, inx) := toIntegral rm 0 n m e
    if i < intLo signed w then (truncI w (intLo signed w), flagINV ||| flagSAT)
    else if intHi signed w < i then (truncI w (intHi signed w), flagINV ||| flagSAT)
    else (truncI w i, if inx then flagINX else 0)

/-- Into a floating-point format, rounded and then ranged (08 R189). -/
def Fmt.convert (f : Fmt) (rm : Rm) (rnd : Nat) (v : FVal) : FRes :=
  match v with
  | .nan s =>
    (f.nanBits, (if s || f.sp = .finite then flagINV else 0) ||| (if f.sp = .finite then flagSAT else 0))
  | .inf n =>
    if f.sp = .ieee then f.inf n else (f.signBit n + f.maxBits, flagSAT)
  | .fin n m e => f.round rm rnd n m e false

/-- Binary32 to E8M0 (08 R189; 09 R219). -/
def toE8m0 (rm : Rm) (rnd : Nat) (v : FVal) : FRes :=
  match v with
  | .nan s => (0xFF, if s then flagINV else 0)
  | .inf _ => (0xFF, flagINV)
  | .fin _ m e =>
    if m = 0 then (0, flagSAT ||| flagINX)
    else
      let l := leadBit m
      let low : Int := e + l
      let rem := m - 2 ^ l
      let up := match rm with
        | .rn => decide (2 ^ l < 2 * rem) || (decide (2 * rem = 2 ^ l) && decide ((low + 127) % 2 ≠ 0))
        | .ru => decide (rem ≠ 0)
        | .rs => decide (rem ≠ 0) && decide (256 ≤ 256 * rem / 2 ^ l + rnd)
        | _ => false
      let k := low + if up then 1 else 0
      if k < -127 then (0, flagSAT ||| flagINX)
      else if 127 < k then (0xFE, flagOVF ||| flagSAT ||| flagINX)
      else ((k + 127).toNat, if rem ≠ 0 then flagINX else 0)

/-- The value of an E8M0 code (08 R184). -/
def fromE8m0 (c : Nat) : FVal := if c = 0xFF then .nan false else .fin false 1 (c - 127)

end Sys2Proof.Machine
end

