-- ==== Sys2Proof/Config.lean ====
section
/-! DEFINITION. What the manual leaves open: constants without a body, so that nothing can be proved of their values.
A value that may differ each time is applied to a counter of the state (State.freeCount). -/

namespace Sys2Proof.Config

/-- A free byte: bytes of a save record, of a signature, of a self-test record (17_interrupts R412; 23_platform
R479). DESIGN CHOICE: a free value (log 4). -/
opaque freeByte : Nat → Byte

/-- A free 32-bit value: promises are estimates (11_memory_ops R278), throttling amounts (23_platform R485, R486).
DESIGN CHOICE: a free value (log 4). -/
opaque freeWord : Nat → Word

/-- A free number: a promise's distance, an order of choice. DESIGN CHOICE: a free value (log 4). -/
opaque freeNat : Nat → Nat

/-- The value that a 32-bit immediate gives to a 128-bit operand, which R107 does not state (05_encoding R107).
DEDUCED, a free value (log 8). -/
opaque imm128 : Word → QWord

/-- The secret number of each signature, drawn for it and drawn again while it gives no signature (23_platform R479; 00_scope
R8: ECDSA). DESIGN CHOICE: a free value (log 7). -/
opaque signNonce : List Byte → Nat → Nat

/-- The bytes of the unit map that MAPHASH is taken over, whose layout the manual does not give (23_platform R479).
DESIGN CHOICE: a free value (log 7). -/
opaque unitMapBytes : List Nat → List Nat → List Nat → List (Nat × Nat) → List Byte

/-- BOOTID, drawn at each cold reset (23_platform R479). DESIGN CHOICE: a free value (log 4). -/
opaque bootId : Nat → QWord

/-- The boot stage's version (23_platform R479). DESIGN CHOICE: a free value (log 4). -/
opaque romVersion : Word

/-- The form code, 0x01 or 0x02 (00_scope R1). DESIGN CHOICE: a free value (log 4). -/
opaque formIsModule : Bool

/-- The private identity key, derived from the base's physically unclonable function (23_platform R479). DESIGN CHOICE: a
free value (log 4). -/
opaque identitySecret : Nat

/-- The set of an L2 slice that a line takes, internal to the slice (10_memory R239). DESIGN CHOICE: a free value
(log 4). -/
opaque l2Set : Nat → Nat

/-- Inlet and outlet temperatures in units of 0.1 °C (23_platform R488). DESIGN CHOICE: a free value (log 4). -/
opaque coolant : Nat → Word

/-- The peer that a package link leads to (22_package R464: the topology of the package fabric). DESIGN CHOICE: a
free value (log 4). -/
opaque linkPeer : Nat → Nat

/-- The hash by which a 128-byte line chooses a member of a group of links (22_package R464). DESIGN CHOICE: a free value
(log 4). -/
opaque lineHash : Nat → Nat

/-- The destination endpoint of a cell, DEST (22_package R459), by what it is sent for. DESIGN CHOICE: a free value
(log 4). -/
opaque cellDest : Nat → Nat

end Sys2Proof.Config
end

