-- ==== Sys2Proof/Machine/State.lean ====
section
/-! DEFINITION. The state of the Talveur G8 as plain data, the reasons a step can stop, and the state after a cold
reset. Every field's comment gives what it is, its width, the rule that names it and its reset value, in that order.
Tables are sparse: an entry that is not listed has the default of its reading accessor. -/

namespace Sys2Proof.Machine

/-- Why the machine stops. -/
inductive Fault where
  /-- An instruction word was given to `exec` while no group is issuing: raised by every instruction's meaning, never by
  `step`. Safe: the device has no such situation, and nothing is claimed of it. -/
  | noIssuer
deriving DecidableEq, Repr

/-- Why an instruction is refused. -/
inductive Refusal where
  /-- The instruction has no meaning yet. Raised by an arm of `exec` that rejects by name. Safe: the machine stops. -/
  | notModelled (mnemonic : String)
deriving DecidableEq, Repr

/-! ## Threads and groups -/

/-- A trap raised in a lane (17_interrupts R390, R392). -/
structure Trap where
  lane : Nat
  cls : Nat
  det : QWord
deriving DecidableEq, Repr

/-- Why a lane that is still eligible waits at its instruction (06_issue R134). -/
inductive LaneWait where
  | none
  /-- Arrived at the core barrier object at an offset of its core, in a phase (15 R360). -/
  | coreBar (off : Nat) (ph : Bool)
  /-- Arrived at a slot of a barrier unit, in a phase (15 R363). -/
  | unitBar (unit slot : Nat) (ph : Bool)
  /-- In the collection set of a barrier (15 R358): identity, mask, and the count with which it arrives (R362). -/
  | collect (b : Nat) (mask : Word) (n : Option Nat)
  /-- At `bwaitm` with its bit set (07 R178). -/
  | rejoinMask (n : Nat)
  /-- Asleep until a context clock (11 R279). -/
  | sleep (t : DWord)
  /-- Asleep until a context clock, then checking a card offset (11 R280), with the latest job submitted before. -/
  | sleepChk (t : DWord) (off last : Nat)
  /-- Its spill write or fill read is in flight (07 R165). -/
  | window (id : Nat)
  /-- Taking part in a commit (15 R375), with the destination stack entry or 96 for none. -/
  | commit (dest : Nat)
  /-- At `mwait`, with the last operation of the group before it (12 R305). -/
  | mwait (last : Nat)
  /-- At `tlbinv` (17 R407), with the number of its shoot-down. -/
  | tlbinv (id : Nat)
  /-- At `pgreq` (11 R265), with the number of its records. -/
  | pgreq (id : Nat)
  /-- Arrived at a rendezvous (16 R379). -/
  | regroup
  /-- At `launch`, until the device queue has room (03 R76), with the number of the launch. -/
  | launch (id : Nat)
deriving DecidableEq, Repr

/-- Where a continuation returns to (07 R174): its home group, lane, entry position from the bottom and depth. -/
structure Home where
  gk : Nat
  lane : Nat
  entry : Nat
  cd : Nat
deriving DecidableEq, Repr

/-- A release that has been performed to a location, while its release sequence lasts (14 R341): its bytes, whether an access to
any of them reads it (a record, a signal, a commit) or only one of its own address and size, its scope and place, and what
happened before it: for each agent the number before which its accesses did. -/
structure RelNote where
  loc : Nat
  size : Nat
  whole : Bool
  scope : Scope
  core : Nat
  gk : Nat
  seen : Tbl Nat
deriving DecidableEq, Repr

/-- A thread's transaction state (15 R371) and its buffers (15 R373). -/
structure Tx where
  /-- ACT, in a transaction | 1 | 15 R371 | false -/
  act : Bool := false
  /-- TOK, holds its locality's serial token | 1 | 15 R371 | false -/
  tok : Bool := false
  /-- CODE of the last `xabort` | 8 | 15 R371 | 0 -/
  code : Nat := 0
  /-- CNT, aborts since the last commit | 8 | 15 R371 | 0 -/
  cnt : Nat := 0
  /-- CAUSE of the last abort | 8 | 15 R371, R374 | 0 -/
  cause : Nat := 0
  /-- TGT, the abort target | 32 | 15 R371 | 0 -/
  tgt : Word := 0
  /-- the context clock of `xbegin` | 64 | 15 R374 | 0 -/
  start : DWord := 0
  /-- words read and their values, by physical word | 32 each | 15 R373 | empty -/
  rset : Tbl Word := []
  /-- buffered bytes by physical address | 8 each | 15 R373 | empty -/
  wset : Tbl Byte := []
  /-- the home slice of each line of the two sets | 7 each | 10 R233; 15 R375 | empty -/
  homes : Tbl Nat := []
  /-- the run that translated each line of buffered bytes: first page and length | by line | 10 R250 | empty -/
  runs : Tbl (Nat × Nat) := []
  /-- a shoot-down waits for its buffered bytes | 1 | 10 R250 | false -/
  shot : Bool := false
deriving DecidableEq, Repr

/-- One thread (01_machine R21): what moves with it between lanes. -/
structure Thread where
  /-- `sr.tid` | 32 | 05 R116 | thread id at team start -/
  tid : Nat := 0
  /-- lane counter, `sr.lpc` | 32 | 06 R133 | 0 at team start -/
  lpc : Word := 0
  /-- the thread has exited | 1 | 07 R177 | false -/
  exited : Bool := false
  /-- the register stack under `w0`-`w31` | 96 x 32 | 07 R155 | 0 at team start -/
  stack : Tbl Word := []
  /-- `p0`-`p7`, bit k for pk; bit 0 unused | 8 | 01 R21, R22 | 0 at team start -/
  preds : BitVec 8 := 0
  /-- WB | 0, 24, 48 or 72 | 07 R155 | 0 at team start -/
  wb : Nat := 0
  /-- NRES | 0 or 1 | 07 R155 | 0 at team start -/
  nres : Nat := 0
  /-- CD | 16 | 07 R155 | 0 at team start -/
  cd : Nat := 0
  /-- NLS | 16 | 07 R155 | 0 at team start -/
  nls : Nat := 0
  /-- NGL | 16 | 07 R155 | 0 at team start -/
  ngl : Nat := 0
  /-- link[0]-link[3] | 4 x 32 | 07 R155 | 0 at team start -/
  links : Tbl Word := []
  /-- `sr.fpstat` | 32 | 08 R191 | 0 at team start -/
  fpstat : Word := 0
  /-- transaction state | see Tx | 15 R371 | zero at team start -/
  tx : Tx := {}
  /-- poisoned stack entries (0-95) and predicates (96 + k) with their origin | 8 each | 16 R387 | empty -/
  poison : Tbl Nat := []
  /-- stack entries and predicates (96 + k) that wait on a long-latency producer | 1 each | 06 R139, R141 | empty -/
  pend : List Nat := []
  /-- watchpoint address | 64 | 18 R427 | 0 at team start -/
  wpAddr : DWord := 0
  /-- watchpoint length | 16 | 18 R427 | 0 at team start -/
  wpLen : Nat := 0
  /-- watchpoint kind: bit 0 loads, bit 1 stores | 2 | 18 R427 | 0 at team start -/
  wpKind : BitVec 2 := 0
  /-- the next access is made with the watchpoint ignored | 1 | 18 R430 | false -/
  wpSkip : Bool := false
  /-- the next issue is made without matching a breakpoint | 1 | 18 R429 | false -/
  bkSkip : Bool := false
  /-- a class 16 detail to raise before the next instruction | 128 | 10 R490 | none -/
  late : Option QWord := none
  /-- a continuation's home | see Home | 07 R174 | none -/
  home : Option Home := none
  /-- what the thread waits for at its instruction | see LaneWait | 06 R134 | none -/
  wait : LaneWait := .none
  /-- the scope lent to the next strong write by a releasing fence | see Scope | 14 R342 | none -/
  fenceRel : Option Scope := none
  /-- what happened before the fence that lends it, by agent | counters | 14 R342 | empty -/
  fenceSeen : Tbl Nat := []
  /-- the flight of the latest strong read while it is in flight | counter | 14 R342 | none -/
  strongRead : Option Nat := none
  /-- the releases whose value the latest strong read returned, and its scope | lists | 14 R341, R342 | empty -/
  readFrom : List RelNote := []
  readScope : Scope := .none
  /-- by agent, the number before which its accesses happen before the thread's next access | counters | 14 R344 | empty at
  team start but for what R343 orders before it -/
  seen : Tbl Nat := []
deriving DecidableEq, Repr

/-- An entry of the join stack (07 R166; 17 R396). -/
inductive JoinEntry where
  | join (ecnt : Nat) (mask tgt arr : Word)
  | trap (cls : Nat) (pmask dmask qmask : Word)
deriving DecidableEq, Repr

/-- What a save keeps of a group's windows, predicates, tiles and scratch (17 R409). -/
structure Hint where
  windows : Word
  tiles : BitVec 16
  preds : BitVec 8
  ranges : List (Nat × Nat)
deriving DecidableEq, Repr

/-- A launch on its way to the device queue (03 R76): its number, the packet's bytes, the status scalar, the status, which is
none until the queue has room, the accesses that the group had in flight, and what happened before it (14 R343). -/
structure Launch where
  id : Nat
  pkt : List Byte
  d : Option Nat
  status : Option Nat
  after : List Nat
  seen : Tbl Nat := []
deriving DecidableEq, Repr

/-- A result of `ralloc`, `rstat` or `rquota` on its way (06 R139): scalar (384 none), registers, value, and the predicate (0
none) with the lanes and the value that it takes there. -/
structure Reply where
  d : Nat
  n : Nat
  v : Nat
  pf : Nat
  lanes : List Nat
  flag : Bool
deriving DecidableEq, Repr

/-- One group in a slot of a core (01_machine R21). -/
structure Group where
  /-- the team | counter | 04 R86 | set at placement -/
  team : Nat := 0
  /-- `sr.gid` | 32 | 05 R116 | group number at team start -/
  gid : Word := 0
  /-- team core j | 4 | 04 R83 | set at placement -/
  j : Nat := 0
  /-- a continuation group | 1 | 16 R388 | false -/
  isCont : Bool := false
  /-- an idle slot of its team | 1 | 16 R384 | false -/
  idle : Bool := false
  /-- `s0`-`s383` | 384 x 32 | 01 R21; 04 R92 | 0 but s0.d, s2, s3 at team start -/
  scal : Tbl Word := []
  /-- poisoned scalars with their origin | 8 each | 16 R387 | empty -/
  spoison : Tbl Nat := []
  /-- scalars that wait on a long-latency producer | 1 each | 06 R139 | empty -/
  spend : List Nat := []
  /-- `tm0`-`tm15` | 16 x 128 | 12 R291 | 0 at team start -/
  tm : Tbl QWord := []
  /-- the join stack, top first | 16 x 128 | 07 R166 | empty at team start -/
  joins : List JoinEntry := []
  /-- `rm0`-`rm3` | 4 x 32 | 07 R178 | 0 at team start -/
  rm : Tbl Word := []
  /-- `sr.tbase` | 32 | 05 R116 | TBASE at team start -/
  tbase : Word := 0
  /-- `sr.spillb` | 64 | 05 R116; 02 R45 | by R45 at team start -/
  spillb : DWord := 0
  /-- `sr.spilll` | 64 | 05 R116; 02 R45 | by R45 at team start -/
  spilll : DWord := 0
  /-- `sr.rgkey` | 32 | 05 R116 | 0xFFFF at team start -/
  rgkey : Word := 0xFFFF
  /-- `sr.rgtmo` | 32 | 05 R116 | 4096 at team start -/
  rgtmo : Word := 4096
  /-- `sr.fpen` | 32 | 08 R191 | 0 at team start -/
  fpen : Word := 0
  /-- the threads by lane; an unlisted lane is vacant | 32 | 02 R44; 07 R174 | set at team start -/
  lanes : Tbl Thread := []
  /-- trap-detail buffer, `sr.tdet0`-`sr.tdet3` of each lane | 32 x 128 | 17 R392 | 0 at team start -/
  tdet : Tbl QWord := []
  /-- RPC, the resume counter of each lane | 32 x 32 | 17 R395 | 0 at team start -/
  rpc : Tbl Word := []
  /-- lanes whose `tret` was `tret.skip` | 32 | 17 R399, R403 | 0 -/
  skips : Word := 0
  /-- rendezvous completed by this slot | counter | 16 R380 | 0 at team start -/
  rdvCount : Nat := 0
  /-- the main stream's next instruction was found held since the last clock | 1 | 06 R137 | false -/
  blockedMain : Bool := false
  /-- the same for the handler stream | 1 | 06 R135, R137 | false -/
  blockedHandler : Bool := false
  /-- stopped for pre-emption with this hint; `none` inside: saved in full | see Hint | 17 R408, R409 | none -/
  stop : Option (Option Hint) := none
  /-- the last matrix operation the group issued | counter | 12 R305 | 0 -/
  lastOp : Nat := 0
  /-- launches on their way to the device queue, oldest first | see Launch | 03 R76; 06 R139 | empty -/
  launches : List Launch := []
  /-- results of residency instructions on their way, oldest first | see Reply | 06 R139 | empty -/
  replies : List Reply := []
  /-- the group number of the idle slot that a continuation group took | 32 | 16 R385, R388 | none -/
  overGid : Option Word := none
deriving DecidableEq, Repr

/-! ## Grids, teams, queues -/

/-- The fields of a launch packet (02_describing_work R40, R41). -/
structure Packet where
  /-- the whole control word -/
  hdr : Word
  tbase : Word
  code : DWord
  gridx : Nat
  gridy : Nat
  gridz : Nat
  teamx : Nat
  teamy : Nat
  teamz : Nat
  res : BitVec 16
  scratch : Nat
  bars : Nat
  psize : Nat
  param : DWord
  spill : DWord
  spillsz : Nat
  rsv : Word
  w0addr : DWord
  w0val : DWord
  w1addr : DWord
  w1val : DWord
  sigaddr : DWord
  sigval : DWord
  ring : DWord
  corrid : DWord
deriving DecidableEq, Repr

/-- How far a grid is (02 R43-R47; 03 R64). -/
inductive GridStage where
  /-- fetched, wait conditions not all met -/
  | waiting
  /-- conditions met, not yet released -/
  | met
  /-- released to the dispatchers -/
  | released
  | ended
deriving DecidableEq, Repr

/-- A grid from its fetch to its grid record. -/
structure Grid where
  /-- the packet | 1024 | 02 R40 | as fetched -/
  pkt : Packet
  /-- function and context, ck = 16 fn + c | 9 | 03 R57, R72 | of the queue -/
  ck : Nat
  /-- the host queue, or that of the depth-1 ancestor | 6 | 03 R77 | of the queue -/
  q : Nat
  /-- launched from the device | 1 | 02 R54 | by the path -/
  dev : Bool
  /-- depth | 1-10 | 03 R78 | 1 from the host -/
  depth : Nat
  /-- the parent team of a child grid | counter | 03 R78 | none from the host -/
  parent : Option Nat
  stage : GridStage
  /-- wait conditions met | 2 | 02 R46 | false -/
  w0met : Bool := false
  w1met : Bool := false
  /-- the order of its release | counter | 03 R75 | 0 -/
  order : Nat := 0
  /-- the team counter | 64 | 03 R80 | 0 -/
  counter : Nat := 0
  /-- dispatchers that dropped the grid | 8 | 03 R80 | empty -/
  dropped : List Nat := []
  /-- teams claimed and not started: dispatcher and linear index, ascending | 64 each | 03 R80 | empty -/
  held : List (Nat × Nat) := []
  /-- teams retired | 64 | 18 R419 | 0 -/
  retired : Nat := 0
  /-- the grid slot: unit and number | 15 | 15 R361 | none -/
  gslot : Option (Nat × Nat) := none
  /-- wait timers by dispatcher | context clocks | 04 R95 | none -/
  timers : Tbl Nat := []
  /-- context clocks spent released and unplaced while the function lacks the slice | counter | 17 R416 | 0 -/
  waited : Nat := 0
  /-- its record is one of those that the queue's message follows: it was released or rejected | 1 | 03 R71 | false -/
  tells : Bool := false
  /-- a co-resident grid has been placed whole | 1 | 04 R99 | false -/
  placed : Bool := false
  /-- the clock in which its placement as a whole was last tried | counter | 04 R99 | 0 -/
  triedAt : Nat := 0
  /-- what happened before its launch, by agent | counters | 14 R343 | empty -/
  seen : Tbl Nat := []
deriving DecidableEq, Repr

/-- A continuation in the queue of a core (07 R174; 16 R388). -/
structure Cont where
  core : Nat
  th : Thread
  /-- delivered clocks since the ejection -/
  age : Nat
  /-- the clock of its ejection -/
  order : Nat
deriving DecidableEq, Repr

/-- A rendezvous of a team on a core (16 R380). -/
structure Rdv where
  core : Nat
  /-- `regroup.home` -/
  home : Bool
  mask : Word
  /-- the count it belongs to -/
  count : Nat
  /-- slots arrived, with each arrived thread's own counter held in the thread -/
  arrived : List Nat
  /-- the key of each arrived thread, by thread id -/
  keys : Tbl Nat
  /-- slot of the group that opened it -/
  opener : Nat
  /-- `sr.rgtmo` of the opener -/
  limit : Nat
  /-- delivered clocks since the opening -/
  timer : Nat
  /-- opened by a latecomer, which is its own domain -/
  alone : Bool
  /-- the relocation has begun; the domain is `arrived` -/
  moving : Bool
deriving DecidableEq, Repr

/-- A pre-empt request that has taken a reservation (17 R408, R412): clocks since the request and the range reserved. -/
structure Preempt where
  clocks : Nat
  off : Nat
  size : Nat
deriving DecidableEq, Repr

/-- A placed team (04 R86). -/
structure Team where
  /-- the grid | counter | 04 R86 | set at placement -/
  grid : Nat
  /-- linear team index | 64 | 02 R44 | set at placement -/
  idx : Nat
  /-- the dispatcher that placed it | 3 | 04 R88 | set at placement -/
  d : Nat
  /-- its cores in order j | 10 each | 04 R83 | set at placement -/
  cores : List Nat
  /-- scratch base granule b | 10 | 04 R86 | set at placement -/
  b : Nat
  /-- granule of each group's lane-slice run, by group number | 10 each | 04 R86 | set at placement -/
  laneRuns : Tbl Nat
  /-- accumulator tiles by core, ascending | 4 each | 04 R86 | set at placement -/
  tiles : Tbl (List Nat)
  /-- first weight slot of the team's run by core | 4 each | 04 R86 | set at placement -/
  wrun : Tbl Nat
  /-- barrier-unit slots, team slot 0 first | 12 each | 15 R361 | set at placement -/
  bars : List Nat
  /-- it has started: its groups are in arbitration | 1 | 04 R92 | false -/
  started : Bool
  /-- the clock of its start | counter | 06 R142 | at team start -/
  startAt : Nat
  /-- the clock of its placement | counter | 04 R93 | set at placement -/
  placedAt : Nat := 0
  /-- a pending pre-emption | see Preempt | 17 R408 | none -/
  pending : Option Preempt := none
  /-- it is asked to give its place up before it has started | 1 | 03 R82 | false -/
  yielding : Bool := false
  /-- open rendezvous and relocations | see Rdv | 16 R380 | empty -/
  rdvs : List Rdv := []
  /-- rendezvous completed on each core: one more than the highest completed number | counter | 16 R380 | 0 -/
  rdvDone : Tbl Nat := []
  /-- continuations queued | see Cont | 16 R388 | empty -/
  conts : List Cont := []
  /-- `pcnt` counts by core and selector: 64 core + selector | 64 each | 18 R425 | 0 at team start and resume -/
  pc : Tbl Nat := []
  /-- the core on which each team core j stood at each residency's allocation is kept in the residency;
  cores of the last save | 10 each | 13 R332; 17 R413 | empty -/
  saved : List Nat := []
deriving DecidableEq, Repr

/-- A team saved at pre-emption (17 R411): the team, its groups by team core and group order, and what it kept. -/
structure SavedTeam where
  team : Team
  /-- groups with their core number j and slot -/
  groups : List (Nat × Nat × Group)
  /-- saved scratch bytes by 2^19 j + offset -/
  scratch : Tbl Byte
  /-- poisoned words kept, by 2^17 j + word -/
  spois : List Nat
  /-- lane-slice bytes by 256 tid + offset -/
  slices : Tbl Byte
  /-- tiles saved, by (16 j + tile) 4096 + element -/
  acc : Tbl Word
  accPois : List Nat
  /-- barrier-unit slots in order: phase, arrivals, mode -/
  bars : List (Bool × Nat × Option (Option Nat))
  off : Nat
  size : Nat
deriving DecidableEq, Repr

/-- A packet read in progress (03 R61): the packet's number, its address, the bytes read so far, and whether EN has been set
anew since it began. -/
structure PacketRead where
  n : Word
  va : Nat
  bytes : List Byte
  anew : Bool
deriving DecidableEq, Repr

/-- A queue block (03 R60). -/
structure Queue where
  /-- QBASE | 64 | 03 R60 | 0 -/
  base : DWord := 0
  /-- QCTL:SIZE | 5 | 03 R60 | 0 -/
  size : Nat := 0
  /-- QCTL:EN | 1 | 03 R60 | false -/
  en : Bool := false
  /-- QTAIL | 32 | 03 R60 | 0 -/
  tail : Word := 0
  /-- QHEAD | 32 | 03 R60 | 0 -/
  head : Word := 0
  /-- QSTAT:FLT | 1 | 03 R60 | false -/
  flt : Bool := false
  /-- QSTAT:OVR | 1 | 03 R60 | false -/
  ovr : Bool := false
  /-- QSTAT:UNC | 1 | 03 R60 | false -/
  unc : Bool := false
  /-- QFAULT | 64 | 03 R60 | 0 -/
  fault : DWord := 0
  /-- the packet read in progress | see PacketRead | 03 R61, R63 | none -/
  read : Option PacketRead := none
deriving DecidableEq, Repr

/-- A shoot-down in progress or waiting (10 R249, R250): who asked (0 SDCTL, or the number of a `tlbinv` or of a migration job),
the range, and the flights counted. -/
structure Shoot where
  key : Nat
  vpg : Nat
  npg : Nat
  all : Bool
  /-- steps 1 and 2 are done -/
  begun : Bool
  waitFor : List Nat
deriving DecidableEq, Repr

/-- A context: its table entry and the registers of its firmware core (03 R69, R72). DESIGN CHOICE (log 3). -/
structure Ctx where
  /-- PTBASE | 64 | 03 R72 | 0 -/
  ptbase : DWord := 0
  /-- NOTIFY | 64 | 03 R72 | 0 -/
  notify : DWord := 0
  /-- SAVE | 64 | 03 R72 | 0 -/
  save : DWord := 0
  /-- CCTL:EN | 1 | 03 R72 | false -/
  en : Bool := false
  /-- SDADDR:VPG | 41 | 10 R249 | 0 -/
  sdaddr : Nat := 0
  /-- SDCTL:NPG | 9 | 10 R249 | 0 -/
  sdnpg : Nat := 0
  /-- SDCTL:ALL | 1 | 10 R249 | false -/
  sdall : Bool := false
  /-- shoot-downs, the running one first; GO reads 1 while one of SDCTL is listed | see Shoot | 10 R249, R250 | empty -/
  shoots : List Shoot := []
  /-- ISC | 64 | 10 R250 | DESIGN CHOICE 0 (log 3) -/
  isc : DWord := 0
  /-- OVCHK:EN | 1 | 14 R348 | false -/
  ovchk : Bool := false
  /-- OVCHK:EN as accesses issued in this clock see it | 1 | 14 R348 | false -/
  ovUsed : Bool := false
  /-- BKPT0-BKPT3 | 4 x 64 | 18 R429 | 0 -/
  bkpt : Tbl DWord := []
  /-- CHALT:HALT | 1 | 18 R431 | false -/
  halt : Bool := false
  /-- CHALT:STOPPED | 1 | 18 R431 | false -/
  stopped : Bool := false
  /-- CHALT:DUMP | 1 | 18 R431 | false -/
  dump : Bool := false
  /-- TRCBASE | 64 | 18 R426 | 0 -/
  trcbase : DWord := 0
  /-- TRCCTL | 32 | 18 R426 | 0 -/
  trcctl : Word := 0
  /-- records of trace written | 64 | 18 R426 | DESIGN CHOICE 0 (log 3) -/
  trcn : DWord := 0
  /-- LMAP0-LMAP3 | 4 x 64 | 22 R465 | 0 -/
  lmap : Tbl DWord := []
  /-- chip-scratchpad grants | 8 x 32 | 10 R231 | 0 -/
  grants : Tbl Word := []
  /-- `sr.ctime` | 64 | 05 R116; 01 R20 | DESIGN CHOICE 0 (log 3) -/
  ctime : DWord := 0
  /-- `sr.thrstat` | 32 | 17 R416 | 0 -/
  thrstat : Word := 0
  /-- bits of `sr.thrstat` that the device has set in this clock | 5 | 05 R117 | 0 -/
  thrNew : Word := 0
  /-- bits of `sr.thrstat` as this clock began, less those that `msr` has cleared since | 5 | 05 R117 | 0 -/
  thrOld : Word := 0
  /-- SEQ of the last notification | 64 | 17 R417 | 0 -/
  seq : DWord := 0
  /-- ranges of the save area held, offset and size | 64 each | 17 R412 | empty -/
  ranges : Tbl Nat := []
  /-- the device queue: grids in order | 256 | 03 R77 | empty -/
  devq : List Nat := []
deriving DecidableEq, Repr

/-- A record for an event ring (03 R67, R70): its bytes, the context whose clock gives its TIME when it is written (none for
the second record of a redirection), and the queue whose message follows it (03 R71). -/
structure EventRecord where
  bytes : List Byte
  time : Option Nat
  queue : Option (Nat × Nat) := none
  /-- the `pgreq` that waits for it, 0 for none (11 R265) -/
  tag : Nat := 0
  /-- the held record that becomes complete with it, 0 for none (02 R53) -/
  done : Nat := 0
deriving DecidableEq, Repr

/-- A function: its BAR0 page, its firmware core and event ring (03 R57, R68, R70). -/
structure Fn where
  /-- enabled (virtual functions) | 1 | 00 R8 | false but for function 0 -/
  enabled : Bool := false
  /-- MBIN, the last value written | 32 | 03 R57 | 0 -/
  mbin : Word := 0
  /-- MBOUT bit 0 | 1 | 03 R57 | false -/
  mbout : Bool := false
  /-- HWIN0-HWIN15 | 16 x 64 | 03 R57 | 0 -/
  hwin : Tbl DWord := []
  /-- MBUF | 3 KiB | 03 R57 | 0 -/
  mbuf : Tbl Byte := []
  /-- a mailbox event is pending at the firmware core | 1 | 03 R57 | false -/
  mbEvent : Bool := false
  /-- an event interrupt is pending at the firmware core | 1 | 03 R70 | false -/
  erEvent : Bool := false
  /-- ERBASE | 32 | 03 R70 | 0 -/
  erbase : Word := 0
  /-- ERCTL:EN | 1 | 03 R70 | false -/
  eren : Bool := false
  /-- ERCTL:SIZE | 5 | 03 R70 | 0 -/
  ersize : Nat := 0
  /-- ERWIDX | 32 | 03 R70 | 0 -/
  erw : Word := 0
  /-- ERRIDX | 32 | 03 R70 | 0 -/
  err : Word := 0
  /-- ERSTAT:LOST | 16 | 03 R70 | 0 -/
  lost : Nat := 0
  /-- the holding buffer, oldest first; ERSTAT:HELD is its length | 256 x 256 | 03 R70 | empty -/
  held : List EventRecord := []
  /-- private memory | 4 or 8 MiB | 03 R68 | 0 -/
  priv : Tbl Byte := []
  /-- the firmware core runs | 1 | 23 R474 | false -/
  running : Bool := false
  /-- the firmware core's entry offset | 32 | 23 R476 | 0 -/
  entry : Nat := 0
  /-- QVEC by 64 c + q | 8 each | 03 R71 | 0 -/
  qvec : Tbl Byte := []
  /-- slot quota | 5 | 13 R330 | 16 -/
  quota : Nat := 16
  /-- MSI-X enable and function mask | 2 | 00 R8; 03 R71 | PRESUMED false, false (PCI Express, log 49) -/
  msixEn : Bool := false
  msixMask : Bool := false
  /-- mask bits of the MSI-X table | 64 | 00 R8; 03 R71 | PRESUMED all set (PCI Express, log 49) -/
  vecMask : BitVec 64 := 0xFFFFFFFFFFFFFFFF
  /-- pending bits of the MSI-X table | 64 | 00 R8; 03 R71 | PRESUMED 0 (PCI Express, log 49) -/
  vecPend : BitVec 64 := 0
  /-- message addresses and data of the MSI-X table | 64 x 64, 64 x 32 | 00 R8; 03 R71 | PRESUMED 0 (PCI Express, log 49) -/
  vecAddr : Tbl DWord := []
  vecData : Tbl Word := []
  /-- Advanced Error Reporting: the uncorrectable error status | 32 | 00 R8; 03 R489 | PRESUMED 0 (PCI Express, log 49) -/
  aer : Word := 0
  /-- the mask and the severity of uncorrectable errors | 32 each | 00 R8 | PRESUMED 0, 0x00462030 (PCI Express, log 49) -/
  aerMask : Word := 0
  aerSev : Word := 0x00462030
  /-- the status and the mask of correctable errors | 32 each | 00 R8 | PRESUMED 0, 0x00002000 (PCI Express, log 49) -/
  aerCor : Word := 0
  aerCorMask : Word := 0x00002000
  /-- the first error pointer and the header log | 5, 4 x 32 | 00 R8 | PRESUMED 0 (PCI Express, log 49) -/
  aerFirst : Nat := 0
  aerLog : List Word := [0, 0, 0, 0]
deriving DecidableEq, Repr

/-! ## Cores -/

/-- A 128-byte line of an L1 (10 R236): the line number, its two sectors and the slot of the group that filled it. -/
structure L1Line where
  line : Nat
  sec0 : Option (List Byte)
  sec1 : Option (List Byte)
  filler : Nat
deriving DecidableEq, Repr

/-- A translation held in a TLB (10 R248): context, first page, length, the leaf. -/
structure TlbEntry where
  ck : Nat
  first : Nat
  len : Nat
  /-- the leaf of the first page -/
  leaf : DWord
deriving DecidableEq, Repr

/-- A victim tag (06 R143). -/
structure VictimTag where
  line : Nat
  filler : Nat
  evictor : Nat
deriving DecidableEq, Repr

/-- An interval of a footprint (11 R273): space (0 `.gl` by context, 1 scratchpad of `unit`, 3 `.xs`), unit, from, to. -/
structure Foot where
  space : Nat
  unit : Nat
  lo : Nat
  hi : Nat
deriving DecidableEq, Repr

/-- A footprint-table entry (11 R273): team, footprints, and whether it has finished reading. -/
structure FootEntry where
  team : Nat
  reads : List Foot
  writes : List Foot
  readDone : Bool
  /-- a job (true) or a matrix operation -/
  job : Bool
deriving DecidableEq, Repr

/-- What an operation of the matrix queue does (12 R296). -/
inductive MatKind where
  /-- mma, mmt and pair forms: pairing 0 single, 1 `.n2`, 2 `.k2`; B from block `blk` of the residency, or from maps -/
  | mul (pair : Nat) (aMap aMap2 : QWord) (blk : Nat) (bMap bMap2 : QWord)
  | zero
  | ld (rm : Rm) (map : QWord)
  | st (rm : Rm) (map : QWord)
  | row (rm : Rm) (ty : Ty) (r : Nat) (dests : List (Nat × Nat × Nat))
deriving DecidableEq, Repr

/-- An operation in the matrix queue (12 R289). -/
structure MatOp where
  /-- the order of issue -/
  id : Nat
  gk : Nat
  team : Nat
  /-- physical accumulator tile on the issuing core, and on the follower -/
  tile : Nat
  tile2 : Nat
  ty : Ty
  kind : MatKind
  /-- its footprint entry, 0 for none -/
  foot : Nat
  /-- the residency it names, 0 for none -/
  res : Nat
  /-- earlier accesses of the group it waits for (11 R276) -/
  after : List Nat
  /-- executed and not yet retired -/
  done : Bool
  /-- a refill that it waited for failed (13 R333) -/
  poisoned : Bool
  /-- the issuing core, the leader of a pair form; a pair form stands in both queues -/
  leader : Nat
  pair : Bool
deriving DecidableEq, Repr

/-- Where a block's weights come from (13 R322). -/
inductive BlockSrc where
  | none
  | map (m : QWord)
  | global (a stride : DWord)
deriving DecidableEq, Repr

/-- A block of a residency on one core (13 R311, R322). -/
structure Block where
  stale : Nat := 0
  src : BlockSrc := .none
  watched : Bool := false
  filling : Bool := false
deriving DecidableEq, Repr

/-- A residency (13 R311, R314), keyed by its own counter. -/
structure Res where
  team : Nat
  /-- the core of the allocation, the leader of a pair -/
  core : Nat
  pair : Bool
  /-- SERIAL -/
  serial : Nat
  /-- first slot relative to the team's run -/
  first : Nat
  ns : Nat
  ty : Ty
  et : Ty
  pin : Bool
  /-- present in the slots of the leader and of the follower -/
  present : Bool
  /-- a refill is in progress (13 R329, R333) -/
  refilling : Bool := false
  /-- the clock in which `rrev` ended it; its handle fails from the next (13 R328) -/
  revoked : Option Nat := none
  /-- recency -/
  used : Nat
  /-- blocks of the leader's half and of the follower's half: 32 half + b -/
  blocks : Tbl Block
deriving DecidableEq, Repr

/-- A block fill in progress (13 R322): residency, half, block, source, watch, status and predicate destinations. -/
structure Fill where
  res : Nat
  half : Nat
  blk : Nat
  src : BlockSrc
  watch : Bool
  gk : Nat
  team : Nat
  d : Option Nat
  pf : Nat
  lanes : List Nat
  foot : Nat
  after : List Nat
  /-- the bytes of a global source, which the group's later writes wait for (11 R262) -/
  reads : List Foot
deriving DecidableEq, Repr

/-- A run of a group on an issue slot (06 R138). -/
structure Run where
  gk : Nat
  /-- issues of the run -/
  n : Nat
  /-- the pass count that the run began with; `sr.passes` reads it (06 R147) -/
  p : Nat := 1
  /-- the swallow pattern that the run began with (23 R483) -/
  pat : Option (BitVec 16) := none
  /-- clocks that the last issue still occupies (06 R146) -/
  busy : Nat := 0
  /-- those clocks are added by the pass count (18 R421) -/
  added : Bool := false
  /-- the run ends when the issue no longer occupies the slot -/
  ends : Bool := false
deriving DecidableEq, Repr

/-- A core (01_machine R21). -/
structure Core where
  /-- L1 data cache, most recent first | 1024 x 128 B | 10 R236 | empty -/
  l1 : List L1Line := []
  /-- TLB, most recent first | 128 | 10 R248 | empty -/
  tlb : List TlbEntry := []
  /-- victim tags, oldest last | 256 | 06 R143 | empty -/
  tags : List VictimTag := []
  /-- lost-locality events of this window | 10 | 06 R143 | 0 -/
  llCount : Nat := 0
  /-- delivered clocks of this window | 10 | 06 R143 | 0 -/
  llClock : Nat := 0
  /-- LLSTAT:LAST | 10 | 06 R144 | 0 -/
  llLast : Nat := 0
  /-- LLSTAT:CAP | 6 | 06 R144 | 32 -/
  cap : Nat := 32
  /-- LLCTL | 32 | 06 R144 | 0x8001_0010 -/
  llctl : Word := 0x80010010
  /-- LLCTL as it stood at the start of the window | 32 | 06 R145 | 0x8001_0010 -/
  llctlUsed : Word := 0x80010010
  /-- the footprint table by entry number | 32 entries | 11 R273 | empty -/
  foots : Tbl FootEntry := []
  /-- the matrix queue, head first | 16 | 12 R289 | empty -/
  mq : List MatOp := []
  /-- the group that binds the pair, on leader and follower; one that has left its slot with operations in the queue is
  its key + 65536 times a number of its own | 10 | 12 R303, R304 | none -/
  bind : Option Nat := none
  /-- matrix issues of the window before and of this window | counters | 12 R308 | 0 -/
  slewPrev : Nat := 0
  slewNow : Nat := 0
  /-- delivered clocks of the slew window | 6 | 12 R308 | 0 -/
  slewClock : Nat := 0
  /-- the serial counter | 12 | 13 R315 | 1 -/
  serial : Nat := 1
  /-- block fills by number | see Fill | 13 R322 | empty -/
  fills : Tbl Fill := []
  /-- issue slots 0 and 1 | see Run | 06 R138 | none -/
  run0 : Option Run := none
  run1 : Option Run := none
  /-- group whose run ended on each slot in the previous clock | 10 | 06 R142 | none -/
  last0 : Option Nat := none
  last1 : Option Nat := none
  /-- top-down counters by leaf | 17 x 64 | 18 R424 | 0 -/
  leaves : Tbl Nat := []
  /-- what each issue slot did in this master clock: 0 nothing, 1 issued, 2 arbitrated and chose a group, 3 a clock that the
  pass count adds to an issue | 2 each | 18 R421 | 0 -/
  did0 : Nat := 0
  did1 : Nat := 0
  /-- the group each issue slot acted for | 10 | 18 R421 | none -/
  didg0 : Option Nat := none
  didg1 : Option Nat := none
  /-- the team of that group, which outlives it where its last lane exits | 20 | 18 R421, R422 | none -/
  didt0 : Option Nat := none
  didt1 : Option Nat := none
deriving DecidableEq, Repr

/-- A line of the instruction cache of a core pair (05 R101, R102): its bytes, or the class and cause of its failure. -/
structure ICacheLine where
  pair : Nat
  ck : Nat
  /-- virtual address of the line -/
  va : Nat
  bytes : List Byte
  /-- 0 no failure, else the class -/
  cls : Nat
  cause : Nat
deriving DecidableEq, Repr

/-! ## Accesses in flight -/

/-- What an access in flight does when it is performed. -/
inductive FlightKind where
  /-- a load: destination stack entry (96 none), registers, sign, flag predicate of `ld.nr` (0 none), V hint (7: none) -/
  | load (d regs : Nat) (size : Size) (flag : Nat) (rd : Nat)
  /-- a scalar load of the group, with the threads whose transactions it belongs to -/
  | loadScalar (d regs : Nat) (size : Size) (rd : Nat) (txs : List Nat)
  /-- a store of bytes by location -/
  | store (bytes : Tbl Byte)
  /-- an atomic: opcode 0-7, signed or float class, and for each lane its thread, destination entry and operands -/
  | atomic (op : Nat) (ecl : Ecl) (ops : List (Nat × Nat × Nat × Nat × Nat))
  /-- a window spill -/
  | spill (bytes : Tbl Byte) (poisoned : Bool)
  /-- a window fill for the thread, from the lane's `ret` -/
  | fill
  /-- a prefetch -/
  | prefetch (rd : Nat)
deriving DecidableEq, Repr

/-- An agent's part in an access: the agent, what has happened before the access for it, and what the access releases for it, if
it is a release (14 R341, R342). -/
structure Maker where
  who : Nat
  seen : Tbl Nat
  rel : Option (Tbl Nat) := none
deriving DecidableEq, Repr

/-- An access in flight (10 R236; 14 R339, R352), keyed by its order of issue. DESIGN CHOICE (log 1). -/
structure Flight where
  kind : FlightKind
  core : Nat
  gk : Nat
  team : Nat
  /-- thread; 65536 + the group's key for a group access -/
  tid : Nat
  ck : Nat
  space : Space
  /-- location: physical address in `.gl`, 2^19 core + offset in a scratchpad, the address in `.xs` -/
  loc : Nat
  size : Nat
  /-- the address as formed -/
  va : Nat
  strong : Bool
  scope : Scope
  acq : Bool
  rel : Bool
  promote : Bool
  /-- a transactional load -/
  tx : Bool
  /-- peer of a remote access, with its context entry -/
  remote : Option Nat
  /-- first page and length of the run that translated it (10 R250) -/
  run : Nat × Nat
  /-- the home slice in `.gl` (10 R233) -/
  slice : Nat
  /-- the stores of one instruction share this number: those to one line are one request (10 R236); 0 for others -/
  req : Nat := 0
  /-- issued while the overlap check was on (14 R348) -/
  chk : Bool := false
  /-- its threads, each with the scope that a fence lends to it (14 R342) -/
  lent : List (Nat × Scope) := []
  /-- an acquire by its own order, and not by a later fence (14 R342) -/
  acqOwn : Bool := false
  /-- the agents that make it, and its number in the order of events (14 R344) -/
  makers : List Maker := []
  seq : Nat := 0
deriving DecidableEq, Repr

/-- What a walk found (10 R247). -/
inductive WalkResult where
  | ok (e : TlbEntry)
  | fault (cls cause : Nat)
  | poison
deriving DecidableEq, Repr

/-- A walk in progress, or a failed one whose waiting groups have not yet taken the answer (10 R247, R248, R251). -/
structure Walk where
  ck : Nat
  page : Nat
  core : Nat
  isc : DWord
  gks : List Nat
  result : Option WalkResult
deriving DecidableEq, Repr

/-- A way of an L2 set (10 R239, R423). -/
structure L2Way where
  line : Nat
  v : Nat
  ck : Nat
  dirty : Bool
deriving DecidableEq, Repr

/-- The record of the last strong access to a line under OVCHK (14 R348). -/
structure OvRecord where
  ck : Nat
  off : Nat
  size : Nat
  core : Nat
  tid : Nat
  team : Nat
deriving DecidableEq, Repr

/-- A strong access that was performed (14 R347): its bytes, its agents, its grid, its number in the order of events, and what
happened before it. -/
structure StrongNote where
  loc : Nat
  size : Nat
  makers : List Nat
  grid : Nat
  seq : Nat
  seen : Tbl Nat
deriving DecidableEq, Repr

/-- A watch entry (13 R324): line, locality, residency, half and block. -/
structure Watch where
  line : Nat
  loc : Nat
  res : Nat
  half : Nat
  blk : Nat
deriving DecidableEq, Repr

/-- A slot of a barrier unit in use (15 R361): owner, phase, arrivals, mode and the die that broke it. -/
structure BarSlot where
  /-- a team, or a grid slot's grid -/
  owner : Nat
  isGrid : Bool
  phase : Bool := false
  arrived : Nat := 0
  /-- `none` no arrival yet; `some none` every live thread; `some (some n)` n arrivals -/
  mode : Option (Option Nat) := none
  broken : Option Nat := none
deriving DecidableEq, Repr

/-- A job card (02 R48) with the job's progress (11 R268-R278). -/
structure Job where
  core : Nat
  gk : Nat
  team : Nat
  ck : Nat
  card : List Byte
  cardOff : Nat
  rdh : Nat
  /-- elements delivered -/
  done : Nat
  /-- bytes subtracted from its barriers -/
  counted : Nat
  status : Option Nat
  detail : DWord
  promise : DWord
  foot : Nat
  after : List Nat
  /-- its record is held on a full ring -/
  waiting : Bool
  /-- a migration's step: 0 checks, 1 and 3 wait for a shoot-down, 2 copies, 4 abandoned -/
  stage : Nat
  /-- a migration's saved W bits, and the physical pages it moves (10 R255) -/
  savedW : List Bool
  old : List Nat := []
  /-- ID of the records of the grid that submitted it (02 R54) -/
  rid : Nat := 0
  /-- it failed for its barrier object or its mask: no object is updated (11 R286) -/
  noBar : Bool := false
  /-- its record is written: from the next clock it is complete (11 R272) -/
  recorded : Bool := false
deriving DecidableEq, Repr

/-- A completion record waiting for its ring (02 R53): the ring's place and what becomes complete with it. -/
structure HeldRecord where
  /-- the ring is in the scratchpad of a core -/
  inCore : Option Nat
  ck : Nat
  ring : Nat
  bytes : List Byte
  job : Option Nat
  grid : Option Nat
  team : Option Nat
  /-- the grids whose records come first: aborted descendants (03 R78) -/
  behind : List Nat := []
  /-- ID of the record that announces it if it is redirected (03 R67) -/
  id : Nat := 0
  /-- it has left its ring for the event ring, and waits for its place there (02 R53; 03 R70) -/
  moved : Bool := false
deriving DecidableEq, Repr

/-- What stays of a team whose grid was aborted with a die while its jobs go on (01 R31): its cores, and its scratch run by first
granule, granules and bytes. -/
structure Remains where
  cores : List Nat
  b : Nat
  granules : Nat
  scratch : Nat
deriving DecidableEq, Repr

/-! ## The platform -/

/-- The power and link limits (23 R482). -/
structure Limits where
  pcap : Nat := 2400
  icap : Nat := 250
  stepmax : Nat := 0
  linkmax : Nat := 2
  tcap : Nat := 95
deriving DecidableEq, Repr

/-- STATE of a die (22 R468). -/
inductive DieStage where
  | running | inReset | fenced | dropped
deriving DecidableEq, Repr

/-- A physical compute die (22 R468; 23 R483). DESIGN CHOICE (log 3). -/
structure Die where
  /-- LOG, 15 for none | 4 | 22 R468 | DESIGN CHOICE 15 until self-test (log 3) -/
  log : Nat := 15
  /-- STATE | 2 | 22 R468 | running -/
  stage : DieStage := .running
  /-- DOP | 3 | 23 R483 | 0 -/
  dop : Nat := 0
  /-- its clock relocks: cores stopped | 1 | 23 R484 | false -/
  relock : Bool := false
  /-- temperature in °C | 8 | 23 R486 | DESIGN CHOICE 25 (log 3) -/
  temp : Nat := 25
  /-- the clock in which heat last fenced the die | counter | 23 R486 | none -/
  heatAt : Option Nat := none
  /-- die ports that are down | 16 | 22 R463 | empty -/
  downPorts : List Nat := []
deriving DecidableEq, Repr

/-- A cluster's power registers (23 R483). -/
structure Cluster where
  /-- PASS | 2 | 23 R483 | 0 -/
  pass : Nat := 0
  /-- SWAL | 16 | 23 R483 | 0 -/
  swal : BitVec 16 := 0
  /-- SLEW:STEP | 8 | 23 R483 | 0, or STEPMAX -/
  step : Nat := 0
  /-- the controller's pass count for current | 1, 2 or 4 | 23 R485 | 1 -/
  capPass : Nat := 1
  /-- the controller's swallow bits for current | 16 | 23 R485 | 0 -/
  capBits : BitVec 16 := 0
  /-- the same for heat | 1, 2 or 4; 16 | 23 R486 | 1; 0 -/
  hotPass : Nat := 1
  hotBits : BitVec 16 := 0
  /-- PSTAT causes: 16 thermal, 17 current | 2 | 23 R483 | false -/
  thermal : Bool := false
  current : Bool := false
deriving DecidableEq, Repr

/-- A cell's channel, poison mark, type, endpoint, tag and payload (22 R459), without the numbers of the port that carries it. -/
structure Cell where
  vc : Nat
  poi : Bool
  type : Nat
  dest : Nat
  tag : Nat
  data : List Byte
deriving DecidableEq, Repr

/-- A package link or a die port: both directions of its cell protocol (22 R459-R463). DESIGN CHOICE (log 3). -/
structure Port where
  /-- working lanes; below 2 the link is down | 0-8 | 22 R463 | 8 -/
  lanes : Nat := 8
  /-- trained | 1 | 22 R461 | false -/
  up : Bool := false
  /-- SEQ of the last cell accepted | 12 | 22 R462 | DESIGN CHOICE 0xFFF (log 3) -/
  rxSeq : BitVec 12 := 0xFFF
  /-- SEQ of the last cell sent | 12 | 22 R462 | DESIGN CHOICE 0xFFF (log 3) -/
  txSeq : BitVec 12 := 0xFFF
  /-- the last 256 cells sent, newest first | 256 x 64 B | 22 R462 | empty -/
  replay : List (List Byte) := []
  /-- cells on their way to the other side, oldest first | 64 B each | 22 R462 | empty -/
  out : List (List Byte) := []
  /-- cells that wait for a credit of their channel, oldest first | see Cell | 22 R460, R461 | empty -/
  want : List Cell := []
  /-- SEQ of the last cell that the other side has acknowledged | 12 | 22 R462 | DESIGN CHOICE 0xFFF (log 3) -/
  acked : BitVec 12 := 0xFFF
  /-- cells accepted, newest first, each by its channel | see Cell | 22 R460, R462 | empty -/
  accepted : List Cell := []
  /-- freed buffers not yet returned: request, response, synchronisation, bulk | counters | 22 R461 | 0 -/
  owed : List Nat := [0, 0, 0, 0]
  /-- a negative acknowledgement to send, naming the last accepted cell | 12 | 22 R462 | none -/
  nak : Option (BitVec 12) := none
  /-- consecutive negative acknowledgements for one SEQ | 5 | 22 R462 | 0 -/
  naks : Nat := 0
  nakSeq : BitVec 12 := 0
  /-- consecutive negative acknowledgements received for one SEQ, and that SEQ | 5, 12 | 22 R462 | 0 -/
  gotNaks : Nat := 0
  gotSeq : BitVec 12 := 0
  /-- the lanes have retrained for a SEQ that is still refused | 1 | 22 R463, R471 | false -/
  strained : Bool := false
  /-- credits held: request, response, synchronisation, bulk | counters | 22 R461 | 0 until trained -/
  credits : List Nat := [0, 0, 0, 0]
deriving DecidableEq, Repr

/-- What the device sends to the outside world, newest first (03 R71, R489; 22 R466; 23 R482). -/
inductive Sent where
  | msix (fn vec : Nat) (addr : DWord) (data : Word)
  | hostData (fn : Nat) (data : List Byte)
  | completerAbort (fn : Nat)
  | retryStatus (fn : Nat)
  | smbus (data : List Byte)
  | remoteReply (peer cause : Nat) (data : List Byte)
  | remoteRequest (peer : Nat) (r : RemoteReq)
deriving DecidableEq, Repr

/-- Where the instruction being executed stands: its group, lanes, stream, word and the traps found before it. DEDUCED
(log 9). -/
structure Cursor where
  gk : Nat
  /-- `active` (06 R136) -/
  full : Word
  /-- the lanes of `active` that execute now: they neither wait at the instruction nor trap before it -/
  active : Word
  handler : Bool
  word : InsnWord
  pc : Word
  traps : List Trap
deriving DecidableEq, Repr

/-- The steps that the device takes by itself, each the instruction of its name. -/
inductive Event where
  | trapEntryPop (gk : Nat)
  | joinCompletion (gk : Nat)
  | bwaitmRelease (gk n : Nat)
  | continuationGroupForm (core : Nat)
  | regroupCompletion (team core : Nat)
  | regroupTimeout (team core : Nat)
  | relocationEnd (team core : Nat)
  | slotArbitration (core slot : Nat)
  | llWindowEnd (core : Nat)
  | slewWindowEnd (core : Nat)
  | sleepuWake (gk : Nat)
  | sleepuChkWake (gk : Nat)
  | loadDataReturn (id : Nat)
  | storePerform (id : Nat)
  | atomicPerform (id : Nat)
  | releaseMarkerMet (id : Nat)
  | spillFillComplete (id : Nat)
  | pageWalkComplete (id : Nat)
  | transactionCommit (gk : Nat)
  | transactionTimeout (gk lane : Nat)
  | tokenGrant (d : Nat)
  | copyJobDelivery (job elements : Nat)
  | copyJobFinish (job : Nat)
  | pageMigration (job : Nat)
  | completionRecordWrite (id : Nat)
  | coreBarrierPhaseComplete (core off : Nat)
  | barrierSlotComplete (unit slot : Nat)
  | matrixOpExecute (core : Nat)
  | matrixOpRetire (core : Nat)
  | residencyRefill (core res : Nat)
  | rloadFillComplete (core fill : Nat)
  | mwaitComplete (gk : Nat)
  | packetFetch (qk : Nat)
  | waitConditionCheck (grid : Nat)
  | gridRelease (grid : Nat)
  | deviceQueueEnqueue (gk : Nat)
  | teamClaim (d grid : Nat)
  | teamPlacement (d : Nat)
  | coresidentPlacement (grid : Nat)
  | teamStart (team : Nat)
  | ageingLimitReached (d : Nat)
  | sliceExpiry
  | preemptGraceExpiry (team : Nat)
  | groupSave (gk : Nat)
  | teamSave (team : Nat)
  | teamResume (team : Nat)
  | teamRetire (team : Nat)
  | gridRetire (grid : Nat)
  | eventRingDrain (fn : Nat)
  | shootDownComplete (ck : Nat)
  | contextStopped (ck : Nat)
  | contextDump (ck : Nat)
  | instructionFetch (gk : Nat)
  | issueSlotCharge
deriving DecidableEq, Repr

/-- Which agent moves at a turn. -/
inductive Turn where
  /-- an issue slot of a core issues its group's next instruction -/
  | issue (core slot : Nat)
  /-- whether the group that an issue slot has chosen is held by its instruction's own description (06 R137) -/
  | probe (core slot : Nat)
  /-- a step of another agent of the device -/
  | event (e : Event)
  /-- an input of the outside world or of firmware, or a step that it times -/
  | input (i : Instr)
deriving DecidableEq, Repr

/-- The state of the device. -/
structure State where
  /-- BSTAT:STATE | 4 | 23 R474, R475 | 1 -/
  bstate : Nat := 1
  /-- BSTAT:ERR | 8 | 23 R475 | 0 -/
  berr : Nat := 0
  /-- BIMG | 64 | 23 R475 | 0 -/
  bimg : DWord := 0
  /-- BLEN | 32 | 23 R475 | 0 -/
  blen : Word := 0
  /-- NONCE, 32 bytes by index | 256 | 23 R475 | 0 -/
  nonce : Tbl Byte := []
  /-- RECORD; empty reads as zero | 352 B | 23 R475, R479 | 0 -/
  record : List Byte := []
  /-- LCOUNT | 64 | 23 R479 | 0 -/
  lcount : DWord := 0
  /-- BOOTID | 128 | 23 R479 | free value drawn at a cold reset -/
  bootId : QWord := 0
  /-- IMGHASH | 512 | 23 R476 | DESIGN CHOICE 0 (log 3) -/
  imgHash : BitVec 512 := 0
  /-- the unit map: absent cores, dies and pages | lists | 22 R472 | empty until self-test -/
  unitMap : UnitMap := ⟨[], [], [], []⟩
  /-- locked limits, LOCK registers | 64 | 23 R481 | the pending limits at a lock -/
  lock : Limits := {}
  /-- pending limits | 64 | 23 R482 | 2400 W, 250 A, 0, 2, 95 °C -/
  pendingLimits : Limits := {}
  /-- the boot stage's copies of the root and function code | 8 and 4 MiB | 03 R59; 23 R476 | empty -/
  rootCode : List Byte := []
  fnCode : List Byte := []
  rootEntry : Nat := 0
  fnEntry : Nat := 0
  /-- MAIN_EN | 1 | 23 R487 | DESIGN CHOICE true (log 3) -/
  mainEn : Bool := true
  /-- MAIN_OK | 1 | 23 R487 | true -/
  mainOk : Bool := true
  /-- the leak ring senses a leak: LEAK_N low | 1 | 23 R488 | false -/
  leak : Bool := false
  /-- a fatal error in the base has stopped every context | 1 | 01 R32 | false -/
  baseDead : Bool := false
  /-- physical dies 0-7 | see Die | 22 R468 | default -/
  dies : Tbl Die := []
  /-- clusters 0-15 | see Cluster | 23 R483 | default -/
  clusters : Tbl Cluster := []
  /-- package links 0-11, and port j of physical die p at 12 + 16 p + j | see Port | 22 R459-R464; 01 R13 | default -/
  links : Tbl Port := []
  /-- writes that each core has sent to each peer, by 256 core + peer | counters | 14 R352; 22 R466 | 0 -/
  peerSent : Tbl Nat := []
  /-- writes of each core of each peer that this device has performed, by 256 core + peer | counters | 14 R352 | 0 -/
  peerDone : Tbl Nat := []
  /-- releases of peers held until the writes before them are performed, oldest first | list | 14 R352 | empty -/
  peerHeld : List (Nat × RemoteReq) := []
  /-- octet registers | 128 x 32 | 04 R84 | 0x8001_FFFF -/
  octets : Tbl Word := []
  /-- the octet registers as placements of this clock see them | 128 x 32 | 04 R84 | 0x8001_FFFF -/
  octetsUsed : Tbl Word := []
  /-- DAGE | 8 x 32 | 04 R85 | 0x0001_86A0 -/
  dage : Tbl Word := []
  /-- PGRACE | 32 | 17 R408 | 0x0000_AFC8 -/
  pgrace : Word := 0xAFC8
  /-- slice table | 32 x 32 | 03 R73 | 0 -/
  slices : Tbl Word := []
  /-- the slice entry that holds the device, and the clocks it has run | counters | 03 R74 | DESIGN CHOICE none, 0 (log 3) -/
  sliceNow : Option Nat := none
  sliceClock : Nat := 0
  /-- by dispatcher, the head whose wait timer has reached the ageing limit | counter | 04 R97 | none -/
  ageing : Tbl Nat := []
  /-- functions 0-16 | see Fn | 03 R57 | default; function 0 enabled -/
  fns : Tbl Fn := []
  /-- contexts by 16 fn + c | see Ctx | 03 R72 | default -/
  ctxs : Tbl Ctx := []
  /-- queues by 64 ck + q | see Queue | 03 R60 | default -/
  queues : Tbl Queue := []
  /-- grids not yet ended and kept for their children | see Grid | 02 R40 | empty -/
  grids : Tbl Grid := []
  /-- placed teams | see Team | 04 R86 | empty -/
  teams : Tbl Team := []
  /-- saved teams | see SavedTeam | 17 R411 | empty -/
  savedTeams : Tbl SavedTeam := []
  /-- groups by 32 core + slot | see Group | 01 R21 | empty -/
  groups : Tbl Group := []
  /-- cores 0-1023 | see Core | 01 R21 | default -/
  cores : Tbl Core := []
  /-- instruction-cache lines, most recent first | 64 B each, 1024 a pair | 05 R101 | empty -/
  icache : List ICacheLine := []
  /-- second-level TLBs by locality, most recent first | 16384 each | 10 R248 | empty -/
  tlb2 : Tbl (List TlbEntry) := []
  /-- walks | 32 a locality | 10 R247 | empty -/
  walks : Tbl Walk := []
  /-- accesses in flight in order of issue | 512 a core | 10 R236; 14 R352 | empty -/
  flights : Tbl Flight := []
  /-- L2 ways by (1536 slice + set) 16 + way | 24576 a slice | 10 R239 | empty -/
  l2 : Tbl L2Way := []
  /-- overlap records by 512 line + ck | see OvRecord | 14 R348 | empty -/
  overlaps : Tbl OvRecord := []
  /-- the latest strong access of each agent, address and size to a line, by 4 line + place | lists | 14 R347 | empty -/
  strongs : Tbl (List StrongNote) := []
  /-- releases performed whose release sequence lasts, by 4 line + place | lists | 14 R341 | empty -/
  rels : Tbl (List RelNote) := []
  /-- undefined bytes by 4 address + place, each with the accesses that a write must happen after | lists | 14 R347 | empty -/
  hazy : Tbl (List (List Nat × Nat)) := []
  /-- narrow releases performed to each line since its promotion: core and flight | lists | 14 R351 | empty -/
  promos : Tbl (List (Nat × Nat)) := []
  /-- residencies | see Res | 13 R311 | empty -/
  residencies : Tbl Res := []
  /-- watch entries | 4096 a locality | 13 R324 | empty -/
  watches : List Watch := []
  /-- barrier-unit slots in use by 4096 unit + slot | 4096 a unit | 04 R87; 15 R361 | empty -/
  barSlots : Tbl BarSlot := []
  /-- copy jobs not complete | see Job | 11 R268 | empty -/
  jobs : Tbl Job := []
  /-- scratch runs of teams gone with a die's loss whose accepted jobs go on, by team | see Remains | 01 R31 | empty -/
  remains : Tbl Remains := []
  /-- records held on full rings, oldest first | see HeldRecord | 02 R53 | empty -/
  heldRecords : Tbl HeldRecord := []
  /-- serial-token requests by locality, the holder first: team and thread | lists | 15 R377 | empty -/
  tokens : Tbl (List (Nat × Nat)) := []
  /-- memory by physical address | 2^39 x 8 | 10 R232 | 0 (log 2) -/
  mem : Tbl Byte := []
  /-- poisoned global lines by physical line | 1 each | 10 R256 | empty -/
  memPoison : List Nat := []
  /-- core scratchpads by 2^19 core + offset | 1024 x 384 KiB | 01 R24 | 0 (log 2) -/
  scratch : Tbl Byte := []
  /-- poisoned scratchpad words by 2^17 core + word | 1 each | 10 R491 | empty -/
  scratchPoison : List Nat := []
  /-- chip scratchpad | 2^27 x 8 | 01 R24 | 0 (log 2) -/
  chip : Tbl Byte := []
  /-- poisoned chip-scratchpad lines | 1 each | 10 R491 | empty -/
  chipPoison : List Nat := []
  /-- accumulator elements by ((16 core + tile) 64 + row) 64 + column | 32 each | 12 R294 | 0 (log 2) -/
  acc : Tbl Word := []
  /-- poisoned tiles by 16 core + tile | 1 each | 12 R309 | empty -/
  accPoison : List Nat := []
  /-- weight slots by ((16 core + slot) 64 + k) 64 + n | 8 each | 13 R311 | 0 (log 2) -/
  weights : Tbl Byte := []
  /-- scale store by 32 core + block position: 128 codes each, all 0 where none is listed | 8 each | 13 R311, R313; 23 R478 | 0 (log 2) -/
  scales : Tbl (List Byte) := []
  /-- which agent moves next | list | model's own (log 1) | empty -/
  agenda : List Turn := []
  /-- the instruction being executed | see Cursor | model's own (log 1) | none -/
  cur : Option Cursor := none
  /-- the turns of this clock are over, and the steps at its end are listed | 1 | model's own (log 1) | false -/
  closing : Bool := false
  /-- counter of free values | counter | model's own (log 4) | DESIGN CHOICE 0 -/
  freeCount : Nat := 0
  /-- counter that numbers grids, teams, flights, jobs, operations in order | counter | model's own (log 1) | 1 -/
  nextId : Nat := 1
  /-- master clocks since reset | counter | 18 R422 | 0 -/
  clock : Nat := 0
  /-- what has been sent to the outside world, newest first | list | model's own (log 1) | empty -/
  sent : List Sent := []
deriving DecidableEq, Repr

/-- The device right after a cold reset (23_platform R474): the boot stage is in step 0x1, the compute dies hold no
logical number, memory lists nothing, and function 0 alone is enabled. DESIGN CHOICE (log 2). DESIGN CHOICE (log 3). -/
def State.reset : State :=
  { fns := [(0, { enabled := true })]
    bootId := Config.bootId 0
    freeCount := 1 }

end Sys2Proof.Machine
end

