-- ==== Sys2Proof/Machine/Regs.lean ====
section
/-! DEFINITION. Accessors of the state: units by number with their defaults, window registers over the stack (07 R155,
17 R397), scalars, predicates, tile maps, and the lanes of a group by stream (06 R134 to R136). Every register is read
and written here. -/

namespace Sys2Proof.Machine

/-! ## Numbering (01_machine R15) -/

/-- The core of a group's key. -/
def coreOf (gk : Nat) : Nat := gk / 32
/-- The slot of a group's key. -/
def slotOf (gk : Nat) : Nat := gk % 32
/-- The logical die of a core (01 R15). -/
def dieOf (c : Nat) : Nat := c / 128
/-- The cluster of a core (01 R15). -/
def clusterOf (c : Nat) : Nat := c / 64

/-! ## Units -/

/-- A core. -/
def State.core (s : State) (c : Nat) : Core := (s.cores.get? c).getD {}
/-- Updates a core. -/
def State.modCore (s : State) (c : Nat) (f : Core → Core) : State := { s with cores := s.cores.put c (f (s.core c)) }
/-- A physical die. -/
def State.die (s : State) (p : Nat) : Die := (s.dies.get? p).getD {}
/-- Updates a physical die. -/
def State.modDie (s : State) (p : Nat) (f : Die → Die) : State := { s with dies := s.dies.put p (f (s.die p)) }
/-- A cluster. -/
def State.cluster (s : State) (k : Nat) : Cluster := (s.clusters.get? k).getD {}
/-- Updates a cluster. -/
def State.modCluster (s : State) (k : Nat) (f : Cluster → Cluster) : State :=
  { s with clusters := s.clusters.put k (f (s.cluster k)) }
/-- A package link. -/
def State.link (s : State) (k : Nat) : Port := (s.links.get? k).getD {}
/-- Updates a package link. -/
def State.modLink (s : State) (k : Nat) (f : Port → Port) : State := { s with links := s.links.put k (f (s.link k)) }
/-- A function. -/
def State.fn (s : State) (f : Nat) : Fn := (s.fns.get? f).getD {}
/-- Updates a function. -/
def State.modFn (s : State) (n : Nat) (f : Fn → Fn) : State := { s with fns := s.fns.put n (f (s.fn n)) }
/-- A context. -/
def State.ctx (s : State) (ck : Nat) : Ctx := (s.ctxs.get? ck).getD {}
/-- Updates a context. -/
def State.modCtx (s : State) (ck : Nat) (f : Ctx → Ctx) : State := { s with ctxs := s.ctxs.put ck (f (s.ctx ck)) }
/-- A queue. -/
def State.queue (s : State) (qk : Nat) : Queue := (s.queues.get? qk).getD {}
/-- Updates a queue. -/
def State.modQueue (s : State) (qk : Nat) (f : Queue → Queue) : State :=
  { s with queues := s.queues.put qk (f (s.queue qk)) }
/-- Updates a grid. -/
def State.modGrid (s : State) (k : Nat) (f : Grid → Grid) : State := { s with grids := s.grids.modify k f }
/-- Updates a team. -/
def State.modTeam (s : State) (k : Nat) (f : Team → Team) : State := { s with teams := s.teams.modify k f }
/-- Updates a group. -/
def State.modGroup (s : State) (gk : Nat) (f : Group → Group) : State := { s with groups := s.groups.modify gk f }
/-- Updates a residency. -/
def State.modRes (s : State) (k : Nat) (f : Res → Res) : State := { s with residencies := s.residencies.modify k f }
/-- Updates an access in flight. -/
def State.modFlight (s : State) (k : Nat) (f : Flight → Flight) : State := { s with flights := s.flights.modify k f }

/-- A fresh number for a grid, team, flight, job or operation; numbers rise in the order of events. -/
def State.fresh (s : State) : Nat × State := (s.nextId, { s with nextId := s.nextId + 1 })

/-- The index of the next free value. DESIGN CHOICE (log 4). -/
def State.freeIdx (s : State) : Nat × State := (s.freeCount, { s with freeCount := s.freeCount + 1 })

/-- The team of a group. -/
def State.teamOf (s : State) (g : Group) : Option Team := s.teams.get? g.team

/-- The grid of a team. -/
def State.gridOf (s : State) (t : Team) : Option Grid := s.grids.get? t.grid

/-- The context key of a group, 0 where its team is gone. -/
def State.ckOf (s : State) (g : Group) : Nat :=
  match s.teamOf g with
  | some t => ((s.gridOf t).map (·.ck)).getD 0
  | none => 0

/-- Tiles of a team's grid (02 R40). -/
def Packet.tiles (p : Packet) : Nat := p.res.toNat / 32 % 32
/-- Weight slots a core (02 R41). -/
def Packet.wslots (p : Packet) : Nat := p.res.toNat / 1024 % 32
/-- Lane slice of a thread in units (02 R41). -/
def Packet.lane (p : Packet) : Nat := p.res.toNat % 32
/-- Threads of a team (02 R44). -/
def Packet.threads (p : Packet) : Nat := p.teamx * p.teamy * p.teamz
/-- Groups of a team (02 R44). -/
def Packet.groups (p : Packet) : Nat := (p.threads + 31) / 32
/-- Cores of a team (02 R41; 04 R83). -/
def Packet.ncores (p : Packet) : Nat := (p.groups + 31) / 32
/-- Scratch granules of a team (04 R86). -/
def Packet.granules (p : Packet) : Nat := (p.scratch + 511) / 512
/-- The die mask (02 R41). -/
def Packet.dies (p : Packet) : Nat := p.hdr.toNat / 2 ^ 16 % 256
/-- The home die (02 R41). -/
def Packet.homeDie (p : Packet) : Nat := p.hdr.toNat / 2 ^ 24 % 8
/-- The priority (02 R41). -/
def Packet.pri (p : Packet) : Nat := p.hdr.toNat / 2 ^ 9 % 4
/-- The grid is co-resident (02 R41; 04 R99). -/
def Packet.cres (p : Packet) : Bool := bitOf p.hdr 8
/-- Teams of a grid (02 R44). -/
def Packet.total (p : Packet) : Nat := p.gridx * p.gridy * p.gridz

/-- The packet of a group's grid. -/
def State.pktOf (s : State) (g : Group) : Option Packet :=
  ((s.teamOf g).bind s.gridOf).map (·.pkt)

/-- A context is privileged when it belongs to the physical function (05 R117). -/
def privilegedCk (ck : Nat) : Bool := ck / 16 = 0

/-! ## Lanes and streams -/

/-- The trap entry of a group: class, PMASK, DMASK, QMASK (17 R396). -/
def Group.trapEntry (g : Group) : Option (Nat × Word × Word × Word) :=
  g.joins.findSome? fun
    | .trap c p d q => some (c, p, d, q)
    | .join .. => none

/-- The thread in a lane. -/
def Group.thread? (g : Group) (l : Nat) : Option Thread := g.lanes.get? l

/-- The lane holds a thread that has not exited. -/
def Group.live (g : Group) (l : Nat) : Bool :=
  match g.lanes.get? l with
  | some t => !t.exited
  | none => false

/-- The lane is in the running handler sub-group (17 R399). -/
def Group.inHandler (g : Group) (l : Nat) : Bool :=
  match g.trapEntry with
  | some (_, p, d, _) => bitOf p l && !bitOf d l && g.live l
  | none => false

/-- The lane waits at a `join` (07 R171). -/
def Group.joined (g : Group) (l : Nat) : Bool :=
  g.joins.any fun
    | .join _ _ _ arr => bitOf arr l
    | .trap .. => false

/-- The lane is parked, queued or has executed `tret` (06 R134). -/
def Group.setAside (g : Group) (l : Nat) : Bool :=
  match g.trapEntry with
  | some (_, p, _, q) => bitOf p l || bitOf q l
  | none => false

/-- Eligible lanes of the handler stream (06 R134, R135). -/
def Group.handlerLanes (g : Group) : List Nat :=
  (List.range 32).filter fun l => g.inHandler l && !g.joined l

/-- Eligible lanes of the main stream. -/
def Group.mainLanes (g : Group) : List Nat :=
  (List.range 32).filter fun l => g.live l && !g.setAside l && !g.joined l

/-- The lanes of a stream (06 R133; 17 R397). -/
def Group.stream (g : Group) (handler : Bool) : List Nat := if handler then g.handlerLanes else g.mainLanes

/-- The counter of a lane (06 R133). -/
def Group.lpcOf (g : Group) (l : Nat) : Word := ((g.lanes.get? l).map (·.lpc)).getD 0

/-- The minimum counter of a stream and its lanes (06 R136). -/
def Group.pick (g : Group) (handler : Bool) : Option (Word × List Nat) :=
  match g.stream handler with
  | [] => none
  | l :: t =>
    let m := t.foldl (fun m k => if (g.lpcOf k).toNat < m.toNat then g.lpcOf k else m) (g.lpcOf l)
    some (m, (l :: t).filter fun k => g.lpcOf k = m)

/-! ## Threads of a group -/

/-- Updates the thread in a lane. -/
def Group.modThread (g : Group) (l : Nat) (f : Thread → Thread) : Group := { g with lanes := g.lanes.modify l f }

/-- Updates the thread in a lane of a group. -/
def State.modThread (s : State) (gk l : Nat) (f : Thread → Thread) : State := s.modGroup gk (·.modThread l f)

/-- A group. -/
def State.group (s : State) (gk : Nat) : Group := (s.groups.get? gk).getD {}

/-- The thread in a lane of a group. -/
def State.thread (s : State) (gk l : Nat) : Thread := ((s.group gk).lanes.get? l).getD {}

/-- The slot and lane at which a thread of a team stands. -/
def State.findThread (s : State) (team tid : Nat) : Option (Nat × Nat) :=
  s.groups.findSome? fun (gk, g) =>
    if g.team = team then
      (g.lanes.findSome? fun (l, t) => if t.tid = tid then some (gk, l) else none)
    else none

/-! ## Window registers -/

/-- The stack entry of window register `i` (07 R155); the handler window lies 32 entries on (17 R397). -/
def Thread.entry (t : Thread) (handler : Bool) (i : Nat) : Nat :=
  (t.wb + (if handler then 32 else 0) + i) % 96

/-- A window register in a stream (07 R155; 17 R397). -/
def Thread.reg (t : Thread) (handler : Bool) (i : Nat) : Word := t.stack.read 0 (t.entry handler i)

/-- A write of a whole register clears its poison (16 R387). -/
def Thread.setEntry (t : Thread) (e : Nat) (v : Word) : Thread :=
  { t with stack := t.stack.write 0 e v, poison := t.poison.del e }

/-- Writes a window register. -/
def Thread.setReg (t : Thread) (handler : Bool) (i : Nat) (v : Word) : Thread := t.setEntry (t.entry handler i) v

/-- The value of `n` registers from `i` on, the lowest first. -/
def Thread.regs (t : Thread) (handler : Bool) (i : Nat) : Nat → Nat
  | 0 => 0
  | n + 1 => (t.reg handler i).toNat + 2 ^ 32 * t.regs handler (i + 1) n

/-- Writes consecutive window registers. -/
def Thread.setRegs (t : Thread) (handler : Bool) (i : Nat) : Nat → Nat → Thread
  | 0, _ => t
  | n + 1, v => (t.setReg handler i (BitVec.ofNat 32 v)).setRegs handler (i + 1) n (v / 2 ^ 32)

/-- Writes `n` consecutive entries from the entry of register `i`. -/
def Thread.setEntries (t : Thread) (e : Nat) : Nat → Nat → Thread
  | 0, _ => t
  | n + 1, v => (t.setEntry (e % 96) (BitVec.ofNat 32 v)).setEntries (e + 1) n (v / 2 ^ 32)

/-! ## Predicates -/

/-- `p0` reads as true (01 R22). -/
def Thread.pred (t : Thread) (k : Nat) : Bool := k = 0 || bitOf t.preds k

/-- A write to `p0` is discarded (01 R22); a write clears the predicate's poison. -/
def Thread.setPred (t : Thread) (k : Nat) (b : Bool) : Thread :=
  if k = 0 then t
  else { t with preds := if b then t.preds ||| (1#8 <<< k) else t.preds &&& ~~~(1#8 <<< k)
                poison := t.poison.del (96 + k) }

/-- The guard of a lane (05 R112). -/
def Thread.guard (t : Thread) (h : Head) : Bool := t.pred h.gp != h.neg

/-! ## Scalars and tile maps -/

/-- A scalar (01 R21). -/
def Group.scalar (g : Group) (i : Nat) : Word := g.scal.read 0 i

/-- Writes a scalar. -/
def Group.setScalar (g : Group) (i : Nat) (v : Word) : Group :=
  { g with scal := g.scal.write 0 i v, spoison := g.spoison.del i }

/-- Consecutive scalars as one value. -/
def Group.scalars (g : Group) (i : Nat) : Nat → Nat
  | 0 => 0
  | n + 1 => (g.scalar i).toNat + 2 ^ 32 * g.scalars (i + 1) n

/-- Writes consecutive scalars. -/
def Group.setScalars (g : Group) (i : Nat) : Nat → Nat → Group
  | 0, _ => g
  | n + 1, v => (g.setScalar i (BitVec.ofNat 32 v)).setScalars (i + 1) n (v / 2 ^ 32)

/-- A tile map (12 R291). -/
def Group.tileMap (g : Group) (i : Nat) : QWord := g.tm.read 0 i
/-- A rejoin mask (07 R178). -/
def Group.rmask (g : Group) (i : Nat) : Word := g.rm.read 0 i

/-! ## Counters -/

/-- Sets the counter of a lane. -/
def Group.setLpc (g : Group) (l : Nat) (v : Word) : Group := g.modThread l fun t => { t with lpc := v }

/-- Advances a lane by one (06 R133), modulo 2^32 (05 R100). -/
def Group.advance (g : Group) (l : Nat) : Group := g.modThread l fun t => { t with lpc := t.lpc + 1, wait := .none }

/-- Every lane of a list goes to its next instruction. -/
def Group.advanceAll (g : Group) (ls : List Nat) : Group := ls.foldl Group.advance g

/-! ## What a word reads and writes -/

end Sys2Proof.Machine

namespace Sys2Proof

/-- Registers that a field occupies under the kind it holds. -/
def Raw.regCount (r : Raw) (field : Nat) (v : BitVec 12) : Nat :=
  (((r.accepts field).find? fun kw => kw.1 = kindOf v).map (·.2)).getD 1

/-- The C field of an instruction that has one (05 R200), with its registers. -/
def Raw.cUse (r : Raw) : List (Nat × Nat × Nat) :=
  let op := r.op.toNat
  if r.u.toNat ≤ 1 && usesC op && !(r.u = 1 && ((0x39 ≤ op && op ≤ 0x3C) || 0x50 ≤ op)) && op < 0x80 then
    let c : BitVec 12 := r.imm.extractLsb' 0 12
    [(kindOf c, indexOf c, if op = 0x2D ∨ op = 0x38 then 1 else (Ty.ofCode r.f.toNat).regs)]
  else []

/-- D is read as well: `loop` (07 R153) and a conversion into an element of a register (09 R219). -/
def Raw.readsD (r : Raw) : Bool :=
  r.key = 0x30E || (r.op = 0x40 && r.u.toNat ≤ 1 && (Ty.ofCode r.f.toNat).slot < 32)

/-- Kinds, indexes and register counts that a word reads: A, B but for the flag of `ld.nr`, C, and D where it is read. -/
def Raw.reads (r : Raw) : List (Nat × Nat × Nat) :=
  [(kindOf r.a, indexOf r.a, r.regCount 2 r.a)]
    ++ (if r.key = 0x181 then [] else [(kindOf r.b, indexOf r.b, r.regCount 3 r.b)])
    ++ r.cUse ++ (if r.readsD then [(kindOf r.d, indexOf r.d, r.regCount 1 r.d)] else [])

/-- Kinds, indexes and register counts that a word writes: D, the flag of `ld.nr`, the predicate of a status. -/
def Raw.writes (r : Raw) : List (Nat × Nat × Nat) :=
  [(kindOf r.d, indexOf r.d, r.regCount 1 r.d)]
    ++ (if r.key = 0x181 then [(2, indexOf r.b, 1)] else [])
    ++ (if r.key = 0x220 ∨ r.key = 0x221 then [(2, r.immBits 11 3, 1)] else [])

end Sys2Proof

namespace Sys2Proof.Machine

/-- A register use that waits on a long-latency producer: an entry covers all lanes, so a pending write in any lane holds
every lane's access (06 R141). -/
def Group.usePending (g : Group) (handler : Bool) (ls : List Nat) (u : Nat × Nat × Nat) : Bool :=
  let held (e : Nat) : Bool := g.lanes.any fun t => t.2.pend.contains e
  match u with
  | (0, i, n) => (List.range n).any fun k => ls.any fun l =>
      match g.lanes.get? l with
      | some t => held (t.entry handler (i + k))
      | none => false
  | (1, i, n) => (List.range n).any fun k => g.spend.contains (i + k)
  | (2, i, _) => i ≠ 0 && held (96 + i)
  | _ => false

/-- The stack entries of a destination: 96 stands for no register, and 97 for a window that has ceased to exist (17 R397). -/
def stackEntries (d n : Nat) : List Nat := if 96 ≤ d then [] else (List.range n).map fun i => (d + i) % 96

/-- The entries that a result occupies are no longer pending. -/
def Thread.unpend (t : Thread) (es : List Nat) : Thread := { t with pend := t.pend.filter fun e => !es.contains e }

/-- Delivers a long-latency result to `n` stack entries from `d` on: a value, or poison of an origin (10 R490; 16 R387). -/
def Thread.deliver (t : Thread) (d n origin : Nat) (v : Option Nat) : Thread :=
  if 96 ≤ d then t
  else
    let es := stackEntries d n
    let t := t.unpend es
    match v with
    | some v => t.setEntries d n v
    | none => { t with poison := es.foldl (fun p e => p.put e origin) t.poison }

/-- The origin of the poison that a lane reads through a use, with the operand code (16 R387). -/
def Group.usePoison (g : Group) (handler : Bool) (l : Nat) (u : Nat × Nat × Nat) : Option (Nat × Nat) :=
  match u with
  | (0, i, n) =>
    (g.lanes.get? l).bind fun t => (List.range n).findSome? fun k =>
      (t.poison.get? (t.entry handler (i + k))).map fun o => (i + k, o)
  | (1, i, n) => (List.range n).findSome? fun k => (g.spoison.get? (i + k)).map fun o => (0x200 + i + k, o)
  | (2, i, _) => if i = 0 then none else
      (g.lanes.get? l).bind fun t => (t.poison.get? (96 + i)).map fun o => (0x400 + i, o)
  | _ => none

end Sys2Proof.Machine
end

