-- ==== Sys2Proof/Machine/Cells.lean ====
section
/-! DEFINITION. Cells of die ports and package links: their layout, credits, replay and order, and the choice of a group's
member (22_package R459 to R464). -/

namespace Sys2Proof.Machine

/-! ## Layout (R459) -/

/-- One byte into a reflected CRC-32C register. -/
def crcByte (c : Word) (b : Byte) : Word :=
  (List.range 8).foldl (fun x _ => if bitOf x 0 then (x >>> 1) ^^^ 0x82F63B78#32 else x >>> 1) (c ^^^ BitVec.setWidth 32 b)

/-- CRC-32C of a list of bytes. -/
def crc32c (l : List Byte) : Word := ~~~(l.foldl crcByte 0xFFFFFFFF#32)

/-- Header fields of a cell. -/
structure CellHead where
  seq : BitVec 12
  vc : Nat
  poi : Bool
  type : Nat
  cret : Nat
  cvc : Nat
  len : Nat
  dest : Nat
  tag : Nat
deriving DecidableEq, Repr

/-- The head of a cell (22 R459). -/
def CellHead.of (cell : List Byte) : CellHead :=
  let h := ofBytes (cell.take 8)
  { seq := BitVec.ofNat 12 (h / 2 ^ 52), vc := h / 2 ^ 50 % 4, poi := h.testBit 49, type := h / 2 ^ 43 % 64
    cret := h / 2 ^ 35 % 256, cvc := h / 2 ^ 33 % 4, len := h / 2 ^ 27 % 64, dest := h / 2 ^ 16 % 2 ^ 11, tag := h % 2 ^ 16 }

/-- The header word. -/
def CellHead.word (h : CellHead) : Nat :=
  h.seq.toNat * 2 ^ 52 + h.vc % 4 * 2 ^ 50 + (if h.poi then 2 ^ 49 else 0) + h.type % 64 * 2 ^ 43 + h.cret % 256 * 2 ^ 35 +
    h.cvc % 4 * 2 ^ 33 + h.len % 64 * 2 ^ 27 + h.dest % 2 ^ 11 * 2 ^ 16 + h.tag % 2 ^ 16

/-- The acknowledgement word of a cell: valid, negative or not, and the last SEQ accepted. -/
def ackWord (nk : Bool) (aseq : BitVec 12) : Nat := 2 ^ 31 + (if nk then 2 ^ 30 else 0) + aseq.toNat

/-- The 64 bytes of a cell. -/
def cellBytes (h : CellHead) (data : List Byte) (ack : Nat) : List Byte :=
  let body := bytesOf h.word 8 ++ (data ++ List.replicate (48 - data.length) 0) ++ bytesOf ack 4
  body ++ bytesOf (crc32c body).toNat 4

/-- The cell's CRC, over its first 60 bytes, is good. -/
def cellGood (cell : List Byte) : Bool :=
  cell.length = 64 && crc32c (cell.take 60) = BitVec.ofNat 32 (ofBytes (cell.drop 60))

/-- The acknowledgement word that a cell carries. -/
def cellAck (cell : List Byte) : Word := BitVec.ofNat 32 (ofBytes ((cell.drop 56).take 4))

/-- What a cell of a port carries to the device: its head without the numbers of the link, and its payload. -/
def Cell.of (cell : List Byte) : Cell :=
  let h := CellHead.of cell
  { vc := h.vc, poi := h.poi, type := h.type, dest := h.dest, tag := h.tag, data := (cell.drop 8).take h.len }

/-- A payload cut into those of its cells: 48 bytes each and the rest, so that a line travels as 48, 48 and 32. -/
def cellParts (data : List Byte) : List (List Byte) :=
  if data.isEmpty then [[]] else (List.range ((data.length + 47) / 48)).map fun i => (data.drop (48 * i)).take 48

/-- The cells of one message. -/
def cellsOf (vc type dest tag : Nat) (poi : Bool) (data : List Byte) : List Cell :=
  (cellParts data).map fun d => { vc := vc, poi := poi, type := type, dest := dest, tag := tag, data := d }

/-! ## Sending (R461, R462) -/

/-- Cells sent that the other side has not acknowledged. DEDUCED (log 41). -/
def Port.unacked (p : Port) : Nat := (p.txSeq - p.acked).toNat

/-- A cell may be sent now: the port holds a credit for its channel, and its replay buffer has room for what is not
acknowledged. A cell of credits alone takes no credit. DEDUCED (log 41). -/
def Port.maySend (p : Port) (c : Cell) : Bool := p.up && p.unacked < 256 && (c.type = 8 || p.credits.getD c.vc 0 ≠ 0)

/-- The channel whose freed buffers the next cell returns. -/
def Port.owes (p : Port) : Nat := ((List.range 4).find? fun v => p.owed.getD v 0 ≠ 0).getD 0

/-- Sends a cell: it takes the next SEQ and a credit, returns the freed buffers of one channel, acknowledges the last
cell accepted, and joins the last 256 cells kept. -/
def Port.emit (p : Port) (c : Cell) (nk : Bool) : Port :=
  let v := p.owes
  let n := min 255 (p.owed.getD v 0)
  let h : CellHead :=
    { seq := p.txSeq + 1, vc := c.vc, poi := c.poi, type := c.type, cret := n, cvc := v, len := c.data.length
      dest := c.dest, tag := c.tag }
  let b := cellBytes h c.data (ackWord nk p.rxSeq)
  { p with
    txSeq := p.txSeq + 1
    replay := (b :: p.replay).take 256
    out := p.out ++ [b]
    owed := (List.range 4).map fun i => p.owed.getD i 0 - if i = v then n else 0
    credits := (List.range 4).map fun i => p.credits.getD i 0 - if i = c.vc && c.type ≠ 8 then 1 else 0 }

/-- A cell that carries credits and an acknowledgement alone (TYPE 0x08). -/
def creditCell : Cell := { vc := 1, poi := false, type := 8, dest := 0, tag := 0, data := [] }

/-- Sends the cells that wait as far as credits reach: each channel in its order, none waiting for another's. -/
def Port.pump (p : Port) : Port :=
  let r := p.want.foldl (fun (acc : Port × List Cell) c =>
    if !(acc.2.any fun x => x.vc = c.vc) && acc.1.maySend c then (acc.1.emit c false, acc.2) else (acc.1, acc.2 ++ [c])) (p, [])
  { r.1 with want := r.2 }

/-- Cells join those that wait at a port. -/
def Port.queue (p : Port) (cs : List Cell) : Port := ({ p with want := p.want ++ cs } : Port).pump

/-- A cell of credits goes out where buffers were freed and no other cell has returned them. DEDUCED (log 41). -/
def Port.returnCredits (p : Port) : Port := if p.owed.all (· = 0) then p else p.emit creditCell false

/-! ## Receiving (R461, R462) -/

/-- Every cell sent after a sequence number, in sending order; the replay buffer lists the newest first. DEDUCED (log
41). -/
def afterSeq (replay : List (List Byte)) (aseq : BitVec 12) : List (List Byte) :=
  (replay.takeWhile fun c => (CellHead.of c).seq ≠ aseq).reverse

/-- A negative acknowledgement: the cells after ASEQ are sent again before any other. -/
def Port.resend (p : Port) (aseq : BitVec 12) : Port := { p with
    out := afterSeq p.replay aseq ++ p.out
    acked := aseq
    gotNaks := if p.gotSeq = aseq then p.gotNaks + 1 else 1
    gotSeq := aseq }

/-- An acknowledgement word arrives. -/
def Port.acknowledge (p : Port) (ack : Word) : Port :=
  let aseq := BitVec.ofNat 12 ack.toNat
  if !bitOf ack 31 then p else if bitOf ack 30 then p.resend aseq else { p with acked := aseq, gotNaks := 0, strained := false }

/-- A cell is accepted: it stands in its channel's buffers, from which the device takes it at once; its credits are added and
its acknowledgement counts. DEDUCED (log 41). -/
def Port.accept (p : Port) (cell : List Byte) : Port :=
  let h := CellHead.of cell
  let p := { p with
    rxSeq := h.seq
    nak := none
    naks := 0
    accepted := Cell.of cell :: p.accepted
    owed := (List.range 4).map fun v => p.owed.getD v 0 + if v = h.vc && h.type ≠ 8 then 1 else 0
    credits := (List.range 4).map fun v => p.credits.getD v 0 + if v = h.cvc then h.cret else 0 }
  ((p.acknowledge (cellAck cell)).pump).returnCredits

/-- A cell is discarded, with a negative acknowledgement naming the last accepted one; they are counted for one SEQ. DEDUCED
(log 41). -/
def Port.discard (p : Port) : Port :=
  ({ p with nak := some p.rxSeq, naks := if p.nakSeq = p.rxSeq + 1 then p.naks + 1 else 1, nakSeq := p.rxSeq + 1 } : Port).emit
    creditCell true

/-! ## Training and groups (R461, R463, R464) -/

/-- The lanes a link runs on: 8, 4 or 2 of those that work, or none. -/
def trainedLanes (n : Nat) : Nat := if 8 ≤ n then 8 else if 4 ≤ n then 4 else if 2 ≤ n then 2 else 0

/-- Credits that the receivers advertise at training: request, response, synchronisation, bulk. -/
def trainedCredits : List Nat := [64, 64, 32, 128]

/-- The other trained members of a port's group: the links to the same peer, or the ports of the same die. -/
def State.groupOf (s : State) (port : Nat) : List Nat :=
  (if port < 12 then (List.range 12).filter fun k => Config.linkPeer k = Config.linkPeer port
    else (List.range 16).map fun j => 12 + (port - 12) / 16 * 16 + j).filter fun k => k ≠ port && (s.link k).up

/-- The member that takes over from one that goes down. DEDUCED (log 41). -/
def State.groupMember (s : State) (port : Nat) : Option Nat := (s.groupOf port).head?

/-- A member of a group goes down: the cells of its replay buffer that were not acknowledged, and then those that
waited, are sent on another member before any later one. DEDUCED (log 41). -/
def State.linkDown (s : State) (link : Nat) : State :=
  let p := s.link link
  let cells := ((p.replay.take p.unacked).reverse.map Cell.of).filter (·.type ≠ 8) ++ p.want
  let s := s.modLink link fun p => { lanes := 0, accepted := p.accepted }
  match s.groupMember link with
  | some k => s.modLink k fun q => ({ q with want := cells ++ q.want } : Port).pump
  | none => s

/-- A link refuses the same SEQ for the sixteenth time in a row: its lanes retrain, and where that did not help it goes
down (R462, R463, R471). DEDUCED (log 41). -/
def State.strain (s : State) (link : Nat) : State :=
  let p := s.link link
  if p.naks < 16 && p.gotNaks < 16 then s
  else if p.strained then s.linkDown link
  else s.modLink link fun p => { p with naks := 0, gotNaks := 0, strained := true }

/-! ## What the device sends to a peer (R460, R464) -/

/-- The trained links to a peer. -/
def State.linksTo (s : State) (peer : Nat) : List Nat :=
  (List.range 12).filter fun k => Config.linkPeer k = peer && (s.link k).up && 2 ≤ (s.link k).lanes

/-- Cells for a line go to the member of the peer's group that the hash of the line chooses. -/
def State.linkSend (s : State) (peer line : Nat) (cs : List Cell) : State :=
  let ks := s.linksTo peer
  match ks[Config.lineHash line % ks.length]? with
  | some k => s.modLink k (·.queue cs)
  | none => s

/-- The cells of a request: a read, a write or an atomic on the request channel; a release on the synchronisation channel
behind its marker; an engine's data on the bulk channel. DEDUCED (log 41). -/
def requestCells (r : RemoteReq) (bulk : Bool) : List Cell :=
  let d := Config.cellDest r.va.toNat
  let data := if r.kind = 2 then r.ops.flatMap fun o => bytesOf o.1 r.size ++ if r.op = 7 then bytesOf o.2 r.size else []
    else r.data
  match r.marker with
  | some m => cellsOf 2 6 d r.tag false (bytesOf m 8) ++ cellsOf 2 (r.kind + 1) d r.tag r.poi data
  | none => cellsOf (if bulk && r.kind = 1 then 3 else 0) (r.kind + 1) d r.tag r.poi data

/-- The cells of a reply: data, or an acknowledgement without payload, on the response channel with the request's tag. -/
def replyCells (r : RemoteReq) (data : List Byte) (poi : Bool) : List Cell :=
  cellsOf 1 (if r.kind = 1 then 5 else 4) (Config.cellDest r.core) r.tag poi data

end Sys2Proof.Machine
end

