-- ==== Sys2Proof/Machine/Memory.lean ====
section
/-! DEFINITION. Bytes of memory, scratchpads and the chip scratchpad with their poison (10 R256, R491), the home slice
and the L2 (10 R233, R239 to R241), the L1 (10 R236 to R238), page-table walks, TLBs and remote addresses (10 R242 to
R251; 22 R465 to R467), and the checks on every address (10 R226 to R231). -/

namespace Sys2Proof.Machine

/-! ## Bytes at a place -/

/-- Where bytes lie: global memory by physical address, a scratchpad by 2^19 core + offset, the chip scratchpad. -/
inductive Place where
  | mem | pad | chip
deriving DecidableEq, Repr

/-- The place that serves a space (01 R24, R26). -/
def placeOf : Space → Place
  | .gl => .mem
  | .xs => .chip
  | _ => .pad

/-- The byte at an address of a memory. DESIGN CHOICE: unlisted bytes read as 0 (log 2). -/
def State.byte (s : State) (p : Place) (a : Nat) : Byte :=
  match p with
  | .mem => s.mem.read 0 a
  | .pad => s.scratch.read 0 a
  | .chip => s.chip.read 0 a

/-- `n` bytes from an address on. -/
def State.bytes (s : State) (p : Place) (a : Nat) : Nat → List Byte
  | 0 => []
  | n + 1 => s.byte p a :: s.bytes p (a + 1) n

/-- The little-endian number that bytes spell (00 R5). -/
def State.load (s : State) (p : Place) (a n : Nat) : Nat := ofBytes (s.bytes p a n)

/-- Writes one byte; the store keeps its canonical form. -/
def State.setByte (s : State) (p : Place) (a : Nat) (v : Byte) : State :=
  match p with
  | .mem => { s with mem := s.mem.write 0 a v }
  | .pad => { s with scratch := s.scratch.write 0 a v }
  | .chip => { s with chip := s.chip.write 0 a v }

/-- The canonical form of a store of bytes, a list of `Host.Cell`: addresses strictly rising, and no byte equal to the 0
that an unlisted address reads as. DESIGN CHOICE (log 2). -/
def Memory.wf (m : List Host.Cell) : Bool := Tbl.canonical m 0

/-- The unit of poison: lines in global memory and the chip scratchpad, words in a scratchpad (10 R256, R491). -/
def grainOf : Place → Nat
  | .pad => 4
  | _ => 128

/-- The poisoned units of a memory (10 R256, R491). -/
def State.poisons (s : State) : Place → List Nat
  | .mem => s.memPoison
  | .pad => s.scratchPoison
  | .chip => s.chipPoison

/-- Replaces the poisoned units of a memory. -/
def State.setPoisons (s : State) (p : Place) (l : List Nat) : State :=
  match p with
  | .mem => { s with memPoison := l }
  | .pad => { s with scratchPoison := l }
  | .chip => { s with chipPoison := l }

/-- Some byte of the interval is poisoned (10 R226 step 4). -/
def State.poisoned (s : State) (p : Place) (a n : Nat) : Bool :=
  (s.poisons p).any fun k => k * grainOf p < a + n && a < (k + 1) * grainOf p

/-- A write that covers a whole unit clears its poison (10 R256, R491). -/
def State.clearPoison (s : State) (p : Place) (keys : List Nat) : State :=
  let g := grainOf p
  s.setPoisons p ((s.poisons p).filter fun k => !((List.range g).all fun i => keys.contains (k * g + i)))

/-- Poisons the units of an interval. DESIGN CHOICE (log 46). -/
def State.poisonRange (s : State) (p : Place) (a n : Nat) : State :=
  let g := grainOf p
  let units := (List.range ((a + n - 1) / g - a / g + 1)).map (· + a / g)
  s.setPoisons p (units.foldl addTo (s.poisons p))

/-- A block of a residency, by 32 half + block. -/
def Res.block (r : Res) (k : Nat) : Block := (r.blocks.get? k).getD {}

/-- Marks stale every block that watches one of the lines (13 R325, R376). -/
def State.markStale (s : State) (lines : List Nat) (cause : Nat) : State :=
  (s.watches.filter fun w => lines.contains w.line).foldl (fun s w =>
    s.modRes w.res fun r =>
      let b : Block := r.block (32 * w.half + w.blk)
      { r with blocks := r.blocks.put (32 * w.half + w.blk) { b with stale := cause } }) s

/-- The place of a memory in a key. -/
def Place.num : Place → Nat
  | .mem => 0
  | .pad => 1
  | .chip => 2

/-- Where the strong accesses to the line of a location are noted. -/
def noteKey (p : Place) (loc : Nat) : Nat := 4 * (loc / 128) + p.num

/-- A write to bytes of a release ends its release sequence (14 R341). -/
def State.dropRels (s : State) (p : Place) (bytes : Tbl Byte) : State :=
  if s.rels.isEmpty then s
  else { s with rels := s.rels.map fun e =>
      if e.1 % 4 = p.num then
        (e.1, e.2.filter fun n => !(bytes.any fun (b : Nat × Byte) => n.loc ≤ b.1 && b.1 < n.loc + n.size))
      else e }

/-- Performs a write of bytes at their place: each enabled byte changes (10 R237), poison clears where a whole unit is
written, and watching blocks become stale before the write is performed (13 R325). -/
def State.write (s : State) (p : Place) (bytes : Tbl Byte) : State :=
  let s : State := match p with
    | .mem => s.markStale (((bytes.map fun (e : Nat × Byte) => e.1 / 128) : List Nat).dedup) 1
    | _ => s
  let s := (s.clearPoison p (bytes.map fun (e : Nat × Byte) => e.1)).dropRels p bytes
  bytes.foldl (fun s e => s.setByte p e.1 e.2) s

/-- Bytes of a number placed from an address on. -/
def place (a n v : Nat) : Tbl Byte := (List.range n).map fun i => (a + i, BitVec.ofNat 8 (v / 256 ^ i))

/-- Bytes of a list placed from an address on. -/
def placeList (a : Nat) (l : List Byte) : Tbl Byte := (List.range l.length).map fun i => (a + i, l.getD i 0)

/-! ## The home slice and the L2 -/

/-- The exclusive or of a list of numbers. -/
def xorList (l : List Nat) : Nat := l.foldl (· ^^^ ·) 0

/-- The home slice of a physical address under a leaf's N and LOC (10 R233). -/
def homeSlice (pa : Nat) (leaf : DWord) : Nat :=
  if bitOf leaf 9 then
    16 * (leaf.toNat / 64 % 8) + xorList [pa / 2 ^ 7 % 16, pa / 2 ^ 11 % 16, pa / 2 ^ 15 % 16, pa / 2 ^ 19 % 16]
  else xorList [pa / 2 ^ 7 % 128, pa / 2 ^ 14 % 128, pa / 2 ^ 21 % 128, pa / 2 ^ 28 % 128, pa / 2 ^ 35 % 16]

/-- The stack that holds a physical address, and its offset in the stack (10 R232). -/
def stackPlace (pa : Nat) : Nat × Nat := (pa / 2 ^ 16 % 8, pa / 2 ^ 19 * 2 ^ 16 + pa % 65536)

/-- Adds to a team's counter on a core (18 R423, R425). -/
def State.count (s : State) (who : Option (Nat × Nat)) (sel : Nat) : State :=
  match who with
  | some (team, core) =>
    s.modTeam team fun t => { t with pc := t.pc.put (64 * core + sel) (t.pc.read 0 (64 * core + sel) + 1) }
  | none => s

/-- An access reaches a slice: a hit sets V to 0; a miss inserts at `v` (`none`: not allocated, R240), over the
lowest-numbered way that is empty or whose V, after raising every V alike, is 7 (10 R239 to R241; 18 R423). DEDUCED
(log 18). -/
def State.l2Touch (s : State) (line slice : Nat) (v : Option Nat) (ck : Nat) (who : Option (Nat × Nat)) (wr : Bool) :
    State :=
  let base := (slice * 1536 + Config.l2Set line % 1536) * 16
  let ways := (List.range 16).map fun w => s.l2.get? (base + w)
  match (List.range 16).find? fun w => ((ways.getD w none).map (·.line)) = some line with
  | some w =>
    match s.l2.get? (base + w) with
    | some e =>
      { s with l2 := s.l2.put (base + w) { e with v := 0, dirty := e.dirty || wr } }.count who
        (if e.ck = ck then 0x21 else 0x22)
    | none => s
  | none =>
    let s := s.count who 0x20
    match v with
    | none => s
    | some v =>
      let top := ways.foldl (fun m w => match w with | some e => max m e.v | none => 7) 0
      let raised := (List.range 16).foldl (fun t w =>
        match s.l2.get? (base + w) with
        | some e => Tbl.put t (base + w) { e with v := e.v + (7 - top) }
        | none => t) s.l2
      match (List.range 16).find? fun w =>
          match raised.get? (base + w) with
          | some e => e.v = 7
          | none => true with
      | some w =>
        let s := match raised.get? (base + w) with
          | some e => if e.dirty then s.count who 0x23 else s
          | none => s
        { s with l2 := raised.put (base + w) { line := line, v := v, ck := ck, dirty := wr } }
      | none => s

/-- A write of consecutive bytes at their home slices under a leaf: each line is present there (10 R237, R241). DEDUCED (log
18). -/
def State.writeHome (s : State) (ck pa : Nat) (leaf : DWord) (who : Option (Nat × Nat)) (b : List Byte) : State :=
  let s := s.write .mem (placeList pa b)
  (List.range ((pa + b.length + 127) / 128 - pa / 128)).foldl (fun s i =>
    s.l2Touch (pa / 128 + i) (homeSlice ((pa / 128 + i) * 128) leaf) (some 6) ck who true) s

/-- A write of the device at a physical address, in hashed mode (10 R241; 17 R412). DEDUCED (log 18). -/
def State.writePhys (s : State) (ck pa : Nat) (b : List Byte) : State := s.writeHome ck pa 0 none b

/-- Demotes a line that is present (11 R267). DEDUCED (log 18). -/
def State.l2Demote (s : State) (line slice : Nat) : State :=
  let base := (slice * 1536 + Config.l2Set line % 1536) * 16
  { s with l2 := s.l2.map fun e => if base ≤ e.1 && e.1 < base + 16 && e.2.line = line then (e.1, { e.2 with v := 7 }) else e }

/-- The V of an insertion for a reuse-distance hint (10 R240). DEDUCED (log 18). -/
def insertV (rd : Nat) : Option Nat := if rd = 0 then some 6 else if rd = 7 then none else some (rd - 1)

/-! ## The L1 data cache -/

/-- A sector of an L1 line (10 R236). -/
def L1Line.sector (l : L1Line) (k : Nat) : Option (List Byte) := if k = 0 then l.sec0 else l.sec1

/-- Replaces a sector of an L1 line. -/
def L1Line.setSector (l : L1Line) (k : Nat) (b : Option (List Byte)) : L1Line :=
  if k = 0 then { l with sec0 := b } else { l with sec1 := b }

/-- The sector holding a physical address, if it is valid (10 R236). -/
def Core.l1Sector (c : Core) (pa : Nat) : Option (List Byte) :=
  (c.l1.find? fun l => l.line = pa / 128).bind fun l => l.sector (pa / 64 % 2)

/-- Makes a line the most recently used. -/
def Core.l1Use (c : Core) (pa : Nat) : Core :=
  match c.l1.find? fun l => l.line = pa / 128 with
  | some l => { c with l1 := l :: c.l1.filter fun k => k.line ≠ pa / 128 }
  | none => c

/-- Removes a line's sector; a line without sectors leaves the cache. -/
def Core.l1DropSector (c : Core) (pa : Nat) : Core :=
  { c with l1 := (c.l1.map fun l => if l.line = pa / 128 then l.setSector (pa / 64 % 2) none else l).filter fun l =>
      l.sec0.isSome || l.sec1.isSome }

/-- Drops a line from the L1 (10 R238). -/
def Core.l1DropLine (c : Core) (line : Nat) : Core := { c with l1 := c.l1.filter fun l => l.line ≠ line }

/-- An acquire at `.cluster` scope or wider (10 R238), and `cinv` (11 R266). -/
def Core.l1Clear (c : Core) : Core := { c with l1 := [] }

/-- Allocates a sector: a new line evicts the least recently used of a full set, which leaves a victim tag (06 R143).
PRESUMED (log 6). DESIGN CHOICE: the filler of a line is the slot that allocated it, whoever fills its other sector (log
52). -/
def Core.l1Fill (c : Core) (pa : Nat) (data : List Byte) (slot : Nat) : Core :=
  let line := pa / 128
  match c.l1.find? fun l => l.line = line with
  | some l => { c with l1 := l.setSector (pa / 64 % 2) (some data) :: c.l1.filter fun k => k.line ≠ line }
  | none =>
    let fresh := (L1Line.setSector { line := line, sec0 := none, sec1 := none, filler := slot } (pa / 64 % 2) (some data))
    let set := c.l1.filter fun l => l.line % 128 = line % 128
    match (if set.length < 8 then none else set.getLast?) with
    | some v =>
      { c with
        l1 := fresh :: c.l1.filter fun l => l.line ≠ v.line
        tags := ({ line := v.line, filler := v.filler, evictor := slot } :: c.tags).take 256 }
    | none => { c with l1 := fresh :: c.l1 }

/-- A store updates the sectors of its own core that are valid (10 R237). -/
def Core.l1Store (c : Core) (bytes : Tbl Byte) : Core :=
  { c with l1 := c.l1.map fun l =>
      bytes.foldl (fun l e =>
        if e.1 / 128 = l.line then
          l.setSector (e.1 / 64 % 2) ((l.sector (e.1 / 64 % 2)).map fun d => d.set (e.1 % 64) e.2)
        else l) l }

/-- A miss of a slot's group on a line counts a lost-locality event under R143 and removes the tag it matches. DESIGN CHOICE:
of several tags of the line the newest is matched, and a line's filler is the slot that allocated it (log 52). -/
def Core.l1Miss (c : Core) (line slot : Nat) : Core :=
  match c.tags.find? fun t => t.line = line with
  | some t =>
    { c with
      tags := c.tags.erase t
      llCount := if t.filler = slot ∧ t.evictor ≠ slot then min 1023 (c.llCount + 1) else c.llCount }
  | none => c

/-! ## Page tables -/

/-- What an access needs (10 R246). -/
inductive Need where
  | read | write | both | fetch
deriving DecidableEq, Repr

/-- N of a leaf (10 R244). -/
def leafRun (e : DWord) : Nat := e.toNat / 2 ^ 55
/-- PFN of a leaf (10 R244). -/
def leafPfn (e : DWord) : Nat := e.toNat / 2 ^ 16 % 2 ^ 32

/-- A leaf has the permission an access needs (10 R244, R246). -/
def leafAllows (e : DWord) : Need → Bool
  | .read => bitOf e 2
  | .write => bitOf e 3
  | .both => bitOf e 2 && bitOf e 3
  | .fetch => bitOf e 2 && bitOf e 4

/-- Index bits of a level (10 R242). -/
def vaIndex (va lvl : Nat) : Nat :=
  match lvl with
  | 0 => va / 2 ^ 46 % 2 ^ 11
  | 1 => va / 2 ^ 36 % 2 ^ 10
  | 2 => va / 2 ^ 26 % 2 ^ 10
  | _ => va / 2 ^ 16 % 2 ^ 10

/-- Reserved bits of an entry at a level (10 R243, R244). -/
def entryReserved (e : DWord) (lvl : Nat) : Bool :=
  if lvl < 3 then e.toNat / 2 ^ 48 ≠ 0 || e.toNat / 4 % 2 ^ 11 ≠ 0
  else e.toNat / 2 ^ 48 % 2 ^ 7 ≠ 0 || e.toNat / 2 ^ 10 % 2 ^ 6 ≠ 0

/-- Physical pages that self-test found absent (22 R472). -/
def State.absentRun (s : State) (pfn n : Nat) : Bool := s.unitMap.absentPages.any fun p => pfn ≤ p && p < pfn + n

/-- The rest of a walk from a table at `t` through the levels listed (10 R247). -/
def State.walkFrom (s : State) (ck va t : Nat) : List Nat → WalkResult
  | [] => .fault 3 1
  | lvl :: rest =>
    let a := t + 8 * vaIndex va lvl
    let e : DWord := BitVec.ofNat 64 (s.load .mem a 8)
    if s.poisoned .mem a 8 then .poison
    else if !bitOf e 0 then .fault 3 1
    else if entryReserved e lvl || bitOf e 1 ≠ decide (lvl = 3) then .fault 3 2
    else if lvl < 3 then
      let t' := e.toNat / 2 ^ 13 % 2 ^ 35 * 2 ^ 13
      if 2 ^ 39 ≤ t' then .fault 3 2 else s.walkFrom ck va t' rest
    else if !bitOf e 5 then .fault 4 5
    else if (!bitOf e 9 && e.toNat / 64 % 8 ≠ 0) || 1023 < vaIndex va 3 + leafRun e
        || 2 ^ 39 ≤ (leafPfn e + leafRun e) * 2 ^ 16 || s.absentRun (leafPfn e) (leafRun e + 1) then .fault 3 2
    else .ok { ck := ck, first := va / 65536, len := leafRun e + 1, leaf := e }

/-- A walk of a context's page table, reading the entries as they stand now (10 R247). -/
def State.walk (s : State) (ck va : Nat) : WalkResult :=
  let t := (s.ctx ck).ptbase.toNat / 65536 * 65536
  if 2 ^ 39 ≤ t then .fault 3 2 else s.walkFrom ck va t [0, 1, 2, 3]

/-- The entries that a walk from a table reads, by physical address (10 R247). -/
def State.walkReads (s : State) (va t : Nat) : List Nat → List Nat
  | [] => []
  | lvl :: rest =>
    let a := t + 8 * vaIndex va lvl
    let e : DWord := BitVec.ofNat 64 (s.load .mem a 8)
    let t' := e.toNat / 2 ^ 13 % 2 ^ 35 * 2 ^ 13
    if s.poisoned .mem a 8 || !bitOf e 0 || entryReserved e lvl || bitOf e 1 || lvl = 3 || 2 ^ 39 ≤ t' then [a]
    else a :: s.walkReads va t' rest

/-- A walk's reads reach the home slices of its entries, in hashed mode (10 R240, R247). -/
def State.walkTouch (s : State) (ck va : Nat) : State :=
  let t := (s.ctx ck).ptbase.toNat / 65536 * 65536
  if 2 ^ 39 ≤ t then s
  else (s.walkReads va t [0, 1, 2, 3]).foldl (fun s a => s.l2Touch (a / 128) (homeSlice a 0) (some 6) ck none false) s

/-- The physical address of a virtual address under a run. -/
def TlbEntry.pa (e : TlbEntry) (va : Nat) : Nat := (leafPfn e.leaf + (va / 65536 - e.first)) * 65536 + va % 65536

/-- A TLB entry covers a page of a context (10 R248). -/
def TlbEntry.covers (e : TlbEntry) (ck page : Nat) : Bool := e.ck = ck && e.first ≤ page && page < e.first + e.len

/-- The enabled link-map entry whose range holds an address (22 R465, R466). -/
def State.remoteOf (s : State) (ck va : Nat) : Option Nat :=
  (List.range 4).find? fun i =>
    let e := ((s.ctx ck).lmap.read 0 i)
    bitOf e 63 && e.toNat / 2 ^ 11 % 2 ^ 11 ≤ vaIndex va 0 && vaIndex va 0 ≤ e.toNat % 2 ^ 11

/-- What translating an address gives. -/
inductive Xlat where
  | ok (pa : Nat) (leaf : DWord)
  | fault (cls cause : Nat)
  | poison
  | remote (i : Nat)
deriving DecidableEq, Repr

/-- Permission on a run (10 R246, R247). -/
def TlbEntry.check (e : TlbEntry) (va : Nat) (need : Need) : Xlat :=
  if leafAllows e.leaf need then .ok (e.pa va) e.leaf else .fault 3 3

/-- Translation for an engine, the host or a fetch context: a fresh walk. DEDUCED (log 19). -/
def State.xlatNow (s : State) (ck va : Nat) (need : Need) : Xlat :=
  if 2 ^ 57 ≤ va then .fault 3 4
  else match s.remoteOf ck va with
    | some i => .remote i
    | none =>
      match s.walk ck va with
      | .ok e => e.check va need
      | .fault c k => .fault c k
      | .poison => .poison

/-- A translation by a fresh walk, whose reads reach the L2 (10 R240). DEDUCED (log 19). -/
def State.xlat (s : State) (ck va : Nat) (need : Need) : State × Xlat :=
  let s := if 2 ^ 57 ≤ va || (s.remoteOf ck va).isSome then s else s.walkTouch ck va
  (s, s.xlatNow ck va need)

/-- A TLB with an entry made the most recently used, at most `n` entries. DEDUCED (log 19). -/
def tlbPut (t : List TlbEntry) (e : TlbEntry) (n : Nat) : List TlbEntry := (e :: t.filter (· ≠ e)).take n

/-- The second-level TLB of a locality (10 R248). -/
def State.tlb2Of (s : State) (d : Nat) : List TlbEntry := (s.tlb2.get? d).getD []

/-- Takes a group off the failed walks it waits on: their answers have been taken. -/
def State.takeReplies (s : State) (gk : Nat) : State :=
  let taken : Tbl Walk := s.walks.map fun e =>
    if e.2.result.isSome then (e.1, { e.2 with gks := dropFrom e.2.gks gk }) else e
  { s with walks := taken.filter fun e => e.2.result.isNone || !e.2.gks.isEmpty }

/-- A walk in progress serves a page: it is the walk of that page, or of a run that covers it (10 R248). DEDUCED (log
19). -/
def State.joins (s : State) (w : Walk) (ck page : Nat) : Bool :=
  w.ck = ck && w.result.isNone && (w.page = page ||
    match s.walk ck (w.page * 65536) with
    | .ok e => e.covers ck page
    | _ => false)

/-- The walkers of a locality that are busy (10 R247, R248). -/
def State.walkersBusy (s : State) (d : Nat) : Nat :=
  (s.walks.filter fun (e : Nat × Walk) => dieOf e.2.core = d && e.2.result.isNone).length

/-- The lookup of one page for a group's instruction (10 R248): the core's TLB, the second-level TLB, the answer of a failed
walk, or a walk joined or started, where one of the locality's 32 walkers is free; `none` while it runs. -/
def State.lookup (s : State) (gk ck page : Nat) : State × Option WalkResult :=
  let c := coreOf gk
  let d := dieOf c
  match (s.core c).tlb.find? fun e => e.covers ck page with
  | some e => (s.modCore c fun k => { k with tlb := tlbPut k.tlb e 128 }, some (.ok e))
  | none =>
    match (s.tlb2Of d).find? fun e => e.covers ck page with
    | some e =>
      let s := s.modCore c fun k => { k with tlb := tlbPut k.tlb e 128 }
      ({ s with tlb2 := s.tlb2.put d (tlbPut (s.tlb2Of d) e 16384) }, some (.ok e))
    | none =>
      match s.walks.find? fun w => w.2.ck = ck && w.2.page = page && w.2.gks.contains gk && w.2.result.isSome with
      | some (_, w) => (s, w.result)
      | none =>
        match s.walks.find? fun w => dieOf w.2.core = d && s.joins w.2 ck page with
        | some (k, w) =>
          let w' : Walk := { w with gks := addTo w.gks gk }
          ({ s with walks := s.walks.put k w' }, none)
        | none =>
          if 32 ≤ s.walkersBusy d then (s, none)
          else
            let (k, s) := s.fresh
            let w : Walk := { ck := ck, page := page, core := c, isc := (s.ctx ck).isc, gks := [gk], result := none }
            ({ s with walks := s.walks.put k w }, none)

/-- The lookups of an instruction's unique pages, in order; `none` while some walk runs (10 R248). -/
def State.lookups (s : State) (gk ck : Nat) : List Nat → State × Option (List (Nat × WalkResult))
  | [] => (s, some [])
  | page :: rest =>
    let (s, r) := s.lookup gk ck page
    let (s, rs) := s.lookups gk ck rest
    match r, rs with
    | some r, some rs => (s, some ((page, r) :: rs))
    | _, _ => (s, none)

/-- Each element once, in the order of its first place. -/
def firsts (l : List Nat) : List Nat := l.foldl (fun m p => if m.contains p then m else m ++ [p]) []

/-! ## Checks on an address -/

/-- The team's scratch run on its cores (10 R229). -/
def Team.runStart (t : Team) : Nat := 512 * t.b

/-- An interval lies in the team's scratch run (10 R229). -/
def inScratch (t : Team) (p : Packet) (a n : Nat) : Bool := t.runStart ≤ a && a + n ≤ t.runStart + p.scratch

/-- The core and offset of a cluster-shared address, seen from a core (01 R26; 10 R230). -/
def ksPlace (core a : Nat) : Nat × Nat := (clusterOf core * 64 + a / 2 ^ 19 % 64, a % 2 ^ 19)

/-- A grant covers an interval of the chip scratchpad (10 R231). -/
def grantCovers (g : Word) (o n : Nat) : Bool :=
  65536 * (g.toNat % 256) ≤ o && o + n ≤ 65536 * (g.toNat % 256 + g.toNat / 256 % 512)

/-- Step 2 of R226 for an access of `n` bytes: true when the address lies within bounds (10 R228 to R231). -/
def State.inBounds (s : State) (core ck : Nat) (t : Team) (p : Packet) (space : Space) (a n : Nat) : Bool :=
  match space with
  | .gl => a < 2 ^ 57
  | .ln => a + n ≤ 16 * p.lane
  | .sp => inScratch t p a n
  | .ks => a < 2 ^ 25 && t.cores.contains (ksPlace core a).1 && inScratch t p (ksPlace core a).2 n
  | .xs => a < 2 ^ 27 && a % 2 ^ 24 + n ≤ 2 ^ 24 &&
      grantCovers ((s.ctx ck).grants.read 0 (a / 2 ^ 24)) (a % 2 ^ 24) n

/-- The scratchpad offset of a thread's lane slice (04 R86). -/
def Team.sliceAt (t : Team) (p : Packet) (tid : Nat) : Nat :=
  512 * t.laneRuns.read 0 (tid / 32) + 16 * p.lane * (tid % 32)

/-- The core on which a thread's slice lies: its home core (01 R25; 02 R44). -/
def Team.homeCore (t : Team) (tid : Nat) : Nat := t.cores.getD (tid / 1024) 0

/-- The location of an address that is in bounds, outside global space. -/
def localLoc (core : Nat) (t : Team) (p : Packet) (space : Space) (tid a : Nat) : Nat :=
  match space with
  | .sp => 2 ^ 19 * core + a
  | .ks => 2 ^ 19 * (ksPlace core a).1 + (ksPlace core a).2
  | .ln => 2 ^ 19 * t.homeCore tid + t.sliceAt p tid + a
  | _ => a

/-! ## The outside world and peers (22 R463 to R466) -/

/-- Sends something to the outside world. -/
def State.send (s : State) (m : Sent) : State := { s with sent := m :: s.sent }

/-- The message of a vector: the data that the table gives, to the address that it gives (03 R71). -/
def Fn.message (f : Fn) (fn vec : Nat) : Sent := .msix fn vec (f.vecAddr.read 0 vec) (f.vecData.read 0 vec)

/-- An MSI-X message is sent where the table lets it, and is pending else (03 R71). PRESUMED (log 49). -/
def State.msix (s : State) (fn vec : Nat) : State :=
  let f := s.fn fn
  if f.msixEn && !f.msixMask && !bitOf f.vecMask vec then s.send (f.message fn vec)
  else s.modFn fn fun f => { f with vecPend := f.vecPend ||| 1#64 <<< vec }

/-- Pending messages that the MSI-X table no longer masks are sent (03 R71). PRESUMED (log 49). -/
def State.sendPending (s : State) (fn : Nat) : State :=
  let f := s.fn fn
  if !f.msixEn || f.msixMask then s
  else
    let out := (List.range 64).filter fun v => bitOf f.vecPend v && !bitOf f.vecMask v
    (out.foldl (fun s v => s.send (f.message fn v)) s).modFn fn fun f => { f with vecPend := f.vecPend &&& f.vecMask }

/-- The package link group to a peer works. -/
def State.linkUp (s : State) (peer : Nat) : Bool := !(s.linksTo peer).isEmpty

/-- The peer of a link-map entry (22 R465). -/
def lmapPeer (e : DWord) : Nat := e.toNat / 2 ^ 48 % 256

/-- The link group of a link-map entry of a context works. -/
def State.peerUp (s : State) (ck e : Nat) : Bool := s.linkUp (lmapPeer ((s.ctx ck).lmap.read 0 e))

/-- A request leaves for the peer of a link-map entry, and its cells for the link that carries its line (22 R460, R464,
R466). A write counts as sent by its core. DESIGN CHOICE (log 17). -/
def State.sendPeer (s : State) (ck e : Nat) (bulk : Bool) (r : RemoteReq) : State :=
  let m := (s.ctx ck).lmap.read 0 e
  let peer := lmapPeer m
  let k := 256 * r.core + peer
  let r := { r with fn := m.toNat / 2 ^ 39 % 32, ctx := m.toNat / 2 ^ 44 % 16, tag := s.nextId % 2 ^ 16 }
  let s : State := if r.kind = 0 then s else { s with peerSent := s.peerSent.put k (s.peerSent.read 0 k + 1) }
  (s.send (.remoteRequest peer r)).linkSend peer (r.va.toNat / 128) (requestCells r bulk)

/-- A request of an agent of the device to the peer of a link-map entry: kind 0 read, 1 write, 2 an addition. DESIGN CHOICE
(log 17). -/
def State.askPeer (s : State) (ck e va n kind : Nat) (data : List Byte) : State :=
  s.sendPeer ck e true
    { fn := 0, ctx := 0, va := BitVec.ofNat 64 va, size := n, kind := kind
      data := if kind = 2 then [] else data, ops := if kind = 2 then [(ofBytes data, 0)] else [] }

/-- A byte that a peer answers to the read of an agent of the device: a free value, or the status of a failure. DESIGN
CHOICE (log 4). DESIGN CHOICE (log 17). -/
def State.peerByte (s : State) (va : Nat) : Except Nat Byte :=
  let i := 2 ^ 64 * (s.freeCount + 1) + va
  match Config.freeNat i % 4 with
  | 1 => .error 7
  | 2 => .error 8
  | _ => .ok (Config.freeByte i)

/-- Bytes that a peer answers, or the first failure. -/
def State.peerBytes (s : State) (va n : Nat) : Except Nat (List Byte) :=
  (List.range n).foldl (fun acc i =>
    match acc, s.peerByte (va + i) with
    | .ok l, .ok b => .ok (l ++ [b])
    | .ok _, .error x => .error x
    | e, _ => e) (.ok [])

/-- An agent of the device reads bytes of one page: the bytes, or status 7 or 8 (02 R55). -/
def State.devRead (s : State) (ck va n : Nat) (need : Need) : State × Except Nat (List Byte) :=
  match s.xlat ck va need with
  | (s, .ok pa _) => (s, if s.poisoned .mem pa n then .error 8 else .ok (s.bytes .mem pa n))
  | (s, .remote e) =>
    if s.peerUp ck e then
      let b := s.peerBytes va n
      ((s.freeIdx).2.askPeer ck e va n 0 [], b)
    else (s, .error 7)
  | (s, .poison) => (s, .error 8)
  | (s, .fault ..) => (s, .error 7)

/-- An agent of the device writes bytes of one page; the status of a failure. -/
def State.devWrite (s : State) (ck va : Nat) (b : List Byte) : State × Option Nat :=
  match s.xlat ck va .write with
  | (s, .ok pa leaf) => (s.writeHome ck pa leaf none b, none)
  | (s, .remote e) =>
    if s.peerUp ck e then
      let (i, s) := s.freeIdx
      (s.askPeer ck e va b.length 1 b, if Config.freeNat i % 2 = 1 then some 7 else none)
    else (s, some 7)
  | (s, .poison) => (s, some 8)
  | (s, .fault ..) => (s, some 7)

end Sys2Proof.Machine
end

