-- ==== Sys2Proof/Machine/Order.lean ====
section
/-! DEFINITION. What has happened before what (14_consistency R336 to R347): the agents, the scopes that reach them, what a
thread has seen of the others' accesses, the releases that a read returns, the accesses whose order nothing gives, and the
bytes that they leave undefined. Every access has a number in the order of events; for each agent a thread knows the number
before which the agent's accesses happen before its own next one. -/

namespace Sys2Proof.Machine

/-! ## Agents and scopes (R336, R337) -/

/-- The agent that a thread is; agent 0 is the host. DEDUCED (log 47). -/
def agentOf (team tid : Nat) : Nat := 65536 * team + tid

/-- A scope, seen from a thread, names the agent at another place; the host stands at core 1024 (R337). -/
def scopeReaches (sc : Scope) (core gk core' gk' : Nat) : Bool :=
  match sc with
  | .none => false
  | .group => gk = gk'
  | .core => core = core'
  | .cluster => clusterOf core = clusterOf core' && core' < 1024
  | .die => dieOf core = dieOf core' && core' < 1024
  | .device => core' < 1024
  | .system => true

/-! ## What a thread knows (R344) -/

/-- What happens before the next access of the thread in a lane: what it has seen, and its own accesses so far. -/
def State.knows (s : State) (gk l : Nat) : Tbl Nat :=
  let t := s.thread gk l
  t.seen.put (agentOf (s.group gk).team t.tid) s.nextId

/-- The same for lanes of groups together. -/
def State.knownTo (s : State) (ls : List (Nat × Nat)) : Tbl Nat := ls.foldl (fun m w => m.join (s.knows w.1 w.2)) []

/-- A thread is ordered after the accesses of a table. -/
def Thread.sees (v : Tbl Nat) (t : Thread) : Thread := { t with seen := t.seen.join v }

/-- An event orders every access before it by threads of these lanes before every access after it by each of them (R343). -/
def State.syncLanes (s : State) (ls : List (Nat × Nat)) : State :=
  ls.foldl (fun u w => u.modThread w.1 w.2 (·.sees (s.knownTo ls))) s

/-- The lanes of a group, each with its slot. -/
def State.lanesIn (s : State) (gk : Nat) : List (Nat × Nat) := (s.group gk).lanes.map fun e => (gk, e.1)

/-- An access of these agents with this number happens before what follows a table. -/
def happened (seen : Tbl Nat) (makers : List Nat) (n : Nat) : Bool := makers.any fun a => n < seen.read 0 a

/-- The part of a lane's thread in an access: a release of its own order releases all before it, and one that a fence has lent
all before the fence (R341, R342). -/
def State.makerOf (s : State) (gk : Nat) (own : Bool) (lent : List (Nat × Scope)) (l : Nat) : Maker :=
  let t := s.thread gk l
  { who := agentOf (s.group gk).team t.tid, seen := s.knows gk l
    rel := if own then some (s.knows gk l) else if lent.any fun e => e.1 = t.tid then some t.fenceSeen else none }

/-- What has happened before an access for one of its threads; an access of a group follows all of its threads. -/
def Flight.seenBy (f : Flight) (tid : Nat) : Tbl Nat :=
  match f.makers.find? fun m => m.who = agentOf f.team tid with
  | some m => m.seen
  | none => f.makers.foldl (fun v m => v.join m.seen) []

/-- The agents that make an access for a thread. -/
def Flight.whoBy (f : Flight) (tid : Nat) : List Nat :=
  if f.makers.any fun m => m.who = agentOf f.team tid then [agentOf f.team tid] else f.makers.map (·.who)

/-! ## Synchronisation (R341 to R343) -/

/-- A release and an acquire at a place synchronise: each scope includes the other's agent, or the acquire promotes a narrow
release (R340, R351). -/
def RelNote.orders (n : RelNote) (sc : Scope) (core gk : Nat) (promote : Bool) : Bool :=
  scopeReaches sc core gk n.core n.gk &&
    (scopeReaches n.scope n.core n.gk core gk || (promote && Scope.device.code ≤ sc.code && n.scope.code ≤ Scope.core.code))

/-- What happens before an acquire that returned the values of these releases. -/
def seenFrom (ns : List RelNote) (sc : Scope) (core gk : Nat) (promote : Bool) : Tbl Nat :=
  (ns.filter fun n => n.orders sc core gk promote).foldl (fun v n => v.join n.seen) []

/-- The place of an access in flight. -/
def Flight.place (f : Flight) : Place := placeOf f.space

/-- The releases that a read at the home returns: those of its address and size whose release sequence lasts (R341). -/
def State.notesFor (s : State) (f : Flight) : List RelNote :=
  if f.remote.isSome || !f.strong then []
  else ((s.rels.get? (noteKey f.place f.loc)).getD []).filter fun n =>
    if n.whole then n.loc < f.loc + f.size && f.loc < n.loc + n.size else n.loc = f.loc && n.size = f.size

/-- A release at a location takes its place in the home order. -/
def State.putRel (s : State) (p : Place) (n : RelNote) : State :=
  let k := noteKey p n.loc
  { s with rels := s.rels.put k (n :: (s.rels.get? k).getD []) }

/-- The release that an access is for one of its threads is performed (R341, R342). -/
def State.releasedBy (s : State) (f : Flight) (m : Maker) : State :=
  match m.rel with
  | some v =>
    if f.remote.isSome then s
    else s.putRel f.place
      { loc := f.loc, size := f.size, whole := false, scope := f.scope, core := f.core, gk := f.gk, seen := v }
  | none => s

/-- A strong read has returned the values of these releases: an acquire orders its thread after them (R341). -/
def Thread.tookFrom (f : Flight) (ns : List RelNote) (t : Thread) : Thread :=
  if !f.strong then t
  else
    let t := if f.acq then t.sees (seenFrom ns f.scope f.core f.gk f.promote) else t
    { t with strongRead := none, readFrom := ns, readScope := f.scope }

/-! ## Accesses that nothing orders (R347) -/

/-- An access in flight as it will be noted. -/
def State.asNote (s : State) (f : Flight) : StrongNote :=
  { loc := f.loc, size := f.size, makers := f.makers.map (·.who), grid := ((s.teams.get? f.team).map (·.grid)).getD 0
    seq := f.seq, seen := f.makers.foldl (fun v m => v.join m.seen) [] }

/-- The strong accesses, performed or in flight, that overlap a strong access of a thread with another address or size, and of
which neither happens before the other. -/
def State.clashing (s : State) (f : Flight) (tid : Nat) : List StrongNote :=
  if !f.strong || f.remote.isSome then []
  else
    let seen := f.seenBy tid
    let me := f.whoBy tid
    let flying := (s.flights.filter fun (e : Nat × Flight) =>
      e.2.strong && e.2.place = f.place && e.2.remote.isNone && e.2.loc / 128 = f.loc / 128).map fun (e : Nat × Flight) => s.asNote e.2
    ((((s.strongs.get? (noteKey f.place f.loc)).getD []) ++ flying).filter fun n =>
      n.loc < f.loc + f.size && f.loc < n.loc + n.size && !(n.loc = f.loc && n.size = f.size)
        && !(n.makers.any me.contains) && !happened seen n.makers n.seq && !happened n.seen me f.seq)

/-- An undefined byte stays so for this access: for a read, and for a write that does not happen after the accesses that left
it undefined. -/
def State.hazyFor (s : State) (p : Place) (a : Nat) (after : Option (Tbl Nat)) : Bool :=
  match s.hazy.get? (4 * a + p.num) with
  | none => false
  | some es => match after with
    | none => true
    | some v => !(es.all fun e => happened v e.1 e.2)

/-- The bytes of an access by a thread that are undefined: those it shares with a strong access of another shape that nothing
orders, and those left undefined before. `after` is what has happened before it where it writes them. DEDUCED (log 47). -/
def State.vague (s : State) (f : Flight) (tid : Nat) (after : Option (Tbl Nat)) : List Nat :=
  if f.remote.isSome then []
  else
    let os := s.clashing f tid
    ((List.range f.size).map (f.loc + ·)).filter fun a =>
      (os.any fun n => n.loc ≤ a && a < n.loc + n.size) || s.hazyFor f.place a after

/-- The bytes that a read, an atomic or a store of a thread meets undefined. DEDUCED (log 47). -/
def State.mixedBytes (s : State) (f : Flight) (tid : Nat) : List Nat :=
  s.vague f tid (match f.kind with | .store _ => some (f.seenBy tid) | _ => none)

/-- Undefined bytes are free values, new ones for every access that meets them. DEDUCED (log 47). -/
def State.blur (s : State) (p : Place) (as : List Nat) : State :=
  if as.isEmpty then s
  else
    let (i, s) := s.freeIdx
    as.foldl (fun s a => s.setByte p a (Config.freeByte (2 ^ 64 * (i + 1) + a))) s

/-- The undefined bytes of an interval, read by an agent that is no thread. DEDUCED (log 47). -/
def State.blurRead (s : State) (p : Place) (a n : Nat) : State :=
  if s.hazy.isEmpty then s
  else s.blur p (((List.range n).map (a + ·)).filter fun b => s.hazyFor p b none)

/-- An access leaves the bytes that it shares with clashing ones undefined, and a write that happens after all that left a byte
undefined defines it again. -/
def State.haze (s : State) (f : Flight) (tid : Nat) (wrote : Bool) : State :=
  let os := s.clashing f tid
  if os.isEmpty && s.hazy.isEmpty then s
  else
    let seen := f.seenBy tid
    { s with hazy := (List.range f.size).foldl (fun h i =>
        let a := f.loc + i
        let key := 4 * a + f.place.num
        let kept := if wrote && !s.hazyFor f.place a (some seen) then [] else (h.get? key).getD []
        let cs := os.filter fun n => n.loc ≤ a && a < n.loc + n.size
        let es := if cs.isEmpty then kept
          else (((f.whoBy tid, f.seq) :: cs.map fun n => (n.makers, n.seq)) ++ kept).dedup
        if es.isEmpty then h.del key else h.put key es) s.hazy }

/-- An access has been performed: a strong one is noted, in the place of the earlier ones of its agent, address and size. DEDUCED
(log 47). -/
def State.strongNote (s : State) (f : Flight) (tid : Nat) (wrote : Bool) : State :=
  if f.remote.isSome then s
  else
    let s := s.haze f tid wrote
    if !f.strong then s
    else
      let s := (s.fresh).2
      let key := noteKey f.place f.loc
      let n : StrongNote := { s.asNote f with makers := f.whoBy tid, seen := f.seenBy tid }
      let rest := ((s.strongs.get? key).getD []).filter fun o =>
        !(o.makers = n.makers && o.loc = n.loc && o.size = n.size)
      { s with strongs := s.strongs.put key (n :: rest) }

/-- The accesses that happened before a new agent: those of grids that have ended, and the host's (R343; log 47). -/
def State.endedSeen (s : State) : Tbl Nat :=
  ((s.strongs.flatMap fun (e : Nat × List StrongNote) => e.2).filter fun n => (s.grids.get? n.grid).isNone).foldl
    (fun v n => n.makers.foldl (fun v a => v.put a s.nextId) v) [(0, s.nextId)]

/-- The accesses of a grid, for the record and the signal of its completion (R343). -/
def State.gridSeen (s : State) (grid : Nat) : Tbl Nat :=
  ((s.strongs.flatMap fun (e : Nat × List StrongNote) => e.2).filter fun n => n.grid = grid).foldl
    (fun v n => n.makers.foldl (fun v a => v.put a s.nextId) v) []

/-- Forgets the accesses to an interval of a scratchpad that a team takes (04 R92). -/
def State.forget (s : State) (lo hi : Nat) : State :=
  let out (k : Nat) : Bool := !(k % 4 = 1 && lo ≤ k / 4 * 128 && k / 4 * 128 < hi)
  { s with
    strongs := s.strongs.filter fun e => out e.1
    rels := s.rels.filter fun e => out e.1
    hazy := s.hazy.filter fun e => !(e.1 % 4 = 1 && lo ≤ e.1 / 4 && e.1 / 4 < hi) }

end Sys2Proof.Machine
end

