-- ==== Sys2Proof/Machine/Ops.lean ====
section
/-! DEFINITION. The shared operations of the machine: event records, completion records and rings, signals, traces and
notifications (02 R47, R53; 03 R67, R70; 17 R417; 18 R426), the end and the abort of grids (03 R72, R78), the abort of a
transaction lane (15 R372), TAKING A TRAP with its context fault and double fault (17 R391, R395, R397, R400) and the
return from one (17 R399). -/

namespace Sys2Proof.Machine

/-! ## Records -/

/-- The 32 bytes of a record with PHASE clear (02 R54). -/
def recordBytes (kind status cls id : Nat) (time : DWord) (count detail : Nat) : List Byte :=
  bytesOf (kind + 256 * status + 2 ^ 17 * cls) 4 ++ bytesOf id 4 ++ bytesOf time.toNat 8 ++ bytesOf count 8
    ++ bytesOf detail 8

/-- A record with its PHASE for record number `n` of a ring of 2^`size` records (02 R54). -/
def withPhase (r : List Byte) (n size : Nat) : List Byte :=
  r.set 2 (r.getD 2 0 ||| BitVec.ofNat 8 (1 - n / 2 ^ size % 2))

/-- ID in the non-copy form (02 R54). -/
def recordId (ck q : Nat) (dev : Bool) : Nat := (if dev then 2 ^ 15 else 0) + 64 * ck + q

/-- The identity of a grid in a record (02 R47). -/
def Grid.recId (g : Grid) : Nat := recordId g.ck g.q g.dev

/-- Bytes of a firmware core's private memory (03 R68). -/
def privSize (fn : Nat) : Nat := if fn = 0 then 2 ^ 23 else 2 ^ 22

/-- A record with its TIME, which is `sr.ctime` when it is written (02 R54; 03 R67). -/
def stamped (r : List Byte) (time : DWord) : List Byte := r.take 8 ++ bytesOf time.toNat 8 ++ r.drop 16

/-- The device may write a record to the ring (03 R70). Setting EN with a SIZE outside 4 to 16 sets it, and the ring is then
closed. DESIGN CHOICE (log 50). -/
def Fn.ringOpen (f : Fn) (n : Nat) : Bool :=
  f.eren && 4 ≤ f.ersize && f.ersize ≤ 16 && f.erbase.toNat / 32 * 32 + 32 * 2 ^ f.ersize ≤ privSize n
    && (f.erw - f.err).toNat < 2 ^ f.ersize

/-- Writes one record to the ring and raises the core's event interrupt (03 R70). -/
def Fn.ringPut (f : Fn) (r : List Byte) : Fn :=
  let a := f.erbase.toNat / 32 * 32 + 32 * (f.erw.toNat % 2 ^ f.ersize)
  { f with
    priv := (placeList a (withPhase r f.erw.toNat f.ersize)).foldl (fun m e => m.write 0 e.1 e.2) f.priv
    erw := f.erw + 1
    erEvent := true }

/-- The message of a queue's QVEC; `cmp` for a grid record (03 R71). -/
def State.queueMsix (s : State) (ck q : Nat) (cmp : Bool) : State :=
  let v := (s.fn (ck / 16)).qvec.read 0 (64 * (ck % 16) + q)
  if bitOf v 7 && (!cmp || bitOf v 6) then s.msix (ck / 16) (v.toNat % 64) else s

/-- Lanes of a group begin to wait in one way at their instruction. -/
def Group.await (g : Group) (m : Word) (w : LaneWait) : Group :=
  (lanesOf m).foldl (fun g l => g.modThread l fun t => { t with wait := w }) g

/-- Lanes that wait in one way advance, wherever their team stands. -/
def State.wakeAll (s : State) (w : LaneWait) : State :=
  let on (g : Group) : Group := { g with lanes := g.lanes.map fun (e : Nat × Thread) =>
    if e.2.wait = w then (e.1, { e.2 with wait := .none, lpc := e.2.lpc + 1 }) else e }
  { s with
    groups := s.groups.map fun (e : Nat × Group) => (e.1, on e.2)
    savedTeams := s.savedTeams.map fun (e : Nat × SavedTeam) =>
      (e.1, { e.2 with groups := e.2.groups.map fun x => (x.1, x.2.1, on x.2.2) }) }

/-- A `pgreq` with none of its records still held completes (11 R265). -/
def State.pgreqDone (s : State) (fn tag : Nat) : State :=
  if tag = 0 || (s.fn fn).held.any fun r => r.tag = tag then s else s.wakeAll (.pgreq tag)

/-- Writes an event record, with its TIME, and then the message that follows it (03 R67, R70, R71). -/
def State.writeEvent (s : State) (fn : Nat) (r : EventRecord) : State :=
  let bytes := match r.time with
    | some ck => stamped r.bytes (s.ctx ck).ctime
    | none => r.bytes
  let s := s.modFn fn (·.ringPut bytes)
  let s := s.pgreqDone fn r.tag
  match r.queue with
  | some (ck, q) => s.queueMsix ck q false
  | none => s

/-- A record for a firmware core's event ring: written, held, or counted as lost (03 R70). -/
def State.postEvent (s : State) (fn : Nat) (r : EventRecord) : State :=
  let f := s.fn fn
  if f.held.isEmpty && f.ringOpen fn then s.writeEvent fn r
  else s.modFn fn fun f =>
    if f.held.length < 256 then { f with held := f.held ++ [r] } else { f with lost := min 0xFFFF (f.lost + 1) }

/-- An event record of a context (03 R67). -/
def State.event (s : State) (ck kind status cls id count detail : Nat) : State :=
  s.postEvent (ck / 16) { bytes := recordBytes kind status cls id 0 count detail, time := some ck }

/-- A record that leaves its ring for the event ring: KIND 0x11 and the 32 bytes after it, which carry the number of the held
record that becomes complete with them, 0 for none (03 R67; 02 R53). DEDUCED (log 32). -/
def State.redirect (s : State) (ck : Nat) (r : List Byte) (id detail done : Nat) : State :=
  (s.event ck 0x11 (r.getD 1 0).toNat 0 id 0 detail).postEvent (ck / 16) { bytes := r, time := none, done := done }

/-- Where writing a record to its ring leads (02 R53): a redirected record, with its TIME and the DETAIL of its announcement. -/
inductive RingAnswer where
  /-- written at the address of its slot -/
  | written (slot : Nat)
  | full
  | redirected (bytes : List Byte) (detail : Nat)
deriving DecidableEq, Repr

/-- Reads 32 bytes of a ring's header, or writes a record of it: in the scratchpad of a core, or in `.gl`. -/
def State.ringRead (s : State) (ck : Nat) (core : Option Nat) (a : Nat) : State × Except Nat (List Byte) :=
  match core with
  | some c => (s, if s.poisoned .pad (2 ^ 19 * c + a) 32 then .error 8 else .ok (s.bytes .pad (2 ^ 19 * c + a) 32))
  | none => s.devRead ck a 32 .both

/-- Writes bytes of a ring in global memory or a scratchpad (02 R53). -/
def State.ringStore (s : State) (ck : Nat) (core : Option Nat) (a : Nat) (b : List Byte) : State × Option Nat :=
  match core with
  | some c => (s.write .pad (placeList (2 ^ 19 * c + a) b), none)
  | none => s.devWrite ck a b

/-- Writes one record to its ring (02 R53), with the TIME of its writing (02 R54). `lo` and `hi` bound the slots of a ring in a
scratchpad (11 R272). A grid's RING that is misaligned, so that it failed R43, is not used (03 R66). DEDUCED (log 32). -/
def State.ringWrite (s : State) (ck : Nat) (core : Option Nat) (ring : Nat) (lo hi : Nat) (r : List Byte) : State × RingAnswer :=
  let r := stamped r (s.ctx ck).ctime
  let maxE := if core.isSome then 12 else 24
  if core.isNone && ring % 32 ≠ 0 then (s, .redirected r 0)
  else match s.ringRead ck core ring with
  | (s, .error x) => (s, .redirected r (if x = 7 then ring else 0))
  | (s, .ok b) =>
    let f (i n : Nat) : Nat := ofBytes ((b.drop i).take n)
    let w := f 0 4
    let ents := f 8 1
    if ents = 0 || maxE < ents || f 9 23 ≠ 0 then (s, .redirected r 0)
    else if (w + 2 ^ 32 - f 4 4) % 2 ^ 32 = 2 ^ ents then (s, .full)
    else
      let slot := ring + 32 + 32 * (w % 2 ^ ents)
      if core.isSome && !(lo ≤ slot && slot + 32 ≤ hi) then (s, .redirected r 0)
      else match s.ringStore ck core slot (withPhase r w ents) with
        | (s, some _) => (s, .redirected r slot)
        | (s, none) => ((s.ringStore ck core ring (bytesOf (w + 1) 4)).1, .written slot)

/-! ## Messages, signals, traces, notifications -/

/-- What a grid's record or signal releases to an acquire at system scope (14 R343). -/
def State.gridNote (s : State) (k pa n : Nat) : RelNote :=
  { loc := pa, size := n, whole := true, scope := .system, core := 1024, gk := 32768, seen := s.gridSeen k }

/-- The signal of a grid (02 R47). One whose SIGADDR is misaligned, of a packet rejected for it, is performed on the 8 bytes from
there. An acquire that reads it comes after the grid (14 R343). DESIGN CHOICE (log 51). DEDUCED (log 32). -/
def State.signal (s : State) (k : Nat) (g : Grid) : State :=
  if !bitOf g.pkt.hdr 13 then s
  else
    let add := bitOf g.pkt.hdr 14
    let va := g.pkt.sigaddr.toNat
    let fail (s : State) (st : Nat) : State := s.event g.ck 0x19 st 0 g.recId 0 va
    match s.xlat g.ck va (if add then .both else .write) with
    | (s, .ok pa leaf) =>
      if add && s.poisoned .mem pa 8 then fail s 8
      else
        let v := if add then s.load .mem pa 8 + g.pkt.sigval.toNat else g.pkt.sigval.toNat
        (s.writeHome g.ck pa leaf none (bytesOf v 8)).putRel .mem (s.gridNote k pa 8)
    | (s, .remote e) =>
      if s.peerUp g.ck e then
        let (i, s) := s.freeIdx
        let s := s.askPeer g.ck e va 8 (if add then 2 else 1) (bytesOf g.pkt.sigval.toNat 8)
        match Config.freeNat i % 4 with
        | 1 => fail s 7
        | 2 => fail s 8
        | _ => s
      else fail s 7
    | (s, .poison) => fail s 8
    | (s, .fault ..) => fail s 7

/-- A trace record of a kind that the context enables (18 R426). The manual gives TAG and VALUE for `trc` and TAG for a
trap; where it gives none the field is a free value. -/
def State.trace (s : State) (ck gk lane : Nat) (lpc : Word) (kind : Nat) (tag value : Option Nat) : State :=
  let c := s.ctx ck
  let size := c.trcctl.toNat / 256 % 32
  if bitOf c.trcctl 31 && bitOf c.trcctl kind && 1 ≤ size && size ≤ 24 then
    let n := c.trcn.toNat
    let s := s.modCtx ck fun c => { c with trcn := c.trcn + 1 }
    let (f, s) := s.freeIdx
    let tag := tag.getD (Config.freeByte f).toNat
    let value := value.getD ((Config.freeWord f).toNat + 2 ^ 32 * (Config.freeWord f).toNat)
    let r := bytesOf c.ctime.toNat 8
      ++ bytesOf (coreOf gk * 2 ^ 22 + slotOf gk * 2 ^ 17 + lane * 2 ^ 12 + kind * 2 ^ 8 + tag % 256) 4
      ++ bytesOf lpc.toNat 4 ++ bytesOf value 8 ++ bytesOf n 8
    (s.devWrite ck (c.trcbase.toNat / 32 * 32 + 32 * (n % 2 ^ size)) r).1
  else s

/-- Sets bits of `sr.thrstat`; newly set bits are notified (17 R416, R417). An `msr` later in this clock does not clear them (05
R117). -/
def State.setThr (s : State) (ck : Nat) (bits : Word) : State :=
  let s := s.modCtx ck fun c => { c with thrNew := c.thrNew ||| bits }
  let c := s.ctx ck
  let new := bits &&& ~~~c.thrstat
  if new = 0 then s
  else
    let s := s.modCtx ck fun c => { c with thrstat := c.thrstat ||| new, seq := c.seq + 1 }
    let r := bytesOf (c.seq + 1).toNat 8 ++ bytesOf c.ctime.toNat 8 ++ bytesOf new.toNat 4
      ++ bytesOf (c.thrstat ||| new).toNat 4 ++ bytesOf ck 4 ++ List.replicate 36 0
    match s.devWrite ck c.notify.toNat r with
    | (s, none) => s
    | (s, some st) => s.event ck 0x17 st 0 (recordId ck 0 false) (c.seq + 1).toNat c.notify.toNat

/-! ## The serial token and transaction lanes -/

/-- Takes a thread off a locality's token requests (15 R377). -/
def State.dropToken (s : State) (team tid : Nat) : State :=
  { s with tokens := s.tokens.map fun (e : Nat × List (Nat × Nat)) => (e.1, e.2.filter (· ≠ (team, tid))) }

/-- Asks for the serial token of the core's locality (15 R377). -/
def State.askToken (s : State) (core team tid : Nat) : State :=
  let l := (s.tokens.get? (dieOf core)).getD []
  if l.contains (team, tid) then s else { s with tokens := s.tokens.put (dieOf core) (l ++ [(team, tid)]) }

/-- `msr` clears bits of `sr.thrstat`. A bit that the device has set in this clock is set again after it, and notified where it
stood set before (05 R117). -/
def State.clearThr (s : State) (ck : Nat) (bits : Word) : State :=
  let c := s.ctx ck
  let again := bits &&& c.thrNew &&& c.thrOld
  (s.modCtx ck fun c => { c with
    thrstat := c.thrstat &&& ~~~(bits &&& ~~~(c.thrNew &&& ~~~c.thrOld))
    thrOld := c.thrOld &&& ~~~bits }).setThr ck again

/-- `abort(L, c)` of R372: buffers are discarded and the lane goes to its abort target; the D of a lane at `xend` receives the
cause (R375). -/
def State.txAbort (s : State) (gk l cause : Nat) : State :=
  let g := s.group gk
  let t := s.thread gk l
  let cnt := min (t.tx.cnt + 1) 255
  let conflict := cause = 2 || cause = 3
  let s := s.modThread gk l fun t =>
    { (match t.wait with | .commit d => t.deliver d 1 0 (some cause) | _ => t : Thread) with
      lpc := t.tx.tgt
      wait := .none
      tx := { t.tx with act := false, cause := cause, cnt := cnt, tok := t.tx.tok && conflict, rset := [], wset := [], homes := [], runs := [], shot := false } }
  if t.tx.tok && !conflict then s.dropToken g.team t.tid
  else if !t.tx.tok && conflict && 8 ≤ cnt then s.askToken (coreOf gk) g.team t.tid
  else s

/-! ## The end of a grid -/

/-- What follows a grid's record: the signal and the queue's message; the grid is gone (02 R47; 03 R71). -/
def State.gridComplete (s : State) (k : Nat) : State :=
  match s.grids.get? k with
  | none => s
  | some g =>
    let s := s.signal k g
    let s := if g.dev || !g.tells then s else s.queueMsix g.ck g.q true
    s.modCtx g.ck (fun c => { c with devq := dropFrom c.devq k }) |> fun s => { s with grids := s.grids.del k }

/-- What becomes complete with a record, a job from the next clock (11 R272); the event of an abandoned migration follows it (10
R255). -/
def State.recordDone (s : State) (h : HeldRecord) : State :=
  let s := match h.grid with
    | some k => s.gridComplete k
    | none => s
  match h.job with
  | some j =>
    match s.jobs.get? j with
    | some b =>
      let s : State := { s with jobs := s.jobs.put j { b with recorded := true } }
      if b.status = some 0x0E then s.event b.ck 0x13 0x0E 0 b.rid b.done b.detail.toNat else s
    | none => s
  | none => s

/-- Jobs whose record was written in the clock that ends are complete: their footprint entries are free, and with a gone team's
last job its scratch run is (11 R272; 01 R31). -/
def State.sweepJobs (s : State) : State :=
  let s := (s.jobs.filter (·.2.recorded)).foldl (fun s e => s.modCore e.2.core fun c => { c with foots := c.foots.del e.2.foot }) s
  let rest := s.jobs.filter fun e => !e.2.recorded
  { s with jobs := rest, remains := s.remains.filter fun e => rest.any fun j => j.2.team = e.1 }

/-- The bounds of a ring in a scratchpad: the team's scratch run (11 R272). -/
def State.ringBounds (s : State) (team : Option Nat) : Nat × Nat :=
  match team.bind s.teams.get?, team.bind s.remains.get? with
  | some t, _ => (t.runStart, t.runStart + ((s.gridOf t).map (·.pkt.scratch)).getD 0)
  | none, some r => (512 * r.b, 512 * r.b + r.scratch)
  | none, none => (0, 0)

/-- A held record stands before another: an earlier one of its ring (02 R53). -/
def HeldRecord.before (e h : HeldRecord) : Bool := e.inCore = h.inCore && e.ck = h.ck && e.ring = h.ring

/-- A grid whose record comes first, an aborted descendant's, has not ended yet (03 R78). -/
def State.comesBehind (s : State) (h : HeldRecord) : Bool := h.behind.any fun k => (s.grids.get? k).isSome

/-- The event record of a held record's number still waits in the holding buffer (03 R70). -/
def State.eventHeld (s : State) (ck n : Nat) : Bool := (s.fn (ck / 16)).held.any fun r => r.done = n

/-- A record goes to the event ring under number `k` of held records: it is complete when it is written there. One that the full
holding buffer drops completes at once; no message follows a record that is never written (02 R53; 03 R70, R71). DEDUCED
(log 32). -/
def State.moveRecord (s : State) (k : Nat) (h : HeldRecord) (bytes : List Byte) (detail : Nat) : State :=
  let s := s.redirect h.ck bytes h.id detail k
  if s.eventHeld h.ck k then { s with heldRecords := s.heldRecords.put k { h with moved := true } }
  else
    let lost := !(s.fn (h.ck / 16)).held.isEmpty
    let s : State := { s with heldRecords := s.heldRecords.del k }
    (match h.grid with
      | some g => s.modGrid g fun g => { g with tells := g.tells && !lost }
      | none => s).recordDone h

/-- An acquire that reads the record of a grid in global memory comes after the grid (14 R343). -/
def State.recordNote (s : State) (h : HeldRecord) (slot : Nat) : State :=
  match h.grid, h.inCore, s.xlatNow h.ck slot .write with
  | some k, none, .ok pa _ => s.putRel .mem (s.gridNote k pa 32)
  | _, _, _ => s

/-- Tries to write a record under number `k` of held records, and holds it while its ring is full (02 R53). -/
def State.tryRecord (s : State) (k : Nat) (h : HeldRecord) : State :=
  let (lo, hi) := s.ringBounds h.team
  match s.ringWrite h.ck h.inCore h.ring lo hi h.bytes with
  | (s, .full) => { s with heldRecords := s.heldRecords.put k h }
  | (s, .redirected b d) => s.moveRecord k h b d
  | (s, .written slot) => ({ s with heldRecords := s.heldRecords.del k }.recordNote h slot).recordDone h

/-- Writes a record, or holds it behind a full ring or behind another record (02 R53; 03 R78). DEDUCED (log 32). -/
def State.putRecord (s : State) (h : HeldRecord) : State :=
  let (k, s) := s.fresh
  if (s.heldRecords.any fun e => e.2.before h) || s.comesBehind h then { s with heldRecords := s.heldRecords.put k h }
  else s.tryRecord k h

/-- Writes a record of a grid to the ring its packet names (02 R40, R54). DEDUCED (log 32). -/
def State.gridRecord (s : State) (g : Grid) (bytes : List Byte) (grid : Option Nat) (behind : List Nat) : State :=
  s.putRecord
    { inCore := none, ck := g.ck, ring := g.pkt.ring.toNat, bytes := bytes, job := none, grid := grid, team := none
      behind := behind, id := g.recId }

/-- A grid ends: its slot of the barrier unit is free (04 R87; 15 R361), and the queue's message will follow its record if it
was released or is rejected (03 R71). -/
def State.closeGrid (s : State) (k : Nat) (rejected : Bool) : State :=
  match s.grids.get? k with
  | none => s
  | some g =>
    let s := match g.gslot with
      | some (u, n) => { s with barSlots := s.barSlots.del (4096 * u + n) }
      | none => s
    s.modGrid k fun g => { g with stage := .ended, gslot := none, tells := rejected || g.order ≠ 0 }

/-- Ends a grid with a status: its record, behind those of aborted descendants, then what follows it (02 R47; 03 R78; 18
R419). -/
def State.endGrid (s : State) (k status detail : Nat) (behind : List Nat) : State :=
  match s.grids.get? k with
  | none => s
  | some g =>
    (s.closeGrid k (status ≠ 0x0C)).gridRecord g
      (recordBytes 3 status 0 g.recId (s.ctx g.ck).ctime g.retired detail) (some k) behind

/-! ## Removing a team -/

/-- The first weight slot of a team's run on a core; a saved team's slots stay its own (04 R86; 13 R331). -/
def State.wrunOf (s : State) (tk core : Nat) : Option Nat :=
  match s.teams.get? tk, s.savedTeams.get? tk with
  | some t, _ => t.wrun.get? core
  | none, some v => v.team.wrun.get? core
  | none, none => none

/-- Ends a residency: its slots and watch entries are freed and its slots are zeroed (13 R328, R335). -/
def State.endResidency (s : State) (k : Nat) : State :=
  match s.residencies.get? k with
  | none => s
  | some r =>
    let zeroOn (s : State) (core : Nat) : State :=
      match s.wrunOf r.team core with
      | some w =>
        { s with
          weights := s.weights.dropRange ((16 * core + w + r.first) * 4096) ((16 * core + w + r.first + r.ns + 1) * 4096)
          scales := s.scales.dropRange (32 * core + 2 * (w + r.first)) (32 * core + 2 * (w + r.first + r.ns + 1)) }
      | none => s
    let s := zeroOn s r.core
    let s := if r.pair then zeroOn s (r.core + 1) else s
    { s with residencies := s.residencies.del k, watches := s.watches.filter fun w => w.res ≠ k }

/-- The residencies that `rrev` ended in an earlier clock are gone (13 R328), once nothing that the other issue slot issued in that
clock still names them. DEDUCED (log 28). -/
def State.sweepRevoked (s : State) : State :=
  (s.residencies.filter fun e => e.2.revoked.isSome && !(s.cores.any fun c =>
    (c.2.mq.any fun o => o.res = e.1) || c.2.fills.any fun f => f.2.res = e.1)).foldl (fun s e => s.endResidency e.1) s

/-- Removes a team from the device with all that it holds: groups, queued operations, fills, residencies, jobs, barrier
slots (04 R90; 13 R335). Accesses in flight are performed at their homes (03 R59); a load finds no thread to write.
DEDUCED (log 15). Its copy jobs end there without a record. DESIGN CHOICE (log 60). -/
def State.removeTeam (s : State) (tk : Nat) : State :=
  match s.teams.get? tk with
  | none => s
  | some t =>
    let gks := (s.groups.filter fun e => e.2.team = tk).map (·.1)
    let mine (o : Option Run) : Option Run := o.filter fun r => !gks.contains r.gk
    let s := (s.residencies.filter fun e => e.2.team = tk).foldl (fun s e => s.endResidency e.1) s
    let s := t.cores.foldl (fun s c => s.modCore c fun k =>
      { k with
        mq := k.mq.filter fun o => o.team ≠ tk
        fills := k.fills.filter fun e => e.2.team ≠ tk
        foots := k.foots.filter fun e => e.2.team ≠ tk
        bind := k.bind.filter fun g => !gks.contains g && (g < 65536 || k.mq.any fun o => o.gk = g && o.team ≠ tk)
        run0 := mine k.run0
        run1 := mine k.run1 }) s
    { s with
      groups := s.groups.filter fun e => e.2.team ≠ tk
      jobs := s.jobs.filter fun e => e.2.team ≠ tk
      heldRecords := s.heldRecords.filter fun e => !(e.2.job.isSome && e.2.team = some tk)
      barSlots := s.barSlots.filter fun e => e.2.isGrid || e.2.owner ≠ tk
      walks := s.walks.map fun e => (e.1, { e.2 with gks := e.2.gks.filter fun g => !gks.contains g })
      tokens := s.tokens.map fun (e : Nat × List (Nat × Nat)) => (e.1, e.2.filter fun r => r.1 ≠ tk)
      teams := s.teams.del tk }

/-- Frees a range of a context's save area (17 R412). -/
def State.freeRange (s : State) (ck off size : Nat) (saved : Bool) : State :=
  let s := s.modCtx ck fun c => { c with ranges := c.ranges.del off }
  let c := s.ctx ck
  let h := c.save.toNat / 4096 * 4096
  let used := s.load .mem (h + 8) 8
  let n := s.load .mem (h + 16) 4
  let hwm := c.ranges.foldl (fun m e => max m (e.1 + e.2)) 64
  ((s.writePhys ck (h + 8) (bytesOf (used + 2 ^ 64 - size) 8)).writePhys ck (h + 16)
    (bytesOf (if saved then n + 2 ^ 32 - 1 else n) 4)).writePhys ck (h + 24) (bytesOf hwm 8)

/-- Removes a saved team; its range is freed (17 R412) and its residencies end (13 R335). -/
def State.removeSaved (s : State) (tk : Nat) (ck : Nat) : State :=
  match s.savedTeams.get? tk with
  | none => s
  | some v =>
    let s := (s.residencies.filter fun e => e.2.team = tk).foldl (fun s e => s.endResidency e.1) s
    { s.freeRange ck v.off v.size true with savedTeams := s.savedTeams.del tk }

/-- Removes every team of a grid, resident, claimed or saved. -/
def State.stripGrid (s : State) (k : Nat) : State :=
  let ck := ((s.grids.get? k).map (·.ck)).getD 0
  let s := (s.teams.filter fun e => e.2.grid = k).foldl (fun s e =>
    let s := match e.2.pending with
      | some p => s.freeRange ck p.off p.size false
      | none => s
    s.removeTeam e.1) s
  let s := (s.savedTeams.filter fun e => e.2.team.grid = k).foldl (fun s e => s.removeSaved e.1 ck) s
  s.modGrid k fun g => { g with held := [] }

/-- The access writes its location. -/
def Flight.writes (f : Flight) : Bool :=
  match f.kind with
  | .store _ | .atomic .. | .spill .. => true
  | _ => false

/-- A team has finished (18 R418). -/
def State.teamDone (s : State) (tk : Nat) (t : Team) : Bool :=
  t.started &&
  (s.groups.all fun e => e.2.team ≠ tk || (e.2.launches.isEmpty && e.2.lanes.all fun l => l.2.exited)) && t.conts.isEmpty && t.rdvs.all (fun r => !r.moving) &&
  !(s.grids.any fun e => e.2.parent = some tk) &&
  !(s.cores.any fun e => e.2.mq.any fun o => o.team = tk) &&
  !(s.jobs.any fun e => e.2.team = tk) &&
  !(s.flights.any fun e => e.2.team = tk && e.2.writes)

/-- The grid retires at the end of this clock: each team of it that has not retired stands finished (18 R419, R420). -/
def State.gridDone (s : State) (k : Nat) (g : Grid) : Bool :=
  let left := s.teams.filter fun e => e.2.grid = k
  g.stage = .released && g.retired + left.length = g.pkt.total && left.all fun e => s.teamDone e.1 e.2

/-- Grids launched by the teams of a grid that have not ended (03 R78). -/
def State.childGrids (s : State) (k : Nat) : List Nat :=
  (s.grids.filter fun e =>
    match e.2.parent with
    | some tk =>
      e.2.stage ≠ .ended &&
        (((s.teams.get? tk).map (·.grid)) = some k || ((s.savedTeams.get? tk).map (·.team.grid)) = some k)
    | none => false).map (·.1)

/-- The grids that an abort of some grids of one depth ends, the deepest first, each with its children (03 R78). A grid whose last
teams retire in this clock is not aborted: its retirement wins (18 R420). Depth is at most 10 (03 R78). -/
def State.abortTree (s : State) (quiet : Bool) : Nat → List Nat → List (Nat × List Nat)
  | 0, _ => []
  | fuel + 1, ks =>
    let es := (ks.filter fun k => (s.grids.get? k).any fun g => g.stage ≠ .ended && (quiet || !s.gridDone k g)).map fun k =>
      (k, s.childGrids k)
    if es.isEmpty then [] else s.abortTree quiet fuel (es.flatMap (·.2)) ++ es

/-- Ends one grid that is aborted, behind the records of its children. `err` is an error-detail record, written immediately before
the grid record (02 R54). With `quiet` no record or signal is written (03 R59). -/
def State.abortOne (s : State) (quiet : Bool) (err : Option (List Byte)) (k : Nat) (kids : List Nat) : State :=
  match s.grids.get? k with
  | none => s
  | some g =>
    let s := s.stripGrid k
    if quiet then
      let s := s.closeGrid k false
      { s.modCtx g.ck (fun c => { c with devq := dropFrom c.devq k }) with grids := s.grids.del k }
    else
      (match err with
        | some r => s.gridRecord g r none kids
        | none => s).endGrid k 0x0C g.pkt.corrid.toNat kids

/-- Aborts grids of one depth and their descendants, deepest first (03 R78); `err` is the error-detail record of grid `top`. -/
def State.abortGrids (s : State) (quiet : Bool) (err : Option (List Byte)) (top : Nat) (ks : List Nat) : State :=
  (s.abortTree quiet 11 ks).foldl (fun s e => s.abortOne quiet (if e.1 = top then err else none) e.1 e.2) s

/-- Aborts a grid and its descendants, deepest first (03 R78). -/
def State.abortGrid (s : State) (quiet : Bool) (err : Option (List Byte)) (k : Nat) : State := s.abortGrids quiet err k [k]

/-- Grids of a context that came from the host (03 R78). -/
def State.hostGrids (s : State) (ck : Nat) : List Nat := (s.grids.filter fun e => e.2.ck = ck && e.2.depth = 1).map (·.1)

/-- Clears CCTL:EN: every grid of the context that has not ended is aborted, and its queues fetch nothing; a packet that is being
read stays in its ring and is read again once EN is set (03 R72). -/
def State.disableCtx (s : State) (ck : Nat) : State :=
  let s := s.modCtx ck fun c => { c with en := false }
  let s : State := { s with queues := s.queues.map fun (e : Nat × Queue) =>
    if e.1 / 64 = ck then (e.1, { e.2 with read := none }) else e }
  s.abortGrids false none 0 (s.hostGrids ck)

/-! ## Taking a trap -/

/-- The error-detail record of a grid (17 R391; 02 R54). -/
def State.errorDetail (s : State) (t : Team) (g : Grid) (cls detail : Nat) : List Byte :=
  recordBytes 4 0x0D cls g.recId (s.ctx g.ck).ctime t.idx detail

/-- The lowest trapping lane's class and detail bytes 0 to 7. -/
def lowestTrap (ts : List Trap) : Nat × Nat :=
  match ts with
  | [] => (0, 0)
  | t :: r =>
    let m := r.foldl (fun m k => if k.lane < m.lane then k else m) t
    (m.cls, m.det.toNat % 2 ^ 64)

/-- A trap raised while `sr.tbase` is 0 (17 R391). -/
def State.contextFault (s : State) (gk : Nat) (ts : List Trap) : State :=
  match s.teams.get? (s.group gk).team with
  | none => s
  | some t =>
    match s.grids.get? t.grid with
    | none => s
    | some g =>
      let (c, d) := lowestTrap ts
      s.abortGrid false (some (s.errorDetail t g c d)) t.grid

/-- A trap raised by the handler stream (17 R400). -/
def State.doubleFault (s : State) (gk : Nat) (ts : List Trap) : State :=
  match s.teams.get? (s.group gk).team with
  | none => s
  | some t =>
    match s.grids.get? t.grid with
    | none => s
    | some g =>
      let (c, d) := lowestTrap ts
      let s := s.modCtx g.ck fun c => { c with en := false }
      let s := s.abortGrid false (some (s.errorDetail t g c d)) t.grid
      let s := s.disableCtx g.ck
      s.event g.ck 0x14 0x0D c g.recId t.idx g.pkt.corrid.toNat

/-- A stack entry lies in the handler window of a thread (17 R397). -/
def Thread.inHandlerWindow (t : Thread) (e : Nat) : Bool := e < 96 && (e + 192 - (t.wb + 32)) % 96 < 32

/-- The results that the thread of a lane still waits for in the entries of its handler window are dropped: a window that a handler
or a callee has left has ceased to exist (07 R155; 17 R397). -/
def State.dropHandlerResults (s : State) (gk l : Nat) : State :=
  let team := (s.group gk).team
  let t := s.thread gk l
  let off (tid d : Nat) : Nat := if tid = t.tid && t.inHandlerWindow d then 97 else d
  let kind (f : Flight) : FlightKind :=
    match f.kind with
    | .load d n z flag rd => .load (off f.tid d) n z flag rd
    | .atomic op e os => .atomic op e (os.map fun o => (o.1, o.2.1, off o.2.1 o.2.2.1, o.2.2.2))
    | k => k
  let op (o : MatOp) : MatOp :=
    match o.kind with
    | .row rm ty r ds => if o.team = team then { o with kind := .row rm ty r (ds.map fun d => (d.1, d.2.1, off d.2.1 d.2.2)) } else o
    | _ => o
  ({ s with
    flights := s.flights.map fun (e : Nat × Flight) => (e.1, if e.2.team = team then { e.2 with kind := kind e.2 } else e.2)
    cores := s.cores.map fun (e : Nat × Core) => (e.1, { e.2 with mq := e.2.mq.map op }) } : State).modThread gk l fun t =>
      { t with pend := t.pend.filter fun e => !t.inHandlerWindow e }

/-- The same for the lanes among some that wait for such a result. -/
def State.leaveWindows (s : State) (gk : Nat) (ls : List Nat) : State :=
  (ls.filter fun l => let t := s.thread gk l; t.pend.any t.inHandlerWindow).foldl (fun s l => s.dropHandlerResults gk l) s

/-- The handler window of a parked lane (17 R397). -/
def Thread.enterHandler (t : Thread) (cls : Nat) (det : QWord) (rpc pmask : Word) (jdepth : Nat) : Thread :=
  let t := t.setEntries (t.wb + 32) 32 0
  t.setEntries (t.wb + 32) 8
    (det.toNat + 2 ^ 128 * (cls + 2 ^ 32 * (rpc.toNat + 2 ^ 32 * (pmask.toNat + 2 ^ 32 * jdepth))))

/-- Parks the lanes of the smallest class under a new trap entry and queues the others behind it (17 R395). -/
def Group.takeTrap (g : Group) (ts : List Trap) : Group :=
  let c := ts.foldl (fun m t => min m t.cls) 32
  let p := ts.filter fun t => t.cls = c
  let pm := maskOf (p.map (·.lane))
  let qm := maskOf ((ts.filter fun t => t.cls ≠ c).map (·.lane))
  let g := { g with joins := .trap c pm 0 qm :: g.joins, skips := 0 }
  let vec := g.tbase + BitVec.ofNat 32 (32 * c)
  let depth := g.joins.length
  let g := p.foldl (fun g t =>
    let pc := g.lpcOf t.lane
    let g := { g with tdet := g.tdet.write 0 t.lane t.det, rpc := g.rpc.write 0 t.lane pc }
    g.modThread t.lane fun k => { k.enterHandler c t.det pc pm depth with
      lpc := vec
      wait := .none
      late := if c = 16 then none else k.late
      wpSkip := c = 20
      bkSkip := c = 19 && t.det.toNat / 2 ^ 32 % 256 = 2 }) g
  (lanesOf qm).foldl (fun g l => g.modThread l fun k => { k with wait := .none }) g

/-- Adds lanes to QMASK of the standing trap entry (17 R395). -/
def Group.queueTrap (g : Group) (m : Word) : Group :=
  { g with
    joins := g.joins.map fun
      | .trap c p d q => .trap c p d (q ||| m)
      | e => e
    lanes := g.lanes.map fun e => if bitOf m e.1 then (e.1, { e.2 with wait := .none }) else e }

/-- Ends the run of a group (06 R138); a run whose last issue still occupies its slot ends with that issue (06 R146). -/
def State.endRun (s : State) (gk : Nat) : State :=
  let out (o : Option Run) : Option Run :=
    (o.filter fun r => r.gk ≠ gk || r.busy ≠ 0).map fun r => if r.gk = gk then { r with ends := true } else r
  s.modCore (coreOf gk) fun c =>
    { c with
      run0 := out c.run0
      run1 := out c.run1
      last0 := if c.run0.any fun r => r.gk = gk && r.busy = 0 then some gk else c.last0
      last1 := if c.run1.any fun r => r.gk = gk && r.busy = 0 then some gk else c.last1 }

/-- TAKING A TRAP: the lanes of one issued instruction, all of one stream, that trap (17 R395). A lane in a transaction
aborts with cause 0x06 instead (15 R373). `lead` is the lowest lane of `active`, for the trace. -/
def State.raise (s : State) (gk lead : Nat) (handler : Bool) (ts : List Trap) : State :=
  let act := ts.filter fun t => (s.thread gk t.lane).tx.act
  let ts := ts.filter fun t => !(s.thread gk t.lane).tx.act
  let s := act.foldl (fun s t => s.txAbort gk t.lane 6) s
  match ts with
  | [] => s
  | t0 :: _ =>
    let s := s.endRun gk
    let g := s.group gk
    if handler then s.doubleFault gk ts
    else if g.tbase = 0 then s.contextFault gk ts
    else if g.trapEntry.isSome then s.modGroup gk (·.queueTrap (maskOf (ts.map (·.lane))))
    else
      let c := ts.foldl (fun m t => min m t.cls) 32
      let s := s.trace (s.ckOf g) gk lead (g.lpcOf t0.lane) 2 (some c) none
      (s.leaveWindows gk ((ts.filter fun t => t.cls = c).map (·.lane))).modGroup gk (·.takeTrap ts)

/-! ## The return from a trap -/

/-- The trap entry pops once every parked lane has returned or exited (17 R399). -/
def Group.popReady (g : Group) : Bool :=
  match g.trapEntry with
  | some (_, p, d, _) => (lanesOf p).all fun l => bitOf d l || !g.live l
  | none => false

/-- THE RETURN FROM A TRAP. Lanes of DMASK go on at their resume counters, one later after `tret.skip`, and the queued lanes
become eligible (17 R399). Join entries of the handler stream that still stand stay on the stack. DESIGN CHOICE (log 68). -/
def Group.popTrap (g : Group) : Group :=
  match g.trapEntry with
  | some (_, _, d, _) =>
    let g' := { g with
      joins := g.joins.filter fun
        | .trap .. => false
        | .join .. => true
      skips := 0 }
    (lanesOf d).foldl (fun k l => k.modThread l fun t =>
      if bitOf g.skips l then { t with lpc := g.rpc.read 0 l + 1, wpSkip := false, bkSkip := false }
      else { t with lpc := g.rpc.read 0 l }) g'
  | none => g

/-! ## Slots -/

/-- A thread whose home is the slot is a continuation, queued or running (07 R177). -/
def State.hasConts (s : State) (gk : Nat) : Bool :=
  (s.teams.any fun e => e.2.conts.any fun c => (c.th.home.map (·.gk)) = some gk) ||
    s.groups.any fun e => e.2.lanes.any fun l => !l.2.exited && (l.2.home.map (·.gk)) = some gk

/-- Ends the binding of a group (12 R303). -/
def State.endBind (s : State) (gk : Nat) : State :=
  { s with cores := s.cores.map fun e => if e.2.bind = some gk then (e.1, { e.2 with bind := none }) else e }

/-- The group has an operation in a queue, up to a number. -/
def State.hasOps (s : State) (gk last : Nat) : Bool := s.cores.any fun e => e.2.mq.any fun o => o.gk = gk && o.id ≤ last

/-- What a group that leaves its slot still has under way keeps a key of its own, so that no later group of the slot takes it for
its own: a binding never passes from one group to another (12 R304). -/
def State.orphan (s : State) (gk : Nat) : State :=
  let mine (k : Nat) : Nat := if k = gk then 65536 * s.nextId + gk else k
  { s with
    nextId := s.nextId + 1
    flights := s.flights.map fun (e : Nat × Flight) => (e.1, { e.2 with gk := mine e.2.gk })
    cores := s.cores.map fun (e : Nat × Core) => (e.1, { e.2 with
      mq := e.2.mq.map fun o => { o with gk := mine o.gk }
      fills := e.2.fills.map fun (f : Nat × Fill) => (f.1, { f.2 with gk := mine f.2.gk })
      bind := e.2.bind.map mine }) }

/-- Frees a slot when no lane of its group remains, no thread of it is a continuation, and no launch of it is still on its way
(06 R138; 07 R177). The binding of a group without lanes ends with its queued operations (12 R303). -/
def State.reap (s : State) (gk : Nat) : State :=
  match s.groups.get? gk with
  | none => s
  | some g =>
    if g.lanes.any fun e => !e.2.exited then s
    else
      let s := if s.hasOps gk s.nextId then s else s.endBind gk
      if g.idle || !g.launches.isEmpty || s.hasConts gk then s
      else
        let out (o : Option Run) : Option Run := o.filter fun r => r.gk ≠ gk
        let s := (s.modCore (coreOf gk) fun k => { k with run0 := out k.run0, run1 := out k.run1 }).orphan gk
        { s with groups := s.groups.del gk }

end Sys2Proof.Machine
end

