-- ==== Sys2Proof/Machine/Operands.lean ====
section
/-! DEFINITION. Operand forms: the value of an immediate by the operation's type (05_encoding R107), packed elements
(08_numbers R186; 09_compute R199), the operands of a lane and of the group, and the writing of a destination
(01_machine R22). -/

namespace Sys2Proof

/-- Integer types of a signed range (08 R180). -/
def Ty.signed : Ty → Bool
  | .i8 | .i16 | .i32 | .i64 => true
  | _ => false

/-- A floating-point type (05 R109). -/
def Ty.isFloat : Ty → Bool
  | .f16 | .bf16 | .f32 | .f64 | .e4m3 | .e5m2 | .e3m2 | .e2m3 | .e2m1 | .e8m0 => true
  | _ => false

/-- An integer type (05 R109). -/
def Ty.isInt : Ty → Bool
  | .i8 | .i16 | .i32 | .i64 | .n8 | .n16 | .n32 | .n64 => true
  | _ => false

/-- Bits of an element: the slot width of a packed type, the whole operand otherwise (09 R199). -/
def Ty.width (t : Ty) : Nat := t.slot

/-- Elements of an operand of a type. -/
def Ty.elems (t : Ty) : Nat := if t.slot < 32 then 32 / t.slot else 1

end Sys2Proof

namespace Sys2Proof.Machine

/-! ## Elements -/

/-- Element `i` of width `w`. -/
def elem (w i v : Nat) : Nat := v / 2 ^ (w * i) % 2 ^ w

/-- `n` elements of width `w`, element 0 lowest. -/
def joinElems (w : Nat) : List Nat → Nat
  | [] => 0
  | x :: t => x % 2 ^ w + 2 ^ w * joinElems w t

/-- One value at every element position of an operand of a type (09 R199). -/
def spread (t : Ty) (v : Nat) : Nat := joinElems t.slot (List.replicate t.elems v)

/-- Replaces element `i` of width `w`. -/
def setElem (w i v x : Nat) : Nat := v - elem w i v * 2 ^ (w * i) + x % 2 ^ w * 2 ^ (w * i)

/-- The integer that an element spells under its type (09 R205: read as values of the type). -/
def intVal (t : Ty) (x : Nat) : Int := if t.signed then signedOf t.slot x else (x % 2 ^ t.slot : Nat)

/-! ## Reading -/

/-- The value of an immediate by the operation's type (05 R107), which names none for a 128-bit operand: of `.b128`, or of the
packing and unpacking of six-bit formats (09 R220). DEDUCED (log 8). A NaN immediate of type `.f64` becomes the
default NaN. DESIGN CHOICE (log 54). -/
def immValue (t : Ty) (v : Word) : Nat :=
  match t with
  | .i64 => truncI 64 v.toInt
  | .f64 => (fmt64.convert .rn 0 (fmt32.decode v.toNat)).1
  | .b128 | .e3m2 | .e2m3 => (Config.imm128 v).toNat
  | .i8 | .n8 | .b8 | .i16 | .n16 | .b16 => spread t v.toNat
  | _ => v.toNat

/-- An operand of `n` registers as a lane reads it (09 R199). -/
def laneVal (g : Group) (t : Thread) (handler : Bool) (ty : Ty) (n : Nat) : Operand → Nat
  | .win i => t.regs handler i n
  | .scal i => g.scalars i n
  | .pred k => if t.pred k then 1 else 0
  | .imm v => immValue ty v
  | _ => 0

/-- An operand of `n` registers as the group reads it. -/
def groupVal (g : Group) (ty : Ty) (n : Nat) : Operand → Nat
  | .scal i => g.scalars i n
  | .imm v => immValue ty v
  | _ => 0

/-! ## Writing -/

/-- Writes a lane's destination of `n` registers: a predicate receives (value ≠ 0) (09 R214, R216); a write to `zero`
is discarded. -/
def Thread.write (t : Thread) (handler : Bool) (n : Nat) (d : Operand) (v : Nat) : Thread :=
  match d with
  | .win i => t.setRegs handler i n v
  | .pred k => t.setPred k (v ≠ 0)
  | _ => t

/-- Writes the group's destination of `n` scalars. -/
def Group.write (g : Group) (n : Nat) (d : Operand) (v : Nat) : Group :=
  match d with
  | .scal i => g.setScalars i n v
  | _ => g

/-- Marks a destination as waiting on a long-latency producer (06 R139, R141). -/
def Thread.hold (t : Thread) (handler : Bool) (n : Nat) (d : Operand) : Thread :=
  match d with
  | .win i => { t with pend := (List.range n).foldl (fun p j => addTo p (t.entry handler (i + j))) t.pend }
  | .pred k => if k = 0 then t else { t with pend := addTo t.pend (96 + k) }
  | _ => t

/-- Marks a scalar destination as waiting on a long-latency producer (06 R139). -/
def Group.hold (g : Group) (n : Nat) (d : Operand) : Group :=
  match d with
  | .scal i => { g with spend := (List.range n).foldl (fun p j => addTo p (i + j)) g.spend }
  | _ => g

/-- The first stack entry of a window destination, 96 for none. -/
def Thread.destEntry (t : Thread) (handler : Bool) : Operand → Nat
  | .win i => t.entry handler i
  | _ => 96

/-- The scalar of a destination, none for `zero`. -/
def scalOf : Operand → Option Nat
  | .scal i => some i
  | _ => none

end Sys2Proof.Machine
end

