-- ==== Sys2Proof/Machine/Flags.lean ====
section
/-! DEFINITION. Floating-point flags and their trap (08_numbers R191 to R193; 09_compute R203), and the layouts of a
trap's detail (05_encoding R120; 16_regroup R387; 17_interrupts R392, R393; 18_retiring R427, R429). -/

namespace Sys2Proof.Machine

/-! ## Details -/

/-- A detail whose bytes are given from byte 0 on; the others are zero. -/
def detailOf (l : List Byte) : QWord := BitVec.ofNat 128 (ofBytes (l.take 16))

/-- Layout M (17 R393). -/
def detailM (addr cause kind size space : Nat) : QWord :=
  detailOf (bytesOf addr 8 ++ bytesOf cause 1 ++ bytesOf kind 1 ++ bytesOf size 1 ++ bytesOf space 1)

/-- The detail of a word that fails a check (05 R120). DEDUCED (log 10). -/
def detailWord (w : InsnWord) (step field : Nat) : QWord :=
  detailOf (bytesOf w.toNat 12 ++ bytesOf step 1 ++ bytesOf field 1)

/-- The detail of a poisoned register (16 R387). DEDUCED (log 11). -/
def detailReg (lane code origin : Nat) : QWord :=
  detailOf (bytesOf 0 8 ++ bytesOf 1 1 ++ bytesOf code 2 ++ bytesOf lane 1 ++ bytesOf origin 1)

/-! ## Flags -/

/-- Class 18 with the raised set in bytes 0 to 3 (17 R392). -/
def fpTrap (lane : Nat) (raised : Word) : Trap := ⟨lane, 18, BitVec.ofNat 128 raised.toNat⟩

/-- Some raised flag is enabled (08 R192). -/
def fpTraps (fpen raised : Word) : Bool := raised &&& fpen ≠ 0

/-- Flags are sticky (08 R191). -/
def Thread.flags (t : Thread) (raised : Word) : Thread := { t with fpstat := t.fpstat ||| raised }

end Sys2Proof.Machine
end

