-- ==== Sys2Proof/Machine/Issue.lean ====
section
/-! DEFINITION. Around one issued instruction: the issue mode of a word (05_encoding R112, R121), what is found before
it has any effect (decode failures R118 to R120, breakpoints 18 R429, late and poisoned data 10 R490 and 16 R387,
instructions that a transaction does not allow 15 R373), the two modes of execution, and its end: the lanes that trap
are raised together (17 R395). -/

namespace Sys2Proof

/-- Mode G of R112; mode L otherwise (05 R121). -/
def Raw.groupMode (r : Raw) : Bool :=
  let op := r.op.toNat
  match r.u.toNat with
  | 0 => true
  | 1 => op ∈ [0x50, 0x51, 0x85, 0x86]
  | 2 => !(0x44 ≤ op && op ≤ 0x47)
  | _ => op ∈ [0x06, 0x07, 0x0C, 0x0D, 0x0E, 0x12, 0x20, 0x30, 0x31, 0x32, 0x62, 0x67, 0x68, 0x69, 0x6A]

/-- `yieldl` and `cqstat` never trap after decode (17 R409; 16 R389). -/
def Raw.neverTraps (r : Raw) : Bool := r.key = 0x362 || r.key = 0x332

/-- `vshfl`, `vbfly` and `vbcast` read A in another lane, and `vbcast` reads B in one lane alone (09 R223): what a lane reads of its
own before the exchange. -/
def Raw.ownReads (r : Raw) : List (Nat × Nat × Nat) :=
  if r.key ∈ [0x152, 0x153, 0x154] then [] else r.reads

/-- What an ACT lane may meet (15 R373); `xbegin` aborts by its own rule (R372). -/
def Raw.txAllowed (r : Raw) : Bool :=
  let op := r.op.toNat
  match r.u.toNat with
  | 0 | 1 =>
    op < 0x80 || 0xA0 ≤ op || ((op = 0x80 || op = 0x82) && r.f.toNat / 8 = 0 && r.immBits 5 3 = 0)
  | 3 => op ≤ 0x07 || op ∈ [0x0C, 0x0D, 0x0E, 0x63]
  | _ => false

end Sys2Proof

namespace Sys2Proof.Machine

/-! ## The end of an issue -/

/-- Ends the issue of the standing instruction: the lanes that trapped before or in it are raised together (17 R395),
and a slot without lanes is freed (06 R138). -/
def State.finish (s : State) (k : Cursor) (ts : List Trap) : State :=
  (({ s with cur := none }).raise k.gk ((lanesOf k.full).headD 0) k.handler (k.traps ++ ts)).reap k.gk

/-- Gives an instruction to the issuing group; without one there is nothing to execute it. DEDUCED (log 48). -/
def withIssuer (s : State) (f : Cursor → State → State) : Host.Outcome State Fault Refusal :=
  match s.cur with
  | none => .fault .noIssuer
  | some k => .next (f k s)

/-! ## The two modes (05 R112) -/

/-- `guard_g`: the guard in the lowest-numbered lane of `active`. -/
def guardG (g : Group) (h : Head) (k : Cursor) : Bool :=
  match (lanesOf k.full).head?.bind g.lanes.get? with
  | some t => t.guard h
  | none => false

/-- The lanes that execute now and whose guard holds: the set C of 09 R222. -/
def guarded (g : Group) (h : Head) (k : Cursor) : List Nat :=
  (lanesOf k.active).filter fun l =>
    match g.lanes.get? l with
    | some t => t.guard h
    | none => false

/-- The lanes of all of `active` whose guard holds, traps found before included. -/
def guardedFull (g : Group) (h : Head) (k : Cursor) : List Nat :=
  (lanesOf k.full).filter fun l =>
    match g.lanes.get? l with
    | some t => t.guard h
    | none => false

/-- What an instruction does in one lane. -/
inductive LaneOut where
  /-- it completes, and the counter advances by one -/
  | next (t : Thread)
  /-- it completes and has set the counter itself -/
  | goto (t : Thread)
  /-- it traps with a class and a detail; nothing is written -/
  | trap (cls : Nat) (det : QWord)
deriving DecidableEq, Repr

/-- One lane's outcome put into the group. -/
def Group.laneOut (g : Group) (l : Nat) : LaneOut → Group
  | .next t => { g with lanes := g.lanes.put l { t with lpc := t.lpc + 1 } }
  | .goto t => { g with lanes := g.lanes.put l t }
  | .trap .. => g

/-- The trap that a lane's outcome raises. -/
def LaneOut.traps (l : Nat) : LaneOut → List Trap
  | .trap c d => [⟨l, c, d⟩]
  | _ => []

/-- Every lane's outcome, each read from the group as it stood at issue. -/
def laneOuts (g : Group) (h : Head) (k : Cursor) (f : Nat → Thread → LaneOut) : List (Nat × LaneOut) :=
  (lanesOf k.active).filterMap fun l =>
    (g.lanes.get? l).map fun t => (l, if t.guard h then f l t else .next t)

/-- Applies the outcomes of a group's lanes, in lane order. -/
def Group.applyOuts (g : Group) (os : List (Nat × LaneOut)) : Group := os.foldl (fun g o => g.laneOut o.1 o.2) g

/-- The traps among the outcomes of lanes. -/
def trapsOf (os : List (Nat × LaneOut)) : List Trap := os.flatMap fun o => o.2.traps o.1

/-- A per-lane instruction: a lane whose guard fails only advances (05 R112). -/
def laneMode (h : Head) (f : Group → Nat → Thread → LaneOut) (k : Cursor) (s : State) : State :=
  let g := s.group k.gk
  let os := laneOuts g h k (f g)
  ({ s with groups := s.groups.put k.gk (g.applyOuts os) }).finish k (trapsOf os)

/-- Advances every lane that executes. -/
def Group.advanceActive (g : Group) (k : Cursor) : Group := g.advanceAll (lanesOf k.active)

/-- A group-uniform instruction that changes the group alone: it is executed or skipped, and every lane advances. -/
def groupMode (h : Head) (f : Group → Group) (k : Cursor) (s : State) : State :=
  let g := s.group k.gk
  ({ s with groups := s.groups.put k.gk ((if guardG g h k then f g else g).advanceActive k) }).finish k []

/-- A group-uniform instruction over the whole state; `f` leaves the lanes' counters, and every lane advances. -/
def groupModeS (h : Head) (f : State → State) (k : Cursor) (s : State) : State :=
  ((if guardG (s.group k.gk) h k then f s else s).modGroup k.gk (·.advanceActive k)).finish k []

/-- Every lane that executes traps alike. -/
def trapAll (k : Cursor) (cls : Nat) (det : QWord) (s : State) : State :=
  s.finish k ((lanesOf k.active).map fun l => ⟨l, cls, det⟩)

/-! ## Before the instruction -/

/-- The first armed breakpoint register that matches a lane of the main stream (18 R429), with its HALT bit. DEDUCED
(log 12). -/
def State.bkptHit (s : State) (ck : Nat) (pc : Word) (t : Thread) (halting : Bool) : Option Nat :=
  if t.bkSkip then none
  else (List.range 4).find? fun n =>
    let b := (s.ctx ck).bkpt.read 0 n
    bitOf b 63 && bitOf b 62 = halting && b.toNat % 2 ^ 32 = pc.toNat &&
      (!bitOf b 61 || b.toNat / 2 ^ 32 % 2 ^ 14 = t.tid)

/-- What a lane finds before the instruction has any effect: late data (10 R490), then poisoned registers, the guard
first (16 R387), which a group-uniform instruction reads in the lowest lane `lead` of `active` alone (05 R112). DEDUCED (log
11). -/
def Group.foundBefore (g : Group) (handler : Bool) (r : Raw) (lead l : Nat) (t : Thread) : Option (Nat × QWord) :=
  match t.late with
  | some d => some (16, d)
  | none =>
    match (if r.neverTraps || (r.groupMode && l ≠ lead) then none else g.usePoison handler l (2, r.gp.toNat, 1)) with
    | some (c, o) => some (16, detailReg l c o)
    | none =>
      if r.groupMode || !t.guard r.head then none
      else (r.ownReads.findSome? fun u => if u.1 = 1 then none else g.usePoison handler l u).map fun co =>
        (16, detailReg l co.1 co.2)

/-- The poisoned scalar that the instruction reads, if some lane executes it (16 R387). DEDUCED (log 11). -/
def Group.scalarPoison (g : Group) (handler : Bool) (r : Raw) (k : Cursor) : Option (Nat × Nat) :=
  let runs := if r.neverTraps then false else if r.groupMode then guardG g r.head k else !(guarded g r.head k).isEmpty
  if runs then r.reads.findSome? fun u => if u.1 = 1 then g.usePoison handler 0 u else none else none

/-- Issues a word to `full`: what is found before it ends the issue or leaves the instruction standing with the lanes
that execute it. DEDUCED (log 9). DEDUCED (log 11). DEDUCED (log 12). DEDUCED (log 48). -/
def State.prepare (s : State) (gk : Nat) (handler : Bool) (full : List Nat) (pc : Word) (w : InsnWord) :
    State × Option Instr :=
  let g := s.group gk
  let ck := s.ckOf g
  let r := Raw.ofWord w
  let ready := full.filter fun l => (s.thread gk l).wait = .none
  let k : Cursor :=
    { gk := gk, full := maskOf full, active := maskOf ready, handler := handler, word := w, pc := pc, traps := [] }
  let hits (halting : Bool) : List (Nat × Nat) :=
    if handler then [] else ready.filterMap fun l => (s.bkptHit ck pc (s.thread gk l) halting).map fun n => (l, n)
  if !(hits true).isEmpty then
    let s := s.trace ck gk (full.headD 0) pc 3 none none
    let s := (hits true).foldl (fun s h => s.modThread gk h.1 fun t => { t with bkSkip := true }) s
    ((s.modCtx ck fun c => { c with halt := true }).endRun gk, none)
  else
  match decodeWord (((s.pktOf g).map (·.tiles)).getD 0) (privilegedCk ck) w with
  | .error e => (trapAll k e.cls (detailWord w e.step e.field) s, none)
  | .ok i =>
    let brk (l n : Nat) : Trap := ⟨l, 19, detailOf (bytesOf 0 4 ++ bytesOf 2 1 ++ bytesOf n 1)⟩
    let bps := match hits false with
      | [] => []
      | (l, n) :: t => if r.groupMode then ready.map (brk · n) else ((l, n) :: t).map fun h => brk h.1 h.2
    let ready := ready.filter fun l => !(bps.any fun t => t.lane = l)
    let runs (l : Nat) : Bool := if r.groupMode then guardG g r.head k else (s.thread gk l).guard r.head
    let s := if bps.isEmpty then s else s.trace ck gk (full.headD 0) pc 3 none none
    let acts := ready.filter fun l => (s.thread gk l).tx.act && !r.txAllowed && runs l
    let s := acts.foldl (fun s l => s.txAbort gk l 5) s
    let ready := if r.key = 0x30F then ready else ready.filter fun l => !acts.contains l
    let found := match g.scalarPoison handler r { k with active := maskOf ready } with
      | some (c, o) => ready.map fun l => (⟨l, 16, detailReg l c o⟩ : Trap)
      | none => ready.filterMap fun l =>
        (g.foundBefore handler r (full.headD 0) l (s.thread gk l)).map fun cd => (⟨l, cd.1, cd.2⟩ : Trap)
    let rest := ready.filter fun l => !(found.any fun t => t.lane = l)
    if rest.isEmpty || (r.groupMode && !found.isEmpty) then (s.finish k (bps ++ found), none)
    else ({ s with cur := some { k with active := maskOf rest, traps := bps ++ found } }, some i)

end Sys2Proof.Machine
end

