-- ==== Sys2Proof/Machine/Access.lean ====
section
/-! DEFINITION. An access of a lane or of a group: its effective address (05_encoding R125), the checks of 10_memory R226
to R231 and R247, watchpoints (18 R428), the holds before it issues (06 R145; 10 R236; 11 R275; 14 R352), and accesses in
flight: their order, their delivery to registers and the lanes that wait on them. -/

/-- `.cluster` scope or wider (14 R337). -/
def Sys2Proof.Scope.wide (s : Sys2Proof.Scope) : Bool := 3 ≤ s.code

namespace Sys2Proof.Machine

/-! ## Addresses -/

/-- base + OFS, modulo 2^64 in `.gl` and 2^32 elsewhere (05 R125). -/
def effAddr (space : Space) (base : Nat) (ofs : BitVec 24) : Nat :=
  truncI (if space = .gl then 64 else 32) (base + ofs.toInt)

/-- Registers of a base. -/
def baseRegs (space : Space) : Nat := if space = .gl then 2 else 1

/-- Two intervals of bytes share a byte. -/
def meetBytes (a n b m : Nat) : Bool := a < b + m && b < a + n

/-- The wider of two scopes. -/
def widerScope (a b : Scope) : Scope := if a.code < b.code then b else a

/-! ## Checks -/

/-- One access to check: `kind` is the access kind of layout M. -/
structure Req where
  lane : Nat
  tid : Nat
  space : Space
  addr : Nat
  size : Nat
  need : Need
  kind : Nat
deriving DecidableEq, Repr

/-- What the checks of an address give. -/
inductive Checked where
  /-- the location, the first page and the length of the run that translates it, and the home slice -/
  | ok (loc : Nat) (run : Nat × Nat) (slice : Nat)
  /-- the link-map entry of a remote address -/
  | remote (i : Nat)
  | trap (cls : Nat) (det : QWord)
  /-- a walk runs -/
  | wait
deriving DecidableEq, Repr

/-- What translating a global address gives, from the lookups of its instruction (10 R247, R248). A transactional access to a
remote address is refused as such, whether its link works or not (22 R467). -/
def State.judgeGl (s : State) (ck : Nat) (rs : List (Nat × WalkResult)) (tx : Bool) (r : Req) (fail : Nat → Nat → Checked) :
    Checked :=
  if 2 ^ 57 ≤ r.addr then fail 3 4
  else match s.remoteOf ck r.addr with
    | some i => if tx || s.peerUp ck i then .remote i else fail 3 6
    | none =>
      match rs.find? fun e => e.1 = r.addr / 65536 with
      | some (_, .ok e) =>
        match e.check r.addr r.need with
        | .ok pa leaf => .ok pa (e.first, e.len) (homeSlice pa leaf)
        | .fault c k => fail c k
        | _ => fail 16 0
      | some (_, .fault c k) => fail c k
      | some (_, .poison) => fail 16 0
      | none => .wait

/-- Steps 1 to 3 of R226 for one access of a group, given the lookups of its instruction. -/
def State.judge (s : State) (gk : Nat) (rs : List (Nat × WalkResult)) (r : Req) : Checked :=
  let g := s.group gk
  let ck := s.ckOf g
  let fail (c k : Nat) : Checked := .trap c (detailM r.addr k r.kind r.size r.space.code)
  if r.addr % r.size ≠ 0 then fail 5 0
  else match s.teamOf g, s.pktOf g with
    | some t, some p =>
      if r.space = .gl then s.judgeGl ck rs (s.thread gk r.lane).tx.act r fail
      else if s.inBounds (coreOf gk) ck t p r.space r.addr r.size then
        .ok (localLoc (coreOf gk) t p r.space r.tid r.addr) (0, 0) 0
      else fail 6 0
    | _, _ => fail 6 0

/-- The pages that an instruction looks up: those of the addresses that pass steps 1 and 2 and are not remote, each once, in
the order of the lanes (10 R248; 22 R466). -/
def State.lookupPages (s : State) (gk : Nat) (rs : List Req) : List Nat :=
  let ck := s.ckOf (s.group gk)
  firsts ((rs.filter fun r =>
    r.space = .gl && r.addr % r.size = 0 && r.addr < 2 ^ 57 && (s.remoteOf ck r.addr).isNone).map fun r => r.addr / 65536)

/-- Checks a list of accesses in order; `none` while some walk runs. -/
def State.checkAll (s : State) (gk : Nat) (reqs : List Req) : State × Option (List (Req × Checked)) :=
  match s.lookups gk (s.ckOf (s.group gk)) (s.lookupPages gk reqs) with
  | (s, none) => (s, none)
  | (s, some rs) => (s, some (reqs.map fun r => (r, s.judge gk rs r)))

/-- Checks one access. -/
def State.check (s : State) (gk : Nat) (r : Req) : State × Checked :=
  match s.lookups gk (s.ckOf (s.group gk)) (s.lookupPages gk [r]) with
  | (s, none) => (s, .wait)
  | (s, some rs) => (s, s.judge gk rs r)

/-- The armed watchpoint of a thread that an access meets (18 R427, R428): the cause. What a continued access ignores (18 R430), the
accesses of a handler do not. DEDUCED (log 12). -/
def Thread.watchHit (t : Thread) (handler : Bool) (kind addr size : Nat) : Option Nat :=
  let bit := if kind = 1 || kind = 6 then bitOf t.wpKind 0 else if kind = 3 then t.wpKind ≠ 0 else bitOf t.wpKind 1
  if (t.wpSkip && !handler) || t.wpLen = 0 || !bit || !meetBytes addr size t.wpAddr.toNat t.wpLen then none
  else some (if kind = 1 || kind = 6 then 0x10 else if kind = 3 then 0x12 else 0x11)

/-- The outcome of the checks for one lane, its watchpoint included. -/
def Checked.watched (c : Checked) (handler : Bool) (t : Thread) (r : Req) : Checked :=
  match c with
  | .trap .. => c
  | _ =>
    if r.space = .gl then
      match t.watchHit handler r.kind r.addr r.size with
      | some k => .trap 20 (detailM r.addr k r.kind r.size 0)
      | none => c
    else c

/-! ## Flights -/

/-- The access is a prefetch. -/
def Flight.isPrefetch (f : Flight) : Bool :=
  match f.kind with
  | .prefetch _ => true
  | _ => false

/-- The number that stands for the threads of a group in an access that the group makes as one. -/
def groupTid (gk : Nat) : Nat := 65536 + gk

/-- The threads for which an access is made. -/
def Flight.threads (f : Flight) : List Nat :=
  match f.kind with
  | .atomic _ _ ops => ops.map fun o => o.2.1
  | _ => [f.tid]

/-- Two accesses are made for one thread. A group's access is made for all of its threads. DEDUCED (log 15). -/
def Flight.sameThread (f e : Flight) : Bool :=
  f.team = e.team && ((f.threads.any e.threads.contains) || ((65536 ≤ f.tid || 65536 ≤ e.tid) && f.gk = e.gk))

/-- A load that is an acquire by its own order: what follows it in its thread has not issued (14 R337). A load that a later fence
makes an acquire is none: what stands between them has issued (14 R342). -/
def Flight.acqLoad (f : Flight) : Bool := f.acqOwn && !f.writes

/-- An access waits for an earlier one of its core that meets its bytes: of the same thread (11 R262; 14 R339), or where one
of the two writes, unless the earlier is an acquire load, which nothing after it can have been ordered behind. DEDUCED (log
15). -/
def Flight.meets (f e : Flight) : Bool :=
  f.place = e.place && f.remote.isSome = e.remote.isSome && !f.isPrefetch && !e.isPrefetch
    && (f.sameThread e || ((f.writes || e.writes) && !e.acqLoad)) && meetBytes f.loc f.size e.loc e.size

/-- A release whose marker is held at its home (14 R352). DEDUCED (log 22). -/
def Flight.heldRelease (f : Flight) : Bool := f.rel && f.scope.wide

/-- An earlier access that a release comes after: a write, or a load that is no acquire (14 R341, R345). DEDUCED (log 22). -/
def Flight.owed (e : Flight) : Bool := !e.isPrefetch && !e.acqLoad

/-- Two intervals have a byte in common (11 R273). -/
def Foot.meets (a b : Foot) : Bool := a.space = b.space && a.unit = b.unit && a.lo < b.hi && b.lo < a.hi

/-- Two footprints have a byte in common (11 R273). DEDUCED (log 26). -/
def footsMeet (a b : List Foot) : Bool := a.any fun x => b.any x.meets

/-- An interval of a core's scratchpad. -/
def padFoot (core lo n : Nat) : Foot := { space := 1, unit := core, lo := lo, hi := lo + n }

/-- The bytes of an access in flight. -/
def Flight.foot (f : Flight) : Foot :=
  match f.space with
  | .gl => { space := 0, unit := f.ck, lo := f.va, hi := f.va + f.size }
  | .xs => { space := 3, unit := f.loc / 2 ^ 24, lo := f.loc % 2 ^ 24, hi := f.loc % 2 ^ 24 + f.size }
  | _ => padFoot (f.loc / 2 ^ 19) (f.loc % 2 ^ 19) f.size

/-- An earlier block load of the group still reads bytes of a write: its global reads stand in the group's program order (13 R322;
11 R262). -/
def State.fillsMeet (s : State) (id : Nat) (f : Flight) : Bool :=
  f.writes && s.cores.any fun c => c.2.fills.any fun e => e.1 < id && e.2.gk = f.gk && footsMeet [f.foot] e.2.reads

/-- An access in flight may be performed now: no earlier access of its core that it meets is in flight, a wide release has
every earlier access of its core performed, remote ones under `.system` scope, and an `ld.rp` has those performed that R351
names. DEDUCED (log 22). -/
def State.flightReady (s : State) (id : Nat) : Bool :=
  match s.flights.get? id with
  | none => false
  | some f =>
    let earlier := s.flights.filter fun e => e.1 < id && e.2.core = f.core
    (earlier.all fun e => !f.meets e.2) && !s.fillsMeet id f &&
    (!f.heldRelease || earlier.all fun e => !(e.2.owed && (e.2.remote.isNone || f.scope = .system))) &&
    (!f.promote || ((s.promos.get? (f.loc / 128)).getD []).all fun (c, m) =>
      !(s.flights.any fun e => e.1 < m && e.2.core = c && e.2.owed))

/-- The core has performed every access that a release or a barrier comes after (14 R337, R343). DEDUCED (log 22). -/
def State.owedDone (s : State) (core : Nat) (remote : Bool) : Bool :=
  !(s.flights.any fun e => e.2.core = core && e.2.owed && (remote || e.2.remote.isNone))

/-- The accesses in flight that happen before what a group does next: those that some thread of it has made or has seen (14
R344). -/
def State.seenFlights (s : State) (gk : Nat) : List (Nat × Flight) :=
  let known := s.knownTo (s.lanesIn gk)
  s.flights.filter fun e => e.2.gk = gk || happened known (e.2.makers.map (·.who)) e.2.seq

/-- The accesses in flight that a launch of a group comes after: the group's own, and those of its core (03 R76; 14 R343). -/
def State.issuedBefore (s : State) (gk : Nat) : List Nat :=
  (s.flights.filter fun e => e.2.gk = gk || (e.2.core = coreOf gk && e.2.owed && e.2.remote.isNone)).map (·.1)

/-- Puts an access in flight. -/
def State.launchFlight (s : State) (f : Flight) : State × Nat :=
  let (id, s) := s.fresh
  ({ s with flights := s.flights.put id f }, id)

/-- A thread of the team has an acquire in flight, or its group has (14 R337: its later accesses come after it). -/
def State.acquiring (s : State) (team tid gk : Nat) : Bool :=
  s.flights.any fun e => e.2.acq && e.2.team = team &&
    (e.2.threads.contains tid || (65536 ≤ e.2.tid && e.2.gk = gk))

/-- An access of this core in flight meets these bytes of a local level. -/
def State.padBusy (s : State) (core loc n : Nat) : Bool :=
  s.flights.any fun e => e.2.core = core && e.2.place = .pad && meetBytes loc n e.2.loc e.2.size

/-- Entries of the team in the issuing core's footprint table that an access must wait for (11 R275). -/
def State.footHolds (s : State) (core team : Nat) (p : Place) (loc n : Nat) (wr : Bool) : Bool :=
  p = .pad && (s.core core).foots.any fun e =>
    e.2.team = team && ((e.2.writes ++ if wr then e.2.reads else []).any fun f =>
      f.space = 1 && meetBytes loc n (2 ^ 19 * f.unit + f.lo) (f.hi - f.lo))

/-- Resident groups of a core in order of age (06 R142): the start of their team, the lowest slot of the team, the slot. -/
def State.ageKey (s : State) (gk : Nat) : Nat × Nat × Nat :=
  let g := s.group gk
  let start := ((s.teams.get? g.team).map (·.startAt)).getD 0
  let low := (s.groups.filter fun e => coreOf e.1 = coreOf gk && e.2.team = g.team).foldl (fun m e => min m (slotOf e.1)) 31
  (start, low, slotOf gk)

/-- An order by team start, team and slot (06 R142). -/
def older (a b : Nat × Nat × Nat) : Bool :=
  a.1 < b.1 || (a.1 = b.1 && (a.2.1 < b.2.1 || (a.2.1 = b.2.1 && a.2.2 < b.2.2)))

/-- The group is among the CAP oldest resident groups of its core (06 R145); a team that has not started has no place in the
order of R142. -/
def State.withinCap (s : State) (gk : Nat) : Bool :=
  (s.groups.filter fun e => coreOf e.1 = coreOf gk && !e.2.idle && (s.teams.get? e.2.team).any (·.started) &&
      older (s.ageKey e.1) (s.ageKey gk)).length
    < (s.core (coreOf gk)).cap

/-- Bytes that one request carries: a line for a write, a sector for a load (10 R236). -/
def Flight.unit (f : Flight) : Nat := if f.writes then 128 else 64

/-- Requests that accesses make: unique sectors of loads, unique lines of stores; a lane that fails makes none. DEDUCED (log
15). -/
def requestCount (unit : Nat) (rs : List (Req × Checked)) : Nat :=
  ((rs.filterMap fun rc =>
    match rc.2 with
    | .ok loc _ _ => some (0, loc / unit)
    | .remote i => some (i + 1, rc.1.addr / unit)
    | _ => none) : List (Nat × Nat)).dedup.length

/-- Request entries of a core in use; a window fill reads two sectors (07 R159; 10 R236). -/
def State.requestsUsed (s : State) (core : Nat) : Nat :=
  (((s.flights.filter fun (e : Nat × Flight) => e.2.core = core && e.2.space = .gl).flatMap fun (e : Nat × Flight) =>
    (List.range (if e.2.unit < e.2.size then 2 else 1)).map fun i =>
      (if e.2.req = 0 then e.1 else e.2.req, e.2.loc / e.2.unit + i)) : List (Nat × Nat)).dedup.length

/-- Free request entries of a core cover what an access needs (10 R236). -/
def State.hasRequests (s : State) (core n : Nat) : Bool := s.requestsUsed core + n ≤ 512

/-! ## Delivery -/

/-- A change to a thread of a team wherever it stands: in a lane, or queued as a continuation. -/
def State.onThread (s : State) (team tid : Nat) (f : Thread → Thread) : State :=
  match s.findThread team tid with
  | some (gk, l) => s.modThread gk l f
  | none => s.modTeam team fun t => { t with conts := t.conts.map fun c => if c.th.tid = tid then { c with th := f c.th } else c }

/-- The same for scalars of a group; 384 stands for no scalar. -/
def Group.deliver (g : Group) (d n origin : Nat) (v : Option Nat) : Group :=
  if d = 384 then g
  else
    let es := (List.range n).map (d + ·)
    let g := { g with spend := g.spend.filter fun e => !es.contains e }
    match v with
    | some v => g.setScalars d n v
    | none => { g with spoison := es.foldl (fun p e => p.put e origin) g.spoison }

/-- A loaded value extended to the width of D (11 R260). -/
def loadValue (size : Size) (raw : Nat) : Nat :=
  match size with
  | .i8 => truncI 32 (signedOf 8 raw)
  | .i16 => truncI 32 (signedOf 16 raw)
  | _ => raw

/-! ## Lanes that wait on an access -/

/-- Slots and lanes of a team that wait on an access in flight. -/
def State.waiters (s : State) (id : Nat) : List (Nat × Nat) :=
  s.groups.flatMap fun e => (e.2.lanes.filter fun l => l.2.wait = .window id).map fun l => (e.1, l.1)

/-- Raises a trap in lanes of one slot, each in its stream (17 R395). -/
def State.raiseIn (s : State) (gk : Nat) (ts : List Trap) : State :=
  let g := s.group gk
  let hs := ts.filter fun t => g.inHandler t.lane
  let ms := ts.filter fun t => !g.inHandler t.lane
  let s := if ms.isEmpty then s else s.raise gk ((ms.map (·.lane)).foldl min 31) false ms
  if hs.isEmpty then s else s.raise gk ((hs.map (·.lane)).foldl min 31) true hs

/-- The lanes that wait on an access go on: they advance (`step`), or they have already moved. -/
def State.wake (s : State) (id : Nat) (step : Bool) : State :=
  (s.waiters id).foldl (fun s w => s.modThread w.1 w.2 fun t =>
    { t with wait := .none, lpc := if step then t.lpc + 1 else t.lpc, wpSkip := false, bkSkip := false }) s

/-- The waiting lanes of the threads selected trap at their counters. -/
def State.wakeTrap (s : State) (id cls : Nat) (sel : Nat → Bool) (det : QWord) : State :=
  let ws := (s.waiters id).filter fun w => sel (s.thread w.1 w.2).tid
  let s := ws.foldl (fun s w => s.modThread w.1 w.2 fun t => { t with wait := .none }) s
  ((ws.map (·.1)).dedup).foldl (fun s gk =>
    s.raiseIn gk ((ws.filter fun w => w.1 = gk).map fun w => ⟨w.2, cls, det⟩)) s

end Sys2Proof.Machine
end

