-- ==== Sys2Proof/Machine/Perform.lean ====
section
/-! DEFINITION. Performing an access in flight at its home (10 R236 to R241; 14 R339, R348 to R352): loads and their L1
fill, stores, atomics (15 R368, R369), window spills and fills (07 R158, R159, R165), prefetches; with poison (10 R490),
the overlap check (14 R348), and what a peer answers (22 R466). -/

namespace Sys2Proof.Machine

/-! ## Frames of the window (07 R157 to R159) -/

/-- First entry of the caller frame below the current window. -/
def Thread.frameAt (t : Thread) : Nat := (t.wb + 72) % 96

/-- An entry of the register stack (07 R155). -/
def Thread.stackEntry (t : Thread) (e : Nat) : Word := t.stack.read 0 (e % 96)

/-- The 128-byte record of the resident caller frame (07 R159). -/
def Thread.frameRecord (t : Thread) : List Byte :=
  ((List.range 24).flatMap fun i => bytesOf (t.stackEntry (t.frameAt + i)).toNat 4)
    ++ bytesOf (t.links.read 0 (t.frameAt / 24)).toNat 4 ++ List.replicate 28 0

/-- Entries of the caller frame that hold poisoned data. DEDUCED (log 24). -/
def Thread.framePoison (t : Thread) : List Nat :=
  (List.range 24).filter fun i => (t.poison.get? ((t.frameAt + i) % 96)).isSome

/-- Puts a record back into the caller frame. -/
def Thread.fillFrame (t : Thread) (r : List Byte) : Thread :=
  let t := t.setEntries t.frameAt 24 (ofBytes (r.take 96))
  { t with links := t.links.write 0 (t.frameAt / 24) (BitVec.ofNat 32 (ofBytes ((r.drop 96).take 4))) }

/-- The move of `call` after its spill (07 R157). -/
def Thread.doCall (t : Thread) (target : Word) : Thread :=
  let wb := (t.wb + 24) % 96
  let t := { t with
    links := t.links.write 0 (wb / 24) (t.lpc + 1)
    wb := wb
    nres := 1
    cd := t.cd + 1
    lpc := target }
  t.setEntries (wb + 8) 24 0

/-- The move of `ret` after its fill (07 R158). -/
def Thread.doRet (t : Thread) : Thread :=
  { t with lpc := t.links.read 0 (t.wb / 24), wb := (t.wb + 72) % 96, cd := t.cd - 1, nres := 0 }

/-! ## What a peer answers (22 R466) -/

/-- The outcome of a remote access: a cause and class, poisoned data, or success with free data. -/
inductive PeerAnswer where
  | done (data : Nat)
  | poison
  | fault (cls cause : Nat)
deriving DecidableEq, Repr

/-- A peer's answer is a free value; the causes are those of R247 and R466. DESIGN CHOICE (log 17). -/
def State.peerAnswer (s : State) : State × PeerAnswer :=
  let (i, s) := s.freeIdx
  (s, match Config.freeNat i % 8 with
    | 1 => .fault 3 1
    | 2 => .fault 3 2
    | 3 => .fault 3 3
    | 5 => .fault 4 5
    | 6 => .fault 3 6
    | 7 => .poison
    | _ => .done (ofBytes ((List.range 16).map fun j => Config.freeByte (16 * i + j))))

/-! ## The overlap check (14 R348) -/

/-- An access by a thread is made by the agent of an earlier one: a group's access is made by the threads of the group.
DEDUCED (log 16). -/
def State.sameAgent (s : State) (f : Flight) (tid team agent : Nat) : Bool :=
  team = f.team && (agent = tid || agent = groupTid f.gk || (65536 ≤ tid && (s.findThread team agent).any (·.1 = f.gk)))

/-- The record that an access by a thread conflicts with: its size and offset. Only an access issued while the check was on
takes part. DEDUCED (log 16). -/
def State.overlapHit (s : State) (f : Flight) (tid : Nat) : Option (Nat × Nat) :=
  if !f.chk || !(s.ctx f.ck).ovchk then none
  else match s.overlaps.get? (512 * (f.loc / 128) + f.ck) with
    | some r =>
      if !(s.sameAgent f tid r.team r.tid) && meetBytes (f.loc % 128) f.size r.off r.size
          && !(r.off = f.loc % 128 && r.size = f.size) then some (r.size, r.off) else none
    | none => none

/-- The detail of class 17. -/
def detailOverlap (f : Flight) (r : Nat × Nat) : QWord :=
  detailOf (bytesOf f.va 8 ++ bytesOf f.size 1 ++ bytesOf r.1 1 ++ bytesOf r.2 1)

/-- A performed strong access replaces the record. DEDUCED (log 16). -/
def State.overlapNote (s : State) (f : Flight) (tid : Nat) : State :=
  if f.chk && (s.ctx f.ck).ovchk then
    let r : OvRecord := { ck := f.ck, off := f.loc % 128, size := f.size, core := f.core, tid := tid, team := f.team }
    { s with overlaps := s.overlaps.put (512 * (f.loc / 128) + f.ck) r }
  else s

/-! ## Strong accesses of different shapes (14 R347) and releases (14 R341) -/

/-- An access that its core performs at once: its undefined bytes, and its note. DEDUCED (log 47). -/
def State.strongHere (s : State) (f : Flight) : State :=
  (s.blur f.place (s.mixedBytes f f.tid)).strongNote f f.tid f.writes

/-- What an access releases for its threads takes its place in the home order (14 R341). -/
def State.releases (s : State) (f : Flight) : State := f.makers.foldl (fun s m => s.releasedBy f m) s

/-! ## Requests (10 R236) -/

/-- The accesses in flight that one request carries: the lanes of one instruction that load from one sector or store to one
line (10 R236). DEDUCED (log 15). -/
def State.mates (s : State) (id : Nat) (f : Flight) : List Nat :=
  if f.req = 0 || f.remote.isSome || f.place = .pad then [id]
  else (s.flights.filter fun (e : Nat × Flight) =>
    e.2.req = f.req && e.2.place = f.place && e.2.remote.isNone && e.2.loc / f.unit = f.loc / f.unit).map (·.1)

/-- Every access of a request may be performed now. -/
def State.matesReady (s : State) (ms : List Nat) : Bool :=
  ms.all fun m =>
    { s with flights := s.flights.filter fun (e : Nat × Flight) => e.1 = m || !ms.contains e.1 }.flightReady m

/-! ## Loads -/

/-- The sector of a line as a load of this core sees it: the home with the core's own stores in flight (10 R237), but for those
that may yet not be performed (14 R348). -/
def State.sectorData (s : State) (core base : Nat) : List Byte :=
  s.flights.foldl (fun d e =>
    if e.2.core = core && e.2.remote.isNone && !e.2.chk then
      match e.2.kind with
      | .store bs | .spill bs _ => bs.foldl (fun d b => if base ≤ b.1 && b.1 < base + 64 && e.2.place = .mem then d.set (b.1 - base) b.2 else d) d
      | _ => d
    else d) (s.bytes .mem base 64)

/-- The reuse-distance hint of an access; stores and atomics insert as hint 0 (10 R240). -/
def Flight.hint (f : Flight) : Nat :=
  match f.kind with
  | .load _ _ _ _ rd | .loadScalar _ _ _ rd _ | .prefetch rd => rd
  | _ => 0

/-- The access reaches its home slice in `.gl`, unless another access of its request has done so. -/
def State.touch (s : State) (first : Bool) (f : Flight) : State :=
  if first && f.space = .gl && f.remote.isNone then
    s.l2Touch (f.loc / 128) f.slice (insertV f.hint) f.ck (some (f.team, f.core)) f.writes
  else s

/-- A load in `.gl` allocates its sector in the L1, unless it bypasses it (10 R237; 14 R349; 15 R373; 22 R467), its line
is poisoned, or an atomic of the core on the sector is in flight. A load that bypassed the L1 drops its sector, so that no
later load of the core reads an older value there (14 R339). -/
def State.l1Return (s : State) (f : Flight) : State :=
  if f.space ≠ .gl || f.remote.isSome then s
  else
    let bypass := f.tx || (f.strong && f.scope.wide)
    let base := f.loc / 64 * 64
    let busy := s.flights.any fun e => e.2.core = f.core && e.2.place = .mem && e.2.remote.isNone &&
      (match e.2.kind with | .atomic .. => true | _ => false) && meetBytes base 64 e.2.loc e.2.size
    if bypass then s.modCore f.core (·.l1DropSector f.loc)
      else if busy || s.poisoned .mem base 64 then s
      else
        let d := s.sectorData f.core base
        s.modCore f.core (·.l1Fill f.loc d (slotOf f.gk))

/-- A wide acquire that returns empties the L1 again, whatever its space (10 R238). DEDUCED (log 16). -/
def State.acquired (s : State) (f : Flight) : State :=
  if f.acq && f.scope.wide then s.modCore f.core Core.l1Clear else s

/-- What a fence has lent is the thread's again where its access has written nothing (14 R342; 15 R369). DEDUCED (log 22). -/
def State.relend (s : State) (f : Flight) (tids : List Nat) : State :=
  (f.lent.filter fun e => tids.contains e.1).foldl (fun s e => s.onThread f.team e.1 fun t =>
    { t with fenceRel := some (match t.fenceRel with | some x => widerScope x e.2 | none => e.2) }) s

/-- The raw value that a load reads, `none` for poison. -/
def State.readHome (s : State) (f : Flight) : Option Nat :=
  if s.poisoned f.place f.loc f.size then none else some (s.load f.place f.loc f.size)

/-- A transactional load: own buffered bytes over the home's, the words read, and their line's home slice (15 R373). DEDUCED
(log 21). -/
def Thread.txRead (t : Thread) (loc n raw slice : Nat) (home : Nat → Word) : Thread × Nat :=
  let v := ofBytes ((List.range n).map fun i => (t.tx.wset.get? (loc + i)).getD (BitVec.ofNat 8 (raw / 256 ^ i)))
  let words := ((List.range n).filter fun i => (t.tx.wset.get? (loc + i)).isNone).map fun i => (loc + i) / 4
  let rset := words.foldl (fun (m : Tbl Word) w => if (m.get? w).isSome then m else m.put w (home w)) t.tx.rset
  ({ t with tx := { t.tx with rset := rset, homes := t.tx.homes.put (loc / 128) slice } }, v)

/-- Ends the promotion debt of a line (14 R351). -/
def State.promoted (s : State) (f : Flight) : State :=
  if f.promote then { s with promos := s.promos.del (f.loc / 128) } else s

/-- A read of the thread has returned the values of these releases: an acquire orders the thread after them (14 R341), and its
latest strong read is no longer in flight (14 R342). DEDUCED (log 22). -/
def Thread.readDone (t : Thread) (id : Nat) (f : Flight) (ns : List RelNote) : Thread :=
  let t := if f.acq then t.sees (seenFrom ns f.scope f.core f.gk f.promote) else t
  if t.strongRead = some id then { t with strongRead := none, readFrom := ns, readScope := f.scope } else t

/-- The same for the threads of a group that made an access as one. -/
def Group.readDone (g : Group) (id : Nat) (f : Flight) (ns : List RelNote) : Group :=
  { g with lanes := g.lanes.map fun e =>
      (e.1, if f.makers.any fun m => m.who = agentOf f.team e.2.tid then e.2.readDone id f ns else e.2) }

/-- A load's data return (10 R490; 11 R260, R263). The first access of a request reaches the L2 for all. DEDUCED (log
47). -/
def State.loadReturn (s : State) (first : Bool) (id : Nat) (f : Flight) : State :=
  let drop (s : State) : State := { s with flights := s.flights.del id }
  match f.kind with
  | .prefetch _ => if f.remote.isSome then drop s else (drop s).touch first f |>.l1Return f
  | .load d n size flag _ =>
    let give (s : State) (ns : List RelNote) (v : Option Nat) : State :=
      s.onThread f.team f.tid fun t =>
        let t := (t.readDone id f ns).deliver d n 3 (v.map (loadValue size))
        if flag = 0 then t else (t.unpend [96 + flag]).setPred flag false
    let free (s : State) : State := s.onThread f.team f.tid fun t =>
      (t.readDone id f []).unpend ((96 + flag) :: stackEntries d n)
    if f.remote.isSome then
      match s.peerAnswer with
      | (s, .done v) => ((give (drop s) [] (some (v % 2 ^ (8 * f.size)))).acquired f).wake id true
      | (s, .poison) => (give (drop s) [] none).wake id true
      | (s, .fault c k) =>
        let s := free (drop s)
        if c = 4 && flag ≠ 0 then
          (s.onThread f.team f.tid fun t => ((t.setPred flag true).deliver d n 3 (some 0))).wake id true
        else s.wakeTrap id c (fun _ => true) (detailM f.va k 1 f.size 0)
    else match s.overlapHit f f.tid with
      | some r => (free (drop s)).wakeTrap id 17 (fun _ => true) (detailOverlap f r)
      | none =>
        let s := s.blur f.place (s.mixedBytes f f.tid)
        let v := s.readHome f
        let ns := if v.isSome then s.notesFor f else []
        let s := ((((drop s).touch first f).overlapNote f f.tid).strongNote f f.tid false).l1Return f |>.acquired f |>.promoted f
        if f.tx then
          match s.findThread f.team f.tid with
          | some (gk, l) =>
            let act := (s.thread gk l).tx.act
            match v with
            | none => if act then (free s).txAbort gk l 6 else give s ns none
            | some raw =>
              if act then
                let home (w : Nat) : Word := BitVec.ofNat 32 (s.load .mem (4 * w) 4)
                let (t, v) := (s.thread gk l).txRead f.loc f.size raw f.slice home
                give (s.modThread gk l fun _ => t) [] (some v)
              else give s ns (some raw)
          | none => give s ns v
        else (give s ns v).wake id true
  | .loadScalar d n size _ txs =>
    let give (s : State) (ns : List RelNote) (v : Option Nat) : State :=
      s.modGroup f.gk fun g => (g.deliver d n 3 (v.map (loadValue size))).readDone id f ns
    let free (s : State) : State :=
      s.modGroup f.gk fun g => { g with spend := g.spend.filter fun e => !(d ≤ e && e < d + n) }.readDone id f []
    if f.remote.isSome then
      match s.peerAnswer with
      | (s, .done v) => ((give (drop s) [] (some (v % 2 ^ (8 * f.size)))).acquired f).wake id true
      | (s, .poison) => (give (drop s) [] none).wake id true
      | (s, .fault c k) => (free (drop s)).wakeTrap id c (fun _ => true) (detailM f.va k 1 f.size 0)
    else match s.overlapHit f f.tid with
      | some r => (free (drop s)).wakeTrap id 17 (fun _ => true) (detailOverlap f r)
      | none =>
        let s := s.blur f.place (s.mixedBytes f f.tid)
        let v := s.readHome f
        let ns := if v.isSome then s.notesFor f else []
        let s := ((((drop s).touch first f).overlapNote f f.tid).strongNote f f.tid false).l1Return f |>.acquired f |>.promoted f
        let ws := (txs.filterMap (s.findThread f.team)).filter fun w => (s.thread w.1 w.2).tx.act
        match v with
        | none =>
          let s := ws.foldl (fun s w => s.txAbort w.1 w.2 6) s
          if !ws.isEmpty && f.makers.all fun m => txs.any fun t => m.who = agentOf f.team t then free s
          else (give s ns none).wake id true
        | some raw =>
          let home (w : Nat) : Word := BitVec.ofNat 32 (s.load .mem (4 * w) 4)
          let (s, v) := ws.foldr (fun w a =>
            let (t, v) := (s.thread w.1 w.2).txRead f.loc f.size raw f.slice home
            (a.1.modThread w.1 w.2 fun _ => t, v)) (s, raw)
          (give s (if ws.isEmpty then ns else []) (some v)).wake id true
  | _ => s

/-! ## Stores -/

/-- A narrow release to a line is kept for its promotion (14 R351). -/
def State.noteRelease (s : State) (id : Nat) (f : Flight) : State :=
  if f.rel && f.space = .gl && f.remote.isNone && !f.scope.wide then
    let l := ((s.promos.get? (f.loc / 128)).getD []).filter fun e => e.1 ≠ f.core
    { s with promos := s.promos.put (f.loc / 128) ((f.core, id) :: l) }
  else s

/-- A write by accesses in flight. A block whose fill comes after one of them reads what it writes, and is not stale by it (13 R322;
14 R343). DEDUCED (log 27). -/
def State.writeAs (s : State) (ids : List Nat) (p : Place) (bytes : Tbl Byte) : State :=
  let spared : List Fill := s.cores.flatMap fun c => (c.2.fills.map (·.2)).filter fun f => f.after.any ids.contains
  spared.foldl (fun t f =>
    t.modRes f.res fun r =>
      let k := 32 * f.half + f.blk
      match (s.residencies.get? f.res).bind fun o => o.blocks.get? k with
      | some b => { r with blocks := r.blocks.put k { r.block k with stale := b.stale } }
      | none => r) (s.write p bytes)

/-- A store performed at its home: only the enabled bytes change (10 R237). A store whose lanes wait updates its core's L1
now, since it may not have been performed. DEDUCED (log 47). -/
def State.storePerformed (s : State) (first : Bool) (id : Nat) (f : Flight) (bytes : Tbl Byte) : State :=
  let drop (s : State) : State := { s with flights := s.flights.del id }
  if f.remote.isSome then
    match s.peerAnswer with
    | (s, .fault c k) =>
      ((drop s).relend f (f.lent.map (·.1))).wakeTrap id c (fun _ => true) (detailM f.va k 2 f.size 0)
    | (s, _) => (drop s).wake id true
  else match s.overlapHit f f.tid with
    | some r => ((drop s).relend f (f.lent.map (·.1))).wakeTrap id 17 (fun _ => true) (detailOverlap f r)
    | none =>
      let mixed := s.mixedBytes f f.tid
      let s := (((drop s).writeAs [id] f.place bytes)).blur f.place mixed
      let s := if f.space = .gl && !(s.waiters id).isEmpty then s.modCore f.core (·.l1Store bytes) else s
      ((((s.touch first f).overlapNote f f.tid).strongNote f f.tid true).releases f).noteRelease id f |>.wake id true

/-- A store request performed as one write: where its lanes cover a line they clear its poison (10 R256). DEDUCED (log
15). -/
def State.requestPerformed (s : State) (id : Nat) (f : Flight) : State :=
  let ms := s.mates id f
  if !s.matesReady ms then s
  else
    let fs : Tbl Flight := s.flights.filter fun (e : Nat × Flight) => ms.contains e.1
    let bytes (f : Flight) : Tbl Byte := match f.kind with | .store b => b | _ => []
    let good := fs.filter fun (e : Nat × Flight) => (s.overlapHit e.2 e.2.tid).isNone
    let s := if ms = [id] then s else s.writeAs ms f.place (good.flatMap fun e => bytes e.2)
    fs.foldl (fun s e => s.storePerformed (e.1 = ms.headD id) e.1 e.2 (bytes e.2)) s

/-! ## Atomics (15 R368, R369) -/

/-- The new value of an atomic over `w` bits, `none` where nothing is written. Opcodes: 0 add, 1 min, 2 max, 3 and, 4 or,
5 xor, 6 exch, 7 cas. -/
def atomNew (op : Nat) (ecl : Ecl) (w old v v2 : Nat) : Option Nat :=
  let f := if w = 64 then fmt64 else fmt32
  let least (b : Bool) : Nat :=
    match ecl with
    | .float => (f.minmax b old v).1
    | .signed => if (if b then signedOf w old ≤ signedOf w v else signedOf w v ≤ signedOf w old) then old else v
    | .natural => if (if b then old ≤ v else v ≤ old) then old else v
  match op with
  | 0 => some (match ecl with | .float => (f.add .rn old v).1 | _ => (old + v) % 2 ^ w)
  | 1 => some (least true)
  | 2 => some (least false)
  | 3 => some (Nat.land old v)
  | 4 => some (Nat.lor old v)
  | 5 => some (Nat.xor old v)
  | 6 => some v
  | _ => if old = v then some v2 else none

/-- An atomic writes a lane's new value: the releases that it read head one release sequence with it (14 R341), and bytes that
stay undefined are so again. -/
def State.atomWrite (s : State) (id : Nat) (f : Flight) (tid new : Nat) (ns : List RelNote) : State :=
  let s := s.writeAs [id] f.place (Machine.place f.loc f.size new)
  let s := s.blur f.place (s.vague f tid (some (f.seenBy tid)))
  let s := (ns.filter fun n => !n.whole).foldr (fun n s => s.putRel f.place n) s
  ((f.makers.filter fun m => m.who = agentOf f.team tid)).foldl (fun s m => s.releasedBy f m) s

/-- One lane's operation at the home: the old value goes to its thread. One that writes nothing is a read, and what a fence lent
to it waits for the thread's next strong write (15 R369). -/
def State.atomLane (s : State) (id : Nat) (f : Flight) (op : Nat) (ecl : Ecl) (o : Nat × Nat × Nat × Nat × Nat) : State :=
  let (_, tid, d, v, v2) := o
  let s := s.blur f.place (s.mixedBytes f tid)
  let ns := s.notesFor f
  let old := s.load f.place f.loc f.size
  let new := atomNew op ecl (8 * f.size) old v v2
  let s := match new with
    | some x => s.atomWrite id f tid x ns
    | none => s.relend f [tid]
  (s.strongNote f tid new.isSome).onThread f.team tid fun t => (t.readDone id f ns).deliver d (f.size / 4) 3 (some old)

/-- Some lane of an atomic writes, given what it finds: a `cas` may write nothing, and is then no release (15 R369). -/
def atomWrites (op : Nat) (ecl : Ecl) (w old : Nat) (ops : List (Nat × Nat × Nat × Nat × Nat)) : Bool :=
  (ops.foldl (fun (a : Nat × Bool) o =>
    match atomNew op ecl w a.1 o.2.2.2.1 o.2.2.2.2 with
    | some new => (new, true)
    | none => a) (old, false)).2

/-- A lane whose atomic reads poison performs nothing (10 R490). DEDUCED (log 20). -/
def State.atomPoison (s : State) (f : Flight) (o : Nat × Nat × Nat × Nat × Nat) : State :=
  let (_, tid, d, _, _) := o
  s.onThread f.team tid fun t =>
    if d = 96 then { t with late := some (detailM f.va 0 3 f.size f.space.code) } else t.deliver d (f.size / 4) 3 none

/-- The destinations of lanes whose atomic has trapped wait no longer, and what fences lent to them is theirs again. -/
def State.atomFree (s : State) (f : Flight) (os : List (Nat × Nat × Nat × Nat × Nat)) : State :=
  (os.foldl (fun s o => s.onThread f.team o.2.1 fun t =>
t.unpend (stackEntries o.2.2.1 (f.size / 4))) s).relend f (os.map (·.2.1))

/-- A peer's answer to an atomic: it performs the lanes one after another, and each receives what the one before it left (15
R369; 22 R466). DESIGN CHOICE (log 17). -/
def State.atomicAnswered (s : State) (id : Nat) (f : Flight) (op : Nat) (ecl : Ecl)
    (ops : List (Nat × Nat × Nat × Nat × Nat)) : State :=
  match s.peerAnswer with
  | (s, .fault c k) => (s.atomFree f ops).wakeTrap id c (fun _ => true) (detailM f.va k 3 f.size 0)
  | (s, .poison) => ((ops.foldl (fun s o => s.atomPoison f o) s).relend f (ops.map (·.2.1))).wake id true
  | (s, .done v) =>
    let w := 8 * f.size
    let (s, _) := ops.foldl (fun (a : State × Nat) o =>
      let (_, tid, d, x, x2) := o
      let s := a.1.onThread f.team tid fun t => t.deliver d (f.size / 4) 3 (some a.2)
      match atomNew op ecl w a.2 x x2 with
      | some new => (s, new)
      | none => (s.relend f [tid], a.2)) (s, v % 2 ^ w)
    (s.acquired f).wake id true

/-- An atomic performed in one step: its lanes in ascending order, nothing between them (15 R369). DEDUCED (log 20). -/
def State.atomicPerformed (s : State) (id : Nat) (f : Flight) (op : Nat) (ecl : Ecl)
    (ops : List (Nat × Nat × Nat × Nat × Nat)) : State :=
  let s : State := { s with flights := s.flights.del id }
  let quiet (s : State) (os : List (Nat × Nat × Nat × Nat × Nat)) : State :=
    os.foldl (fun s o => s.onThread f.team o.2.1 (·.readDone id f [])) s
  if f.remote.isSome then (quiet s ops).atomicAnswered id f op ecl ops
  else
    let bad := ops.filter fun o => (s.overlapHit f o.2.1).isSome
    let good := ops.filter fun o => (s.overlapHit f o.2.1).isNone
    let det := ((bad.head?.bind fun o => s.overlapHit f o.2.1).map (detailOverlap f)).getD 0
    let s := (quiet s bad).atomFree f bad |>.wakeTrap id 17 (fun t => bad.any fun o => o.2.1 = t) det
    if good.isEmpty then s
    else
      let wrote := !s.poisoned f.place f.loc f.size && atomWrites op ecl (8 * f.size) (s.load f.place f.loc f.size) good
      let s := if s.poisoned f.place f.loc f.size then (good.foldl (fun s o => s.atomPoison f o) (quiet s good)).relend f (good.map (·.2.1))
        else good.foldl (fun s o => s.atomLane id f op ecl o) s
      let s := (s.touch true f).overlapNote f ((good.getLast?.map (·.2.1)).getD 0)
      let s := s.acquired f
      (if wrote then s.noteRelease id f else s).wake id true

/-! ## Spills and fills (07 R161, R165) -/

/-- A spill's lanes have moved on and wait; a fill's lanes wait at their `ret` and move now. A spill to a remote address
leaves its lanes at the `call`, which then finds its caller frame spilled. DEDUCED (log 24). -/
def State.windowPerformed (s : State) (id : Nat) (f : Flight) : State :=
  let s : State := { s with flights := s.flights.del id }
  match f.kind with
  | .spill bytes pois =>
    if f.remote.isSome then
      match s.peerAnswer with
      | (s, .fault c k) => s.wakeTrap id c (fun _ => true) (detailM f.va k 5 128 0)
      | (s, _) =>
        (s.waiters id).foldl (fun s w => s.modThread w.1 w.2 fun t =>
          { t with nres := 0, ngl := t.ngl + 1, wait := .none }) s
    else
      let s := (s.writeAs [id] f.place bytes).haze f f.tid true
      let s := if pois then s.poisonRange f.place f.loc f.size else s
      (s.touch true f).wake id false
  | .fill =>
    let back (s : State) (r : List Byte) : State :=
      (s.waiters id).foldl (fun s w => s.modThread w.1 w.2 fun t =>
        { ({ t.fillFrame r with ngl := t.ngl - 1 } : Thread).doRet with wait := .none }) s
    if f.remote.isSome then
      let (i, _) := s.freeIdx
      match s.peerAnswer with
      | (s, .done _) => back s ((List.range 128).map fun j => Config.freeByte (16 * i + j))
      | (s, .poison) => s.wakeTrap id 16 (fun _ => true) (detailM f.va 0 6 128 0)
      | (s, .fault c k) => s.wakeTrap id c (fun _ => true) (detailM f.va k 6 128 0)
    else if s.poisoned f.place f.loc 128 then s.wakeTrap id 16 (fun _ => true) (detailM f.va 0 6 128 0)
    else
      let s := s.blur f.place (s.mixedBytes f f.tid)
      let r := s.bytes f.place f.loc 128
      back (((s.touch true f).l1Return f).l1Return { f with loc := f.loc + 64 }) r
  | _ => s

/-! ## The events -/

/-- LOAD_DATA_RETURN (11 R260). -/
def execLoadDataReturn (id : Nat) (s : State) : Host.Outcome State Fault Refusal :=
  .next (match s.flights.get? id with
    | some f =>
      let ms := s.mates id f
      if s.matesReady ms then
        (s.flights.filter fun (e : Nat × Flight) => ms.contains e.1).foldl (fun s e => s.loadReturn (e.1 = ms.headD id) e.1 e.2) s
      else s
    | none => s)

/-- STORE_PERFORM (10 R237): a store that is no held release. -/
def execStorePerform (id : Nat) (s : State) : Host.Outcome State Fault Refusal :=
  .next (match s.flights.get? id with
    | some f =>
      match f.kind with
      | .store _ => if f.heldRelease then s else s.requestPerformed id f
      | _ => s
    | none => s)

/-- ATOMIC_PERFORM (15 R369): an atomic that is no held release. -/
def execAtomicPerform (id : Nat) (s : State) : Host.Outcome State Fault Refusal :=
  .next (match s.flights.get? id with
    | some f =>
      match f.kind with
      | .atomic op ecl ops => if s.flightReady id && !f.heldRelease then s.atomicPerformed id f op ecl ops else s
      | _ => s
    | none => s)

/-- RELEASE_MARKER_MET (14 R352): a held release takes its place in the home order. -/
def execReleaseMarkerMet (id : Nat) (s : State) : Host.Outcome State Fault Refusal :=
  .next (match s.flights.get? id with
    | some f =>
      if !f.heldRelease then s
      else match f.kind with
        | .store _ => s.requestPerformed id f
        | .atomic op ecl ops => if s.flightReady id then s.atomicPerformed id f op ecl ops else s
        | _ => s
    | none => s)

/-- SPILL_FILL_COMPLETE (07 R165). -/
def execSpillFillComplete (id : Nat) (s : State) : Host.Outcome State Fault Refusal :=
  .next (match s.flights.get? id with
    | some f => if s.flightReady id then s.windowPerformed id f else s
    | none => s)

end Sys2Proof.Machine
end

