-- ==== Sys2Proof/Machine/Results.lean ====
section
/-! DEFINITION. What the arithmetic instructions compute: a result and raised flags from the bits of their operands, once
for both classes (09_compute R204 to R220), and the two ways of executing it (R199, R203; 08_numbers R192). -/

namespace Sys2Proof.Machine

/-- What a step answers. -/
abbrev Answer := Host.Outcome State Fault Refusal

/-- Operands as bits: A, B, C and the old D. -/
structure Src where
  a : Nat
  b : Nat
  c : Nat
  d : Nat
deriving DecidableEq, Repr

/-- Registers that D, A, B and C occupy, and the type under which B reads an immediate (09 R199). -/
structure Shape where
  d : Nat
  a : Nat
  b : Nat
  c : Nat
  bty : Ty
deriving DecidableEq, Repr

/-- Every operand at the type's width. -/
def shapeOf (f : Arith) : Shape := ⟨f.ty.regs, f.ty.regs, f.ty.regs, f.ty.regs, f.ty⟩

/-- A 32-bit B beside operands at the type's width (09 R208, R210). DEDUCED (log 13). -/
def shapeB32 (f : Arith) : Shape := { shapeOf f with b := 1, bty := .b32 }

/-! ## Element by element -/

/-- An integer operation on every element (09 R205). -/
def intMap (t : Ty) (op : Int → Int → Int → Int) (x : Src) : FRes :=
  (joinElems t.slot ((List.range t.elems).map fun i =>
    truncI t.slot (op (intVal t (elem t.slot i x.a)) (intVal t (elem t.slot i x.b)) (intVal t (elem t.slot i x.c)))), 0)

/-- An operation on the bits of every element (09 R207). -/
def bitMap (t : Ty) (op : Nat → Nat → Nat → Nat) (x : Src) : FRes :=
  (joinElems t.slot ((List.range t.elems).map fun i => op t.slot (elem t.slot i x.a) (elem t.slot i x.b)), 0)

/-- A floating-point operation on every element; the raised set is the union (09 R210). -/
def fltMap (t : Ty) (op : Fmt → Nat → Nat → Nat → FRes) (x : Src) : FRes :=
  let rs := (List.range t.elems).map fun i =>
    op t.fmt (elem t.slot i x.a) (elem t.slot i x.b) (elem t.slot i x.c)
  (joinElems t.slot (rs.map (·.1)), rs.foldl (fun m r => m ||| r.2) 0)

/-! ## Integer arithmetic (09 R205, R206) -/

/-- Clamps to the type's range (09 R205). -/
def clampI (t : Ty) (v : Int) : Int := max (intLo t.signed t.slot) (min (intHi t.signed t.slot) v)

/-- `add`, integer or floating point (09 R205, R210). -/
def resAdd (f : Arith) : Src → FRes :=
  if f.ty.isFloat then fltMap f.ty fun m a b _ => m.add f.rm a b else intMap f.ty fun a b _ => a + b
/-- `sub`, integer or floating point (09 R205, R210). -/
def resSub (f : Arith) : Src → FRes :=
  if f.ty.isFloat then fltMap f.ty fun m a b _ => m.sub f.rm a b else intMap f.ty fun a b _ => a - b
/-- `mul`, integer or floating point (09 R205, R210). -/
def resMul (f : Arith) : Src → FRes :=
  if f.ty.isFloat then fltMap f.ty fun m a b _ => m.mul f.rm a b else intMap f.ty fun a b _ => a * b
/-- `mulhi` (09 R205). -/
def resMulhi (f : Arith) : Src → FRes := intMap f.ty fun a b _ => a * b / (2 ^ f.ty.slot : Nat)
/-- `mad` (09 R205). -/
def resMad (f : Arith) : Src → FRes := intMap f.ty fun a b c => a * b + c
/-- `madhi` (09 R205). -/
def resMadhi (f : Arith) : Src → FRes := intMap f.ty fun a b c => a * b / (2 ^ f.ty.slot : Nat) + c
/-- `div` (09 R206, R210). -/
def resDiv (f : Arith) : Src → FRes :=
  if f.ty.isFloat then fltMap f.ty fun m a b _ => m.div f.rm a b
  else intMap f.ty fun a b _ => if b = 0 then -1 else a.tdiv b
/-- `rem` (09 R206, R210). -/
def resRem (f : Arith) : Src → FRes := intMap f.ty fun a b _ => if b = 0 then a else a - a.tdiv b * b
/-- `min`, integer or floating point (09 R205, R211). -/
def resMin (f : Arith) : Src → FRes :=
  if f.ty.isFloat then fltMap f.ty fun m a b _ => m.minmax true a b
  else intMap f.ty fun a b _ => if a ≤ b then a else b
/-- `max`, integer or floating point (09 R205, R211). -/
def resMax (f : Arith) : Src → FRes :=
  if f.ty.isFloat then fltMap f.ty fun m a b _ => m.minmax false a b
  else intMap f.ty fun a b _ => if b ≤ a then a else b
/-- `abs`, integer or floating point (09 R205, R211). -/
def resAbs (f : Arith) : Src → FRes :=
  if f.ty.isFloat then bitMap f.ty fun n a _ => a % 2 ^ (n - 1) else intMap f.ty fun a _ _ => a.natAbs
/-- `neg`, integer or floating point (09 R205, R211). -/
def resNeg (f : Arith) : Src → FRes :=
  if f.ty.isFloat then bitMap f.ty fun n a _ => Nat.xor a (2 ^ (n - 1)) else intMap f.ty fun a _ _ => -a
/-- `adds` (09 R205). -/
def resAdds (f : Arith) : Src → FRes := intMap f.ty fun a b _ => clampI f.ty (a + b)
/-- `subs` (09 R205). -/
def resSubs (f : Arith) : Src → FRes := intMap f.ty fun a b _ => clampI f.ty (a - b)

/-! ## Bits (09 R207, R208) -/

/-- `and` (09 R207). -/
def resAnd (f : Arith) : Src → FRes := bitMap f.ty fun _ a b => Nat.land a b
/-- `or` (09 R207). -/
def resOr (f : Arith) : Src → FRes := bitMap f.ty fun _ a b => Nat.lor a b
/-- `xor` (09 R207). -/
def resXor (f : Arith) : Src → FRes := bitMap f.ty fun _ a b => Nat.xor a b
/-- `not` (09 R207). -/
def resNot (f : Arith) : Src → FRes := bitMap f.ty fun n a _ => 2 ^ n - 1 - a
/-- `shl` (09 R207). -/
def resShl (f : Arith) : Src → FRes := bitMap f.ty fun n a b => if n ≤ b then 0 else a * 2 ^ b
/-- `shr` (09 R207). -/
def resShr (f : Arith) : Src → FRes := bitMap f.ty fun n a b => if n ≤ b then 0 else a / 2 ^ b
/-- `sar` (09 R207). -/
def resSar (f : Arith) : Src → FRes :=
  bitMap f.ty fun n a b => truncI n (signedOf n a / (2 ^ min b n : Nat))
/-- `rot` (09 R207). -/
def resRot (f : Arith) : Src → FRes :=
  bitMap f.ty fun n a b => a * 2 ^ (b % n) % 2 ^ n + a / 2 ^ (n - b % n)

/-- Set bits among the low `n`. -/
def popcount (a : Nat) : Nat → Nat
  | 0 => 0
  | n + 1 => a / 2 ^ n % 2 + popcount a n

/-- Leading zeros among the low `n` bits. -/
def leadZeros (a : Nat) : Nat → Nat
  | 0 => 0
  | n + 1 => if a / 2 ^ n % 2 = 1 then 0 else 1 + leadZeros a n

/-- Bit `i` to bit n - 1 - i. -/
def bitReverse (a : Nat) : Nat → Nat
  | 0 => 0
  | n + 1 => a % 2 * 2 ^ n + bitReverse (a / 2) n

/-- `popc` (09 R207). -/
def resPopc (f : Arith) : Src → FRes := bitMap f.ty fun n a _ => popcount a n
/-- `clz` (09 R207). -/
def resClz (f : Arith) : Src → FRes := bitMap f.ty fun n a _ => leadZeros a n
/-- `ctz` (09 R207). -/
def resCtz (f : Arith) : Src → FRes := bitMap f.ty fun n a _ => leadZeros (bitReverse a n) n
/-- `brev` (09 R207). -/
def resBrev (f : Arith) : Src → FRes := bitMap f.ty fun n a _ => bitReverse a n
/-- `bswp` (09 R207). -/
def resBswp (f : Arith) : Src → FRes := bitMap f.ty fun n a _ => ofBytes (bytesOf a (n / 8)).reverse

/-- `bfx` (09 R208). -/
def resBfx (f : Arith) (x : Src) : FRes :=
  let n := f.ty.slot
  let len := min (x.b / 256 % 256) n
  let v := truncI len (intVal f.ty x.a / (2 ^ (x.b % 256) : Nat))
  (truncI n (if f.ty.signed then signedOf len v else (v : Int)), 0)

/-- `bfi` (09 R208). -/
def resBfi (f : Arith) (x : Src) : FRes :=
  let n := f.ty.slot
  let pos := x.b % 256
  let w := min (pos + x.b / 256 % 256) n - pos
  let field := x.c / 2 ^ pos % 2 ^ w
  (x.c - field * 2 ^ pos + x.a % 2 ^ w * 2 ^ pos, 0)

/-- A + B × 2^sh over 64 bits (09 R209). -/
def resLea (f : Arith) (x : Src) : FRes :=
  (truncI 64 (x.a + intVal f.ty x.b * (2 ^ (f.sub % 8) : Nat)), 0)

/-! ## Floating point (09 R210 to R213) -/

/-- `fma` (09 R210). -/
def resFma (f : Arith) : Src → FRes := fltMap f.ty fun m a b c => m.fma f.rm a b c
/-- `rcp` (09 R212). -/
def resRcp (f : Arith) : Src → FRes := fltMap f.ty fun m a _ _ => m.rcp f.rm a
/-- `rsq` (09 R212). -/
def resRsq (f : Arith) : Src → FRes := fltMap f.ty fun m a _ _ => m.rsq f.rm a
/-- `sqrt` (09 R212). -/
def resSqrt (f : Arith) : Src → FRes := fltMap f.ty fun m a _ _ => m.sqrt f.rm a
/-- `exp2` (09 R212). -/
def resExp2 (f : Arith) : Src → FRes := fltMap f.ty fun m a _ _ => m.exp2 f.rm a
/-- `log2` (09 R212). -/
def resLog2 (f : Arith) : Src → FRes := fltMap f.ty fun m a _ _ => m.log2 f.rm a
/-- `sin` (09 R212). -/
def resSin (f : Arith) : Src → FRes := fltMap f.ty fun m a _ _ => m.sin f.rm a
/-- `cos` (09 R212). -/
def resCos (f : Arith) : Src → FRes := fltMap f.ty fun m a _ _ => m.cos f.rm a
/-- `tanh` (09 R212). -/
def resTanh (f : Arith) : Src → FRes := fltMap f.ty fun m a _ _ => m.tanh f.rm a
/-- `frnd` (09 R213). -/
def resFrnd (f : Arith) : Src → FRes := fltMap f.ty fun m a _ _ => m.frnd f.rm a

/-- The class mask is 32 bits wide, or 16 bits an element under a packed type (09 R213). -/
def resFcls (f : Arith) (x : Src) : FRes :=
  if f.ty.slot = 16 then fltMap f.ty (fun m a _ _ => (m.fcls a, 0)) x else (f.ty.fmt.fcls x.a, 0)

/-- `csgn` (09 R211). -/
def resCsgn (f : Arith) : Src → FRes :=
  bitMap f.ty fun n a b => a % 2 ^ (n - 1) + b / 2 ^ (n - 1) % 2 * 2 ^ (n - 1)

/-- B is a signed integer: 32 bits, or element by element under a packed type (09 R210). DEDUCED (log 13). -/
def resScl (f : Arith) (x : Src) : FRes :=
  if f.ty.slot = 16 then fltMap f.ty (fun m a b _ => m.scl f.rm a (signedOf 16 b)) x
  else f.ty.fmt.scl f.rm x.a (signedOf 32 x.b)

/-- `dp2` (09 R210). -/
def resDp2 (f : Arith) (x : Src) : FRes :=
  if f.ty.isFloat then f.ty.fmt.dp2 f.rm x.a x.b x.c
  else
    let c : Int := if f.ty.signed then signedOf 32 x.c else x.c
    (truncI 32 (intVal f.ty (elem 16 0 x.a) * intVal f.ty (elem 16 0 x.b)
      + intVal f.ty (elem 16 1 x.a) * intVal f.ty (elem 16 1 x.b) + c), 0)

/-! ## Comparison, selection, conversion (09 R214 to R220) -/

/-- The conditions of `cmp` (09 R216). -/
inductive Cond where
  | eq | ne | lt | le | gt | ge | num | nan
deriving DecidableEq, Repr

/-- The truth of a condition for an order, `none` when a NaN takes part. -/
def Cond.holds (c : Cond) (o : Option Ordering) : Bool :=
  match c, o with
  | .eq, some o => o = .eq
  | .ne, some o => o ≠ .eq
  | .ne, none => true
  | .lt, some o => o = .lt
  | .le, some o => o ≠ .gt
  | .gt, some o => o = .gt
  | .ge, some o => o ≠ .lt
  | .num, some _ => true
  | .nan, none => true
  | _, _ => false

/-- An ordered condition also raises INV for a quiet NaN (09 R216). -/
def Cond.ordered (c : Cond) : Bool := c = .lt || c = .le || c = .gt || c = .ge

/-- Element 0 of each source is compared (09 R216). -/
def resCmp (c : Cond) (f : Arith) (x : Src) : FRes :=
  let n := f.ty.slot
  let a := elem n 0 x.a
  let b := elem n 0 x.b
  if f.ty.isFloat then
    let u := f.ty.fmt.decode a
    let v := f.ty.fmt.decode b
    let o := if u.isNan || v.isNan then none else some (u.cmp v)
    (if c.holds o then 1 else 0,
      if u.isSnan || v.isSnan || (c.ordered && o.isNone) then flagINV else 0)
  else (if c.holds (some (compare (intVal f.ty a) (intVal f.ty b))) then 1 else 0, 0)

/-- A where the condition holds, B where it does not (09 R215). -/
def resSel (x : Src) : FRes := (if x.c ≠ 0 then x.a else x.b, 0)

/-- `mov` (09 R214). -/
def resMov (x : Src) : FRes := (x.a, 0)

/-- The value of an element under a source type. -/
def convert (t s : Ty) (rm : Rm) (rnd x : Nat) : FRes :=
  if s = .e8m0 then fmt32.convert rm 0 (fromE8m0 x)
  else if t = .e8m0 then toE8m0 rm rnd (fmt32.decode x)
  else if s.isFloat then
    (if t.isFloat then t.fmt.convert rm rnd (s.fmt.decode x) else (s.fmt.decode x).toInt rm t.signed t.slot)
  else
    let v := intVal s x
    if t.isFloat then t.fmt.convert rm rnd (.fin (v < 0) v.natAbs 0) else (truncI t.slot (clampI t v), 0)

/-- `cvt` (09 R219): one element to one element. -/
def resCvt (f : Arith) (x : Src) : FRes :=
  let ws := f.sty.slot
  let wd := f.ty.slot
  let i := if ws ≤ wd ∧ ws < 32 then f.sub % 8 else 0
  let j := if wd ≤ ws ∧ wd < 32 then f.sub % 8 else 0
  let r := convert f.ty f.sty f.rm (x.b / 256 ^ j % 256) (elem ws i x.a)
  if wd < 32 then (setElem wd j x.d r.1, r.2) else r

/-- `pack` (09 R220). -/
def resPack (f : Arith) (x : Src) : FRes :=
  if f.ty = .b16 then (x.a % 2 ^ 16 + x.b % 2 ^ 16 * 2 ^ 16, 0)
  else (joinElems 6 ((List.range 16).map fun i => elem 8 i x.a), 0)

/-- `unpk` (09 R220). -/
def resUnpk (x : Src) : FRes := (joinElems 8 ((List.range 16).map fun i => elem 6 i x.a), 0)

/-! ## The two classes -/

/-- Adds raised flags to every lane that executes (09 R203). -/
def Group.flagActive (g : Group) (k : Cursor) (raised : Word) : Group :=
  (lanesOf k.active).foldl (fun g l => g.modThread l fun t => t.flags raised) g

/-- Class 0b00: once for the group; an enabled flag traps every lane and writes nothing (09 R199, R203). -/
def scalarIssue (w : Shape) (res : Src → FRes) (f : Arith) (k : Cursor) (s : State) : State :=
  let g := s.group k.gk
  if guardG g f.h k then
    let r := res ⟨groupVal g f.ty w.a f.a, groupVal g w.bty w.b f.b, groupVal g f.ty w.c f.c, groupVal g f.ty w.d f.d⟩
    if fpTraps g.fpen r.2 then s.finish k ((lanesOf k.active).map fun l => fpTrap l r.2)
    else ({ s with groups := s.groups.put k.gk (((g.write w.d f.d r.1).flagActive k r.2).advanceActive k) }).finish k []
  else ({ s with groups := s.groups.put k.gk (g.advanceActive k) }).finish k []

/-- Class 0b01 in one lane: an enabled flag traps the lane, which writes nothing (08 R192; 09 R199). -/
def laneArith (w : Shape) (res : Src → FRes) (f : Arith) (handler : Bool) (g : Group) (l : Nat) (t : Thread) : LaneOut :=
  let v (ty : Ty) (n : Nat) (o : Operand) : Nat := laneVal g t handler ty n o
  let r := res ⟨v f.ty w.a f.a, v w.bty w.b f.b, v f.ty w.c f.c, v f.ty w.d f.d⟩
  if fpTraps g.fpen r.2 then .trap 18 (fpTrap l r.2).det
  else .next ((t.write handler w.d f.d r.1).flags r.2)

/-- A class 0b00 instruction. -/
def scalarOp (w : Shape) (res : Src → FRes) (f : Arith) (s : State) : Answer := withIssuer s (scalarIssue w res f)

/-- A class 0b01 instruction of mode L. -/
def vectorOp (w : Shape) (res : Src → FRes) (f : Arith) (s : State) : Answer :=
  withIssuer s fun k s => laneMode f.h (laneArith w res f k.handler) k s

end Sys2Proof.Machine
end

