-- ==== Sys2Proof/Machine/Loads.lean ====
section
/-! DEFINITION. The memory instructions (11_memory_ops R258 to R267): loads and stores of a lane and of the group, `ld.nr`,
prefetches, page requests, `cinv` and `cdem`. Loads in `.gl`, `.ks` and `.xs` and all stores there go in flight; accesses
in `.sp` and `.ln` are performed at once. Inside a transaction they are buffered (15 R373). -/

namespace Sys2Proof.Machine

/-! ## Requests -/

/-- The address that a lane forms (05 R125). -/
def laneAddr (g : Group) (t : Thread) (handler : Bool) (f : MemF) : Nat :=
  effAddr f.space (laneVal g t handler .b64 (baseRegs f.space) f.a) f.ofs

/-- The address that the group forms. -/
def groupAddr (g : Group) (f : MemF) : Nat := effAddr f.space (groupVal g .b64 (baseRegs f.space) f.a) f.ofs

/-- What an access needs: in a transaction both permissions (10 R246). -/
def needOf (t : Thread) (n : Need) : Need := if t.tx.act then .both else n

/-- The requests of the lanes of C. -/
def laneReqs (g : Group) (k : Cursor) (f : MemF) (size : Nat) (n : Need) (kind : Nat) : List Req :=
  (guarded g f.h k).filterMap fun l => (g.lanes.get? l).map fun t =>
    { lane := l, tid := t.tid, space := f.space, addr := laneAddr g t k.handler f, size := size, need := needOf t n
      kind := kind }

/-- The lane for which a group-uniform access is checked: one in a transaction where there is one, else the lowest of `active`. -/
def leadLane (g : Group) (k : Cursor) : Nat :=
  ((lanesOf k.active).find? fun l => (g.lanes.get? l).any (·.tx.act)).getD ((lanesOf k.full).headD 0)

/-- The request of a group-uniform access. -/
def groupReq (g : Group) (k : Cursor) (f : MemF) (size : Nat) (n : Need) (kind : Nat) : Req :=
  let t := (g.lanes.get? (leadLane g k)).getD {}
  { lane := leadLane g k, tid := t.tid, space := f.space, addr := groupAddr g f, size := size, need := needOf t n, kind := kind }

/-- The access is strong (14 R338). -/
def isStrong (f : MemF) : Bool := f.ord ≠ .plain

/-- Holds that a checked access must wait for before it issues: bytes of a local level in flight or in a footprint.
DEDUCED (log 16). -/
def State.locHolds (s : State) (gk : Nat) (short wr : Bool) (r : Req) (c : Checked) : Bool :=
  match c with
  | .ok loc _ _ =>
    let core := coreOf gk
    (short && s.padBusy core loc r.size) ||
      ((r.space = .sp || r.space = .ks) && s.footHolds core (s.group gk).team .pad loc r.size wr)
  | _ => false

/-- The threads to whose transactions an access in flight belongs. -/
def Flight.txTids (f : Flight) : List Nat :=
  if !f.tx then []
  else match f.kind with
    | .loadScalar _ _ _ _ txs => txs
    | _ => [f.tid]

/-- Holds on a lane's thread: an acquire in flight, or a transactional store or end behind its own loads in flight. -/
def State.threadHolds (s : State) (gk l : Nat) (txWait : Bool) : Bool :=
  let g := s.group gk
  let t := s.thread gk l
  s.acquiring g.team t.tid gk ||
    (txWait && t.tx.act && s.flights.any fun (e : Nat × Flight) => e.2.team = g.team && e.2.txTids.contains t.tid)

/-- A strong write waits while an atomic that holds what a fence lent to its thread may yet write nothing (14 R342; 15 R369).
DEDUCED (log 22). -/
def State.lendHolds (s : State) (gk : Nat) (ls : List Nat) : Bool :=
  let g := s.group gk
  s.flights.any fun (e : Nat × Flight) => e.2.team = g.team &&
    (match e.2.kind with | .atomic .. => true | _ => false) &&
    e.2.lent.any fun x => ls.any fun l => (s.thread gk l).tid = x.1

/-! ## Capacity of a transaction (15 R373, R374) -/

/-- The lines in the read and write sets of a group, the loads in flight of its transactions included. -/
def State.txLines (s : State) (gk : Nat) : List Nat :=
  let g := s.group gk
  let sets : List Nat := g.lanes.flatMap fun (e : Nat × Thread) =>
    if e.2.tx.act then (e.2.tx.rset.map fun w => w.1 / 32) ++ e.2.tx.wset.map fun b => b.1 / 128 else []
  let waiting : List Nat := (s.flights.filter fun (e : Nat × Flight) => e.2.gk = gk &&
    g.lanes.any fun (l : Nat × Thread) => l.2.tx.act && e.2.txTids.contains l.2.tid).map fun (e : Nat × Flight) => e.2.loc / 128
  (sets ++ waiting).dedup

/-- Lanes whose new lines do not fit abort in ascending order until the rest fit; the lanes that remain, after those kept before.
DEDUCED (log 21). -/
def State.txKeep (s : State) (gk : Nat) (kept : List (Nat × Nat)) : List (Nat × Nat) → State × List (Nat × Nat)
  | [] => (s, kept)
  | e :: rest =>
    let held := s.txLines gk
    if ((held ++ (kept ++ e :: rest).map (·.2)).dedup).length ≤ 64 then (s, kept ++ e :: rest)
    else if held.contains e.2 then s.txKeep gk (kept ++ [e]) rest
    else (s.txAbort gk e.1 4).txKeep gk kept rest

/-- The lanes whose transactional accesses, each with its line, fit (15 R374). -/
def State.txFit (s : State) (gk : Nat) (ls : List (Nat × Nat)) : State × List (Nat × Nat) := s.txKeep gk [] ls

/-- A group-uniform access of lanes in transactions: a remote one aborts them, and those whose line does not fit abort; the
access is then made for the others (15 R373, R374; 22 R467). -/
def State.groupTx (s : State) (k : Cursor) (c : Checked) : State × Cursor :=
  let acts := (lanesOf k.active).filter fun l => (s.thread k.gk l).tx.act
  if acts.isEmpty then (s, k)
  else
    let (s, kept) := match c with
      | .ok loc _ _ => s.txFit k.gk (acts.map fun l => (l, loc / 128))
      | _ => (acts.foldl (fun s l => s.txAbort k.gk l 5) s, [])
    let gone := acts.filter fun l => !(kept.any fun e => e.1 = l)
    (s, { k with active := k.active &&& ~~~(maskOf gone) })

/-! ## Flights of an instruction -/

/-- Where an access goes: its location, its run, its home slice, and the link-map entry of a remote one. -/
def Checked.target (c : Checked) (addr : Nat) : Nat × (Nat × Nat) × Nat × Option Nat :=
  match c with
  | .ok loc run slice => (loc, run, slice, none)
  | .remote i => (addr, (0, 0), 0, some i)
  | _ => (0, (0, 0), 0, none)

/-- An access in flight for an instruction, made by the threads in lanes `ls`; a remote strong access acts at system scope (22
R467). -/
def memFlight (f : MemF) (s : State) (gk : Nat) (ls : List Nat) (tid : Nat) (r : Req) (c : Checked) (tx : Bool)
    (lent : List (Nat × Scope)) (kind : FlightKind) : Flight :=
  let g := s.group gk
  let (loc, run, slice, remote) := c.target r.addr
  let scope := if remote.isSome && isStrong f then Scope.system else lent.foldl (fun m e => widerScope m e.2) f.sco
  { kind := kind, core := coreOf gk, gk := gk, team := g.team, tid := tid, ck := s.ckOf g, space := f.space, loc := loc
    size := r.size, va := r.addr, strong := isStrong f, scope := scope
    acq := f.ord = .acq || f.ord = .ar || f.ord = .rp
    rel := f.ord = .rel || f.ord = .ar || !lent.isEmpty
    promote := f.ord = .rp, tx := tx, remote := remote, run := run, slice := slice, lent := lent
    acqOwn := f.ord = .acq || f.ord = .ar || f.ord = .rp
    makers := ls.map (s.makerOf gk (f.ord = .rel || f.ord = .ar) lent), seq := s.nextId
    chk := isStrong f && f.space = .gl && remote.isNone && (s.ctx (s.ckOf g)).ovUsed }

/-- The lanes of this access wait at the instruction: remote (22 R466), or strong under the overlap check (14 R348).
DEDUCED (log 16). -/
def Flight.waits (f : Flight) : Bool := f.remote.isSome || f.chk

/-- The request that goes to a peer, with an atomic's operation, class and operands by lane; a release carries the count of the
writes that its core has sent there before it (14 R352; 22 R466). DESIGN CHOICE (log 17). -/
def State.sendRemote (s : State) (f : Flight) (kind : Nat) (data : List Byte) : State :=
  match f.remote with
  | some i =>
    let peer := lmapPeer ((s.ctx f.ck).lmap.read 0 i)
    let r : RemoteReq :=
      { fn := 0, ctx := 0, va := BitVec.ofNat 64 f.va, size := f.size, kind := kind, core := f.core
        marker := if f.rel then some (s.peerSent.read 0 (256 * f.core + peer)) else none }
    s.sendPeer f.ck i false (match f.kind with
      | .atomic op ecl ops => { r with op := op, ecl := ecl, ops := ops.map fun o => (o.2.2.2.1, o.2.2.2.2) }
      | .spill _ p => { r with data := data, poi := p }
      | _ => { r with data := data })
  | none => s

/-- An access may hit the L1: in `.gl`, not remote, not transactional, not a wide strong access, not under the overlap
check (14 R348, R349), and behind no load or held release of its own thread in flight to its bytes (14 R339, R352). -/
def State.mayHit (s : State) (f : Flight) : Bool :=
  f.space = .gl && f.remote.isNone && !f.tx && !(f.strong && f.scope.wide) && !f.waits &&
    (s.mixedBytes f f.tid).isEmpty && !(s.flights.any fun (e : Nat × Flight) => e.2.core = f.core && (!e.2.writes || e.2.heldRelease) && !e.2.isPrefetch &&
      e.2.place = .mem && e.2.remote.isNone && f.sameThread e.2 && meetBytes f.loc f.size e.2.loc e.2.size)

/-- A load that the L1 answers. -/
def State.l1Hits (s : State) (f : Flight) : Bool := s.mayHit f && ((s.core f.core).l1Sector f.loc).isSome

/-- The L1 misses on a line, once for an instruction (06 R143; 10 R236). -/
def State.l1Missed (s : State) (f : Flight) : State :=
  if f.req ≠ 0 && s.flights.any fun (e : Nat × Flight) => e.2.req = f.req && e.2.remote.isNone && e.2.loc / 128 = f.loc / 128 then s
  else s.modCore f.core (·.l1Miss (f.loc / 128) (slotOf f.gk))

/-- The releases that a load which the L1 answers returns: that of the last store of its core to its bytes in flight, else those
of its core that stand at the home (14 R341, R349). DEDUCED (log 47). -/
def State.l1Notes (s : State) (f : Flight) : List RelNote :=
  if !f.strong then []
  else match (s.flights.filter fun (e : Nat × Flight) => e.2.core = f.core && e.2.writes && e.2.place = .mem &&
      e.2.remote.isNone && meetBytes f.loc f.size e.2.loc e.2.size).getLast? with
    | some (_, e) =>
      if e.loc = f.loc && e.size = f.size then (({ s with rels := [] } : State).releases e).notesFor f else []
    | none => (s.notesFor f).filter fun n => n.core = f.core

/-- Issues an access to the L1: the value it finds there, or a miss (06 R143; 10 R236). -/
def State.l1Look (s : State) (f : Flight) : State × Option Nat :=
  if !s.mayHit f then
    let s := if f.space = .gl && f.remote.isNone then s.modCore f.core (·.l1DropSector f.loc) else s
    (if f.acq && f.scope.wide then s.modCore f.core Core.l1Clear else s, none)
  else match (s.core f.core).l1Sector f.loc with
    | some d => ((s.strongNote f f.tid false).modCore f.core (·.l1Use f.loc), some (ofBytes ((d.drop (f.loc % 64)).take f.size)))
    | none => (s.l1Missed f, none)

/-! ## Loads -/

/-- The access of one lane's load, with the number of its instruction's requests. -/
def State.loadFlight (s : State) (k : Cursor) (f : MemF) (flag q : Nat) (r : Req) (c : Checked) : Flight :=
  let t := s.thread k.gk r.lane
  { memFlight f s k.gk [r.lane] t.tid r c t.tx.act [] (.load (t.destEntry k.handler f.d) f.size.regs f.size flag f.rd.toNat) with req := q }

/-- The loads that the L1 does not answer: they need requests (10 R236). -/
def State.loadMisses (s : State) (k : Cursor) (f : MemF) (flag : Nat) (rs : List (Req × Checked)) : List (Req × Checked) :=
  rs.filter fun rc => !s.l1Hits (s.loadFlight k f flag 0 rc.1 rc.2)

/-- One lane's load after its checks, with the number of its instruction's requests. DEDUCED (log 16). -/
def State.loadLane (s : State) (k : Cursor) (f : MemF) (flag q : Nat) (r : Req) (c : Checked) : State × List Trap :=
  let t := s.thread k.gk r.lane
  let n := f.size.regs
  let step (s : State) (u : Thread → Thread) : State := s.modThread k.gk r.lane fun t => { u t with lpc := t.lpc + 1 }
  match c with
  | .trap cls det =>
    if flag ≠ 0 && cls = 4 then (step s fun t => (t.write k.handler n f.d 0).setPred flag true, [])
    else (s, [⟨r.lane, cls, det⟩])
  | .wait => (s, [])
  | c =>
    if (f.space = .sp || f.space = .ln) then
      match c with
      | .ok loc _ _ =>
        if s.poisoned .pad loc r.size then (s, [⟨r.lane, 16, detailM r.addr 0 1 r.size f.space.code⟩])
        else
          let fl := s.loadFlight k f flag q r c
          let ns := s.notesFor fl
          let s := s.strongHere fl
          (step s fun t => (t.write k.handler n f.d (loadValue f.size (s.load .pad loc r.size))).tookFrom fl ns, [])
      | _ => (s, [])
    else
      let tx := t.tx.act
      if tx && (match c with | .remote _ => true | _ => false) then (s.txAbort k.gk r.lane 5, [])
      else
        let fl := s.loadFlight k f flag q r c
        let ns := s.l1Notes fl
        match s.l1Look fl with
        | (s, some v) =>
          (step s fun t =>
            let t := (t.write k.handler n f.d (loadValue f.size v)).tookFrom fl ns
            if flag = 0 then t else t.setPred flag false, [])
        | (s, none) =>
          let waits := fl.waits
          let (s, id) := s.launchFlight fl
          let s := s.sendRemote fl 0 []
          let s := s.modThread k.gk r.lane fun t => if isStrong f then { t with strongRead := some id } else t
          let s := s.modThread k.gk r.lane fun t =>
            let t := t.hold k.handler n f.d
            if flag = 0 then t else t.hold k.handler 1 (.pred flag)
          if waits then (s.modThread k.gk r.lane fun t => { t with wait := .window id }, []) else (step s fun t => t, [])

/-- Lanes outside C only advance (05 R112). -/
def State.advanceOthers (s : State) (k : Cursor) (cs : List Nat) : State :=
  s.modGroup k.gk fun g => g.advanceAll ((lanesOf k.active).filter fun l => !cs.contains l)

/-- Runs a list of lanes' accesses, collecting traps. -/
def runLanes (step : State → Req → Checked → State × List Trap) :
    List (Req × Checked) → State → State × List Trap
  | [], s => (s, [])
  | (r, c) :: rest, s =>
    let (s, t) := step s r c
    let (s, ts) := runLanes step rest s
    (s, t ++ ts)

/-- A load by lanes (11 R260, R263). -/
def loadLanes (f : MemF) (flag : Nat) (k : Cursor) (s : State) : State :=
  let g := s.group k.gk
  let cs := guarded g f.h k
  if f.space = .gl && !s.withinCap k.gk then s.setThr (s.ckOf g) 4
  else if cs.any fun l => s.threadHolds k.gk l false then s
  else match s.checkAll k.gk (laneReqs g k f f.size.bytes .read 1) with
    | (s, none) => s
    | (s, some rs) =>
      let rs := rs.map fun rc => (rc.1, rc.2.watched k.handler (s.thread k.gk rc.1.lane) rc.1)
      if (rs.any fun rc => s.locHolds k.gk (f.space = .sp || f.space = .ln) false rc.1 rc.2)
          || (f.space = .gl && !s.hasRequests (coreOf k.gk) (requestCount 64 (s.loadMisses k f flag rs))) then s
      else
        let s := s.takeReplies k.gk
        let txs := rs.filterMap fun rc =>
          match rc.2 with
          | .ok loc _ _ => if (s.thread k.gk rc.1.lane).tx.act then some (rc.1.lane, loc / 128) else none
          | _ => none
        let (s, kept) := s.txFit k.gk txs
        let gone := (txs.map (·.1)).filter fun l => !(kept.any fun e => e.1 = l)
        let (q, s) := s.fresh
        let (s, ts) := runLanes (fun s r c => s.loadLane k f flag q r c) (rs.filter fun rc => !gone.contains rc.1.lane) s
        (s.advanceOthers k cs).finish k ts

/-- Threads of `active` whose watchpoint a group-uniform access meets. DEDUCED (log 12). -/
def State.watchAll (s : State) (k : Cursor) (r : Req) : List Trap :=
  if r.space ≠ .gl then []
  else (lanesOf k.active).filterMap fun l =>
    ((s.thread k.gk l).watchHit k.handler r.kind r.addr r.size).map fun c => ⟨l, 20, detailM r.addr c r.kind r.size 0⟩

/-- The access of the group's load. It belongs to the transaction of every lane that is in one, and the lowest of them returns its
own buffered bytes. DEDUCED (log 21). -/
def State.groupLoadFlight (s : State) (k : Cursor) (f : MemF) (r : Req) (c : Checked) : Flight :=
  let txs := ((lanesOf k.active).filter fun l => (s.thread k.gk l).tx.act).map fun l => (s.thread k.gk l).tid
  memFlight f s k.gk (lanesOf k.active) (groupTid k.gk) r c (!txs.isEmpty) []
    (.loadScalar ((scalOf f.d).getD 384) f.size.regs f.size f.rd.toNat txs)

/-- The lanes of `active` have made a read as one that is answered at once (14 R341, R342). -/
def State.tookAll (s : State) (k : Cursor) (f : Flight) (ns : List RelNote) : State :=
  (lanesOf k.active).foldl (fun s l => s.modThread k.gk l (·.tookFrom f ns)) s

/-- The detail of a remote access whose link does not work, for the lanes that are in no transaction (22 R466, R467). -/
def State.linkTrap (s : State) (k : Cursor) (c : Checked) (r : Req) : Option QWord :=
  match c with
  | .remote i => if s.peerUp (s.ckOf (s.group k.gk)) i then none else some (detailM r.addr 6 r.kind r.size r.space.code)
  | _ => none

/-- A load by the group (11 R260): one address, and a failure traps every lane (10 R226). -/
def loadGroup (f : MemF) (k : Cursor) (s : State) : State :=
  let g := s.group k.gk
  let act := lanesOf k.active
  if f.space = .gl && !s.withinCap k.gk then s.setThr (s.ckOf g) 4
  else if !guardG g f.h k then groupMode f.h id k s
  else if act.any fun l => s.threadHolds k.gk l false then s
  else
    let r := groupReq g k f f.size.bytes .read 1
    match s.check k.gk r with
    | (s, .wait) => s
    | (s, .trap c d) => trapAll k c d (s.takeReplies k.gk)
    | (s, c) =>
      let ws := s.watchAll k r
      let n := f.size.regs
      if !ws.isEmpty then (s.takeReplies k.gk).finish k ws
      else if s.locHolds k.gk (f.space = .sp) false r c ||
          (f.space = .gl && !s.l1Hits (s.groupLoadFlight k f r c) && !s.hasRequests (coreOf k.gk) 1) then s
      else
        let s := s.takeReplies k.gk
        match f.space, c with
        | .sp, .ok loc _ _ =>
          if s.poisoned .pad loc r.size then trapAll k 16 (detailM r.addr 0 1 r.size 1) s
          else
            let fl := s.groupLoadFlight k f r c
            let ns := s.notesFor fl
            let s := (s.strongHere fl).tookAll k fl ns
            (s.modGroup k.gk fun g =>
              (g.write n f.d (loadValue f.size (s.load .pad loc r.size))).advanceActive k).finish k []
        | _, c =>
          let (s, k) := s.groupTx k c
          let act := lanesOf k.active
          if act.isEmpty then s.finish k []
          else match s.linkTrap k c r with
            | some d => trapAll k 3 d s
            | none =>
              let fl := s.groupLoadFlight k f r c
              let ns := s.l1Notes fl
              match s.l1Look fl with
              | (s, some v) =>
                ((s.tookAll k fl ns).modGroup k.gk fun g => (g.write n f.d (loadValue f.size v)).advanceActive k).finish k []
              | (s, none) =>
                let waits := fl.waits
                let (s, id) := s.launchFlight fl
                let s := s.sendRemote fl 0 []
                let s := if isStrong f then act.foldl (fun s l => s.modThread k.gk l fun t => { t with strongRead := some id }) s else s
                let s := s.modGroup k.gk (·.hold n f.d)
                if waits then (act.foldl (fun s l => s.modThread k.gk l fun t => { t with wait := .window id }) s).finish k []
                else (s.modGroup k.gk (·.advanceActive k)).finish k []

/-! ## Stores -/

/-- The bytes that a lane writes less those that a higher lane of the instruction writes (11 R261). DEDUCED (log 15). -/
def winBytes (mine : Tbl Byte) (higher : List (Tbl Byte)) : Tbl Byte :=
  mine.filter fun b => !(higher.any fun h => h.any fun c => c.1 = b.1)

/-- What fences have lent to the threads of lanes, for a strong write. DEDUCED (log 22). -/
def State.lentBy (s : State) (gk : Nat) (ls : List Nat) (strong : Bool) : List (Nat × Scope) :=
  if strong then ls.filterMap fun l => (s.thread gk l).fenceRel.map fun c => ((s.thread gk l).tid, c) else []

/-- Buffers a transaction's store (15 R373), with the run that translated it (10 R250). -/
def Thread.txBuffer (t : Thread) (loc slice : Nat) (run : Nat × Nat) (bytes : Tbl Byte) : Thread :=
  { t with tx := { t.tx with
    wset := bytes.foldl (fun m b => m.put b.1 b.2) t.tx.wset
    homes := t.tx.homes.put (loc / 128) slice
    runs := t.tx.runs.put (loc / 128) run } }

/-- One lane's store after its checks, with the number of its instruction's requests and the bytes that it writes.
DEDUCED (log 16). -/
def State.storeLane (s : State) (k : Cursor) (f : MemF) (q : Nat) (bytes : Nat → Tbl Byte) (r : Req) (c : Checked) :
    State × List Trap :=
  let t := s.thread k.gk r.lane
  let step (s : State) (u : Thread → Thread) : State := s.modThread k.gk r.lane fun t => { u t with lpc := t.lpc + 1 }
  match c with
  | .trap cls det => (s, [⟨r.lane, cls, det⟩])
  | .wait => (s, [])
  | c =>
    let mine := bytes r.lane
    let fl : Flight := { memFlight f s k.gk [r.lane] t.tid r c t.tx.act (s.lentBy k.gk [r.lane] (isStrong f)) (.store mine) with req := q }
    let s := if isStrong f then s.modThread k.gk r.lane fun t => { t with fenceRel := none } else s
    if t.tx.act then
      match c with
      | .remote _ => (s.txAbort k.gk r.lane 5, [])
      | _ => (step s fun t => t.txBuffer fl.loc fl.slice fl.run mine, [])
    else if (f.space = .sp || f.space = .ln) && !fl.heldRelease then
      (step (((s.write .pad mine).strongHere fl).releases fl) id, [])
    else
      let waits := fl.waits
      let s := if f.space = .gl && !waits then s.modCore fl.core (·.l1Store mine) else s
      let (s, id) := s.launchFlight fl
      let s := s.sendRemote fl 1 (mine.map (·.2))
      if waits then (s.modThread k.gk r.lane fun t => { t with wait := .window id }, []) else (step s fun t => t, [])

/-- The value that a lane stores: the low bytes of B. DEDUCED (log 15). -/
def storeBytes (loc size v : Nat) : Tbl Byte := place loc size v

/-- A store by lanes (11 R260, R261). -/
def storeLanes (f : MemF) (k : Cursor) (s : State) : State :=
  let g := s.group k.gk
  let cs := guarded g f.h k
  if (cs.any fun l => s.threadHolds k.gk l true) || (isStrong f && s.lendHolds k.gk cs) then s
  else match s.checkAll k.gk (laneReqs g k f f.size.bytes .write 2) with
    | (s, none) => s
    | (s, some rs) =>
      let rs := rs.map fun rc => (rc.1, rc.2.watched k.handler (s.thread k.gk rc.1.lane) rc.1)
      if (rs.any fun rc => s.locHolds k.gk (f.space = .sp || f.space = .ln) true rc.1 rc.2)
          || (f.space = .gl && !s.hasRequests (coreOf k.gk)
            (requestCount 128 (rs.filter fun rc => !(s.thread k.gk rc.1.lane).tx.act))) then s
      else
        let s := s.takeReplies k.gk
        let val (l : Nat) : Nat :=
          match g.lanes.get? l with
          | some t => laneVal g t k.handler .b32 f.size.regs f.b
          | none => 0
        let locs := rs.filterMap fun rc =>
          match rc.2 with
          | .ok loc _ _ => some (rc.1.lane, loc)
          | .remote _ => some (rc.1.lane, rc.1.addr)
          | _ => none
        let act (l : Nat) : Bool := (g.lanes.get? l).any (·.tx.act)
        let whole (l : Nat) : Tbl Byte :=
          match locs.find? fun e => e.1 = l with
          | some (_, loc) => storeBytes loc f.size.bytes (val l)
          | none => []
        let bytes (l : Nat) : Tbl Byte :=
          winBytes (whole l) ((locs.filter fun e => l < e.1 && !act e.1 && !act l).map fun e => whole e.1)
        let txs := rs.filterMap fun rc =>
          match rc.2 with
          | .ok loc _ _ => if act rc.1.lane then some (rc.1.lane, loc / 128) else none
          | _ => none
        let (s, kept) := s.txFit k.gk txs
        let gone := (txs.map (·.1)).filter fun l => !(kept.any fun e => e.1 = l)
        let (q, s) := s.fresh
        let (s, ts) := runLanes (fun s r c => s.storeLane k f q bytes r c) (rs.filter fun rc => !gone.contains rc.1.lane) s
        (s.advanceOthers k cs).finish k ts

/-- A store by the group is buffered in each of its lanes that is in a transaction (15 R373); it is made for the others. DEDUCED
(log 21). -/
def State.groupBuffer (s : State) (k : Cursor) (c : Checked) (mine : Tbl Byte) : State × Cursor :=
  let acts := (lanesOf k.active).filter fun l => (s.thread k.gk l).tx.act
  match c with
  | .ok loc run slice =>
    (acts.foldl (fun s l => s.modThread k.gk l fun t => { t.txBuffer loc slice run mine with lpc := t.lpc + 1 }) s,
      { k with active := k.active &&& ~~~(maskOf acts) })
  | _ => (s, k)

/-- A store by the group (11 R260). -/
def storeGroup (f : MemF) (k : Cursor) (s : State) : State :=
  let g := s.group k.gk
  let act := lanesOf k.active
  if !guardG g f.h k then groupMode f.h id k s
  else if (act.any fun l => s.threadHolds k.gk l true) || (isStrong f && s.lendHolds k.gk act) then s
  else
    let r := groupReq g k f f.size.bytes .write 2
    match s.check k.gk r with
    | (s, .wait) => s
    | (s, .trap c d) => trapAll k c d (s.takeReplies k.gk)
    | (s, c) =>
      let ws := s.watchAll k r
      let loc := match c with | .ok loc _ _ => loc | _ => r.addr
      let acts := act.filter fun l => (s.thread k.gk l).tx.act
      let mine := storeBytes loc r.size (groupVal g .b32 f.size.regs f.b)
      if !ws.isEmpty then (s.takeReplies k.gk).finish k ws
      else if s.locHolds k.gk (f.space = .sp) true r c ||
          (f.space = .gl && acts.length < act.length && !s.hasRequests (coreOf k.gk) 1) then s
      else
        let (s, k) := (s.takeReplies k.gk).groupTx k c
        let (s, k) := s.groupBuffer k c mine
        let act := lanesOf k.active
        if act.isEmpty then s.finish k []
        else match s.linkTrap k c r with
        | some d => trapAll k 3 d s
        | none =>
          let fl := memFlight f s k.gk act (groupTid k.gk) r c false (s.lentBy k.gk act (isStrong f)) (.store mine)
          let s := if isStrong f then act.foldl (fun s l => s.modThread k.gk l fun t => { t with fenceRel := none }) s else s
          if f.space = .sp && !fl.heldRelease then
            ((((s.write .pad mine).strongHere fl).releases fl).modGroup k.gk (·.advanceActive k)).finish k []
          else
            let waits := fl.waits
            let s := if f.space = .gl && !waits then s.modCore fl.core (·.l1Store mine) else s
            let (s, id) := s.launchFlight fl
            let s := s.sendRemote fl 1 (mine.map (·.2))
            if waits then (act.foldl (fun s l => s.modThread k.gk l fun t => { t with wait := .window id }) s).finish k []
            else (s.modGroup k.gk (·.advanceActive k)).finish k []

/-! ## Prefetches and page requests -/

/-- The prefetches of checked addresses, each sector once; a failed address is dropped (11 R264). -/
def State.pfFlights (s : State) (k : Cursor) (f : MemF) (q : Nat) (rs : List (Req × Checked)) : List Flight :=
  let all : List Flight := (rs.filter fun rc => match rc.2 with | .ok .. | .remote _ => true | _ => false).map fun rc =>
    { memFlight f s k.gk [] rc.1.tid rc.1 rc.2 false [] (.prefetch f.rd.toNat) with req := q }
  all.foldl (fun m o => if m.any fun e => e.remote = o.remote && e.loc / 64 = o.loc / 64 then m else m ++ [o]) []

/-- Prefetches go out for the sectors that the L1 does not hold. One of a remote line asks the peer, and allocates nothing here
(22 R467). DEDUCED (log 18). -/
def State.prefetch (s : State) (k : Cursor) (f : MemF) (rs : List (Req × Checked)) : State :=
  let (q, s) := s.fresh
  (s.pfFlights k f q rs).foldl (fun s fl =>
    match s.l1Look fl with
    | (s, some _) => s
    | (s, none) => ((s.launchFlight fl).1).sendRemote fl 0 []) s

/-- A list of requests that only the walks can hold. -/
def withChecks (k : Cursor) (rs : List Req) (f : List (Req × Checked) → State → State) (s : State) : State :=
  match s.checkAll k.gk rs with
  | (s, none) => s
  | (s, some rs) => f rs (s.takeReplies k.gk)

/-- A prefetch by each checked request (11 R264): held while no request entry is free, or fewer than it needs (10 R236). -/
def prefetchOp (f : MemF) (k : Cursor) (rs : List Req) (s : State) : State :=
  match s.checkAll k.gk rs with
  | (s, none) => s
  | (s, some rs) =>
    let need := ((s.pfFlights k f 0 rs).filter fun fl => !s.l1Hits fl).length
    if !s.hasRequests (coreOf k.gk) (max 1 need) then s
    else (((s.takeReplies k.gk).prefetch k f rs).modGroup k.gk (·.advanceActive k)).finish k []

/-- A page that is not valid and resident (11 R265): permission alone does not count. -/
def Checked.absentPage (c : Checked) : Bool :=
  match c with
  | .trap cls det => let cause := det.toNat / 2 ^ 64 % 256; cls = 4 || (cls = 3 && (cause = 1 || cause = 2))
  | _ => false

/-- One record for each unique page (10 R253), its ID with bit 15 for a grid launched from the device (02 R54). -/
def State.requestPages (s : State) (k : Cursor) (tag : Nat) (rs : List (Req × Checked)) : State :=
  let g := s.group k.gk
  let ck := s.ckOf g
  let dev := ((s.teamOf g).bind s.gridOf).any (·.dev)
  let pages := firsts ((rs.filter fun rc => rc.2.absentPage).map fun rc => rc.1.addr / 65536)
  pages.foldl (fun s p => s.postEvent (ck / 16)
    { bytes := recordBytes 0x12 0 0 (recordId ck 0 dev) 0 (coreOf k.gk) (p * 65536), time := some ck, tag := tag }) s

/-- A page request by each checked request (10 R253; 11 R265): its lanes wait while one of its records is held. -/
def pgreqOp (k : Cursor) (rs : List Req) (s : State) : State :=
  withChecks k rs (fun rs s =>
    let (tag, s) := s.fresh
    let s := s.requestPages k tag rs
    if (s.fn (s.ckOf (s.group k.gk) / 16)).held.any fun r => r.tag = tag then
      ((lanesOf k.active).foldl (fun s l => s.modThread k.gk l fun t => { t with wait := .pgreq tag }) s).finish k []
    else (s.modGroup k.gk (·.advanceActive k)).finish k []) s

/-! ## Demotion (11 R267) -/

/-- Demotes the lines of a physical interval in the L2 and drops them from the core's L1. -/
def State.demote (s : State) (core lo hi : Nat) : State :=
  let inside (line : Nat) : Bool := lo / 128 ≤ line && line * 128 < hi
  let l2 : Tbl L2Way := s.l2.map fun e => if inside e.2.line then (e.1, { e.2 with v := 7 }) else e
  { s with l2 := l2 }.modCore core fun c => { c with l1 := c.l1.filter fun l => !inside l.line }

/-- The translation of a page of a demotion: by the TLBs of the core and its locality, else by a walk, which fills them (10 R240,
R248). The walk takes no time of its own here. DEDUCED (log 19). -/
def State.lookupNow (s : State) (core ck page : Nat) : State × Option TlbEntry :=
  let d := dieOf core
  let fill (s : State) (e : TlbEntry) : State :=
    let s := s.modCore core fun c => { c with tlb := tlbPut c.tlb e 128 }
    { s with tlb2 := s.tlb2.put d (tlbPut (s.tlb2Of d) e 16384) }
  match (s.core core).tlb.find? fun e => e.covers ck page with
  | some e => (s.modCore core fun c => { c with tlb := tlbPut c.tlb e 128 }, some e)
  | none =>
    match (s.tlb2Of d).find? fun e => e.covers ck page with
    | some e => (fill s e, some e)
    | none =>
      let s := s.walkTouch ck (page * 65536)
      match s.walk ck (page * 65536) with
      | .ok e => (fill s e, some e)
      | _ => (s, none)

/-- The pages of [a, a + n), each with its interval. -/
def State.demoteRange (s : State) (core ck a n : Nat) : State :=
  if n = 0 then s
  else (List.range ((a + n - 1) / 65536 - a / 65536 + 1)).foldl (fun s i =>
    let p := a / 65536 + i
    if 2 ^ 41 ≤ p || (s.remoteOf ck (p * 65536)).isSome then s
    else
      let (s, e) := s.lookupNow core ck p
      match e.map fun (x : TlbEntry) => x.check (p * 65536) .read with
      | some (.ok pa _) => s.demote core (pa + (max a (p * 65536) - p * 65536)) (pa + (min (a + n) ((p + 1) * 65536) - p * 65536))
      | _ => s) s

/-- A page of a demotion needs a walk while every walker of the locality is busy (10 R248). -/
def State.demoteHolds (s : State) (core ck a n : Nat) : Bool :=
  n ≠ 0 && 32 ≤ s.walkersBusy (dieOf core) && (List.range ((a + n - 1) / 65536 - a / 65536 + 1)).any fun i =>
    !(((s.core core).tlb ++ s.tlb2Of (dieOf core)).any fun e => e.covers ck (a / 65536 + i))

/-! ## The instructions -/

/-- `ld` in class 0b00. -/
def execLdScalar (f : MemF) (s : State) : Answer := withIssuer s (loadGroup f)
/-- `ld` in class 0b01. -/
def execLdVector (f : MemF) (s : State) : Answer := withIssuer s (loadLanes f 0)
/-- `ld.nr`. -/
def execLdNr (f : MemF) (s : State) : Answer :=
  withIssuer s (loadLanes f (match f.b with | .pred i => i | _ => 0))
/-- `st` in class 0b00. -/
def execStScalar (f : MemF) (s : State) : Answer := withIssuer s (storeGroup f)
/-- `st` in class 0b01. -/
def execStVector (f : MemF) (s : State) : Answer := withIssuer s (storeLanes f)
/-- `pf` in class 0b00. -/
def execPfScalar (f : MemF) (s : State) : Answer :=
  withIssuer s fun k s =>
    let g := s.group k.gk
    if guardG g f.h k then prefetchOp f k [groupReq g k f 1 .read 1] s else groupMode f.h id k s
/-- `pf` in class 0b01. -/
def execPfVector (f : MemF) (s : State) : Answer :=
  withIssuer s fun k s => prefetchOp f k (laneReqs (s.group k.gk) k f 1 .read 1) s
/-- `pgreq` in class 0b00. -/
def execPgreqScalar (f : MemF) (s : State) : Answer :=
  withIssuer s fun k s =>
    let g := s.group k.gk
    if guardG g f.h k then pgreqOp k [groupReq g k f 1 .read 1] s else groupMode f.h id k s
/-- `pgreq` in class 0b01. -/
def execPgreqVector (f : MemF) (s : State) : Answer :=
  withIssuer s fun k s => pgreqOp k (laneReqs (s.group k.gk) k f 1 .read 1) s
/-- `cinv` (11 R266). -/
def execCinv (f : MemF) (s : State) : Answer :=
  withIssuer s fun k s => groupModeS f.h (fun s => s.modCore (coreOf k.gk) Core.l1Clear) k s
/-- `cdem` (11 R267). -/
def execCdem (f : MemF) (s : State) : Answer :=
  withIssuer s fun k s =>
    let g := s.group k.gk
    let a := groupAddr g f
    let n := groupVal g .b32 1 f.b
    if guardG g f.h k && s.demoteHolds (coreOf k.gk) (s.ckOf g) a n then s
    else groupModeS f.h (fun s => s.demoteRange (coreOf k.gk) (s.ckOf g) a n) k s

end Sys2Proof.Machine
end

