-- ==== Sys2Proof/Machine/Sync.lean ====
section
/-! DEFINITION. Atomics, fences and transactions (15_synchronisation R367 to R377). -/

namespace Sys2Proof.Machine

/-! ## Atomics (R368 to R370) -/

/-- Locations in order of their first lane, each with its lanes. -/
def sameLoc (rs : List (Req × Checked)) : List (Req × Checked × List Req) :=
  rs.foldl (fun acc rc =>
    let key (r : Req) (c : Checked) : Nat × Nat := match c with
      | .ok loc _ _ => (0, loc)
      | .remote i => (i + 1, r.addr)
      | _ => (9, r.lane)
    if acc.any fun e => key e.1 e.2.1 = key rc.1 rc.2 then
      acc.map fun e => if key e.1 e.2.1 = key rc.1 rc.2 then (e.1, e.2.1, e.2.2 ++ [rc.1]) else e
    else acc ++ [(rc.1, rc.2, [rc.1])]) []

/-- Sends the atomic of the lanes that name one location. Without a register destination, on a location that is poisoned,
its lanes wait for its outcome, so that they trap at their next instruction (10 R490; 15 R370). DEDUCED (log 20). -/
def State.atomSend (s : State) (k : Cursor) (f : MemF) (op : Nat) (e : Req × Checked × List Req) : State :=
  let g := s.group k.gk
  let w := f.size.regs
  let n := if op = 7 then 2 * w else w
  let bits := 32 * w
  let ops := e.2.2.map fun r =>
    let t := (g.lanes.get? r.lane).getD {}
    let v := laneVal g t k.handler .b32 n f.b
    (r.lane, r.tid, t.destEntry k.handler f.d, v % 2 ^ bits, v / 2 ^ bits)
  let lanes := e.2.2.map (·.lane)
  let fl := memFlight f s k.gk lanes e.1.tid e.1 e.2.1 false (s.lentBy k.gk lanes true) (.atomic op f.ecl ops)
  let bad := fl.remote.isNone && (ops.any fun o => o.2.2.1 = 96) && s.poisoned fl.place fl.loc fl.size
  let waits := fl.waits || bad
  let s := if f.space = .gl && fl.remote.isNone then s.modCore fl.core (·.l1DropSector fl.loc) else s
  let s := if fl.acq && fl.scope.wide then s.modCore fl.core Core.l1Clear else s
  let (s, id) := s.launchFlight fl
  let s := s.sendRemote fl 2 []
  lanes.foldl (fun s l => s.modThread k.gk l fun t =>
    let t := { t with fenceRel := none, strongRead := some id }
    let t := t.hold k.handler w f.d
    if waits then { t with wait := .window id } else { t with lpc := t.lpc + 1 }) s

/-- An atomic: lanes that fail a check trap; the others go to their homes (R369). DEDUCED (log 20). -/
def atomLanes (op : Nat) (f : MemF) (k : Cursor) (s : State) : State :=
  let g := s.group k.gk
  let cs := guarded g f.h k
  if (cs.any fun l => s.threadHolds k.gk l false) || s.lendHolds k.gk cs then s
  else match s.checkAll k.gk (laneReqs g k f f.size.bytes .both 3) with
    | (s, none) => s
    | (s, some rs) =>
      let rs := rs.map fun rc => (rc.1, rc.2.watched k.handler (s.thread k.gk rc.1.lane) rc.1)
      if (rs.any fun rc => s.locHolds k.gk false true rc.1 rc.2)
          || (f.space = .gl && !s.hasRequests (coreOf k.gk) (requestCount 1 rs)) then s
      else
        let s := s.takeReplies k.gk
        let ts : List Trap := rs.filterMap fun rc =>
          match rc.2 with
          | .trap c d => some ⟨rc.1.lane, c, d⟩
          | _ => none
        let good := rs.filter fun rc =>
          match rc.2 with
          | .trap .. => false
          | _ => true
        let s := (sameLoc good).foldl (fun s e => s.atomSend k f op e) s
        (s.advanceOthers k cs).finish k ts

/-- `atom.add` (15 R368, R369). -/
def execAtomAdd (f : MemF) (s : State) : Answer := withIssuer s (atomLanes 0 f)
/-- `atom.min` (15 R368, R369). -/
def execAtomMin (f : MemF) (s : State) : Answer := withIssuer s (atomLanes 1 f)
/-- `atom.max` (15 R368, R369). -/
def execAtomMax (f : MemF) (s : State) : Answer := withIssuer s (atomLanes 2 f)
/-- `atom.and` (15 R368, R369). -/
def execAtomAnd (f : MemF) (s : State) : Answer := withIssuer s (atomLanes 3 f)
/-- `atom.or` (15 R368, R369). -/
def execAtomOr (f : MemF) (s : State) : Answer := withIssuer s (atomLanes 4 f)
/-- `atom.xor` (15 R368, R369). -/
def execAtomXor (f : MemF) (s : State) : Answer := withIssuer s (atomLanes 5 f)
/-- `atom.exch` (15 R368, R369). -/
def execAtomExch (f : MemF) (s : State) : Answer := withIssuer s (atomLanes 6 f)
/-- `atom.cas` (15 R368, R369). -/
def execAtomCas (f : MemF) (s : State) : Answer := withIssuer s (atomLanes 7 f)
/-- `ared.add` (15 R368, R369). -/
def execAredAdd (f : MemF) (s : State) : Answer := withIssuer s (atomLanes 0 f)
/-- `ared.min` (15 R368, R369). -/
def execAredMin (f : MemF) (s : State) : Answer := withIssuer s (atomLanes 1 f)
/-- `ared.max` (15 R368, R369). -/
def execAredMax (f : MemF) (s : State) : Answer := withIssuer s (atomLanes 2 f)
/-- `ared.and` (15 R368, R369). -/
def execAredAnd (f : MemF) (s : State) : Answer := withIssuer s (atomLanes 3 f)
/-- `ared.or` (15 R368, R369). -/
def execAredOr (f : MemF) (s : State) : Answer := withIssuer s (atomLanes 4 f)
/-- `ared.xor` (15 R368, R369). -/
def execAredXor (f : MemF) (s : State) : Answer := withIssuer s (atomLanes 5 f)

/-! ## Fences (14 R342; 15 R367) -/

/-- A fence of one thread: it lends a release of all before it to the next strong write, and makes the latest strong read an
acquire, whether it is in flight or has returned; without one it orders nothing. DEDUCED (log 22). -/
def State.fenceThread (s : State) (gk l : Nat) (acq rel : Bool) (sco : Scope) : State :=
  let t := s.thread gk l
  let known := s.knows gk l
  let s := if rel then s.modThread gk l fun t =>
      { t with fenceRel := some (widerScope sco (t.fenceRel.getD .none)), fenceSeen := known } else s
  match acq, t.strongRead with
  | true, some id => s.modFlight id fun f => { f with acq := true, scope := widerScope sco f.scope }
  | true, none =>
    s.modThread gk l (·.sees (seenFrom t.readFrom (widerScope sco t.readScope) (coreOf gk) gk false))
  | _, _ => s

/-- `fence`: an acquiring fence at `.cluster` scope or wider empties the L1 when it executes. -/
def execFence (f : Op3) (s : State) : Answer :=
  withIssuer s fun k s =>
    let ord := Ord.ofCode (f.imm.toNat / 32 % 8)
    let sco := Scope.ofCode (f.imm.toNat / 4 % 8)
    let acq := ord = .acq || ord = .ar
    let rel := ord = .rel || ord = .ar
    groupModeS f.h (fun s =>
      let s := (lanesOf k.active).foldl (fun s l => s.fenceThread k.gk l acq rel sco) s
      if acq && sco.wide then s.modCore (coreOf k.gk) Core.l1Clear else s) k s

/-! ## Transactions (R371 to R375) -/

/-- The status word (R371). -/
def Tx.word (x : Tx) : Nat :=
  (if x.act then 2 ^ 31 else 0) + (if x.tok then 2 ^ 30 else 0) + 2 ^ 16 * x.code + 2 ^ 8 * x.cnt + x.cause

/-- A per-lane instruction over the state: guarded lanes by `f`, the others advance. -/
def lanesOver (h : Head) (k : Cursor) (f : State → Nat → State) (s : State) : State :=
  let cs := guarded (s.group k.gk) h k
  ((cs.foldl f s).advanceOthers k cs).finish k []

/-- Advances one lane with a change to its thread. -/
def State.stepLane (s : State) (gk l : Nat) (u : Thread → Thread) : State :=
  s.modThread gk l fun t => { u t with lpc := t.lpc + 1 }

/-- `xbegin` (R372). -/
def execXbegin (f : Op3) (s : State) : Answer :=
  withIssuer s fun k s =>
    let g := s.group k.gk
    let now := (s.ctx (s.ckOf g)).ctime
    if (guarded g f.h k).any fun l =>
        s.flights.any fun (e : Nat × Flight) => e.2.team = g.team && e.2.txTids.contains (s.thread k.gk l).tid then s
    else lanesOver f.h k (fun s l =>
      if k.handler then s.modThread k.gk l fun t => { t with lpc := f.imm, tx := { t.tx with cause := 5 } }
      else if (s.thread k.gk l).tx.act then s.txAbort k.gk l 7
      else s.stepLane k.gk l fun t =>
        { t with tx := { t.tx with act := true, tgt := f.imm, start := now, rset := [], wset := [], homes := [], runs := [], shot := false } }) s

/-- `xabort` (R372). -/
def execXabort (f : Op3) (s : State) : Answer :=
  withIssuer s fun k s =>
    lanesOver f.h k (fun s l =>
      if (s.thread k.gk l).tx.act then
        (s.modThread k.gk l fun t => { t with tx := { t.tx with code := f.imm.toNat % 256 } }).txAbort k.gk l 1
      else s.stepLane k.gk l id) s

/-- `xstat` (R371). -/
def execXstat (f : Op3) (s : State) : Answer :=
  withIssuer s fun k s => laneMode f.h (fun _ _ t => .next (t.write k.handler 1 f.d t.tx.word)) k s

/-- `xend`: without a transaction its status is 0x0B; the lanes of a transaction take part in the commit (R372, R375).
DEDUCED (log 21). -/
def execXend (f : Op3) (s : State) : Answer :=
  withIssuer s fun k s =>
    let g := s.group k.gk
    let cs := guarded g f.h k
    let acts := cs.filter fun l => (s.thread k.gk l).tx.act
    let busy := g.lanes.any fun e => match e.2.wait with | .commit _ => true | _ => false
    if !acts.isEmpty && (busy || acts.any fun l => s.threadHolds k.gk l true) then s
    else lanesOver f.h k (fun s l =>
      if (s.thread k.gk l).tx.act then
        s.modThread k.gk l fun t => { t.hold k.handler 1 f.d with wait := .commit (t.destEntry k.handler f.d) }
      else s.stepLane k.gk l fun t => t.write k.handler 1 f.d 0x0B) s

/-! ## The commit (R375 to R377) -/

/-- Words of a read set and of a write set. -/
def Tx.readWords (x : Tx) : List Nat := x.rset.keys
/-- The words that a transaction has buffered (15 R373). -/
def Tx.writeWords (x : Tx) : List Nat := (x.wset.keys.map (· / 4)).dedup

/-- The holder of a locality's serial token. -/
def State.tokenHolder (s : State) (d : Nat) : Option (Nat × Nat) := (s.tokens.get? d).bind List.head?

/-- Lines that the holder of a locality's token has reserved: those of its read set (R377). -/
def State.reserved (s : State) (d : Nat) : List Nat :=
  match s.tokenHolder d with
  | some (team, tid) =>
    match s.findThread team tid with
    | some (gk, l) =>
      let t := s.thread gk l
      if t.tx.tok && t.tx.act then (t.tx.readWords.map (· / 32)).dedup else []
    | none => []
  | none => []

/-- The thread holds the token of a locality that is numbered below another (R377). -/
def State.holdsBelow (s : State) (team tid o : Nat) : Bool := (List.range o).any fun d => s.tokenHolder d = some (team, tid)

/-- A write-set line that another thread has reserved by a token; of two holders that reserve a line the one of the
lower-numbered locality wins (R375, R377). -/
def State.reservedAgainst (s : State) (team : Nat) (t : Thread) : Bool :=
  (t.tx.writeWords.map (· / 32)).any fun line =>
    (List.range 8).any fun o => s.tokenHolder o ≠ some (team, t.tid) && (s.reserved o).contains line &&
      !(t.tx.tok && s.holdsBelow team t.tid o && (t.tx.readWords.map (· / 32)).contains line)

/-- Step 1: lanes in ascending order, a token holder first; a lane that meets the write set of an earlier surviving lane
fails. Gives the survivors. DEDUCED (log 21). -/
def commitOrder (ls : List (Nat × Thread)) : List (Nat × Thread) :=
  (ls.filter fun e => e.2.tx.tok) ++ ls.filter fun e => !e.2.tx.tok

/-- The lanes of a commit that meet no earlier one (15 R375). DEDUCED (log 21). -/
def commitPick : List (Nat × Thread) → List (Nat × Thread) → List (Nat × Thread)
  | [], kept => kept
  | e :: rest, kept =>
    let mine := e.2.tx.readWords ++ e.2.tx.writeWords
    if kept.any fun o => o.2.tx.writeWords.any fun w => mine.contains w then commitPick rest kept
    else commitPick rest (kept ++ [e])

/-- Step 2: every recorded word still holds its value at its home, and no write-set line is reserved against the lane.
DEDUCED (log 21). -/
def State.validates (s : State) (team : Nat) (t : Thread) : Bool :=
  (t.tx.rset.all fun w => !s.poisoned .mem (4 * w.1) 4 && s.load .mem (4 * w.1) 4 = w.2.toNat) && !s.reservedAgainst team t

/-- The releases that stand at the words of a transaction's two sets: its commit is an acquire at device scope for them (14
R355). -/
def State.commitNotes (s : State) (x : Tx) : List RelNote :=
  (x.readWords ++ x.writeWords).flatMap fun w =>
    ((s.rels.get? (noteKey .mem (4 * w))).getD []).filter fun n => meetBytes n.loc n.size (4 * w) 4

/-- A commit is a release at device scope for the words that it writes (14 R355). -/
def State.commitRel (s : State) (gk : Nat) (x : Tx) (known : Tbl Nat) : State :=
  x.writeWords.foldl (fun s w => s.putRel .mem
    { loc := 4 * w, size := 4, whole := true, scope := .device, core := coreOf gk, gk := gk, seen := known }) s

/-- Step 3 for one lane: its writes are performed at their homes. DEDUCED (log 21). -/
def State.commitLane (s : State) (gk l dest : Nat) : State :=
  let g := s.group gk
  let t := s.thread gk l
  let ck := s.ckOf g
  let seen := seenFrom (s.commitNotes t.tx) .device (coreOf gk) gk false
  let known := (s.knows gk l).join seen
  let s := (s.write .mem t.tx.wset).commitRel gk t.tx known
  let s := ((t.tx.wset.keys.map (· / 128)).dedup).foldl (fun s line =>
    s.l2Touch line (t.tx.homes.read 0 line) (some 6) ck (some (g.team, coreOf gk)) true) s
  let s := s.modCore (coreOf gk) (·.l1Store t.tx.wset)
  let s := if t.tx.tok then s.dropToken g.team t.tid else s
  s.modThread gk l fun t =>
    { (t.sees seen).deliver dest 1 0 (some 0) with
      lpc := t.lpc + 1
      wait := .none
      tx := { t.tx with act := false, cnt := 0, tok := false, rset := [], wset := [], homes := [], runs := [], shot := false } }

/-- The lanes of a group at a commit with their destinations. -/
def committing (g : Group) : List (Nat × Nat × Thread) :=
  g.lanes.filterMap fun e =>
    match e.2.wait with
    | .commit d => if e.2.tx.act && !e.2.exited then some (e.1, d, e.2) else none
    | _ => none

/-- A strong read of bytes that a commit writes is in flight. The home performs it first, so that no read that follows it in its
thread can miss the commit that it returned (14 R355). DEDUCED (log 21). -/
def State.readBefore (s : State) (ls : List (Nat × Nat × Thread)) : Bool :=
  s.flights.any fun (e : Nat × Flight) => e.2.strong && e.2.place = .mem && e.2.remote.isNone &&
    ls.any fun l => l.2.2.tx.wset.any fun b => meetBytes b.1 1 e.2.loc e.2.size

/-- The commit of a group's lanes. It is an acquire and a release at device scope (14 R355): what the core owes is performed
first, and the L1 is emptied. DEDUCED (log 21). -/
def State.commit (s : State) (gk : Nat) : State :=
  let g := s.group gk
  let core := coreOf gk
  let ls := committing g
  if ls.isEmpty || !s.owedDone core false || s.readBefore ls then s
  else
    let dest (l : Nat) : Nat := ((ls.find? fun e => e.1 = l).map (·.2.1)).getD 96
    let kept := (commitPick (commitOrder (ls.map fun e => (e.1, e.2.2))) []).map (·.1)
    let s := (ls.filter fun e => !kept.contains e.1).foldl (fun s e => s.txAbort gk e.1 2) s
    let good := kept.filter fun l => s.validates g.team (s.thread gk l)
    let s := (kept.filter fun l => !good.contains l).foldl (fun s l => s.txAbort gk l 3) s
    let s := good.foldl (fun s l => s.commitLane gk l (dest l)) s
    s.modCore core Core.l1Clear

/-- TRANSACTION_COMMIT (R375). -/
def execTransactionCommit (gk : Nat) (s : State) : Answer := .next (s.commit gk)

/-- TRANSACTION_TIMEOUT (R374). -/
def execTransactionTimeout (gk lane : Nat) (s : State) : Answer :=
  .next <|
    let t := s.thread gk lane
    if t.tx.act && 65536 ≤ ((s.ctx (s.ckOf (s.group gk))).ctime - t.tx.start).toNat then
      s.txAbort gk lane 0x0A
    else s

/-- TOKEN_GRANT (R377): the first request of the locality holds the token. DEDUCED (log 21). -/
def execTokenGrant (d : Nat) (s : State) : Answer :=
  .next (match s.tokenHolder d with
    | some (team, tid) =>
      match s.findThread team tid with
      | some (gk, l) =>
        if (s.thread gk l).exited then s.dropToken team tid
        else s.modThread gk l fun t => { t with tx := { t.tx with tok := true } }
      | none => if (s.teams.get? team).isNone && (s.savedTeams.get? team).isNone then s.dropToken team tid else s
    | none => s)

end Sys2Proof.Machine
end

