-- ==== Sys2Proof/Machine/Barriers.lean ====
section
/-! DEFINITION. Barriers (15_synchronisation R358 to R366): collection by mask, core barrier objects with `barx` (11 R281 to
R287), and the slots of the barrier units, with the completion of their phases. -/

namespace Sys2Proof.Machine

/-! ## Collection (R358) -/

/-- The identity of a barrier in a collection set: an object's offset, a team slot, or the grid slot. -/
def barObject (off : Nat) : Nat := off
/-- The key of a team slot's barrier in a collection (15 R358). -/
def barTeam (slot : Nat) : Nat := 2 ^ 20 + slot
/-- The key of the grid slot's barrier in a collection (15 R358). -/
def barGrid : Nat := 2 ^ 21

/-- W(b): the lanes of a group that collect at a barrier, with their masks. DEDUCED (log 23). -/
def Group.collecting (g : Group) (b : Nat) : List (Nat × Word) :=
  g.lanes.filterMap fun e =>
    match e.2.wait with
    | .collect c m _ => if c = b then some (e.1, m) else none
    | _ => none

/-- A lane that counts as exited for a membership mask: no live thread stands in it, and none was ejected from it (R358;
16_regroup R384). DEDUCED (log 23). -/
def State.gone (s : State) (gk l : Nat) : Bool :=
  let mine (t : Thread) : Bool := !t.exited && (match t.home with | some h => h.gk = gk && h.lane = l | none => false)
  !(s.group gk).live l && !(s.teams.any fun e => e.2.conts.any fun c => mine c.th)
    && !(s.groups.any fun e => e.2.lanes.any fun t => mine t.2)

/-- Every lane of a mask is in the set or has exited. -/
def State.collected (s : State) (gk : Nat) (w : List (Nat × Word)) (m : Word) : Bool :=
  (lanesOf m).all fun l => (w.any fun e => e.1 = l) || s.gone gk l

/-- What `collect` gives: lanes that trap with their mask and cause, lanes that arrive with their mask, lanes that join the
set, and whether the set is then empty. DEDUCED (log 23). -/
structure Collect where
  traps : List (Nat × Word × Nat)
  arrive : List (Nat × Word)
  waits : List (Nat × Word)
  emptied : Bool
deriving DecidableEq, Repr

/-- `collect(C, B, b)` of R358; `m` gives each lane's mask, none without B. DEDUCED (log 23). -/
def State.collect (s : State) (gk b : Nat) (cs : List (Nat × Option Word)) : Collect :=
  let w := (s.group gk).collecting b
  let bad (l : List (Nat × Word)) : List (Nat × Word × Nat) := l.map fun e => (e.1, e.2, 1)
  if cs.all fun e => e.2.isNone then
    let c : List (Nat × Word) := cs.map fun e => (e.1, 0)
    if w.isEmpty then ⟨[], c, [], true⟩ else ⟨bad (w ++ c), [], [], true⟩
  else
    let c : List (Nat × Word) := cs.map fun e => (e.1, e.2.getD 0)
    let out := (c.filter fun e => !bitOf e.2 e.1).map fun e => (e.1, e.2, 2)
    let rest := c.filter fun e => bitOf e.2 e.1
    let all := (List.range 32).filterMap fun l => (w ++ rest).find? fun e => e.1 = l
    match all with
    | [] => ⟨out, [], [], true⟩
    | (_, m) :: _ =>
      if all.any fun e => e.2 ≠ m then ⟨out ++ bad all, [], [], true⟩
      else if s.collected gk all m then ⟨out, all, [], true⟩
      else ⟨out, [], rest, false⟩

/-- The detail of class 11 (R359). -/
def detailMask (m : Word) (cause : Nat) (ident : Nat) : QWord :=
  detailOf (bytesOf m.toNat 4 ++ bytesOf cause 4 ++ bytesOf ident 4)

/-- The masks of the lanes of C. -/
def laneMasks (f : Op3) (k : Cursor) (g : Group) (cs : List Nat) : List (Nat × Option Word) :=
  cs.map fun l =>
    (l, match f.b with
      | .zero => none
      | b => some (BitVec.ofNat 32 (laneVal g ((g.lanes.get? l).getD {}) k.handler .b32 1 b)))

/-! ## Core barrier objects (11 R281) -/

/-- The fields of an object. -/
structure BarObj where
  phase : Bool
  bc : Bool
  posted : Bool
  err : Bool
  expa : Nat
  arrc : Nat
  bytes : Nat
deriving DecidableEq, Repr

/-- A barrier object from its 64-bit word (11 R281). -/
def BarObj.of (v : Nat) : BarObj :=
  { phase := v.testBit 63, bc := v.testBit 62, posted := v.testBit 61, err := v.testBit 60
    expa := v / 2 ^ 49 % 2 ^ 11, arrc := v / 2 ^ 38 % 2 ^ 11, bytes := v % 2 ^ 38 }

/-- The 64-bit word of a barrier object (11 R281). -/
def BarObj.word (o : BarObj) : Nat :=
  (if o.phase then 2 ^ 63 else 0) + (if o.bc then 2 ^ 62 else 0) + (if o.posted then 2 ^ 61 else 0)
    + (if o.err then 2 ^ 60 else 0) + o.expa % 2 ^ 11 * 2 ^ 49 + o.arrc % 2 ^ 11 * 2 ^ 38 + o.bytes % 2 ^ 38

/-- The phase can complete (11 R287). -/
def BarObj.ready (o : BarObj) : Bool := o.arrc = 0 && o.bytes = 0 && (!o.bc || o.posted)

/-- The next phase. -/
def BarObj.complete (o : BarObj) : BarObj := { o with phase := !o.phase, arrc := o.expa, posted := false }

/-- The barrier object at an offset of a core's scratchpad (11 R281). -/
def State.barObj (s : State) (core off : Nat) : BarObj := BarObj.of (s.load .pad (2 ^ 19 * core + off) 8)

/-- Updates an object; its completion is evaluated at the end of the clock. -/
def State.setBar (s : State) (core off : Nat) (o : BarObj) : State :=
  let s := s.write .pad (place (2 ^ 19 * core + off) 8 o.word)
  let e : Turn := .event (.coreBarrierPhaseComplete core off)
  if s.agenda.contains e then s else { s with agenda := s.agenda ++ [e] }

/-- A barrier object's address fails: class 5, then class 6, then class 16 (R360; 10 R491). -/
def State.barTrap (s : State) (gk off : Nat) : Option (Nat × QWord) :=
  let g := s.group gk
  if off % 8 ≠ 0 then some (5, detailM off 0 7 8 1)
  else if !(match s.teamOf g, s.pktOf g with | some t, some p => inScratch t p off 8 | _, _ => false) then
    some (6, detailM off 0 7 8 1)
  else if s.poisoned .pad (2 ^ 19 * coreOf gk + off) 8 then some (16, detailM off 0 7 8 1)
  else none

/-! ## Slots of the barrier units (R361 to R365) -/

/-- The identity word of a slot in use (R361). -/
def BarSlot.ident (b : BarSlot) (unit slot k : Nat) : Nat :=
  if b.isGrid then 2 ^ 31 + 2 ^ 12 * unit + slot else 2 ^ 30 + k

/-- The detail of class 12 (R365). -/
def detailBroken (ident die : Nat) : QWord := detailOf (bytesOf ident 4 ++ bytesOf die 1)

/-- An arrival at a slot: `n` is the count of `barc`, none for `bart` and `barg` (R362). -/
def State.slotArrive (s : State) (unit slot : Nat) (n : Option Nat) : State × Except Nat LaneWait :=
  match s.barSlots.get? (4096 * unit + slot) with
  | none => (s, .error 3)
  | some b =>
    if b.mode ≠ none && b.mode ≠ some n then (s, .error 3)
    else if (n.any fun m => decide (m ≤ b.arrived)) then (s, .error 4)
    else
      let b' : BarSlot := { b with mode := some n, arrived := b.arrived + 1 }
      let e : Turn := .event (.barrierSlotComplete unit slot)
      ({ s with
        barSlots := s.barSlots.put (4096 * unit + slot) b'
        agenda := if s.agenda.contains e then s.agenda else s.agenda ++ [e] }, .ok (.unitBar unit slot b.phase))

/-- The slot of a team's number `k`. -/
def State.teamSlot (s : State) (g : Group) (k : Nat) : Option (Nat × Nat) :=
  (s.teamOf g).bind fun t => (t.bars[k]?).map fun m => (t.d, m)

/-- The barrier that an identity of a collection set names (R361). -/
def State.barSlotOf (s : State) (g : Group) (b : Nat) : Option (Nat × Nat) :=
  if b = barGrid then ((s.teamOf g).bind s.gridOf).bind (·.gslot)
  else if barTeam 0 ≤ b then s.teamSlot g (b - barTeam 0)
  else none

/-- One lane arrives at a barrier: its wait, or the cause of its trap (R360, R362). -/
def State.arriveAt (s : State) (gk b : Nat) (n : Option Nat) : State × Except Nat LaneWait :=
  if b < barTeam 0 then
    let core := coreOf gk
    let o := s.barObj core b
    if o.arrc = 0 then (s, .error 4)
    else (s.setBar core b { o with arrc := o.arrc - 1 }, .ok (.coreBar b o.phase))
  else match s.barSlotOf (s.group gk) b with
    | some (u, m) => s.slotArrive u m n
    | none => (s, .error 3)

/-- The identity word of a barrier (R361). -/
def State.identOf (s : State) (gk b : Nat) : Nat :=
  if b < barTeam 0 then b
  else match s.barSlotOf (s.group gk) b with
    | some (u, m) => if b = barGrid then 2 ^ 31 + 2 ^ 12 * u + m else 2 ^ 30 + (b - barTeam 0)
    | none => 0

/-- The count with which a lane arrives: that of the instruction at which it joined the set, or else this one's. -/
def Group.countOf (g : Group) (n : Option Nat) (l : Nat) : Option Nat :=
  match ((g.lanes.get? l).getD {}).wait with
  | .collect _ _ m => m
  | _ => n

/-- Lanes with their masks arrive in ascending order, each with its count; the traps of those that do not count. -/
def State.arriveAll (s : State) (gk b : Nat) (n : Option Nat) (ls : List (Nat × Word)) : State × List (Nat × Word × Nat) :=
  let g := s.group gk
  ls.foldl (fun (a : State × List (Nat × Word × Nat)) e =>
    match a.1.arriveAt gk b (g.countOf n e.1) with
    | (s, .ok w) => (s.modThread gk e.1 fun t => { t with wait := w }, a.2)
    | (s, .error cause) => (s.modThread gk e.1 fun t => { t with wait := .none }, a.2 ++ [(e.1, e.2, cause)])) (s, [])

/-- The traps of class 11 (R359). -/
def maskTraps (ident : Nat) (ts : List (Nat × Word × Nat)) : List Trap :=
  ts.map fun e => ⟨e.1, 11, detailMask e.2.1 e.2.2 ident⟩

/-- The common part of `bar`, `barc`, `bart` and `barg`: the set C collects at the barrier `b` and arrives with the count
`n`. -/
def collectLanes (f : Op3) (b : Nat) (n : Option Nat) (k : Cursor) (s : State) : State :=
  let g := s.group k.gk
  let cs := guarded g f.h k
  let c := s.collect k.gk b (laneMasks f k g cs)
  let ident := s.identOf k.gk b
  let (s, late) := s.arriveAll k.gk b n c.arrive
  let left := if c.emptied then (g.collecting b).filter fun e => !(c.arrive.any fun a => a.1 = e.1) else []
  let s := left.foldl (fun s e => s.modThread k.gk e.1 fun t => { t with wait := .none }) s
  let s := c.waits.foldl (fun s e => s.modThread k.gk e.1 fun t => { t with wait := .collect b e.2 n }) s
  let traps := maskTraps ident (c.traps ++ late)
  let mine := traps.filter fun t => g.inHandler t.lane = k.handler
  let others := traps.filter fun t => g.inHandler t.lane ≠ k.handler
  ((s.advanceOthers k cs).raiseIn k.gk others).finish k mine

/-- The barriers at which lanes of a group collect. -/
def Group.collections (g : Group) : List Nat :=
  firsts (g.lanes.filterMap fun e => match e.2.wait with | .collect b _ _ => some b | _ => none)

/-- An exit that completes a set makes its lanes arrive (R358). DEDUCED (log 23). -/
def State.collectAgain (s : State) (gk : Nat) : State :=
  (s.group gk).collections.foldl (fun s b =>
    let w := (s.group gk).collecting b
    let all := (List.range 32).filterMap fun l => w.find? fun e => e.1 = l
    match all with
    | (_, m) :: _ =>
      if s.collected gk all m then
        let ident := s.identOf gk b
        let (s, late) := s.arriveAll gk b none all
        s.raiseIn gk (maskTraps ident late)
      else s
    | [] => s) s

/-! ## The instructions (R360, R362) -/

/-- `bar` (R360). An acquire in flight of a lane comes before its arrival (14 R343). -/
def execBar (f : Op3) (s : State) : Answer :=
  withIssuer s fun k s =>
    let g := s.group k.gk
    let cs := guarded g f.h k
    let off := groupVal g .b32 1 f.a
    let core := coreOf k.gk
    if cs.isEmpty then (s.advanceOthers k cs).finish k []
    else match s.barTrap k.gk off with
      | some (c, d) => (s.advanceOthers k cs).finish k (cs.map fun l => ⟨l, c, d⟩)
      | none =>
        if s.padBusy core (2 ^ 19 * core + off) 8 || cs.any fun l => s.threadHolds k.gk l false then s
        else collectLanes f (barObject off) none k s

/-- `barx` (11 R283). -/
def execBarx (f : Op3) (s : State) : Answer :=
  withIssuer s fun k s =>
    let g := s.group k.gk
    let off := groupVal g .b32 1 f.a
    let core := coreOf k.gk
    if !guardG g f.h k then groupMode f.h id k s
    else match s.barTrap k.gk off with
      | some (c, d) => trapAll k c d s
      | none =>
        if s.padBusy core (2 ^ 19 * core + off) 8 then s
        else groupModeS f.h (fun s =>
          let o := s.barObj core off
          s.setBar core off { o with bytes := (o.bytes + groupVal g .b32 1 f.b) % 2 ^ 38, posted := true }) k s

/-- The steps of R362 that all lanes of C share, and the arrival, before which the accesses of the core are performed (14 R337,
R343). -/
def slotLanes (f : Op3) (n : Option Nat) (b k : Nat) (det : QWord) (c : Cursor) (s : State) : State :=
  let g := s.group c.gk
  let cs := guarded g f.h c
  let fail (cls : Nat) (d : QWord) : State := (s.advanceOthers c cs).finish c (cs.map fun l => ⟨l, cls, d⟩)
  if cs.isEmpty then (s.advanceOthers c cs).finish c []
  else match s.barSlotOf g b with
    | none => fail 6 det
    | some (u, m) =>
      match s.barSlots.get? (4096 * u + m) with
      | none => fail 6 det
      | some e =>
        match e.broken with
        | some d => fail 12 (detailBroken (e.ident u m k) d)
        | none =>
          if !s.owedDone (coreOf c.gk) false || cs.any fun l => s.threadHolds c.gk l false then s
          else collectLanes f b n c s

/-- `barc`: the lanes pass the checks of R362 in order. -/
def execBarc (f : Op3) (s : State) : Answer :=
  withIssuer s fun c s =>
    let g := s.group c.gk
    let a := groupVal g .b32 1 f.a
    let k := a % 16
    let n := a / 2 ^ 16 % 2 ^ 15
    let cs := guarded g f.h c
    if (a / 16 % 2 ^ 12 ≠ 0 || a.testBit 31 || n = 0 || 16384 < n) && !cs.isEmpty then
      (s.advanceOthers c cs).finish c (cs.map fun l => ⟨l, 1, detailWord c.word 9 7⟩)
    else slotLanes f (some n) (barTeam k) k (detailOf (bytesOf a 4)) c s

/-- `bart`: the whole team at team slot 0. -/
def execBart (f : Op3) (s : State) : Answer :=
  withIssuer s fun c s => slotLanes f none (barTeam 0) 0 0 c s

/-- `barg`: the grid at its grid slot. -/
def execBarg (f : Op3) (s : State) : Answer :=
  withIssuer s (slotLanes f none barGrid 0 0)

/-! ## Completion (11 R287; R363) -/

/-- Lanes of a core that wait on an object in a phase other than the given one. -/
def State.barWaiters (s : State) (core off : Nat) (phase : Bool) : List (Nat × Nat) :=
  (s.groups.filter fun e => coreOf e.1 = core).flatMap fun e =>
    (e.2.lanes.filter fun t => t.2.wait = .coreBar off (!phase)).map fun t => (e.1, t.1)

/-- Lanes that waited advance by one. -/
def State.advanceLanes (s : State) (ls : List (Nat × Nat)) : State :=
  ls.foldl (fun s w => s.modGroup w.1 (·.advance w.2)) s

/-- The same at a barrier that has completed, which orders them after the arrivals (14 R343). -/
def State.releaseLanes (s : State) (ls : List (Nat × Nat)) : State := (s.syncLanes ls).advanceLanes ls

/-- CORE_BARRIER_PHASE_COMPLETE (11 R287; R360): the phase completes if it can, and the lanes whose phase has passed
advance. -/
def execCoreBarrierPhaseComplete (core off : Nat) (s : State) : Answer :=
  .next <|
    let o := s.barObj core off
    let s := if o.ready then s.write .pad (place (2 ^ 19 * core + off) 8 o.complete.word) else s
    s.releaseLanes (s.barWaiters core off (s.barObj core off).phase)

/-- Threads of a team that have not exited, continuations included. -/
def State.liveOf (s : State) (tk : Nat) : Nat :=
  (s.groups.filter fun e => e.2.team = tk).foldl (fun n e => n + (e.2.lanes.filter fun t => !t.2.exited).length) 0
    + ((s.teams.get? tk).map fun t => (t.conts.filter fun c => !c.th.exited).length).getD 0

/-- Threads of a saved team that have not exited. -/
def SavedTeam.live (v : SavedTeam) : Nat :=
  v.groups.foldl (fun n e => n + (e.2.2.lanes.filter fun t => !t.2.exited).length) v.team.conts.length

/-- The arrivals that a slot's phase expects (R361). -/
def State.expected (s : State) (b : BarSlot) : Nat :=
  match b.mode with
  | some (some n) => n
  | _ =>
    if b.isGrid then
      (s.teams.filter fun e => e.2.grid = b.owner).foldl (fun n e => n + s.liveOf e.1) 0
        + (s.savedTeams.filter fun e => e.2.team.grid = b.owner).foldl (fun n e => n + e.2.live) 0
    else s.liveOf b.owner

/-- A phase of a slot in use can complete (R363). -/
def State.slotReady (s : State) (b : BarSlot) : Bool := b.mode.isSome && s.expected b ≤ b.arrived && b.broken.isNone

/-- Lanes that wait on a slot. -/
def State.slotWaiters (s : State) (unit slot : Nat) : List (Nat × Nat) :=
  s.groups.flatMap fun e => (e.2.lanes.filter fun t =>
    match t.2.wait with
    | .unitBar u m _ => u = unit && m = slot
    | _ => false).map fun t => (e.1, t.1)

/-- The lanes of a saved team that wait on its grid's slot advance with the others, so that they do not resume waiting on a phase
that has passed (R363, R364). -/
def SavedTeam.passed (v : SavedTeam) (grid unit slot : Nat) (seen : Tbl Nat) : SavedTeam :=
  let on (t : Thread) : Thread :=
    match t.wait with
    | .unitBar u m _ => if u = unit && m = slot then ({ t with wait := .none, lpc := t.lpc + 1 } : Thread).sees seen else t
    | _ => t
  if v.team.grid ≠ grid then v
  else { v with groups := v.groups.map fun x => (x.1, x.2.1, { x.2.2 with lanes := x.2.2.lanes.map fun e => (e.1, on e.2) }) }

/-- The same for every saved team of the grid whose slot completes. -/
def State.passSaved (s : State) (b : BarSlot) (unit slot : Nat) (seen : Tbl Nat) : State :=
  if !b.isGrid then s
  else { s with savedTeams := s.savedTeams.map fun (e : Nat × SavedTeam) => (e.1, e.2.passed b.owner unit slot seen) }

/-- What happens before the completion of a slot's phase: all that its arriving threads have made or seen, those of saved teams
included (14 R343). -/
def State.slotSeen (s : State) (b : BarSlot) (unit slot : Nat) : Tbl Nat :=
  let saved : List (Tbl Nat) := if !b.isGrid then [] else
    s.savedTeams.flatMap fun (v : Nat × SavedTeam) => if v.2.team.grid ≠ b.owner then [] else
      v.2.groups.flatMap fun x => x.2.2.lanes.filterMap fun t => match t.2.wait with
        | .unitBar u m _ => if u = unit && m = slot then some (t.2.seen.put (agentOf v.1 t.2.tid) s.nextId) else none
        | _ => none
  saved.foldl Tbl.join (s.knownTo (s.slotWaiters unit slot))

/-- BARRIER_SLOT_COMPLETE (R363): the waiters advance, and each released lane's core empties its L1. -/
def execBarrierSlotComplete (unit slot : Nat) (s : State) : Answer :=
  .next (match s.barSlots.get? (4096 * unit + slot) with
    | some b =>
      if s.slotReady b then
        let b' : BarSlot := { b with phase := !b.phase, arrived := 0, mode := none }
        let s : State := { s with barSlots := s.barSlots.put (4096 * unit + slot) b' }
        let seen := s.slotSeen b unit slot
        let s := s.passSaved b unit slot seen
        let ws := s.slotWaiters unit slot
        let s := ws.foldl (fun s w => s.modThread w.1 w.2 (·.sees seen)) s
        ((ws.map fun w => coreOf w.1).dedup).foldl (fun s c => s.modCore c Core.l1Clear) (s.advanceLanes ws)
      else s
    | none => s)

/-- Breaks a slot: every lane that waits on it traps with class 12, its counter at the instruction (R365). -/
def State.breakSlot (s : State) (unit slot die : Nat) : State :=
  match s.barSlots.get? (4096 * unit + slot) with
  | none => s
  | some b =>
    let b' : BarSlot := { b with broken := some die }
    let s : State := { s with barSlots := s.barSlots.put (4096 * unit + slot) b' }
    let ws := s.slotWaiters unit slot
    let s := ws.foldl (fun s w => s.modThread w.1 w.2 fun t => { t with wait := .none }) s
    ((ws.map (·.1)).dedup).foldl (fun s gk => s.raiseIn gk
      ((ws.filter fun w => w.1 = gk).map fun w => ⟨w.2, 12, detailBroken (b.ident unit slot 0) die⟩)) s

end Sys2Proof.Machine
end

