-- ==== Sys2Proof/Machine/Tiles.lean ====
section
/-! DEFINITION. Tile maps and the elements they name (12_matrix R291 to R295), exact products of a multiply (08_numbers R194,
R195), footprints with their hazards (11_memory_ops R273 to R276), `tmset` and `tmget`. -/

/-- Block-scaled types (08 R185). -/
def Sys2Proof.Ty.scaled : Sys2Proof.Ty → Bool
  | .mx8 | .mx6 | .mx4 => true
  | _ => false

namespace Sys2Proof.Machine

/-! ## Fields of a tile map (R291) -/

/-- A field of a tile map. -/
def tmField (m : QWord) (lo w : Nat) : Nat := m.toNat / 2 ^ lo % 2 ^ w

/-- SCALE of a tile map (12 R291). -/
def tmScale (m : QWord) : Nat := tmField m 96 19
/-- STRIDE of a tile map (12 R291). -/
def tmStride (m : QWord) : Nat := tmField m 64 20
/-- COLS of a tile map (12 R291). -/
def tmCols (m : QWord) : Nat := tmField m 56 7
/-- ROWS of a tile map (12 R291). -/
def tmRows (m : QWord) : Nat := tmField m 48 7
/-- ADDR of a tile map (12 R291). -/
def tmAddr (m : QWord) : Nat := tmField m 0 25
/-- TYPE of a tile map (12 R291). -/
def tmTy (m : QWord) : Ty := Ty.ofCode (tmField m 32 6)
/-- The element type of a tile map (12 R291). -/
def tmEt (m : QWord) : Ty := Ty.ofCode (tmField m 40 6)

/-- The map is in `.ks` space. -/
def tmKs (m : QWord) : Bool := tmField m 25 2 = 1

/-- An element format agrees with a type: one of its formats, or `none` for a type without scales. -/
def etAgrees (t e : Ty) : Bool :=
  match t with
  | .mx8 => e = .e4m3 || e = .e5m2
  | .mx6 => e = .e3m2 || e = .e2m3
  | .mx4 => e = .e2m1
  | _ => e = .none

/-- Bits of an element (R292). -/
def tmWidth (t e : Ty) : Nat :=
  match (if t.scaled then e else t) with
  | .e2m1 => 4
  | .e3m2 | .e2m3 => 6
  | .i8 | .e4m3 | .e5m2 => 8
  | .f16 | .bf16 => 16
  | _ => 32

/-- Bytes of a row of `n` elements. -/
def rowBytes (t e : Ty) (n : Nat) : Nat := (n * tmWidth t e + 7) / 8

/-- The bytes of a row of a tile map (12 R292). -/
def tmRowBytes (m : QWord) : Nat := rowBytes (tmTy m) (tmEt m) (tmCols m)

/-- The core and offset at which a map begins, for the part of an operation on a core. -/
def tmCore (core : Nat) (m : QWord) : Nat := if tmKs m then (ksPlace core (tmAddr m)).1 else core
/-- The offset of a tile map in its core's scratchpad (12 R292). -/
def tmOff (m : QWord) : Nat := tmAddr m % 2 ^ 19

/-- The element interval, and the scale interval for `n` rows or columns (R292). -/
def tmElems (m : QWord) : Nat × Nat := (tmOff m, tmStride m * (tmRows m - 1) + tmRowBytes m)
/-- The scale interval of a tile map, for `n` rows or columns (12 R292). -/
def tmScales (m : QWord) (n : Nat) : Nat × Nat := (tmScale m, if (tmTy m).scaled then 2 * n else 0)

/-- Formats of a tile map (R291), and of the three classes of R295. -/
def tmTypes : List Ty := [.i8, .i32, .f16, .bf16, .f32, .e4m3, .e5m2, .e3m2, .e2m3, .e2m1, .mx8, .mx6, .mx4]

/-- The class of a multiply format: 1 integer, 2 narrow float, 3 wide float, 0 none. -/
def mulClass : Ty → Nat
  | .i8 => 1
  | .e4m3 | .e5m2 | .e3m2 | .e2m3 | .e2m1 | .mx8 | .mx6 | .mx4 => 2
  | .f16 | .bf16 => 3
  | _ => 0

/-- The number of the first check of R293 that a value fails. -/
def tmCheck (m : QWord) : Option Nat :=
  let t := tmTy m
  let e := tmEt m
  let rb := tmRowBytes m
  if [(115, 13), (84, 12), (63, 1), (55, 1), (46, 2), (38, 2), (27, 5)].any fun f => tmField m f.1 f.2 ≠ 0 then some 1
  else if 2 ≤ tmField m 25 2 || (!tmKs m && tmField m 19 6 ≠ 0) then some 2
  else if tmAddr m % 16 ≠ 0 then some 3
  else if !(tmTypes.contains t && (Ty.ofCode? (tmField m 40 6)).isSome && etAgrees t e) then some 4
  else if !(1 ≤ tmRows m && tmRows m ≤ 64 && 1 ≤ tmCols m && tmCols m ≤ 64) then some 5
  else if tmStride m % 16 ≠ 0 || tmStride m < rb then some 6
  else if tmScale m ≠ 0 && !t.scaled then some 7
  else if 0x60000 < (tmElems m).1 + (tmElems m).2 || 0x60000 < tmScale m + (tmScales m (max (tmRows m) (tmCols m))).2 then some 8
  else none

/-- `tmset` (R293). -/
def execTmset (f : MatF) (s : State) : Answer :=
  withIssuer s fun k s =>
    let g := s.group k.gk
    let v : QWord := BitVec.ofNat 128 (groupVal g .b32 4 f.a)
    if !guardG g f.h k then groupMode f.h id k s
    else match tmCheck v with
      | some c => trapAll k 1 (detailWord k.word 9 (0x10 + c)) s
      | none => groupMode f.h (fun g => match f.d with | .tmap i => { g with tm := g.tm.write 0 i v } | _ => g) k s

/-- `tmget` (R293). -/
def execTmget (f : MatF) (s : State) : Answer :=
  withIssuer s fun k s =>
    groupMode f.h (fun g => match f.a with | .tmap i => g.write 4 f.d (g.tileMap i).toNat | _ => g) k s

/-! ## Elements -/

/-- The value of an element's code. -/
def elemValue (t e : Ty) (code : Nat) : FVal :=
  let ty := if t.scaled then e else t
  if ty.isInt then let v := intVal ty code; .fin (decide (v < 0)) v.natAbs 0
  else ty.fmt.decode code

/-- Scales a value by an E8M0 code; a NaN scale makes every element a NaN (08 R185). -/
def scaleValue (x : Nat) (v : FVal) : FVal :=
  if x = 255 then .nan false
  else match v with
    | .fin n m e => .fin n m (e + x - 127)
    | v => v

/-- Codes of row `i` of a map whose elements lie on a core. -/
def State.tmRow (s : State) (core : Nat) (m : QWord) (i : Nat) : List Nat :=
  let w := tmWidth (tmTy m) (tmEt m)
  let v := s.load .pad (2 ^ 19 * core + tmOff m + tmStride m * i) (tmRowBytes m)
  (List.range (tmCols m)).map fun j => v / 2 ^ (w * j) % 2 ^ w

/-- The scale code of line `i` (a row of A, a column of B) for the half `h`; 127 without scales (08 R194). -/
def State.tmScaleAt (s : State) (core : Nat) (m : QWord) (i h : Nat) : Nat :=
  if (tmTy m).scaled then s.load .pad (2 ^ 19 * core + tmScale m + 2 * i + h) 1 else 127

/-- Some byte that an operation reads through a map is poisoned: its rows, and the scales of `n` lines for `d` positions
along them. -/
def State.tmPoisoned (s : State) (core : Nat) (m : QWord) (n d : Nat) : Bool :=
  ((List.range (tmRows m)).any fun i => s.poisoned .pad (2 ^ 19 * core + tmOff m + tmStride m * i) (tmRowBytes m)) ||
    ((tmTy m).scaled && (List.range n).any fun i =>
      s.poisoned .pad (2 ^ 19 * core + tmScale m + 2 * i) (if d ≤ 32 then 1 else 2))

/-- 64 positions along K of a list of values, none beyond its end. -/
def padK (l : List FVal) : List (Option FVal) := (List.range 64).map fun k => l[k]?

/-- The rows of an A map as values, scaled (R299). -/
def State.aRows (s : State) (core : Nat) (m : QWord) : List (List (Option FVal)) :=
  let c := tmCore core m
  (List.range (tmRows m)).map fun i =>
    padK ((s.tmRow c m i).mapIdx fun j x => scaleValue (s.tmScaleAt c m i (j / 32)) (elemValue (tmTy m) (tmEt m) x))

/-- The columns of a B map as values, scaled. -/
def State.bCols (s : State) (core : Nat) (m : QWord) : List (List (Option FVal)) :=
  let c := tmCore core m
  let rows := (List.range (tmRows m)).map fun k => s.tmRow c m k
  (List.range (tmCols m)).map fun n =>
    padK (rows.mapIdx fun k r => scaleValue (s.tmScaleAt c m n (k / 32)) (elemValue (tmTy m) (tmEt m) (r.getD n 0)))

/-- One product; a position that either side lacks gives +0, and integers have one zero (R299). -/
def product (int : Bool) (a b : Option FVal) : FVal :=
  match a, b with
  | some x, some y =>
    match mulTerm x y with
    | .fin n m e => .fin (n && !(int && m = 0)) m e
    | v => v
  | _, _ => .fin false 0 0

/-- The four partials of one output, in order (08 R194, R195). -/
def partials (int : Bool) (a b : List (Option FVal)) : List Nat :=
  let ps := List.zipWith (product int) a b
  (List.range 4).map fun h => (fmt32.sumVals .rn false ((ps.drop (16 * h)).take 16)).1

/-- Partials added to an accumulator element in order, each addition rounded. -/
def accumulate (c : Nat) (ps : List Nat) : Nat := ps.foldl (fun c p => (fmt32.add .rn c p).1) c

/-! ## Footprints (11 R273 to R276) -/

/-- The earlier accesses in flight that an engine waits for: those that happen before what the group does now, its own and those of
groups that it has synchronised with (11 R276; 14 R353, R354). DEDUCED (log 26). -/
def State.earlier (s : State) (gk : Nat) (reads writes : List Foot) : List Nat :=
  ((s.seenFlights gk).filter fun e => !e.2.isPrefetch &&
    footsMeet [e.2.foot] (if e.2.writes then reads ++ writes else writes)).map (·.1)

/-- None of these accesses is in flight any more. -/
def State.landed (s : State) (ids : List Nat) : Bool := ids.all fun id => (s.flights.get? id).isNone

/-- A footprint-table entry is free (32 a core). DEDUCED (log 26). -/
def Core.footFree (c : Core) : Bool := c.foots.length < 32

/-- Takes an entry, numbered in order. DEDUCED (log 26). -/
def State.takeFoot (s : State) (core : Nat) (e : FootEntry) : State × Nat :=
  let (id, s) := s.fresh
  (s.modCore core fun c => { c with foots := c.foots.put id e }, id)

/-- An entry may begin: none of its team's earlier entries in the table stands in its way (11 R274). DEDUCED (log 26). -/
def Core.footReady (c : Core) (id : Nat) : Bool :=
  match c.foots.get? id with
  | none => true
  | some n =>
    (c.foots.filter fun e => e.1 < id && e.2.team = n.team).all fun e =>
      !footsMeet n.reads e.2.writes && !footsMeet n.writes e.2.writes && (e.2.readDone || !footsMeet n.writes e.2.reads)

/-- An entry has finished reading. -/
def Core.footRead (c : Core) (id : Nat) : Core :=
  { c with foots := c.foots.modify id fun e => { e with readDone := true } }

/-- The extent of a map as footprints, for `n` scale lines (R292). -/
def tmFoots (core : Nat) (m : QWord) (n : Nat) : List Foot :=
  let c := tmCore core m
  padFoot c (tmElems m).1 (tmElems m).2 :: (if (tmTy m).scaled then [padFoot c (tmScales m n).1 (tmScales m n).2] else [])

/-- The detail of an extent outside the scratch run: layout M with the address of the element or scale interval.
DEDUCED (log 27). -/
def detailExtent (core : Nat) (m : QWord) (lo : Nat) : QWord :=
  let a := if tmKs m then 2 ^ 19 * (tmCore core m % 64) + lo else lo
  detailM a 0 8 0 (if tmKs m then 2 else 1)

/-- The first interval of a map that leaves the team's scratch run on its core (10 R229, R230). -/
def mapOutside (t : Team) (p : Packet) (core : Nat) (m : QWord) (n : Nat) : Option QWord :=
  ((tmFoots core m n).find? fun f => !(t.cores.contains f.unit && inScratch t p f.lo (f.hi - f.lo))).map fun f =>
    detailExtent core m f.lo

end Sys2Proof.Machine
end

