-- ==== Sys2Proof/Machine/Residency.lean ====
section
/-! DEFINITION. Weight residencies (13_residency R311 to R335): handles, allocation and reclaim, block loads with watching,
pins, state and quotas, and the refill of an absent residency. -/

namespace Sys2Proof.Machine

/-! ## Formats and handles (R311, R314 to R316) -/

/-- Blocks of a residency on each core. -/
def blockCount (t e : Ty) (ns : Nat) : Nat :=
  match tmWidth t e with
  | 4 => 2 * (ns + 1)
  | 16 => (ns + 1) / 2
  | _ => ns + 1

/-- The blocks of a residency (13 R311). -/
def Res.count (r : Res) : Nat := blockCount r.ty r.et r.ns

/-- A failed handle check: the cause of class 14, with the residency that causes 1 to 3 found. -/
inductive HandleAnswer where
  | ok (res : Nat)
  | bad (cause : Nat)
deriving DecidableEq, Repr

/-- The checks of R316 in order. `form` is PAIR as the form asks for it. A team core keeps its number within its cluster
across a save (17 R413), so CORE is compared with the issuing core's. DEDUCED (log 27). -/
def State.handle (s : State) (gk : Nat) (h : Word) (form : Option Bool) (blk : Nat) (half : Bool) : HandleAnswer :=
  let core := coreOf gk
  let pair := bitOf h 13
  if h.toNat / 2 ^ 8 % 2 ^ 5 ≠ 0 || h.toNat / 2 ^ 14 % 2 ^ 6 ≠ core % 64 then .bad 1
  else if form.any (· ≠ pair) then .bad 2
  else match s.residencies.find? fun e =>
      e.2.team = (s.group gk).team && e.2.core = core && e.2.first = h.toNat / 16 % 16 && e.2.ns = h.toNat % 16
        && e.2.serial = h.toNat / 2 ^ 20 && !(e.2.revoked.any (· < s.clock)) with
    | none => .bad 3
    | some (k, r) => if r.count ≤ blk || (half && !pair) then .bad 4 else .ok k

/-- The detail of class 14. -/
def detailHandle (h : Word) (cause : Nat) : QWord := detailOf (bytesOf h.toNat 4 ++ bytesOf cause 1)

/-- An instruction that names a residency has issued (R319). -/
def State.useRes (s : State) (k : Nat) : State := s.modRes k fun r => { r with used := s.clock }

/-! ## Slots -/

/-- The first physical slot of a residency on a core. -/
def State.resSlot (s : State) (r : Res) (core : Nat) : Nat :=
  (((s.teams.get? r.team).map fun t => t.wrun.read 0 core).getD 0) + r.first

/-- The core of a half. -/
def Res.halfCore (r : Res) (half : Nat) : Nat := r.core + half

/-- Position of a weight in its slots: the slot of the run, and the low bit and width of its field (R311). -/
def weightPlace (t e : Ty) (blk : Nat) : List (Nat × Nat × Nat) :=
  match tmWidth t e with
  | 4 => [(blk / 2, 4 * (blk % 2), 4)]
  | 6 => [(blk, 0, 6)]
  | 16 => [(2 * blk, 0, 8), (2 * blk + 1, 0, 8)]
  | _ => [(blk, 0, 8)]

/-- The code of weight (k, n) of a block. -/
def State.weight (s : State) (core slot : Nat) (t e : Ty) (blk k n : Nat) : Nat :=
  ((weightPlace t e blk).mapIdx fun i p =>
    let b := (s.weights.read 0 (((16 * core + slot + p.1) * 64 + k) * 64 + n)).toNat
    b / 2 ^ p.2.1 % 2 ^ p.2.2 * 2 ^ (8 * i)).sum

/-- Writes the code of weight (k, n). -/
def State.setWeight (s : State) (core slot : Nat) (t e : Ty) (blk k n code : Nat) : State :=
  let put (w : Tbl Byte) (i : Nat) (p : Nat × Nat × Nat) : Tbl Byte :=
    let a := ((16 * core + slot + p.1) * 64 + k) * 64 + n
    let b := (w.read 0 a).toNat
    let v := code / 2 ^ (8 * i) % 2 ^ p.2.2
    w.write 0 a (BitVec.ofNat 8 (b - b / 2 ^ p.2.1 % 2 ^ p.2.2 * 2 ^ p.2.1 + v * 2 ^ p.2.1))
  let ps := weightPlace t e blk
  { s with weights := (List.range ps.length).foldl (fun w i => put w i (ps.getD i (0, 0, 0))) s.weights }

/-- The scale entry of a block: its position in the core's scale store (R311). DESIGN CHOICE (log 2). -/
def scaleEntry (core slot blk : Nat) : Nat := 32 * core + (2 * slot + blk) % 32

/-- The columns of a block as values with their scales (R299, R311). -/
def State.blockCols (s : State) (core slot : Nat) (t e : Ty) (blk : Nat) : List (List (Option FVal)) :=
  (List.range 64).map fun n => padK ((List.range 64).map fun k =>
    let x := if t.scaled then ((s.scales.read [] (scaleEntry core slot blk)).getD (2 * n + k / 32) 0).toNat else 127
    scaleValue x (elemValue t e (s.weight core slot t e blk k n)))

/-- Sets the slots of a new residency to zero and their scales to the code 127 (R313). DESIGN CHOICE (log 2). -/
def State.zeroSlots (s : State) (core slot n : Nat) : State :=
  { s with
    weights := s.weights.dropRange ((16 * core + slot) * 4096) ((16 * core + slot + n) * 4096)
    scales := (List.range (2 * n)).foldl (fun t i => t.put (32 * core + 2 * slot + i) (List.replicate 128 127)) s.scales }

/-! ## Reading a source (R322, R333) -/

/-- Virtual lines of a global source. -/
def sourceLines (r : Res) (a stride : Nat) : List Nat :=
  let lines (lo n : Nat) : List Nat := (List.range ((lo + n - 1) / 128 - lo / 128 + 1)).map (· + lo / 128)
  (lines a (63 * stride + rowBytes r.ty r.et 64) ++ (if r.ty.scaled then lines (a + 64 * stride) 128 else [])).dedup

/-- What reading a source gives: the rows read in full, the scales if all were read, and the status. -/
structure SourceRead where
  rows : List (List Nat)
  scales : Option (List Byte)
  status : Nat
deriving DecidableEq, Repr

/-- Translates and reads bytes of a row one by one; a failure gives its status. -/
def State.readGlobal (s : State) (ck a n : Nat) : Except Nat (List Byte) :=
  (List.range n).foldl (fun acc i =>
    match acc with
    | .error e => .error e
    | .ok l =>
      match s.xlatNow ck (a + i) .read with
      | .ok pa _ => if s.poisoned .mem pa 1 then .error 8 else .ok (l ++ [s.byte .mem pa])
      | .poison => .error 8
      | .remote e => if s.peerUp ck e then (s.peerByte (a + i)).map (l ++ [·]) else .error 7
      | .fault .. => .error 7) (.ok [])

/-- Reads rows in ascending order until one fails. -/
def readRows (row : Nat → Except Nat (List Byte)) (w : Nat) : Nat → Nat → List (List Nat) → List (List Nat) × Nat
  | 0, _, acc => (acc, 0)
  | n + 1, i, acc =>
    match row i with
    | .error e => (acc, e)
    | .ok b =>
      let v := ofBytes b
      readRows row w n (i + 1) (acc ++ [(List.range 64).map fun j => v / 2 ^ (w * j) % 2 ^ w])

/-- Reads a block's source as it stands now. -/
def State.readSource (s : State) (ck core : Nat) (r : Res) : BlockSrc → SourceRead
  | .none => ⟨List.replicate 64 (List.replicate 64 0), some (List.replicate 128 127), 0⟩
  | .map m =>
    let c := tmCore core m
    let at' (a n : Nat) : Except Nat (List Byte) :=
      if s.poisoned .pad (2 ^ 19 * c + a) n then .error 8 else .ok (s.bytes .pad (2 ^ 19 * c + a) n)
    let (rows, st) := readRows (fun i => at' (tmOff m + tmStride m * i) (tmRowBytes m)) (tmWidth r.ty r.et) 64 0 []
    if st ≠ 0 || !r.ty.scaled then ⟨rows, none, st⟩
    else match at' (tmScale m) 128 with
      | .ok b => ⟨rows, some b, 0⟩
      | .error e => ⟨rows, none, e⟩
  | .global a stride =>
    let rb := rowBytes r.ty r.et 64
    let (rows, st) := readRows (fun i => s.readGlobal ck (a.toNat + i * stride.toNat) rb) (tmWidth r.ty r.et) 64 0 []
    if st ≠ 0 || !r.ty.scaled then ⟨rows, none, st⟩
    else match s.readGlobal ck (a.toNat + 64 * stride.toNat) 128 with
      | .ok b => ⟨rows, some b, 0⟩
      | .error e => ⟨rows, none, e⟩

/-- The reads of a global source reach the L2, with the walks of its translations, or leave for a peer (R322; 10 R240; 22
R466). DEDUCED (log 18). -/
def State.touchSource (s : State) (ck : Nat) (r : Res) (src : BlockSrc) : State :=
  match src with
  | .global a stride =>
    (sourceLines r a.toNat stride.toNat).foldl (fun s l =>
      match s.xlat ck (128 * l) .read with
      | (s, .ok pa leaf) => s.l2Touch (pa / 128) (homeSlice pa leaf) (some 6) ck (some (r.team, r.core)) false
      | (s, .remote e) => if s.peerUp ck e then s.askPeer ck e (128 * l) 128 0 [] else s
      | (s, _) => s) s
  | _ => s

/-- Puts what was read into a block of a half. -/
def State.putBlock (s : State) (r : Res) (half blk : Nat) (x : SourceRead) : State :=
  let core := r.halfCore half
  let slot := s.resSlot r core
  let s := (List.range x.rows.length).foldl (fun s k =>
    (List.range 64).foldl (fun s n => s.setWeight core slot r.ty r.et blk k n ((x.rows.getD k []).getD n 0)) s) s
  match x.scales with
  | some b =>
    { s with scales := s.scales.put (scaleEntry core slot blk) b }
  | none => s

/-! ## Allocation (R318, R319) -/

/-- Slots of a function's residencies on a core, absent ones included. -/
def State.heldSlots (s : State) (fn core : Nat) : Nat :=
  let fnOf (tk : Nat) : Nat :=
    let t : Option Team := match s.teams.get? tk with
      | some t => some t
      | none => (s.savedTeams.get? tk).map fun (v : SavedTeam) => v.team
    (((t.bind s.gridOf).map fun (g : Grid) => g.ck).getD 0) / 16
  (s.residencies.filter fun e => (e.2.core = core || (e.2.pair && e.2.core + 1 = core)) && fnOf e.2.team = fn).foldl
    (fun n e => n + e.2.ns + 1) 0

/-- A relative slot of a team's run is held on a core by a residency of the team outside a list. -/
def State.slotHeld (s : State) (tk core x : Nat) (without : List Nat) : Bool :=
  s.residencies.any fun e => e.2.team = tk && (e.2.core = core || (e.2.pair && e.2.core + 1 = core)) &&
    !without.contains e.1 && e.2.first ≤ x && x ≤ e.2.first + e.2.ns

/-- The lowest slot from which `n` slots are free in the team's run on every core. -/
def State.freeRun (s : State) (tk : Nat) (p : Packet) (cores : List Nat) (n : Nat) (without : List Nat) : Option Nat :=
  (List.range 16).find? fun f => f + n ≤ p.wslots &&
    cores.all fun c => (List.range n).all fun i => !s.slotHeld tk c (f + i) without

/-- A queued operation names the residency, or a fill of it is in progress, on one of the cores (R319, R321, R328).
DEDUCED (log 28). -/
def State.resBusy (s : State) (cores : List Nat) (k : Nat) : Bool :=
  cores.any fun c => ((s.core c).mq.any fun o => o.res = k) || (s.core c).fills.any fun f => f.2.res = k

/-- The cores of a residency. -/
def Res.cores (r : Res) : List Nat := if r.pair then [r.core, r.core + 1] else [r.core]

/-- Residencies of a team that a reclaim may take on the cores, least recently used first, ties to the lower first
slot. DEDUCED (log 28). -/
def State.reclaimable (s : State) (tk : Nat) (cores : List Nat) : List Nat :=
  (((s.residencies.filter fun e => e.2.team = tk && e.2.present && !e.2.pin && (e.2.cores.any cores.contains) &&
      !s.resBusy e.2.cores e.1).mergeSort fun a b =>
    a.2.used < b.2.used || (a.2.used = b.2.used && a.2.first ≤ b.2.first)).map (·.1))

/-- The destinations of a residency instruction wait for its result: scalars, and the predicate of every lane of `active`
(R318; 06 R139). -/
def State.awaitResult (s : State) (k : Cursor) (d : Operand) (n pf : Nat) : State :=
  let s := s.modGroup k.gk (·.hold n d)
  if pf = 0 then s
  else s.modGroup k.gk fun g => (lanesOf k.active).foldl (fun g l => g.modThread l (·.hold k.handler 1 (.pred pf))) g

/-- A result arrives at its destinations (R318). -/
def State.giveResult (s : State) (gk team : Nat) (x : Reply) : State :=
  let s := s.modGroup gk (·.deliver x.d x.n 0 (some x.v))
  if x.pf = 0 then s
  else x.lanes.foldl (fun s t => s.onThread team t fun t => (t.unpend [96 + x.pf]).setPred x.pf x.flag) s

/-- The threads of the lanes that execute. -/
def State.activeTids (s : State) (k : Cursor) : List Nat := (lanesOf k.active).map fun l => (s.thread k.gk l).tid

/-- A result goes on its way to its destinations, which wait for it (R318; 06 R139). -/
def State.answer (s : State) (k : Cursor) (d : Operand) (n pf v : Nat) (flag : Bool) : State :=
  let x : Reply := { d := (scalOf d).getD 384, n := n, v := v, pf := pf, lanes := s.activeTids k, flag := flag }
  (s.awaitResult k d n pf).modGroup k.gk fun g => { g with replies := g.replies ++ [x] }

/-- The oldest result on its way to a group arrives. -/
def State.nextReply (s : State) (gk : Nat) : State :=
  match (s.group gk).replies with
  | [] => s
  | x :: rest => (s.modGroup gk fun g => { g with replies := rest }).giveResult gk (s.group gk).team x

/-- Makes a residency at a slot of the team's run. -/
def State.makeRes (s : State) (core tk f : Nat) (i : ResF) : State × Word :=
  let serial := (s.core core).serial
  let (id, s) := s.fresh
  let r : Res :=
    { team := tk, core := core, pair := i.pair, serial := serial, first := f, ns := i.ns, ty := i.ty, et := i.et
      pin := i.pin, present := true, used := s.clock, blocks := [] }
  let s : State := { s with residencies := s.residencies.put id r }
  let s := r.cores.foldl (fun s c => s.zeroSlots c (s.resSlot r c) (i.ns + 1)) s
  let s := s.modCore core fun c => { c with serial := if c.serial = 0xFFF then 1 else c.serial + 1 }
  (s, BitVec.ofNat 32 (serial * 2 ^ 20 + core % 64 * 2 ^ 14 + (if i.pair then 2 ^ 13 else 0) + f * 16 + i.ns))

/-- `ralloc` after its guard: the handle and the status. DEDUCED (log 28). -/
def State.allocate (s : State) (k : Cursor) (i : ResF) : State × Nat × Nat :=
  let g := s.group k.gk
  let core := coreOf k.gk
  match s.teamOf g, (s.teamOf g).bind s.gridOf with
  | some t, some gr =>
    let fn := gr.ck / 16
    let cores := if i.pair then [core, core + 1] else [core]
    if i.pair && (core % 2 ≠ 0 || !t.cores.contains (core + 1)) then (s, 0, 3)
    else if cores.any fun c => (s.fn fn).quota < s.heldSlots fn c + i.ns + 1 then (s, 0, 1)
    else
      let v := s.reclaimable g.team cores
      match (List.range (v.length + 1)).find? fun n => (s.freeRun g.team gr.pkt cores (i.ns + 1) (v.take n)).isSome with
      | none => (s, 0, 2)
      | some n =>
        let f := (s.freeRun g.team gr.pkt cores (i.ns + 1) (v.take n)).getD 0
        let s := (v.take n).foldl (fun s r => s.endResidency r) s
        let (s, h) := s.makeRes core g.team f i
        (s, h.toNat, 0)
  | _, _ => (s, 0, 2)

/-- `ralloc`. DEDUCED (log 28). -/
def execRalloc (f : ResF) (s : State) : Answer :=
  withIssuer s fun k s =>
    groupModeS f.h (fun s =>
      let (s, h, st) := s.allocate k f
      s.answer k f.d 2 f.pf (h + 2 ^ 32 * st) (st ≠ 0)) k s

/-! ## Loading (R321 to R323) -/

/-- Lines of a global source, those whose pages translate for read: physical line and locality of its home slice. -/
def State.watchLines (s : State) (ck : Nat) (r : Res) (a stride : Nat) : List (Nat × Nat) :=
  ((sourceLines r a stride).filterMap fun l =>
    match s.xlatNow ck (128 * l) .read with
    | .ok pa leaf => some (pa / 128, homeSlice pa leaf / 16)
    | _ => none).dedup

/-- The walks of these translations reach the L2 (10 R240, R247). DEDUCED (log 19). -/
def State.watchWalks (s : State) (ck : Nat) (r : Res) (a stride : Nat) : State :=
  (((sourceLines r a stride).map (· / 512)).dedup).foldl (fun s p =>
    if 2 ^ 41 ≤ p || (s.remoteOf ck (p * 65536)).isSome then s else s.walkTouch ck (p * 65536)) s

/-- Drops the watch entries of a block. -/
def State.unwatch (s : State) (k half blk : Nat) : State :=
  { s with watches := s.watches.filter fun w => !(w.res = k && w.half = half && w.blk = blk) }

/-- Every locality has free entries for its lines (4,096 each, R324), the block's old entries still counted. -/
def State.watchRoom (s : State) (ls : List (Nat × Nat)) : Bool :=
  (List.range 8).all fun d =>
    (s.watches.filter fun w => w.loc = d).length + (ls.filter fun l => l.2 = d).length ≤ 4096

/-- The bytes of a global source: its rows, and the scales of a block-scaled format (R322). -/
def sourceFeet (r : Res) (ck : Nat) : BlockSrc → List Foot
  | .global a stride =>
    let row (lo n : Nat) : Foot := { space := 0, unit := ck, lo := lo, hi := lo + n }
    ((List.range 64).map fun i => row (a.toNat + i * stride.toNat) (rowBytes r.ty r.et 64))
      ++ (if r.ty.scaled then [row (a.toNat + 64 * stride.toNat) 128] else [])
  | _ => []

/-- Starts the fill of a block: its stale bit clears, its watches are armed, and its destinations wait (R322). Its reads come
after the group's earlier accesses to their bytes: those of a footprint entry by 11 R276, those in `.gl` in program order. -/
def State.startFill (s : State) (k : Cursor) (f : ResF) (rk core : Nat) (src : BlockSrc) (feet : List Foot) : State :=
  let g := s.group k.gk
  let half := if f.half then 1 else 0
  let reads := ((s.residencies.get? rk).map fun r => sourceFeet r (s.ckOf g) src).getD []
  let (s, foot) := if feet.isEmpty then (s, 0) else
    s.takeFoot (coreOf k.gk) { team := g.team, reads := feet, writes := [], readDone := false, job := false }
  let fill : Fill :=
    { res := rk, half := half, blk := f.blk, src := src, watch := f.watch, gk := k.gk, team := g.team, d := scalOf f.d
      pf := f.pf, lanes := s.activeTids k, foot := foot, after := s.earlier k.gk (feet ++ reads) [], reads := reads }
  let s := s.modRes rk fun r =>
    let b := r.block (32 * half + f.blk)
    { r with blocks := r.blocks.put (32 * half + f.blk) { b with stale := 0, filling := true } }
  let (id, s) := s.fresh
  (s.modCore core fun c => { c with fills := c.fills.put id fill }).awaitResult k f.d 1 f.pf

/-- An `rload` is held: an operation in the queue of the target core names the residency, or a fill of it is in progress on
either half (R321). -/
def State.rloadBusy (s : State) (core : Nat) (r : Res) (k : Nat) : Bool :=
  ((s.core core).mq.any fun o => o.res = k) || r.cores.any fun c => (s.core c).fills.any fun f => f.2.res = k

/-- `rload` from a residency's checks on: `fail` is the first check of R321 that fails. DEDUCED (log 27). -/
def rloadOp (f : ResF) (src : State → Except (Nat × QWord) (BlockSrc × List Foot)) (check : State → Res → Option (Nat × QWord))
    (k : Cursor) (s : State) : State :=
  let g := s.group k.gk
  let h : Word := BitVec.ofNat 32 (groupVal g .b32 1 f.a)
  if !guardG g f.h k then groupMode f.h id k s
  else match s.handle k.gk h none f.blk f.half with
    | .bad c => trapAll k 14 (detailHandle h c) s
    | .ok rk =>
      match s.residencies.get? rk with
      | none => trapAll k 14 (detailHandle h 3) s
      | some r =>
        match check s r, src s with
        | some (c, d), _ => trapAll k c d s
        | none, .error (c, d) => trapAll k c d s
        | none, .ok (b, feet) =>
          let core := r.halfCore (if f.half then 1 else 0)
          if s.rloadBusy core r rk || (!feet.isEmpty && !(s.core (coreOf k.gk)).footFree) then s
          else groupModeS f.h (fun s =>
            let s := s.useRes rk
            let half := if f.half then 1 else 0
            match b with
            | .global a stride =>
              if f.watch then
                let ls := s.watchLines (s.ckOf g) r a.toNat stride.toNat
                let far := (sourceLines r a.toNat stride.toNat).any fun l => (s.remoteOf (s.ckOf g) (128 * l)).isSome
                let s := if far then s else s.watchWalks (s.ckOf g) r a.toNat stride.toNat
                if far || !s.watchRoom ls then s.answer k f.d 1 f.pf 4 true
                else
                  let s := s.unwatch rk half f.blk
                  let s : State := { s with watches := s.watches ++ ls.map fun l =>
                    { line := l.1, loc := l.2, res := rk, half := half, blk := f.blk } }
                  s.startFill k f rk core b feet
              else (s.unwatch rk half f.blk).startFill k f rk core b feet
            | _ => (s.unwatch rk half f.blk).startFill k f rk core b feet) k s

/-- `rload` from a tile map. -/
def execRloadMap (f : ResF) (s : State) : Answer :=
  withIssuer s fun k s =>
    let g := s.group k.gk
    let m := match f.b with | .tmap i => g.tileMap i | _ => 0
    rloadOp f (fun s =>
      match s.teamOf g, s.pktOf g with
      | some t, some p =>
        match mapOutside t p (coreOf k.gk) m 64 with
        | some d => .error (6, d)
        | none => .ok (.map m, tmFoots (coreOf k.gk) m 64)
      | _, _ => .error (6, 0))
      (fun _ r => if tmRows m = 64 && tmCols m = 64 && tmTy m = r.ty && tmEt m = r.et then none
        else some (1, detailWord k.word 9 2)) k s

/-- `rload` from global memory. -/
def execRloadGlobal (f : ResF) (s : State) : Answer :=
  withIssuer s fun k s =>
    let g := s.group k.gk
    let a := groupVal g .b64 2 f.b
    let stride := groupVal g .b64 2 f.a / 2 ^ 32
    rloadOp f (fun _ => .ok (.global (BitVec.ofNat 64 a) (BitVec.ofNat 64 stride), []))
      (fun _ r =>
        let rb := rowBytes r.ty r.et 64
        if a % 16 ≠ 0 || stride % 16 ≠ 0 then some (5, detailM a 0 1 rb 0)
        else if stride < rb then some (1, detailWord k.word 9 6)
        else none) k s

/-- A fill may read now: its accesses are ordered (R322, R262, 11 R274 to R276). -/
def State.fillReady (s : State) (f : Fill) : Bool :=
  s.landed f.after && (s.core (((s.residencies.get? f.res).map (·.core)).getD 0)).footReady f.foot

/-- RLOAD_FILL_COMPLETE (R322): rows before a failing one are replaced; the status goes to its destinations. -/
def execRloadFillComplete (core fill : Nat) (s : State) : Answer :=
  .next (match (s.core core).fills.get? fill with
    | none => s
    | some f =>
      if !s.fillReady f then s
      else match s.residencies.get? f.res with
        | none => s.modCore core fun c => { c with fills := c.fills.del fill }
        | some r =>
          let ck := (((s.teams.get? f.team).bind s.gridOf).map (·.ck)).getD 0
          let x := s.readSource ck r.core r f.src
          let s := ((s.freeIdx).2.touchSource ck r f.src).putBlock r f.half f.blk x
          let s := s.modRes f.res fun r =>
            let b := r.block (32 * f.half + f.blk)
            let b : Block :=
              if x.status = 0 then { b with filling := false, src := f.src, watched := f.watch }
              else { b with filling := false, stale := 2, watched := f.watch }
            { r with blocks := r.blocks.put (32 * f.half + f.blk) b }
          let s := s.modCore core fun c => { c with fills := c.fills.del fill }
          let s := s.modCore r.core fun c => { c with foots := c.foots.del f.foot }
          s.giveResult f.gk f.team
            { d := f.d.getD 384, n := 1, v := x.status, pf := f.pf, lanes := f.lanes, flag := x.status ≠ 0 })

/-! ## Pins, revocation, state and quota (R328 to R330) -/

/-- `rpin`, `runpin` and `rrev`: the handle, the hold, and the effect. -/
def resOp (f : ResF) (act : State → Nat → State) (k : Cursor) (s : State) : State :=
  let g := s.group k.gk
  let h : Word := BitVec.ofNat 32 (groupVal g .b32 1 f.a)
  if !guardG g f.h k then groupMode f.h id k s
  else match s.handle k.gk h none 0 false with
    | .bad c => trapAll k 14 (detailHandle h c) s
    | .ok rk =>
      if s.resBusy (((s.residencies.get? rk).map (·.cores)).getD []) rk then s
      else groupModeS f.h (fun s => act (s.useRes rk) rk) k s

/-- `rpin`. -/
def execRpin (f : ResF) (s : State) : Answer :=
  withIssuer s (resOp f fun s k => s.modRes k fun r => { r with pin := true })
/-- `runpin`. -/
def execRunpin (f : ResF) (s : State) : Answer :=
  withIssuer s (resOp f fun s k => s.modRes k fun r => { r with pin := false })
/-- `rrev`: the residency ends with the clock, and its handle fails from the next one. -/
def execRrev (f : ResF) (s : State) : Answer :=
  withIssuer s (resOp f fun s k => s.modRes k fun r => { r with revoked := some s.clock })

/-- The state word (R329). -/
def State.resWord (s : State) (k : Nat) (r : Res) : Nat :=
  2 ^ 31 + (if r.present then 2 ^ 30 else 0) + (if r.pin then 2 ^ 29 else 0) + (if r.pair then 2 ^ 28 else 0)
    + (if r.refilling || r.cores.any fun c => (s.core c).fills.any fun f => f.2.res = k then 2 ^ 27 else 0)
    + (if s.watches.any fun w => w.res = k then 2 ^ 26 else 0)
    + 2 ^ 20 * r.ty.code + 2 ^ 14 * r.et.code + 2 ^ 8 * r.count

/-- The stale mask: a bit for each block stale on either half. -/
def Res.staleMask (r : Res) : Nat :=
  ((List.range 32).map fun b => if (r.block b).stale ≠ 0 || (r.block (32 + b)).stale ≠ 0 then 2 ^ b else 0).sum

/-- `rstat`. -/
def execRstat (f : ResF) (s : State) : Answer :=
  withIssuer s fun k s =>
    let g := s.group k.gk
    let h : Word := BitVec.ofNat 32 (groupVal g .b32 1 f.a)
    groupModeS f.h (fun s =>
      match s.handle k.gk h none 0 false with
      | .ok rk =>
        match s.residencies.get? rk with
        | some r => (s.useRes rk).answer k f.d 2 0 (s.resWord rk r + 2 ^ 32 * r.staleMask) false
        | none => s.answer k f.d 2 0 0 false
      | .bad _ => s.answer k f.d 2 0 0 false) k s

/-- `rquota` (R330). -/
def execRquota (f : ResF) (s : State) : Answer :=
  withIssuer s fun k s =>
    let g := s.group k.gk
    let fn := groupVal g .b32 1 f.a
    let q := groupVal g .b32 1 f.b
    let all := 2 ^ 32 - 1
    groupModeS f.h (fun s =>
      let out (s : State) (v : Nat) : State := s.answer k f.d 1 0 v false
      if 16 < fn then out s all
      else
        let old := (s.fn fn).quota
        if q = all then out s old
        else if 16 < q then out s all
        else out (s.modFn fn fun x => { x with quota := q }) old) k s

/-! ## Refill (R333) -/

/-- The first operation of a queue that has not executed. -/
def Core.nextOp (c : Core) : Option MatOp := c.mq.find? fun o => !o.done

/-- A residency of the core is absent and the next operation of its queue names it. -/
def State.refillReady (s : State) (core k : Nat) : Bool :=
  match s.residencies.get? k, (s.core core).nextOp with
  | some r, some o => !r.present && o.res = k && r.core = core && o.leader = core
  | _, _ => false

/-- Refills one block from its recorded source; a failure makes it stale with cause 2. DEDUCED (log 28). -/
def State.refillBlock (s : State) (k ck : Nat) (half blk : Nat) : State × Bool :=
  match s.residencies.get? k with
  | none => (s, true)
  | some r =>
    let b := r.block (32 * half + blk)
    if b.filling then (s, true)
    else
      let x := s.readSource ck r.core r b.src
      let s := ((s.freeIdx).2.touchSource ck r b.src).putBlock r half blk x
      if x.status = 0 then (s, true)
      else (s.modRes k fun r =>
        let b := r.block (32 * half + blk)
        { r with blocks := r.blocks.put (32 * half + blk) { b with stale := 2 } }, false)

/-- RESIDENCY_REFILL: it begins, and then every block is read in turn (R329 shows it between); a failed read poisons the
destination of the operation that waits. DEDUCED (log 28). -/
def execResidencyRefill (core k : Nat) (s : State) : Answer :=
  .next (if !s.refillReady core k then s
    else match s.residencies.get? k with
      | none => s
      | some r =>
        if !r.refilling then s.modRes k fun r => { r with refilling := true }
        else
        let ck := (((s.teams.get? r.team).bind s.gridOf).map (·.ck)).getD 0
        let halves := if r.pair then [0, 1] else [0]
        let (s, good) := (halves.flatMap fun h => (List.range r.count).map fun b => (h, b)).foldl
          (fun (a : State × Bool) hb =>
            let (s, g) := a.1.refillBlock k ck hb.1 hb.2
            (s, a.2 && g)) (s, true)
        let s := s.modRes k fun r => { r with present := true, refilling := false }
        if good then s
        else
          let id := ((s.core core).nextOp.map (·.id)).getD 0
          let mark (l : List MatOp) : List MatOp := l.map fun o => if o.id = id then { o with poisoned := true } else o
          let s := s.modCore core fun c => { c with mq := mark c.mq }
          if r.pair then s.modCore (core + 1) fun c => { c with mq := mark c.mq } else s)

end Sys2Proof.Machine
end

