-- ==== Sys2Proof/Machine/Matrix.lean ====
section
/-! DEFINITION. The matrix instructions that enter the queue (12_matrix R289 to R310): their checks and holds at issue, their
execution in queue order, their retirement, and `mwait`. -/

namespace Sys2Proof.Machine

/-! ## What an instruction asks of the queue -/

/-- The parts of an instruction of the queue: pairing (0 none, 1 `.n2`, 2 `.k2`), the maps it reads on the issuing core and on
its follower with the scale lines that an extent counts, the map it writes, and whether the slew limit counts it. -/
structure MatPlan where
  pair : Nat
  /-- A maps, and the maps of `mld` and `mst`: core offset 0 or 1, the map -/
  aMaps : List (Nat × QWord)
  bMaps : List (Nat × QWord)
  /-- the map that `mst` writes -/
  outMap : Option QWord
  /-- the handle's operand of the `mma` forms -/
  handle : Option Word
  slew : Bool
deriving DecidableEq, Repr

/-- The tile map that an operand names, `i` later. -/
def mapOf (g : Group) (o : Operand) (i : Nat) : QWord :=
  match o with
  | .tmap k => g.tileMap (k + i)
  | _ => 0

/-- A multiply from maps, or from a residency (R296). -/
def mulPlan (g : Group) (f : MatF) (pair : Nat) (resident : Bool) : MatPlan :=
  { pair := pair
    aMaps := (0, mapOf g f.a 0) :: (if pair = 2 then [(1, mapOf g f.a 1)] else [])
    bMaps := if resident then [] else (0, mapOf g f.b 0) :: (if pair = 0 then [] else [(1, mapOf g f.b 1)])
    outMap := none
    handle := if resident then some (BitVec.ofNat 32 (groupVal g .b32 1 f.b)) else none
    slew := true }

/-- An instruction that reads or writes one map or none. -/
def mapPlan (reads : List QWord) (out : Option QWord) : MatPlan :=
  { pair := 0, aMaps := reads.map fun m => (0, m), bMaps := [], outMap := out, handle := none, slew := false }

/-- FMT and EFMT of a map are those of the instruction (R297 step 2). -/
def mapAgrees (f : MatF) (m : QWord) : Bool := tmField m 32 6 = f.ty.code && tmField m 40 6 = (if f.ty.scaled then f.et.code else 0)

/-- A map's format is one of R295 with EFMT agreeing. -/
def mapMultiplies (m : QWord) : Bool := mulClass (tmTy m) ≠ 0 && etAgrees (tmTy m) (tmEt m)

/-- The extents of a plan: core, map, scale lines. -/
def MatPlan.extents (p : MatPlan) (core : Nat) : List (Nat × QWord × Nat) :=
  (p.aMaps.map fun e => (core + e.1, e.2, tmRows e.2)) ++ (p.bMaps.map fun e => (core + e.1, e.2, tmCols e.2))
    ++ (p.outMap.toList.map fun m => (core, m, tmRows m))

/-- Footprints read and written (R306). -/
def MatPlan.reads (p : MatPlan) (core : Nat) : List Foot :=
  (p.aMaps.flatMap fun e => tmFoots (core + e.1) e.2 (tmRows e.2))
    ++ (p.bMaps.flatMap fun e => tmFoots (core + e.1) e.2 (tmCols e.2))
/-- The bytes that a planned operation writes on a core (11 R273). -/
def MatPlan.writes (p : MatPlan) (core : Nat) : List Foot := p.outMap.toList.flatMap fun m => tmFoots core m (tmRows m)

/-- The detail of class 13 (13 R326). -/
def detailStale (h : Word) (blk half cause : Nat) : QWord := detailOf (bytesOf h.toNat 4 ++ bytesOf blk 1 ++ bytesOf half 1 ++ bytesOf cause 1)

/-- The accesses in flight that happen before what the group does next and write, or may write, a line that a block watches; those
that a fill of the block comes after it reads (14 R356; 13 R322). -/
def State.writesDue (s : State) (gk r half blk : Nat) : List Flight :=
  let filled : List Nat := s.cores.flatMap fun c =>
    ((c.2.fills.map (·.2)).filter fun f => f.res = r && f.half = half && f.blk = blk).flatMap (·.after)
  ((s.seenFlights gk).filter fun f => f.2.writes && f.2.place = .mem && f.2.remote.isNone && !f.2.chk && !filled.contains f.1 &&
    s.watches.any fun w => w.res = r && w.half = half && w.blk = blk && w.line = f.2.loc / 128).map (·.2)

/-- An atomic that may write nothing (15 R369). -/
def Flight.mayMiss (f : Flight) : Bool :=
  match f.kind with
  | .atomic op _ _ => op = 7
  | _ => false

/-- Why a block counts as stale at the issue of an `mma`: the cause of R325, 0 for none. A write that happens before the issue
counts, though it is in flight (14 R356). DEDUCED (log 27). -/
def State.staleCause (s : State) (gk r half blk : Nat) : Nat :=
  let c := (((s.residencies.get? r).map fun (x : Res) => x.block (32 * half + blk)).getD {}).stale
  if c = 0 && (s.writesDue gk r half blk).any fun f => !f.mayMiss then 1 else c

/-- An `mma` waits while it is open whether an atomic that happens before it writes a line that its block watches. DEDUCED (log
27). -/
def State.casHolds (s : State) (gk r blk : Nat) : Bool :=
  [0, 1].any fun half => (s.writesDue gk r half blk).any Flight.mayMiss

/-- The first check of R297 that fails, with class and detail; otherwise the residency the instruction names, 0 for none. -/
def State.matCheck (s : State) (k : Cursor) (f : MatF) (p : MatPlan) : Except (Nat × QWord) Nat :=
  let g := s.group k.gk
  let core := coreOf k.gk
  let bad (c : Nat) : Except (Nat × QWord) Nat := .error (1, detailWord k.word 9 c)
  match s.teamOf g, s.pktOf g with
  | some t, some pk =>
    let found : Option Res := p.handle.bind fun h =>
      match s.handle k.gk h (some (p.pair ≠ 0)) 0 false with
      | .ok r => s.residencies.get? r
      | .bad _ => none
    if p.pair ≠ 0 && (core % 2 ≠ 0 || !t.cores.contains (core + 1)) then bad 1
    else if !((p.aMaps.all fun e => mapAgrees f e.2) && (p.outMap.all (mapAgrees f)) && p.bMaps.all fun e => mapMultiplies e.2) then bad 2
    else if (p.bMaps.any fun e => mulClass (tmTy e.2) ≠ mulClass f.ty) || (found.any fun r => mulClass r.ty ≠ mulClass f.ty) then
      bad 3
    else if p.pair = 2 && (p.aMaps.map fun e => tmRows e.2).dedup.length ≠ 1 then bad 5
    else match (p.extents core).findSome? fun e => mapOutside t pk e.1 e.2.1 e.2.2 with
      | some d => .error (6, d)
      | none =>
        match p.handle with
        | none => .ok 0
        | some h =>
          match s.handle k.gk h (some (p.pair ≠ 0)) f.blk false with
          | .bad c => .error (14, detailHandle h c)
          | .ok r =>
            match (if p.pair = 0 then [0] else [0, 1]).find? fun half => s.staleCause k.gk r half f.blk ≠ 0 with
            | some half => .error (13, detailStale h f.blk half (s.staleCause k.gk r half f.blk))
            | none => .ok r
  | _, _ => bad 1

/-! ## Holds (R298, R303, R308) -/

/-- The binding holds an instruction: on the follower any, on the leader a pair form of another group (R303). -/
def State.bindHolds (s : State) (gk : Nat) (pair : Bool) : Bool :=
  let core := coreOf gk
  if core % 2 = 1 then (s.core core).bind.isSome else pair && ((s.core core).bind.any (· ≠ gk))

/-- The slew limit holds a multiply of a core (R308). -/
def State.slewHolds (s : State) (core : Nat) : Bool :=
  let step := (s.cluster (clusterOf core)).step
  step ≠ 0 && (s.core core).slewPrev + step ≤ (s.core core).slewNow

/-- The physical tile of an accumulator operand on a core. -/
def Team.tile (t : Team) (core : Nat) : Operand → Nat
  | .acc i => ((t.tiles.get? core).getD []).getD i 0
  | _ => 0

/-- The cores whose queues an instruction enters. -/
def MatPlan.cores (p : MatPlan) (core : Nat) : List Nat := if p.pair = 0 then [core] else [core, core + 1]

/-- Issues an instruction of the queue: checks, holds, then its operation enters (R297, R298). `kind` reads the state at
issue; `post` is what the group's registers show of the issue. DEDUCED (log 27). -/
def matIssue (f : MatF) (acc : Operand) (plan : Group → MatPlan) (kind : Group → MatKind) (post : Group → Group) (k : Cursor)
    (s : State) : State :=
  let g := s.group k.gk
  let core := coreOf k.gk
  let p := plan g
  if !guardG g f.h k then groupMode f.h id k s
  else match s.matCheck k f p with
    | .error (c, d) => trapAll k c d s
    | .ok r =>
      let cs := p.cores core
      let needFoot := !(p.aMaps.isEmpty && p.outMap.isNone)
      if (cs.any fun c => 16 ≤ (s.core c).mq.length) || (needFoot && !(s.core core).footFree) || s.bindHolds k.gk (p.pair ≠ 0) ||
          (r ≠ 0 && s.casHolds k.gk r f.blk) then s
      else if p.slew && cs.any s.slewHolds then s.setThr (s.ckOf g) 8
      else match s.teamOf g with
        | none => groupMode f.h id k s
        | some t =>
          groupModeS f.h (fun s =>
            let after := s.earlier k.gk (p.reads core) (p.writes core)
            let (s, foot) := if needFoot then
                s.takeFoot core { team := g.team, reads := p.reads core, writes := p.writes core, readDone := false, job := false }
              else (s, 0)
            let (id, s) := s.fresh
            let op : MatOp :=
              { id := id, gk := k.gk, team := g.team, tile := t.tile core acc, tile2 := t.tile (core + 1) acc, ty := f.ty
                kind := kind g, foot := foot, res := r, after := after, done := false, poisoned := false, leader := core
                pair := p.pair ≠ 0 }
            let s := cs.foldl (fun s c => s.modCore c fun q =>
              { q with
                mq := q.mq ++ [op]
                slewNow := if p.slew then q.slewNow + 1 else q.slewNow
                bind := if p.pair ≠ 0 then some k.gk else q.bind }) s
            let s := if r = 0 then s else s.useRes r
            s.modGroup k.gk fun g => post { g with lastOp := id }) k s

/-! ## The instructions -/

/-- The multiply that an instruction asks for. -/
def mulKind (f : MatF) (p : MatPlan) : MatKind :=
  let at' (l : List (Nat × QWord)) (i : Nat) : QWord := ((l[i]?).map (·.2)).getD 0
  .mul p.pair (at' p.aMaps 0) (at' p.aMaps 1) f.blk (at' p.bMaps 0) (at' p.bMaps 1)

/-- A multiply instruction (12 R297, R298). -/
def mulOp (f : MatF) (pair : Nat) (resident : Bool) (s : State) : Answer :=
  withIssuer s (matIssue f f.d (fun g => mulPlan g f pair resident) (fun g => mulKind f (mulPlan g f pair resident)) id)

/-- `mma`. -/
def execMma (f : MatF) (s : State) : Answer := mulOp f 0 true s
/-- `mma.n2`. -/
def execMmaN2 (f : MatF) (s : State) : Answer := mulOp f 1 true s
/-- `mma.k2`. -/
def execMmaK2 (f : MatF) (s : State) : Answer := mulOp f 2 true s
/-- `mmt`. -/
def execMmt (f : MatF) (s : State) : Answer := mulOp f 0 false s
/-- `mmt.n2`. -/
def execMmtN2 (f : MatF) (s : State) : Answer := mulOp f 1 false s
/-- `mmt.k2`. -/
def execMmtK2 (f : MatF) (s : State) : Answer := mulOp f 2 false s
/-- `mzero` (R300). -/
def execMzero (f : MatF) (s : State) : Answer :=
  withIssuer s (matIssue f f.d (fun _ => mapPlan [] none) (fun _ => .zero) id)
/-- `mld` (R301). -/
def execMld (f : MatF) (s : State) : Answer :=
  withIssuer s (matIssue f f.d (fun g => mapPlan [mapOf g f.a 0] none) (fun g => .ld f.rm (mapOf g f.a 0)) id)
/-- `mst` (R301). -/
def execMst (f : MatF) (s : State) : Answer :=
  withIssuer s (matIssue f f.a (fun g => mapPlan [] (some (mapOf g f.d 0))) (fun g => .st f.rm (mapOf g f.d 0)) id)

/-- Registers that `mrow` writes in a lane. -/
def mrowRegs (ty : Ty) : Nat := if ty = .f32 then 2 else 1

/-- `mrow` (R302): its destinations wait until the operation executes (R290). -/
def execMrow (f : MatF) (s : State) : Answer :=
  withIssuer s fun k s =>
    let ls := lanesOf k.active
    matIssue f f.a (fun _ => mapPlan [] none)
      (fun g => .row f.rm f.ty ((groupVal g .b32 1 f.b + f.row) % 64)
        (ls.map fun l => (l, (s.thread k.gk l).tid, (s.thread k.gk l).destEntry k.handler f.d)))
      (fun g => ls.foldl (fun g l => g.modThread l (·.hold k.handler (mrowRegs f.ty) f.d)) g) k s

/-! ## Execution in queue order -/

/-- The location of an accumulator element. -/
def accAt (core tile i j : Nat) : Nat := ((16 * core + tile) * 64 + i) * 64 + j

/-- The columns of B for a part: a block of the residency, or a map. -/
def State.bSource (s : State) (o : MatOp) (core blk : Nat) (bMap : QWord) : List (List (Option FVal)) :=
  match s.residencies.get? o.res with
  | some r => s.blockCols core (s.resSlot r core) r.ty r.et blk
  | none => s.bCols core bMap

/-- One part of a multiply (R299). -/
def State.mulPart (s : State) (int : Bool) (rows cols : List (List (Option FVal))) (core tile : Nat) : State :=
  { s with acc := (rows.mapIdx fun i a => (i, a)).foldl (fun t ia =>
      (cols.mapIdx fun n b => (n, b)).foldl (fun t nb =>
        let p := accAt core tile ia.1 nb.1
        t.write 0 p (BitVec.ofNat 32 (accumulate (t.read 0 p).toNat (partials int ia.2 nb.2)))) t) s.acc }

/-- Poisons a tile (R309). -/
def State.poisonTile (s : State) (core tile : Nat) (yes : Bool) : State :=
  if yes then { s with accPoison := addTo s.accPoison (16 * core + tile) } else s

/-- A tile loses its poison (12 R309). -/
def State.clearTile (s : State) (core tile : Nat) : State := { s with accPoison := dropFrom s.accPoison (16 * core + tile) }

/-- A loaded element as binary32: exact, a NaN keeping its bits; an integer rounded (R301; 08 R182). -/
def mldValue (rm : Rm) (t : Ty) (x : Nat) : Nat :=
  match t with
  | .f32 => x
  | .bf16 => x * 2 ^ 16
  | .f16 =>
    match fmt16.decode x with
    | .nan _ => x / 2 ^ 15 * 2 ^ 31 + 0x7F800000 + x % 2 ^ 10 * 2 ^ 13
    | v => (fmt32.convert .rn 0 v).1
  | _ => let v := intVal .i32 x; (fmt32.convert rm 0 (.fin (decide (v < 0)) v.natAbs 0)).1

/-- An accumulator element in a target format (R301; 08 R189, R190). -/
def mstValue (rm : Rm) (t : Ty) (x : Nat) : Nat :=
  let v := fmt32.decode x
  if t.isInt then (v.toInt rm true t.slot).1 else (t.fmt.convert rm 0 v).1

/-- Poison that a multiply reads through its maps. -/
def State.mulPoison (s : State) (core : Nat) (aMap : QWord) (bMap : Option QWord) : Bool :=
  s.tmPoisoned (tmCore core aMap) aMap (tmRows aMap) (tmCols aMap) ||
    bMap.any fun m => s.tmPoisoned (tmCore core m) m (tmCols m) (tmRows m)

/-- What an operation does when it executes (R299 to R302, R309). -/
def State.runOp (s : State) (o : MatOp) : State :=
  let c := o.leader
  match o.kind with
  | .mul pair am am2 blk bm bm2 =>
    let b1 : Option QWord := if o.res = 0 then some bm else none
    let b2 : Option QWord := if o.res = 0 then some bm2 else none
    let int := decide (o.ty = .i8)
    let bad := o.poisoned || s.mulPoison c am b1 ||
      (pair = 2 && s.mulPoison (c + 1) am2 b2) || (pair = 1 && b2.any fun m => s.tmPoisoned (tmCore (c + 1) m) m (tmCols m) (tmRows m))
    let first := s.mulPart int (s.aRows c am) (s.bSource o c blk bm) c o.tile
    match pair with
    | 0 => first.poisonTile c o.tile bad
    | 1 => ((first.mulPart int (s.aRows c am) (s.bSource o (c + 1) blk bm2) (c + 1) o.tile2).poisonTile c o.tile bad).poisonTile
        (c + 1) o.tile2 bad
    | _ => (first.mulPart int (s.aRows (c + 1) am2) (s.bSource o (c + 1) blk bm2) c o.tile).poisonTile c o.tile bad
  | .zero => { s with acc := s.acc.dropRange (accAt c o.tile 0 0) (accAt c o.tile 64 0) }.clearTile c o.tile
  | .ld rm m =>
    let q := tmCore c m
    let bad := s.tmPoisoned q m 0 0
    let s := if tmRows m = 64 && tmCols m = 64 then s.clearTile c o.tile else s
    { s with acc := (List.range (tmRows m)).foldl (fun t i =>
        ((s.tmRow q m i).mapIdx fun j x => (j, x)).foldl (fun t (jx : Nat × Nat) =>
          t.write 0 (accAt c o.tile i jx.1) (BitVec.ofNat 32 (mldValue rm o.ty jx.2))) t) s.acc }.poisonTile c o.tile bad
  | .st rm m =>
    let q := tmCore c m
    let w := tmWidth o.ty .none
    (List.range (tmRows m)).foldl (fun s i =>
      let a := 2 ^ 19 * q + tmOff m + tmStride m * i
      let v := joinElems w ((List.range (tmCols m)).map fun j => mstValue rm o.ty (s.acc.read 0 (accAt c o.tile i j)).toNat)
      let s := s.write .pad (place a (tmRowBytes m) v)
      if s.accPoison.contains (16 * c + o.tile) then s.poisonRange .pad a (tmRowBytes m) else s) s
  | .row rm ty r dests =>
    let bad := s.accPoison.contains (16 * c + o.tile)
    dests.foldl (fun s d =>
      let lo := (s.acc.read 0 (accAt c o.tile r d.1)).toNat
      let hi := (s.acc.read 0 (accAt c o.tile r (d.1 + 32))).toNat
      let v := if ty = .f32 then lo + 2 ^ 32 * hi else mstValue rm ty lo + 2 ^ 16 * mstValue rm ty hi
      s.onThread o.team d.2.1 (·.deliver d.2.2 (mrowRegs ty) 2 (if bad then none else some v))) s

/-- Changes an operation in the queues that hold it. -/
def State.modOp (s : State) (o : MatOp) (f : List MatOp → List MatOp) : State :=
  let s := s.modCore o.leader fun c => { c with mq := f c.mq }
  if o.pair then s.modCore (o.leader + 1) fun c => { c with mq := f c.mq } else s

/-- The next operation of a leader's queue may execute (R289; 11 R274, R276; 13 R322, R333). DEDUCED (log 26). -/
def State.opReady (s : State) (core : Nat) : Option MatOp :=
  ((s.core core).nextOp).filter fun o =>
    o.leader = core && s.landed o.after && (s.core core).footReady o.foot &&
    (!o.pair || ((s.core (core + 1)).nextOp.map (·.id)) = some o.id) &&
    match s.residencies.get? o.res, o.kind with
    | some r, .mul pair _ _ blk _ _ =>
      r.present && !(r.block blk).filling && (pair = 0 || !(r.block (32 + blk)).filling)
    | _, _ => true

/-- MATRIX_OP_EXECUTE. -/
def execMatrixOpExecute (core : Nat) (s : State) : Answer :=
  .next (match s.opReady core with
    | none => s
    | some o =>
      let s := s.runOp o
      let s := s.modOp o fun q => q.map fun x => if x.id = o.id then { x with done := true } else x
      s.modCore core (·.footRead o.foot))

/-- The head of a leader's queue has executed, and heads both queues of a pair form: it may retire. -/
def State.opDone (s : State) (core : Nat) : Option MatOp :=
  ((s.core core).mq.head?).filter fun o =>
    o.leader = core && o.done && (!o.pair || ((s.core (core + 1)).mq.head?.map (·.id)) = some o.id)

/-- MATRIX_OP_RETIRE; the binding of a group without lanes ends with its last operation (R303). -/
def execMatrixOpRetire (core : Nat) (s : State) : Answer :=
  .next (match s.opDone core with
    | none => s
    | some o =>
      let s := s.modOp o fun q => q.filter fun x => x.id ≠ o.id
      let s := s.modCore core fun c => { c with foots := c.foots.del o.foot }
      if ((s.group o.gk).lanes.any fun e => !e.2.exited) || s.hasOps o.gk s.nextId then s else s.endBind o.gk)

/-! ## `mwait` (R305) -/

/-- `mwait`. DEDUCED (log 27). -/
def execMwait (f : MatF) (s : State) : Answer :=
  withIssuer s fun k s =>
    let g := s.group k.gk
    if !guardG g f.h k then groupMode f.h id k s
    else if s.hasOps k.gk g.lastOp then
      (s.modGroup k.gk fun g => (lanesOf k.active).foldl (fun g l => g.modThread l fun t => { t with wait := .mwait g.lastOp }) g).finish
        k []
    else groupModeS f.h (fun s => s.endBind k.gk) k s

/-- Lanes of a group at an `mwait` whose operations have retired. DEDUCED (log 27). -/
def State.mwaitLanes (s : State) (gk : Nat) : List Nat :=
  ((s.group gk).lanes.filter fun e =>
    match e.2.wait with
    | .mwait last => !s.hasOps gk last
    | _ => false).map (·.1)

/-- MWAIT_COMPLETE. -/
def execMwaitComplete (gk : Nat) (s : State) : Answer :=
  .next (match s.mwaitLanes gk with
    | [] => s
    | ls => (s.modGroup gk (·.advanceAll ls)).endBind gk)

end Sys2Proof.Machine
end

