-- ==== Sys2Proof/Machine/Digest.lean ====
section
/-! DEFINITION. SHA-512 (FIPS 180-4) and ECDSA over P-521 (FIPS 186-5), which 00_scope R8 names, for the measurements and the
signed records of 23_platform R475, R476 and R479. -/

namespace Sys2Proof.Machine

/-- The round constants. -/
def shaK : List DWord :=
  [0x428A2F98D728AE22, 0x7137449123EF65CD, 0xB5C0FBCFEC4D3B2F, 0xE9B5DBA58189DBBC] ++
  [0x3956C25BF348B538, 0x59F111F1B605D019, 0x923F82A4AF194F9B, 0xAB1C5ED5DA6D8118] ++
  [0xD807AA98A3030242, 0x12835B0145706FBE, 0x243185BE4EE4B28C, 0x550C7DC3D5FFB4E2] ++
  [0x72BE5D74F27B896F, 0x80DEB1FE3B1696B1, 0x9BDC06A725C71235, 0xC19BF174CF692694] ++
  [0xE49B69C19EF14AD2, 0xEFBE4786384F25E3, 0x0FC19DC68B8CD5B5, 0x240CA1CC77AC9C65] ++
  [0x2DE92C6F592B0275, 0x4A7484AA6EA6E483, 0x5CB0A9DCBD41FBD4, 0x76F988DA831153B5] ++
  [0x983E5152EE66DFAB, 0xA831C66D2DB43210, 0xB00327C898FB213F, 0xBF597FC7BEEF0EE4] ++
  [0xC6E00BF33DA88FC2, 0xD5A79147930AA725, 0x06CA6351E003826F, 0x142929670A0E6E70] ++
  [0x27B70A8546D22FFC, 0x2E1B21385C26C926, 0x4D2C6DFC5AC42AED, 0x53380D139D95B3DF] ++
  [0x650A73548BAF63DE, 0x766A0ABB3C77B2A8, 0x81C2C92E47EDAEE6, 0x92722C851482353B] ++
  [0xA2BFE8A14CF10364, 0xA81A664BBC423001, 0xC24B8B70D0F89791, 0xC76C51A30654BE30] ++
  [0xD192E819D6EF5218, 0xD69906245565A910, 0xF40E35855771202A, 0x106AA07032BBD1B8] ++
  [0x19A4C116B8D2D0C8, 0x1E376C085141AB53, 0x2748774CDF8EEB99, 0x34B0BCB5E19B48A8] ++
  [0x391C0CB3C5C95A63, 0x4ED8AA4AE3418ACB, 0x5B9CCA4F7763E373, 0x682E6FF3D6B2B8A3] ++
  [0x748F82EE5DEFB2FC, 0x78A5636F43172F60, 0x84C87814A1F0AB72, 0x8CC702081A6439EC] ++
  [0x90BEFFFA23631E28, 0xA4506CEBDE82BDE9, 0xBEF9A3F7B2C67915, 0xC67178F2E372532B] ++
  [0xCA273ECEEA26619C, 0xD186B8C721C0C207, 0xEADA7DD6CDE0EB1E, 0xF57D4F7FEE6ED178] ++
  [0x06F067AA72176FBA, 0x0A637DC5A2C898A6, 0x113F9804BEF90DAE, 0x1B710B35131C471B] ++
  [0x28DB77F523047D84, 0x32CAAB7B40C72493, 0x3C9EBE0A15C9BEBC, 0x431D67C49C100D4C] ++
  [0x4CC5D4BECB3E42B6, 0x597F299CFC657E2A, 0x5FCB6FAB3AD6FAEC, 0x6C44198C4A475817]

/-- The initial hash value. -/
def shaH : List DWord :=
  [0x6A09E667F3BCC908, 0xBB67AE8584CAA73B, 0x3C6EF372FE94F82B, 0xA54FF53A5F1D36F1] ++
  [0x510E527FADE682D1, 0x9B05688C2B3E6C1F, 0x1F83D9ABFB41BD6B, 0x5BE0CD19137E2179]

/-- The two functions of the message schedule: rotations by `a` and `b`, a shift by `c`. -/
def shaMix (a b c : Nat) (x : DWord) : DWord := x.rotateRight a ^^^ x.rotateRight b ^^^ x >>> c

/-- The two functions of a round: three rotations. -/
def shaTurn (a b c : Nat) (x : DWord) : DWord := x.rotateRight a ^^^ x.rotateRight b ^^^ x.rotateRight c

/-- Extends the message schedule, newest word first, by `n` words. -/
def shaSchedule : Nat → List DWord → List DWord
  | 0, w => w
  | n + 1, w =>
    shaSchedule n ((shaMix 19 61 6 (w.getD 1 0) + w.getD 6 0 + shaMix 1 8 7 (w.getD 14 0) + w.getD 15 0) :: w)

/-- One round on the eight working variables. -/
def shaRound (h : List DWord) (kw : DWord × DWord) : List DWord :=
  match h with
  | [a, b, c, d, e, f, g, x] =>
    let t1 := x + shaTurn 14 18 41 e + ((e &&& f) ^^^ (~~~e &&& g)) + kw.1 + kw.2
    let t2 := shaTurn 28 34 39 a + ((a &&& b) ^^^ (a &&& c) ^^^ (b &&& c))
    [t1 + t2, a, b, c, d + t1, e, f, g]
  | h => h

/-- One block of 128 bytes. -/
def shaBlock (h : List DWord) (b : List Byte) : List DWord :=
  let ws : List DWord := (List.range 16).map fun i => BitVec.ofNat 64 (ofBytes ((b.drop (8 * i)).take 8).reverse)
  let w := (shaSchedule 64 ws.reverse).reverse
  List.zipWith (· + ·) h ((shaK.zip w).foldl shaRound h)

/-- A message with its padding: a 1 bit, zeros, and its length in bits. -/
def shaPad (m : List Byte) : List Byte :=
  m ++ [0x80#8] ++ List.replicate ((239 - m.length % 128) % 128) 0 ++ (bytesOf (8 * m.length) 16).reverse

/-- SHA-512 of a list of bytes; its first byte is the most significant. -/
def sha512 (m : List Byte) : BitVec 512 :=
  let p := shaPad m
  let h := (List.range (p.length / 128)).foldl (fun h i => shaBlock h ((p.drop (128 * i)).take 128)) shaH
  BitVec.ofNat 512 (h.foldl (fun n x => 2 ^ 64 * n + x.toNat) 0)

/-! ## ECDSA over P-521. PRESUMED: the curve's numbers are those of the standard (log 7) -/

/-- The prime of the field. -/
def ecP : Nat := 2 ^ 521 - 1

/-- The order of the base point. -/
def ecN : Nat := 2 ^ 521 - 2 ^ 260 + 0xA51868783BF2F966B7FCC0148F709A5D03BB5C9B8899C47AEBB6FB71E91386409

/-- The base point. -/
def ecG : Nat × Nat :=
  (0xC6858E06B70404E9CD9E3ECB662395B4429C648139053FB521F828AF606B4D3DBAA14B5E77EFE75928FE1DC127A2FFA8DE3348B3C1856A429BF97E7E31C2E5BD66,
   0x11839296A789A3BC0045C8A5FB42C7D1BD998F54449579B446817AFBD17273E662C97EE72995EF42640C550B9013FAD0761353C7086A272C24088BE94769FD16650)

/-- The inverse modulo a prime above 2^520, by Fermat's theorem. -/
def modInv (m x : Nat) : Nat :=
  (List.range 521).foldr (fun i a => if (m - 2).testBit i then a * a % m * x % m else a * a % m) 1

/-- The sum of two points of the curve; none is the point at infinity. -/
def ecAdd (a b : Option (Nat × Nat)) : Option (Nat × Nat) :=
  match a, b with
  | none, b => b
  | a, none => a
  | some (x, y), some (u, v) =>
    if x = u && (y + v) % ecP = 0 then none
    else
      let l := (if x = u then (3 * x * x + ecP - 3) * modInv ecP (2 * y % ecP)
        else (v + ecP - y) * modInv ecP ((u + ecP - x) % ecP)) % ecP
      let z := (l * l + 2 * ecP - x - u) % ecP
      some (z, (l * (x + ecP - z) + ecP - y) % ecP)

/-- A multiple of a point. -/
def ecMul (k : Nat) (a : Nat × Nat) : Option (Nat × Nat) :=
  (List.range 521).foldr (fun i r => if k.testBit i then ecAdd (ecAdd r r) (some a) else ecAdd r r) none

/-- A number from 1 to the order less 1. -/
def ecScalar (n : Nat) : Nat := n % (ecN - 1) + 1

/-- The identity public key: the point of the private key. -/
def identityPoint : Nat × Nat := (ecMul (ecScalar Config.identitySecret) ecG).getD (0, 0)

/-- The signature (r, s) of a hash with one secret number, where it gives one. -/
def ecSign (k hash : Nat) : Option (Nat × Nat) :=
  (ecMul k ecG).bind fun g =>
    let r := g.1 % ecN
    let s := modInv ecN k * (hash + r * ecScalar Config.identitySecret) % ecN
    if r = 0 || s = 0 then none else some (r, s)

/-- The 132 bytes of a record's signature: r and s, 66 bytes each, most significant first. DESIGN CHOICE (log 7). -/
def signatureOf (body : List Byte) : List Byte :=
  let hash := (sha512 body).toNat
  let x := ((List.range 8).findSome? fun i => ecSign (ecScalar (Config.signNonce body i)) hash).getD (0, 0)
  (bytesOf x.1 66).reverse ++ (bytesOf x.2 66).reverse

end Sys2Proof.Machine
end

