-- ==== Sys2Proof/Machine/Paging.lean ====
section
/-! DEFINITION. Walks and shoot-downs as they run (10_memory R247 to R251), and the fetch of a block of instructions into
the instruction cache (05_encoding R101, R102). -/

namespace Sys2Proof.Machine

/-! ## Walks -/

/-- PAGE_WALK_COMPLETE (R247, R251): a walk that began before a shoot-down starts again; a run fills the second-level TLB
and the TLBs of the cores that wait; a failure waits for its groups to take it. -/
def execPageWalkComplete (id : Nat) (s : State) : Host.Outcome State Fault Refusal :=
  .next (match s.walks.get? id with
    | none => s
    | some w =>
      if w.result.isSome then s
      else if w.isc ≠ (s.ctx w.ck).isc then
        let w' : Walk := { w with isc := (s.ctx w.ck).isc }
        { s with walks := s.walks.put id w' }
      else match s.walk w.ck (w.page * 65536) with
        | .ok e =>
          let s := s.walkTouch w.ck (w.page * 65536)
          let cores := (w.core :: w.gks.map coreOf).dedup
          let s := cores.foldl (fun s c => s.modCore c fun k => { k with tlb := tlbPut k.tlb e 128 }) s
          let d := dieOf w.core
          { s with tlb2 := s.tlb2.put d (tlbPut (s.tlb2Of d) e 16384), walks := s.walks.del id }
        | r =>
          let s := s.walkTouch w.ck (w.page * 65536)
          if w.gks.isEmpty then { s with walks := s.walks.del id }
          else
            let w' : Walk := { w with result := some r }
            { s with walks := s.walks.put id w' })

/-! ## Shoot-downs (R249, R250) -/

/-- The entry lies in the range of a shoot-down. DEDUCED (log 19). -/
def Shoot.hits (x : Shoot) (ck : Nat) (e : TlbEntry) : Bool :=
  e.ck = ck && (x.all || (e.first < x.vpg + x.npg && x.vpg < e.first + e.len))

/-- Steps 1 and 2: ISC rises, the entries of the range leave every TLB, and the accesses that they translated are noted: those in
flight, and the stores that a transaction has buffered. DEDUCED (log 19). -/
def State.shootBegin (s : State) (ck : Nat) : State :=
  match (s.ctx ck).shoots with
  | [] => s
  | x :: rest =>
    if x.begun then s
    else
      let gone (core : Nat) (run : Nat × Nat) : Bool := ((s.core core).tlb ++ s.tlb2Of (dieOf core)).any fun t =>
        x.hits ck t && (t.first, t.len) = run
      let shot (core : Nat) (t : Thread) : Bool := t.tx.act && t.tx.runs.any fun r => gone core r.2
      let waits := (s.flights.filter fun e => e.2.ck = ck && e.2.space = .gl && e.2.remote.isNone && gone e.2.core e.2.run).map (·.1)
      let s := { s with
        cores := s.cores.map fun (e : Nat × Core) => (e.1, { e.2 with tlb := e.2.tlb.filter fun t => !x.hits ck t })
        tlb2 := s.tlb2.map fun (e : Nat × List TlbEntry) => (e.1, e.2.filter fun t => !x.hits ck t)
        groups := s.groups.map fun (e : Nat × Group) =>
          if s.ckOf e.2 ≠ ck then e
          else (e.1, { e.2 with lanes := e.2.lanes.map fun (l : Nat × Thread) =>
            (l.1, if shot (coreOf e.1) l.2 then { l.2 with tx := { l.2.tx with shot := true } } else l.2) }) }
      s.modCtx ck fun c => { c with isc := c.isc + 1, shoots := { x with begun := true, waitFor := waits } :: rest }

/-- Asks for a shoot-down; one already running for the context completes first (17 R407). -/
def State.shootAsk (s : State) (ck : Nat) (x : Shoot) : State :=
  (s.modCtx ck fun c => { c with shoots := c.shoots ++ [x] }).shootBegin ck

/-- The running shoot-down has every access that it counts performed (step 3). DEDUCED (log 19). -/
def State.shootReady (s : State) (ck : Nat) : Bool :=
  match (s.ctx ck).shoots with
  | x :: _ => x.begun && (x.waitFor.all fun id => (s.flights.get? id).isNone) &&
      !(s.groups.any fun e => s.ckOf e.2 = ck && e.2.lanes.any fun l => l.2.tx.act && l.2.tx.shot && !l.2.exited)
  | [] => false

/-- SHOOT_DOWN_COMPLETE (step 4): GO clears, or the lanes at `tlbinv` advance; the next shoot-down begins. -/
def execShootDownComplete (ck : Nat) (s : State) : Host.Outcome State Fault Refusal :=
  .next (if s.shootReady ck then
      match (s.ctx ck).shoots with
      | x :: rest =>
        let s := s.modCtx ck fun c => { c with shoots := rest }
        (if x.key = 0 then s else s.wakeAll (.tlbinv x.key)).shootBegin ck
      | [] => s
    else s)

/-- SDCTL:GO reads 1. -/
def Ctx.shooting (c : Ctx) : Bool := c.shoots.any fun x => x.key = 0

/-- SHOOT_DOWN_START: a write of SDCTL; while GO reads 1 it is discarded (R249). -/
def execShootDownStart (ck : Nat) (v : Word) (s : State) : Host.Outcome State Fault Refusal :=
  .next (if (s.ctx ck).shooting then s
    else
      let s := s.modCtx ck fun c => { c with sdnpg := v.toNat / 2 % 512, sdall := bitOf v 0 }
      let c := s.ctx ck
      if bitOf v 31 then
        s.shootAsk ck { key := 0, vpg := c.sdaddr, npg := c.sdnpg + 1, all := c.sdall, begun := false, waitFor := [] }
      else s)

/-! ## Fetch -/

/-- A code address needs no walk: a TLB holds its page, or it has no translation (05 R101). -/
def State.fetchHit (s : State) (core ck va : Nat) : Bool :=
  2 ^ 57 ≤ va || (s.remoteOf ck va).isSome || ((s.core core).tlb ++ s.tlb2Of (dieOf core)).any fun e => e.covers ck (va / 65536)

/-- Translation of a code address: a TLB of the core or its locality, or a fresh walk (05 R101). DESIGN CHOICE (log
17). DEDUCED (log 19). -/
def State.xlatFetch (s : State) (core ck va : Nat) : Xlat :=
  if 2 ^ 57 ≤ va then .fault 3 4
  else match s.remoteOf ck va with
    | some i => .remote i
    | none =>
      match ((s.core core).tlb ++ s.tlb2Of (dieOf core)).find? fun e => e.covers ck (va / 65536) with
      | some e => e.check va .fetch
      | none => s.xlatNow ck va .fetch

/-- One line of the instruction cache, as a fetch finds it now; a page that is not resident is a translation fault of
fetch (10 R247, R252), and code is never remote (22 R466). DEDUCED (log 19). -/
def State.readLine (s : State) (core ck va : Nat) : ICacheLine :=
  let line (bytes : List Byte) (cls cause : Nat) : ICacheLine :=
    { pair := core / 2, ck := ck, va := va, bytes := bytes, cls := cls, cause := cause }
  match s.xlatFetch core ck va with
  | .ok pa _ => if s.poisoned .mem pa 64 then line [] 16 0 else line (s.bytes .mem pa 64) 0 0
  | .fault _ k => line [] 3 k
  | .remote _ => line [] 3 6
  | .poison => line [] 16 0

/-- Puts a line into the cache of a pair, which holds 1,024 (05 R101). DESIGN CHOICE: a full cache drops the line that was filled
longest ago (log 53). -/
def State.fillLine (s : State) (l : ICacheLine) : State :=
  let mine := (l :: s.icache.filter fun k => k.pair = l.pair && !(k.ck = l.ck && k.va = l.va)).take 1024
  { s with icache := mine ++ s.icache.filter fun k => k.pair ≠ l.pair }

/-- The three lines of a block, those present kept (05 R101). DEDUCED (log 19). DESIGN CHOICE: a line whose fetch failed stays
failed, and is not read again, until an instruction with a byte in it has trapped (log 53). -/
def State.fetchBlock (s : State) (gk : Nat) (idx : Word) : State :=
  let g := s.group gk
  let ck := s.ckOf g
  let base := ((s.pktOf g).map (·.code.toNat)).getD 0 + 192 * (idx.toNat / 16)
  [base, base + 64, base + 128].foldl (fun s va =>
    if s.icache.any fun k => k.pair = coreOf gk / 2 && k.ck = ck && k.va = va then s
    else
      let s := if s.fetchHit (coreOf gk) ck va then s else s.walkTouch ck va
      let s := match s.xlatFetch (coreOf gk) ck va with
        | .ok pa leaf => s.l2Touch (pa / 128) (homeSlice pa leaf) (some 6) ck (some (g.team, coreOf gk)) false
        | _ => s
      s.fillLine (s.readLine (coreOf gk) ck va)) s

/-- INSTRUCTION_FETCH (05 R101, R102): the blocks at the counters of a group's streams. -/
def execInstructionFetch (gk : Nat) (s : State) : Host.Outcome State Fault Refusal :=
  .next ([true, false].foldl (fun s h =>
    match (s.group gk).pick h with
    | some (m, _) => s.fetchBlock gk m
    | none => s) s)

end Sys2Proof.Machine
end

