-- ==== Sys2Proof/Machine/Copy.lean ====
section
/-! DEFINITION. Copy jobs (02_describing_work R48 to R54; 11_memory_ops R268 to R286): cards and their validation, delivery in
ascending order, barriers, records and held records; `sleepu` and `sleepu.chk` (11 R278 to R280); page migration
(10_memory R254, R255). -/

namespace Sys2Proof.Machine

/-! ## Job cards (02 R48 to R50) -/

/-- The fields of a job card. -/
structure Card where
  ctl : Nat
  ring : Nat
  src : Nat
  dst : Nat
  nx : Nat
  ny : Nat
  nz : Nat
  ssy : Nat
  dsy : Nat
  ssz : Nat
  dsz : Nat
  aux : Nat
  bound : Nat
  bar : Nat
deriving DecidableEq, Repr

/-- A card from its bytes (02 R48). -/
def Card.of (b : List Byte) : Card :=
  let f (a n : Nat) : Nat := ofBytes ((b.drop a).take n)
  { ctl := f 0 4, ring := f 4 4, src := f 8 8, dst := f 16 8, nx := f 24 4, ny := f 28 2, nz := f 30 2, ssy := f 32 4
    dsy := f 36 4, ssz := f 40 4, dsz := f 44 4, aux := f 48 8, bound := f 56 4, bar := f 60 4 }

/-- KIND of a card (02 R49). -/
def Card.kind (c : Card) : Nat := c.ctl % 256
/-- SB of a card (02 R49). -/
def Card.sb (c : Card) : Bool := c.ctl.testBit 8
/-- CR of a card (02 R49). -/
def Card.cr (c : Card) : Bool := c.ctl.testBit 9
/-- ESZ of a card (02 R49). -/
def Card.esz (c : Card) : Nat := c.ctl / 2 ^ 19 % 8
/-- SSP of a card (02 R49). -/
def Card.ssp (c : Card) : Nat := c.ctl / 2 ^ 22 % 8
/-- DSP of a card (02 R49). -/
def Card.dsp (c : Card) : Nat := c.ctl / 2 ^ 25 % 8
/-- The offset of a card's barrier object (02 R48). -/
def Card.barOff (c : Card) : Nat := c.bar % 2 ^ 19
/-- The offset of a card's ring (02 R48). -/
def Card.ringOff (c : Card) : Nat := c.ring % 2 ^ 19

/-- Bytes of an element; a migration moves pages. -/
def Card.e (c : Card) : Nat := if c.kind = 7 then 65536 else 2 ^ c.esz

/-- Elements of a job (11 R285). DEDUCED (log 29). -/
def Card.total (c : Card) : Nat :=
  if c.kind = 4 || c.kind = 5 || c.kind = 7 then c.nx else c.nx * max c.ny 1 * max c.nz 1

/-- The extents of a job's dense sides (02 R52). -/
def Card.extent (c : Card) (sy sz : Nat) : Nat := c.nx * c.e + (max c.ny 1 - 1) * sy + (max c.nz 1 - 1) * sz

/-- The fields that a kind leaves unused, which must be zero (02 R50). A reserved kind is taken to leave none unused, so that a
card of it fails for its kind. DESIGN CHOICE (log 56). -/
def Card.unused (c : Card) : List Nat :=
  match c.kind with
  | 1 | 7 => [c.ny, c.nz, c.ssy, c.dsy, c.ssz, c.dsz, c.aux, c.bound]
  | 2 => [c.nz, c.ssz, c.dsz, c.aux, c.bound]
  | 3 => [c.aux, c.bound]
  | 4 | 5 => [c.ny, c.nz, c.ssy, c.dsy, c.ssz, c.dsz]
  | 6 => [c.nz, c.ssz, c.dsz, c.bound]
  | _ => []

/-- The cores that a multicast writes, or none. -/
def Card.targets (c : Card) (core : Nat) : List Nat :=
  (lanesOfMask 64 c.aux).map (clusterOf core * 64 + ·)
where
  /-- Bits set in a mask. -/
  lanesOfMask (n m : Nat) : List Nat := (List.range n).filter fun i => m.testBit i

/-- The cores whose barrier object a job counts on (11 R270, R286). -/
def Card.barCores (c : Card) (core : Nat) : List Nat := if c.kind = 6 then c.targets core else [core]

/-- The interval of a side as a footprint, if it lies in the team's run or the context's grant (11 R270; 10 R229 to R231). -/
def State.jobFoot (s : State) (core ck : Nat) (t : Team) (p : Packet) (space a n : Nat) : Option Foot :=
  match space with
  | 0 => some { space := 0, unit := ck, lo := a, hi := a + n }
  | 1 => if inScratch t p a n then some (padFoot core a n) else none
  | 2 => if s.inBounds core ck t p .ks a n then some (padFoot (ksPlace core a).1 (ksPlace core a).2 n) else none
  | _ => if s.inBounds core ck t p .xs a n then some { space := 3, unit := a / 2 ^ 24, lo := a % 2 ^ 24, hi := a % 2 ^ 24 + n } else none

/-- All of a list of footprints, or none. -/
def allFoots : List (Option Foot) → Option (List Foot)
  | [] => some []
  | none :: _ => none
  | some f :: t => (allFoots t).map (f :: ·)

/-- Reads and writes of a card (02 R52). -/
def State.cardFoots (s : State) (core ck : Nat) (t : Team) (p : Packet) (c : Card) : Option (List Foot × List Foot) :=
  let rd := if c.kind = 4 then c.bound else c.extent c.ssy c.ssz
  let wr := if c.kind = 5 then c.bound else c.extent c.dsy c.dsz
  let reads := s.jobFoot core ck t p c.ssp c.src rd ::
    (if c.kind = 4 || c.kind = 5 then [s.jobFoot core ck t p 1 c.aux (4 * c.nx)] else [])
  let writes := if c.kind = 6 then (c.targets core).map fun q => s.jobFoot q ck t p 1 c.dst wr
    else [s.jobFoot core ck t p c.dsp c.dst wr]
  match allFoots reads, allFoots writes with
  | some r, some w => some (r, w)
  | _, _ => none

/-- The mask of a multicast names cores of the team, and the barrier object of every counted core lies in the run (11 R270,
R286). -/
def Card.maskOk (c : Card) (t : Team) (core : Nat) : Bool :=
  c.kind ≠ 6 || (!(c.targets core).isEmpty && (c.targets core).all t.cores.contains)

/-- A card's barrier object is aligned and within bounds (02 R51). -/
def Card.barOk (c : Card) (t : Team) (p : Packet) : Bool := c.barOff % 8 = 0 && inScratch t p c.barOff 8

/-- Steps 2 and 3 of R51 that fail with status 0x02: a reserved value, a space that the kind does not accept, a count of zero, or
a misalignment of anything but BAR. -/
def Card.badRange (c : Card) : Bool :=
  !(1 ≤ c.kind && c.kind ≤ 7) || 4 < c.esz || 3 < c.ssp || 3 < c.dsp
    || c.nx = 0 || ((c.kind = 2 || c.kind = 3 || c.kind = 6) && c.ny = 0) || (c.kind = 3 && c.nz = 0)
    || (c.kind = 6 && c.dsp ≠ 1)
    || (c.kind = 7 && (c.ssp ≠ 0 || c.dsp ≠ 0 || c.esz ≠ 0 || 512 < c.nx))
    || c.src % c.e ≠ 0 || c.dst % c.e ≠ 0 || ((c.kind = 4 || c.kind = 5) && c.aux % 4 ≠ 0)
    || ((c.kind = 2 || c.kind = 3 || c.kind = 6) && (c.ssy % c.e ≠ 0 || c.dsy % c.e ≠ 0))
    || (c.kind = 3 && (c.ssz % c.e ≠ 0 || c.dsz % c.e ≠ 0))

/-- Validation in the order of 02 R51, then 11 R270: the footprints, or a status and whether the failure is that of the barrier
object or of the mask, after which no object is updated (11 R286). Of several failures of one step the barrier's is taken last.
DEDUCED (log 29). -/
def State.validateCard (s : State) (core ck : Nat) (t : Team) (p : Packet) (c : Card) :
    Except (Nat × Bool) (List Foot × List Foot) :=
  if c.ctl / 2 ^ 28 ≠ 0 || c.ctl / 2 ^ 10 % 64 ≠ 0 || c.ring / 2 ^ 19 ≠ 0 || c.bar / 2 ^ 19 ≠ 0 || c.unused.any (· ≠ 0) then
    .error (1, false)
  else if c.badRange then .error (2, false)
  else if c.barOff % 8 ≠ 0 then .error (2, true)
  else if c.kind = 7 && !privilegedCk ck then .error (9, false)
  else match s.cardFoots core ck t p c with
    | none => .error (2, false)
    | some x => if !c.maskOk t core || (c.sb && !c.barOk t p) then .error (2, true) else .ok x

/-! ## Barriers and the end of a job (11 R272, R285, R286) -/

/-- Subtracts bytes from the barrier of each counted core, with ERR when the job failed. DEDUCED (log 29). -/
def State.countJob (s : State) (cores : List Nat) (off n : Nat) (err : Bool) : State :=
  cores.foldl (fun s q =>
    let o := s.barObj q off
    s.setBar q off { o with bytes := (o.bytes + 2 ^ 38 - n % 2 ^ 38) % 2 ^ 38, err := o.err || err }) s

/-- The full byte count on each barrier; a reserved kind or element size has none, and what is subtracted for it is a free
value (11 R285, R286). DEDUCED (log 29). -/
def State.fullCount (s : State) (c : Card) : Nat × State :=
  if 1 ≤ c.kind && c.kind ≤ 7 && c.esz ≤ 4 then ((if c.kind = 6 then c.nx * c.ny else c.total) * c.e, s)
  else let (i, s) := s.freeIdx; (Config.freeNat i, s)

/-- The copy form of ID (02 R54). -/
def jobId (core off : Nat) : Nat := core % 64 * 2 ^ 19 + off

/-- The last part of a job's barrier updates: what is left of its full count, with ERR when it failed (11 R285, R286). A
migration has counted nothing before. An object that would lie beyond the scratchpad does not exist. DEDUCED (log 29). -/
def State.endBarrier (s : State) (j : Job) (c : Card) : State :=
  let failed := j.status.getD 0 ≠ 0
  if c.sb && !j.noBar && (failed || c.kind = 7) && c.barOff + 8 ≤ 0x60000 then
    let (full, s) := s.fullCount c
    s.countJob (c.barCores j.core) c.barOff (full + 2 ^ 38 * j.counted - j.counted) failed
  else s

/-- A job's record: it names the card, and counts bytes, or the pages of an abandoned migration (02 R54; 10 R255). -/
def State.jobRecord (s : State) (j : Job) (st : Nat) : List Byte :=
  let c := Card.of j.card
  recordBytes 1 st 0 (jobId j.core j.cardOff) (s.ctx j.ck).ctime (if st = 0x0E then j.done else j.done * c.e) j.detail.toNat

/-- Ends a job: its barrier updates, its record, its entry (11 R272). -/
def State.finishJob (s : State) (k : Nat) : State :=
  match s.jobs.get? k with
  | none => s
  | some j =>
    let c := Card.of j.card
    let st := j.status.getD 0
    let h : HeldRecord :=
      { inCore := some j.core, ck := j.ck, ring := c.ringOff, bytes := s.jobRecord j st
        job := some k, grid := none, team := some j.team, id := j.rid }
    let s := s.endBarrier j c
    if c.cr || st ≠ 0 then
      let w : Job := { j with waiting := true }
      { s with jobs := s.jobs.put k w }.putRecord h
    else s.recordDone h

/-! ## `cpy` (11 R268) -/

/-- The trap of a card or ring address. DEDUCED (log 29). -/
def State.cardTrap (s : State) (gk off : Nat) : Option (Nat × QWord) :=
  let g := s.group gk
  match s.teamOf g, s.pktOf g with
  | some t, some p =>
    let ring := (Card.of (s.bytes .pad (2 ^ 19 * coreOf gk + off) 64)).ringOff
    if off % 64 ≠ 0 then some (5, detailM off 0 7 64 1)
    else if !inScratch t p off 64 then some (6, detailM off 0 7 64 1)
    else if s.poisoned .pad (2 ^ 19 * coreOf gk + off) 64 then some (16, detailM off 0 7 64 1)
    else if ring % 32 ≠ 0 then some (5, detailM ring 0 7 32 1)
    else if !inScratch t p ring 32 then some (6, detailM ring 0 7 32 1)
    else none
  | _, _ => some (6, detailM off 0 7 64 1)

/-- Hands a card to the job front-end; the promise (11 R268, R278): the present time for a job that fails validation, else an
estimate, a free value above it. DEDUCED (log 29). -/
def State.submit (s : State) (k : Cursor) (off : Nat) (rd : BitVec 3) : State × Nat :=
  let g := s.group k.gk
  let core := coreOf k.gk
  let ck := s.ckOf g
  let now := (s.ctx ck).ctime
  match s.teamOf g, s.pktOf g with
  | some t, some p =>
    let b := s.bytes .pad (2 ^ 19 * core + off) 64
    let c := Card.of b
    let hint := if rd = 0 then c.ctl / 2 ^ 16 % 8 else rd.toNat
    let rid := (((s.grids.get? t.grid).map (·.recId)).getD 0)
    let job (st : Option Nat) (noBar : Bool) (promise : DWord) (foot : Nat) (after : List Nat) : Job :=
      { core := core, gk := k.gk, team := g.team, ck := ck, card := b, cardOff := off, rdh := hint, done := 0, counted := 0
        status := st, detail := 0, promise := promise, foot := foot, after := after, waiting := false, stage := 0, savedW := []
        rid := rid, noBar := noBar }
    match s.validateCard core ck t p c with
    | .error (st, noBar) =>
      let (id, s) := s.fresh
      ({ s with jobs := s.jobs.put id (job (some st) noBar now 0 []) }.finishJob id, now.toNat)
    | .ok (rds, wrs) =>
      let after := s.earlier k.gk rds wrs
      let (i, s) := s.freeIdx
      let promise := now + 1 + BitVec.setWidth 64 (Config.freeWord i)
      let (s, foot) := s.takeFoot core { team := g.team, reads := rds, writes := wrs, readDone := false, job := true }
      let (id, s) := s.fresh
      ({ s with jobs := s.jobs.put id (job none false promise foot after) }, promise.toNat)
  | _, _ => (s, now.toNat)

/-- The group's own earlier writes to the card have not all reached the scratchpad: `cpy` comes after them (11 R262, R268). -/
def State.cardBusy (s : State) (gk off : Nat) : Bool :=
  s.flights.any fun e => e.2.gk = gk && e.2.writes && e.2.place = .pad &&
    meetBytes (2 ^ 19 * coreOf gk + off) 64 e.2.loc e.2.size

/-- `cpy`. -/
def execCpy (f : Op3) (s : State) : Answer :=
  withIssuer s fun k s =>
    let g := s.group k.gk
    let off := groupVal g .b32 1 f.a
    if !guardG g f.h k then groupMode f.h id k s
    else if s.cardBusy k.gk off then s
    else match s.cardTrap k.gk off with
      | some (c, d) => trapAll k c d s
      | none =>
        if !(s.core (coreOf k.gk)).footFree then s
        else groupModeS f.h (fun s =>
          let (s, p) := s.submit k off f.rd
          s.modGroup k.gk (·.write 2 f.d p)) k s

/-! ## Delivery (11 R269, R271, R285) -/

/-- The address of an element on a dense side. -/
def Card.dense (c : Card) (base sy sz i : Nat) : Nat :=
  (base + i % c.nx * c.e + i / c.nx % max c.ny 1 * sy + i / (c.nx * max c.ny 1) * sz) % 2 ^ 64

/-- Source and destination of element `i`; an index outside BOUND fails (02 R52). DEDUCED (log 29). -/
def State.jobElem (s : State) (core : Nat) (c : Card) (i : Nat) : Except (Nat × Nat) (Nat × Nat) :=
  let sa := c.dense c.src c.ssy c.ssz i
  let da := c.dense c.dst c.dsy c.dsz i
  if c.kind = 4 || c.kind = 5 then
    let a := c.aux + 4 * i
    if s.poisoned .pad (2 ^ 19 * core + a) 4 then .error (8, a)
    else
      let x := s.load .pad (2 ^ 19 * core + a) 4
      if c.bound < x * c.e + c.e then .error (0x0A, a)
      else .ok (if c.kind = 4 then ((c.src + x * c.e) % 2 ^ 64, da) else (sa, (c.dst + x * c.e) % 2 ^ 64))
  else .ok (sa, da)

/-- The place and location of an address of a local space or of the chip scratchpad. -/
def jobPlace (core space a : Nat) : Place × Nat :=
  match space with
  | 1 => (.pad, 2 ^ 19 * core + a)
  | 2 => (.pad, 2 ^ 19 * (ksPlace core a).1 + (ksPlace core a).2)
  | _ => (.chip, a)

/-- An engine reads an element: its bytes, or status and detail (11 R271). -/
def State.engineRead (s : State) (j : Job) (space a n : Nat) : State × Except (Nat × Nat) (List Byte) :=
  if space = 0 then
    match s.xlat j.ck a .read with
    | (s, .ok pa leaf) =>
      let s := (s.l2Touch (pa / 128) (homeSlice pa leaf) (insertV j.rdh) j.ck (some (j.team, j.core)) false).blurRead .mem pa n
      (s, if s.poisoned .mem pa n then .error (8, a) else .ok (s.bytes .mem pa n))
    | (s, .remote e) =>
      if s.peerUp j.ck e then
        let b := s.peerBytes a n
        ((s.freeIdx).2.askPeer j.ck e a n 0 [], match b with
          | .ok l => .ok l
          | .error x => .error (x, a))
      else (s, .error (7, a))
    | (s, .poison) => (s, .error (8, a))
    | (s, .fault ..) => (s, .error (7, a))
  else
    let (p, l) := jobPlace j.core space a
    let s := s.blurRead p l n
    (s, if s.poisoned p l n then .error (8, a) else .ok (s.bytes p l n))

/-- An engine writes an element, performed at its place. -/
def State.engineWrite (s : State) (j : Job) (core space a : Nat) (b : List Byte) : State × Option (Nat × Nat) :=
  if space = 0 then
    match s.xlat j.ck a .write with
    | (s, .ok pa leaf) =>
      ((s.l2Touch (pa / 128) (homeSlice pa leaf) (insertV 0) j.ck (some (j.team, j.core)) true).write .mem (placeList pa b), none)
    | (s, .remote e) =>
      if s.peerUp j.ck e then
        let (i, s) := s.freeIdx
        (s.askPeer j.ck e a b.length 1 b, if Config.freeNat i % 2 = 1 then some (7, a) else none)
      else (s, some (7, a))
    | (s, .poison) => (s, some (8, a))
    | (s, .fault ..) => (s, some (7, a))
  else
    let (p, l) := jobPlace core space a
    (s.write p (placeList l b), none)

/-- Delivers one element: read, then written to each destination. DEDUCED (log 29). -/
def State.deliverElem (s : State) (j : Job) (c : Card) (i : Nat) : State × Option (Nat × Nat) :=
  match s.jobElem j.core c i with
  | .error e => (s, some e)
  | .ok (sa, da) =>
    match s.engineRead j c.ssp sa c.e with
    | (s, .error e) => (s, some e)
    | (s, .ok b) =>
      if c.kind = 6 then ((c.targets j.core).foldl (fun s q => (s.engineWrite j q 1 da b).1) s, none)
      else s.engineWrite j j.core c.dsp da b

/-- Delivers up to `n` elements in ascending order from element `i` on; the elements delivered, and the failure.
DEDUCED (log 29). -/
def State.deliverMany (s : State) (j : Job) (c : Card) : Nat → Nat → State × Nat × Option (Nat × Nat)
  | 0, i => (s, i, none)
  | n + 1, i =>
    if c.total ≤ i then (s, i, none)
    else match s.deliverElem j c i with
      | (s, some e) => (s, i, some e)
      | (s, none) => s.deliverMany j c n (i + 1)

/-- A job may go on: nothing before it stands in its way (11 R274, R276). DEDUCED (log 26). -/
def State.jobReady (s : State) (j : Job) : Bool := s.landed j.after && (s.core j.core).footReady j.foot

/-- COPY_JOB_DELIVERY: elements performed, then counted on the barriers. DEDUCED (log 29). -/
def execCopyJobDelivery (job elements : Nat) (s : State) : Answer :=
  .next (match s.jobs.get? job with
    | none => s
    | some j =>
      let c := Card.of j.card
      if j.status.isSome || c.kind = 7 || !s.jobReady j || c.total ≤ j.done then s
      else
        let (s, i, e) := s.deliverMany j c elements j.done
        let j' : Job := { j with
          done := i
          counted := if c.sb then i * c.e else 0
          status := e.map (·.1)
          detail := BitVec.ofNat 64 ((e.map (·.2)).getD 0) }
        let s : State := { s with jobs := s.jobs.put job j' }
        let s := if c.sb && j.done < i then s.countJob (c.barCores j.core) c.barOff ((i - j.done) * c.e) false else s
        if e.isSome || c.total ≤ i then s.modCore j.core (·.footRead j.foot) else s)

/-- A job has delivered all it will, and its record is not yet held. -/
def State.jobDone (s : State) (j : Job) : Bool :=
  let c := Card.of j.card
  !j.waiting && !j.recorded && s.jobReady j && (if c.kind = 7 then j.stage = 5 else j.status.isSome || c.total ≤ j.done)

/-- COPY_JOB_FINISH. -/
def execCopyJobFinish (job : Nat) (s : State) : Answer :=
  .next (match s.jobs.get? job with
    | none => s
    | some j => if s.jobDone j then s.finishJob job else s)

/-- A held record may be tried: no earlier one of its ring comes before it, and the grids that it comes behind have ended (02 R53; 03
R78). DEDUCED (log 32). -/
def State.mayWrite (s : State) (id : Nat) (h : HeldRecord) : Bool :=
  !(s.heldRecords.any fun e => e.1 < id && e.2.before h) && !s.comesBehind h

/-- COMPLETION_RECORD_WRITE (02 R53): a held record is tried again; one that has left its ring is complete once its event record
is written (03 R70). -/
def execCompletionRecordWrite (id : Nat) (s : State) : Answer :=
  .next (match s.heldRecords.get? id with
    | none => s
    | some h =>
      if h.moved then
        if s.eventHeld h.ck id then s else { s with heldRecords := s.heldRecords.del id }.recordDone h
      else if !s.mayWrite id h then s
      else s.tryRecord id h)

/-! ## Sleeping (11 R279, R280) -/

/-- What a lane reads from the time operand: a window pair of the lowest lane of `active`, or a scalar pair. -/
def sleepTime (g : Group) (k : Cursor) (o : Operand) : Nat :=
  match o with
  | .win i => ((((lanesOf k.full).head?.bind g.lanes.get?).map fun (t : Thread) => t.regs k.handler i 2).getD 0)
  | o => groupVal g .b64 2 o

/-- Poison in the window pair that is read, with the operand code (16 R387). DEDUCED (log 30). -/
def sleepPoison (g : Group) (k : Cursor) (o : Operand) : Option (Nat × QWord) :=
  match o with
  | .win i =>
    match (lanesOf k.full).head? with
    | some l => (g.usePoison k.handler l (0, i, 2)).map fun co => (l, detailReg l co.1 co.2)
    | none => none
  | _ => none

/-- `sleepu` and `sleepu.chk` after their operands: `now` is what happens when the time has passed. -/
def sleepOp (h : Head) (o : Operand) (w : DWord → LaneWait) (now : Cursor → State → State) (k : Cursor) (s : State) : State :=
  let g := s.group k.gk
  if !guardG g h k then groupMode h id k s
  else match sleepPoison g k o with
    | some (l, d) => s.finish k [⟨l, 16, d⟩]
    | none =>
      let t : DWord := BitVec.ofNat 64 (sleepTime g k o)
      if t.toNat ≤ (s.ctx (s.ckOf g)).ctime.toNat then now k s
      else (s.modGroup k.gk (·.await k.active (w t))).finish k []

/-- `sleepu`. DEDUCED (log 30). -/
def execSleepu (f : Op3) (s : State) : Answer :=
  withIssuer s (sleepOp f.h f.a (fun t => .sleep t) (groupMode f.h id))

/-- Jobs of a team submitted from a core with a card offset before an instruction, and not complete. -/
def State.openJobs (s : State) (team core off last : Nat) : List (Nat × Job) :=
  s.jobs.filter fun e => e.2.team = team && e.2.core = core && e.2.cardOff = off && e.1 < last

/-- The detail of class 15: the greatest current promise, a free value after the present time (11 R278), and the
offset. DEDUCED (log 30). -/
def State.missDetail (s : State) (ck off : Nat) : State × QWord :=
  let (i, s) := s.freeIdx
  (s, detailOf (bytesOf ((s.ctx ck).ctime.toNat + 1 + (Config.freeWord i).toNat) 8 ++ bytesOf off 4))

/-- `sleepu.chk`. DEDUCED (log 30). -/
def execSleepuChk (f : Op3) (s : State) : Answer :=
  withIssuer s fun k s =>
    let off := groupVal (s.group k.gk) .b32 1 f.b
    let last := s.nextId
    sleepOp f.h f.a (fun t => .sleepChk t off last) (fun k s =>
      let g := s.group k.gk
      if (s.openJobs g.team (coreOf k.gk) off last).isEmpty then
        groupModeS f.h (fun s => s.modCore (coreOf k.gk) Core.l1Clear) k s
      else
        let (s, d) := s.missDetail (s.ckOf g) off
        trapAll k 15 d s) k s

/-- Lanes of a group whose sleep is over. -/
def State.slept (s : State) (gk : Nat) : List Nat :=
  let g := s.group gk
  (g.lanes.filter fun e =>
    match e.2.wait with
    | .sleep t => t.toNat ≤ (s.ctx (s.ckOf g)).ctime.toNat
    | _ => false).map (·.1)

/-- SLEEPU_WAKE. DEDUCED (log 30). -/
def execSleepuWake (gk : Nat) (s : State) : Answer := .next (s.modGroup gk fun g => g.advanceAll (s.slept gk))

/-- Lanes of a group whose checked sleep is over, with the offset and the jobs' bound. -/
def State.sleptChk (s : State) (gk : Nat) : List (Nat × Nat × Nat) :=
  let g := s.group gk
  g.lanes.filterMap fun e =>
    match e.2.wait with
    | .sleepChk t off last => if t.toNat ≤ (s.ctx (s.ckOf g)).ctime.toNat then some (e.1, off, last) else none
    | _ => none

/-- SLEEPU_CHK_WAKE: the lanes that slept together advance with an acquire, or raise class 15. DEDUCED (log 30). -/
def execSleepuChkWake (gk : Nat) (s : State) : Answer :=
  .next (match s.sleptChk gk with
    | [] => s
    | (_, off, last) :: _ =>
      let g := s.group gk
      let ls := (s.sleptChk gk).filterMap fun e => if e.2 = (off, last) then some e.1 else none
      if (s.openJobs g.team (coreOf gk) off last).isEmpty then
        (s.modGroup gk (·.advanceAll ls)).modCore (coreOf gk) Core.l1Clear
      else
        let (s, d) := s.missDetail (s.ckOf g) off
        let s := s.modGroup gk fun g => ls.foldl (fun g l => g.modThread l fun t => { t with wait := .none }) g
        s.raiseIn gk (ls.map fun l => ⟨l, 15, d⟩))

/-! ## Page migration (10 R254, R255) -/

/-- The physical address of the leaf that maps an address, whatever the leaf holds; `none` where an entry above it does not lead
on, and `some none` where one is poisoned. -/
def State.leafFind (s : State) (ck va : Nat) : Option (Option Nat) :=
  let next (t lvl : Nat) : Option (Option Nat) :=
    let a := t + 8 * vaIndex va lvl
    let e : DWord := BitVec.ofNat 64 (s.load .mem a 8)
    if s.poisoned .mem a 8 then some none
    else if !bitOf e 0 || entryReserved e lvl || bitOf e 1 then none
    else some (some (e.toNat / 2 ^ 13 % 2 ^ 35 * 2 ^ 13))
  let on (x : Option (Option Nat)) (lvl : Nat) : Option (Option Nat) :=
    match x with
    | some (some t) => next t lvl
    | x => x
  let t := (s.ctx ck).ptbase.toNat / 65536 * 65536
  match on (on (next t 0) 1) 2 with
  | some (some t) =>
    let a := t + 8 * vaIndex va 3
    if s.poisoned .mem a 8 then some none else some (some a)
  | x => x

/-- A translation of the page reads a poisoned entry (R247). -/
def State.leafPoisoned (s : State) (ck va : Nat) : Bool := s.leafFind ck va = some none

/-- The place of a page's leaf that can be read. -/
def State.leafPlace (s : State) (ck va : Nat) : Option Nat := (s.leafFind ck va).join

/-- The leaf of a page of a migration. -/
def State.leafAt (s : State) (ck va : Nat) : DWord :=
  match s.leafPlace ck va with
  | some a => BitVec.ofNat 64 (s.load .mem a 8)
  | none => 0

/-- A migration changes a leaf in memory, at its home, a request of the team that submitted it (R241; 18 R423). -/
def State.putLeaf (s : State) (j : Job) (va : Nat) (e : DWord) : State :=
  match s.leafPlace j.ck va with
  | some a => s.writeHome j.ck a 0 (some (j.team, j.core)) (bytesOf e.toNat 8)
  | none => s

/-- A leaf with its write permission set or cleared (10 R244, R255). -/
def leafW (e : DWord) (w : Bool) : DWord := if w then e ||| 8#64 else e &&& ~~~8#64

/-- Asks for the shoot-down of a migration's pages (10 R255). DEDUCED (log 31). -/
def State.migrationShoot (s : State) (job : Nat) (j : Job) (c : Card) : State :=
  s.shootAsk j.ck { key := job, vpg := c.src / 65536, npg := c.nx, all := false, begun := false, waitFor := [] }

/-- The migration's shoot-down has completed. -/
def State.shotDown (s : State) (job : Nat) (j : Job) : Bool := !((s.ctx j.ck).shoots.any fun x => x.key = job)

/-- The checks of R254, and a remote source (22 R467). DEDUCED (log 31). -/
def State.migrationOk (s : State) (j : Job) (c : Card) : Bool :=
  c.dst + 65536 * c.nx ≤ 2 ^ 39 && (List.range c.nx).all fun k =>
    let va := c.src + 65536 * k
    let e := s.leafAt j.ck va
    va < 2 ^ 57 && (s.remoteOf j.ck va).isNone && bitOf e 0 && bitOf e 1 && bitOf e 5 && leafRun e = 0

/-- Restores the saved W bits. DEDUCED (log 31). -/
def State.restoreW (s : State) (j : Job) (c : Card) : State :=
  (List.range c.nx).foldl (fun s k =>
    let va := c.src + 65536 * k
    s.putLeaf j va (leafW (s.leafAt j.ck va) (j.savedW.getD k false))) s

/-- The first page whose translation reads a poisoned entry: the migration ends with status 0x08 (R247; 11 R271). -/
def State.migrationPoison (s : State) (j : Job) (c : Card) : Option Nat :=
  ((List.range c.nx).map fun k => c.src + 65536 * k).find? (s.leafPoisoned j.ck)

/-- Copies the lines of a page in ascending order up to one that cannot be read: its address. DEDUCED (log 31). -/
def State.copyPage (s : State) (j : Job) (c : Card) (k : Nat) : State × Option Nat :=
  let va := c.src + 65536 * k
  match s.xlat j.ck va .read with
  | (s, .ok pa leaf) =>
    let dest := c.dst + 65536 * k
    let who := some (j.team, j.core)
    (List.range 512).foldl (fun (a : State × Option Nat) i =>
      let (s, failed) := a
      if failed.isSome then a
      else
        let s := s.l2Touch ((pa + 128 * i) / 128) (homeSlice (pa + 128 * i) leaf) (insertV j.rdh) j.ck who false
        if s.poisoned .mem (pa + 128 * i) 128 then (s, some (va + 128 * i))
        else (s.writeHome j.ck (dest + 128 * i) leaf who (s.bytes .mem (pa + 128 * i) 128), none)) (s, none)
  | (s, _) => (s, some va)

/-- Abandons a migration at a page. DEDUCED (log 31). -/
def State.abandon (s : State) (job : Nat) (j : Job) (c : Card) (a : Nat) : State :=
  let s := (s.restoreW j c).migrationShoot job j c
  let j' : Job := { j with stage := 4, status := some 0x0E, detail := BitVec.ofNat 64 a }
  { s with jobs := s.jobs.put job j' }

/-- Lines of a page. -/
def pageLines (pa : Nat) : List Nat := (List.range 512).map (· + pa / 128)

/-- PAGE_MIGRATION: the next step of a migration; watched lines of its source pages go stale when it completes (13 R325).
DEDUCED (log 31). -/
def execPageMigration (job : Nat) (s : State) : Answer :=
  .next (match s.jobs.get? job with
    | none => s
    | some j =>
      let c := Card.of j.card
      let put (s : State) (j : Job) : State := { s with jobs := s.jobs.put job j }
      if c.kind ≠ 7 || !s.jobReady j then s
      else match j.stage with
        | 0 =>
          match s.migrationPoison j c with
          | some a => put s { j with stage := 5, status := some 8, detail := BitVec.ofNat 64 a }
          | none =>
          if !s.migrationOk j c then put s { j with stage := 5, status := some 2 }
          else
            let ws := (List.range c.nx).map fun k => bitOf (s.leafAt j.ck (c.src + 65536 * k)) 3
            let s := (List.range c.nx).foldl (fun s k =>
              let va := c.src + 65536 * k
              s.putLeaf j va (leafW (s.leafAt j.ck va) false)) s
            put (s.migrationShoot job j c) { j with stage := 1, savedW := ws }
        | 1 => if s.shotDown job j then put s { j with stage := 2 } else s
        | 2 =>
          if j.done < c.nx then
            match s.copyPage j c j.done with
            | (s, none) => put s { j with done := j.done + 1 }
            | (s, some a) => s.abandon job j c a
          else
            let old := (List.range c.nx).map fun k => leafPfn (s.leafAt j.ck (c.src + 65536 * k))
            let s := (List.range c.nx).foldl (fun s k =>
              let va := c.src + 65536 * k
              let e := s.leafAt j.ck va
              let pfn := c.dst / 65536 + k
              let moved : DWord := BitVec.ofNat 64 (e.toNat - leafPfn e * 2 ^ 16 + pfn % 2 ^ 32 * 2 ^ 16)
              s.putLeaf j va (leafW moved (j.savedW.getD k false))) s
            put (s.migrationShoot job j c) { j with stage := 3, old := old }
        | 3 =>
          if s.shotDown job j then
            put (s.markStale (j.old.flatMap fun p => pageLines (65536 * p)) 3) { j with stage := 5 }
          else s
        | 4 => if s.shotDown job j then put s { j with stage := 5 } else s
        | _ => s)

end Sys2Proof.Machine
end

