-- ==== Sys2Proof/Machine/Control.lean ====
section
/-! DEFINITION. Control flow (07_control R151 to R179): branches, call windows, the join stack, ejection and return of
continuations, exit, and the rejoin masks; with the completion of a join entry, of a rejoin mask and of a trap entry. -/

namespace Sys2Proof.Machine

/-! ## Branches (R152 to R154) -/

/-- `nop`: the lanes advance. -/
def execNop (f : Op3) (s : State) : Answer := withIssuer s fun k s => laneMode f.h (fun _ _ t => .next t) k s

/-- `bra`. -/
def execBra (f : Op3) (s : State) : Answer :=
  withIssuer s fun k s => laneMode f.h (fun _ _ t => .goto { t with lpc := f.imm }) k s

/-- The indirect target of a lane: trunc_32(A + ofs). -/
def indirect (g : Group) (handler : Bool) (f : Op3) (t : Thread) : Word :=
  BitVec.ofNat 32 (laneVal g t handler .b32 1 f.a) + f.imm

/-- `brx`. -/
def execBrx (f : Op3) (s : State) : Answer :=
  withIssuer s fun k s => laneMode f.h (fun g _ t => .goto { t with lpc := indirect g k.handler f t }) k s

/-- Sends lanes to one counter. -/
def Group.gotoAll (g : Group) (ls : List Nat) (target : Word) : Group := ls.foldl (fun g l => g.setLpc l target) g

/-- A branch of the group: every lane of `active` moves together (R153). -/
def branchGroup (f : Op3) (step : Group → Group × Bool) (k : Cursor) (s : State) : State :=
  let g := s.group k.gk
  if guardG g f.h k then
    let (g, take) := step g
    let g := if take then g.gotoAll (lanesOf k.active) f.imm else g.advanceActive k
    ({ s with groups := s.groups.put k.gk g }).finish k []
  else groupMode f.h id k s

/-- `bsz`. -/
def execBsz (f : Op3) (s : State) : Answer :=
  withIssuer s (branchGroup f fun g => (g, groupVal g .b32 1 f.a = 0))
/-- `bsnz`. -/
def execBsnz (f : Op3) (s : State) : Answer :=
  withIssuer s (branchGroup f fun g => (g, groupVal g .b32 1 f.a ≠ 0))
/-- `loop`: entered with 0 it writes 0xFFFF_FFFF and branches. -/
def execLoop (f : Op3) (s : State) : Answer :=
  withIssuer s (branchGroup f fun g =>
    let v : Word := BitVec.ofNat 32 (groupVal g .b32 1 f.d) - 1
    (g.write 1 f.d v.toNat, v ≠ 0))

/-! ## Calls and returns (R157 to R165) -/

/-- What a `call` or `ret` needs in a lane. -/
inductive FramePlan where
  | trap (cls : Nat) (det : QWord)
  /-- neither a spill nor a fill -/
  | move
  /-- a record in the lane slice: its offset and location -/
  | slice (off loc : Nat)
  /-- a record at a global address -/
  | area (a : Nat)
deriving DecidableEq, Repr

/-- The detail of classes 7 and 8 (17 R392). -/
def detailWindow (t : Thread) : QWord := detailOf (bytesOf t.cd 4 ++ bytesOf t.nls 2 ++ bytesOf t.ngl 2)

/-- Bytes of a lane slice, and the frame positions in it (R159). -/
def sliceBytes (p : Packet) : Nat := 16 * p.lane
/-- How many frames a thread's lane slice holds (07 R159). -/
def framePositions (p : Packet) : Nat := sliceBytes p / 128

/-- The global address of a thread's spilled frame number `n` (R159). DEDUCED (log 24). -/
def spillAddr (g : Group) (p : Packet) (tid n : Nat) : Nat := g.spillb.toNat + 128 * (n * p.threads + tid)

/-- `call` in a lane (R157, R159). DEDUCED (log 24). -/
def callPlan (g : Group) (tm : Team) (p : Packet) (core : Nat) (handler : Bool) (t : Thread) : FramePlan :=
  if handler || t.cd = 65535 then .trap 7 (detailWindow t)
  else if t.nres = 0 then .move
  else if t.nls < framePositions p then
    let off := sliceBytes p - 128 * (t.nls + 1)
    .slice off (localLoc core tm p .ln t.tid off)
  else
    let a := spillAddr g p t.tid t.ngl
    if g.spilll.toNat < 128 || g.spilll.toNat - 128 < a then .trap 9 (detailOf (bytesOf a 8 ++ bytesOf g.spilll.toNat 8))
    else .area a

/-- `ret` in a lane (R158, R159). DEDUCED (log 24). -/
def retPlan (g : Group) (tm : Team) (p : Packet) (core : Nat) (handler : Bool) (t : Thread) : FramePlan :=
  if handler || t.cd = 0 then .trap 8 (detailWindow t)
  else if t.nres ≠ 0 then .move
  else if t.ngl > 0 then .area (spillAddr g p t.tid (t.ngl - 1))
  else .slice (sliceBytes p - 128 * t.nls) (localLoc core tm p .ln t.tid (sliceBytes p - 128 * t.nls))

/-- A frame plan reads or writes a record in memory (07 R159). -/
def FramePlan.uses : FramePlan → Bool
  | .slice .. | .area _ => true
  | _ => false

/-- Stack entries that a `call` writes, and the frame that it reads when it spills; the frame that a fill writes. An entry
pending in any lane holds the instruction (06 R141). -/
def frameEntries (t : Thread) (call : Bool) (p : FramePlan) : List Nat :=
  let frame := (List.range 24).map fun i => (t.frameAt + i) % 96
  (if call then (List.range 24).map fun i => (t.wb + 32 + i) % 96 else []) ++ if p.uses then frame else []

/-- One access of the window unit (R161). DEDUCED (log 24). -/
def frameReq (l : Nat) (t : Thread) (call : Bool) (a : Nat) : Req :=
  { lane := l, tid := t.tid, space := .gl, addr := a, size := 128, need := if call then .write else .read
    kind := if call then 5 else 6 }

/-- An access of the window unit in flight: a plain store or load of its thread (R163). -/
def frameFlight (s : State) (gk : Nat) (r : Req) (c : Checked) (kind : FlightKind) : Flight :=
  let g := s.group gk
  let (loc, run, slice, remote) := c.target r.addr
  { kind := kind, core := coreOf gk, gk := gk, team := g.team, tid := r.tid, ck := s.ckOf g, space := .gl, loc := loc
    size := 128, va := r.addr, strong := false, scope := .none, acq := false, rel := false, promote := false, tx := false
    remote := remote, run := run, slice := slice, makers := [s.makerOf gk false [] r.lane], seq := s.nextId }

/-- `call` carried out in a lane, to its target. DEDUCED (log 24). -/
def State.callLane (s : State) (k : Cursor) (target : Thread → Word) (l : Nat) (p : FramePlan) (rc : Option (Req × Checked)) :
    State × List Trap :=
  let t := s.thread k.gk l
  let move (s : State) (u : Thread → Thread) : State := s.modThread k.gk l fun t => u (t.doCall (target t))
  match p, rc with
  | .trap c d, _ => (s, [⟨l, c, d⟩])
  | .move, _ => (move s id, [])
  | .slice _ loc, _ =>
    if t.tx.act then (s.txAbort k.gk l 5, [])
    else
      let s := s.write .pad (placeList loc t.frameRecord)
      let s := t.framePoison.foldl (fun s i => s.poisonRange .pad (loc + 4 * i) 4) s
      (move s fun u => { u with nls := u.nls + 1 }, [])
  | .area _, some (r, c) =>
    match c with
    | .trap cls d => (s, [⟨l, cls, d⟩])
    | .wait => (s, [])
    | c =>
      if t.tx.act then (s.txAbort k.gk l 5, [])
      else
        let base := match c with | .ok loc _ _ => loc | _ => r.addr
        let fl := frameFlight s k.gk r c (.spill (placeList base t.frameRecord) (!t.framePoison.isEmpty))
        let s := if fl.remote.isNone then s.modCore fl.core (·.l1Store (placeList base t.frameRecord)) else s
        let (s, id) := s.launchFlight fl
        let s := s.sendRemote fl 1 t.frameRecord
        if fl.remote.isSome then (s.modThread k.gk l fun t => { t with wait := .window id }, [])
        else (move s fun u => { u with ngl := u.ngl + 1, wait := .window id }, [])
  | .area _, none => (s, [])

/-- The record of a fill that the L1 holds in both its sectors: a fill is a plain load (R163; 10 R237). -/
def State.fillHit (s : State) (f : Flight) : Option (List Byte) :=
  if !s.mayHit f then none
  else match (s.core f.core).l1Sector f.loc, (s.core f.core).l1Sector (f.loc + 64) with
    | some a, some b => some (a ++ b)
    | _, _ => none

/-- Sectors that a lane's fill asks for, or the line of a spill (10 R236). -/
def State.frameNeeds (s : State) (gk : Nat) (call : Bool) (rc : Req × Checked) : List (Nat × Nat) :=
  match rc.2 with
  | .trap .. | .wait => []
  | c =>
    let f := frameFlight s gk rc.1 c .fill
    let tag := f.remote.elim 0 (· + 1)
    if call then [(tag, f.loc / 128)]
    else ([f.loc, f.loc + 64].filter fun a => !(s.mayHit f && ((s.core f.core).l1Sector a).isSome)).map fun a => (tag, a / 64)

/-- `ret` carried out in a lane. DEDUCED (log 24). -/
def State.retLane (s : State) (k : Cursor) (l : Nat) (p : FramePlan) (rc : Option (Req × Checked)) : State × List Trap :=
  let t := s.thread k.gk l
  match p, rc with
  | .trap c d, _ => (s, [⟨l, c, d⟩])
  | .move, _ => (s.modThread k.gk l Thread.doRet, [])
  | .slice off loc, _ =>
    if t.tx.act then (s.txAbort k.gk l 5, [])
    else if s.poisoned .pad loc 128 then (s, [⟨l, 16, detailM off 0 6 128 4⟩])
    else (s.modThread k.gk l fun t => ({ t.fillFrame (s.bytes .pad loc 128) with nls := t.nls - 1 } : Thread).doRet, [])
  | .area _, some (r, c) =>
    match c with
    | .trap cls d => (s, [⟨l, cls, d⟩])
    | .wait => (s, [])
    | c =>
      if t.tx.act then (s.txAbort k.gk l 5, [])
      else
        let fl := frameFlight s k.gk r c .fill
        match s.fillHit fl with
        | some rec =>
          ((s.modCore fl.core (·.l1Use fl.loc)).modThread k.gk l fun t =>
            ({ t.fillFrame rec with ngl := t.ngl - 1 } : Thread).doRet, [])
        | none =>
          let s := if s.mayHit fl then s.l1Missed fl else s
          let (s, id) := s.launchFlight fl
          let s := s.sendRemote fl 0 []
          (s.modThread k.gk l fun t => { t with wait := .window id }, [])
  | .area _, none => (s, [])

/-- A lane in a transaction meets a `call` that would spill or a `ret` that would fill: it aborts before the instruction, with no
other check of it (15 R373). One that would trap for its stream or its depth aborts as for any trap. -/
def frameBarred (call handler : Bool) (t : Thread) : Bool :=
  t.tx.act && !handler && if call then t.cd ≠ 65535 && t.nres ≠ 0 else t.cd ≠ 0 && t.nres = 0

/-- `call`, `callx` and `ret`: the plans of the lanes, what holds them, and their moves. A spill or a fill ends the run
(R165). DEDUCED (log 24). -/
def windowOp (call : Bool) (h : Head) (target : Thread → Word) (k : Cursor) (s : State) : State :=
  let g := s.group k.gk
  match s.teamOf g, s.pktOf g with
  | some tm, some p =>
    let barred := (guarded g h k).filter fun l => frameBarred call k.handler (s.thread k.gk l)
    let plans := ((guarded g h k).filter fun l => !barred.contains l).map fun l =>
      let t := s.thread k.gk l
      (l, if call then callPlan g tm p (coreOf k.gk) k.handler t else retPlan g tm p (coreOf k.gk) k.handler t)
    let held (e : Nat) : Bool := g.lanes.any fun t => t.2.pend.contains e
    let blocked := plans.any fun lp =>
      let t := s.thread k.gk lp.1
      ((match lp.2 with | .trap .. => [] | q => frameEntries t call q).any held) ||
        (lp.2.uses && s.threadHolds k.gk lp.1 false) ||
        (match lp.2 with | .slice _ loc => s.padBusy (coreOf k.gk) loc 128 | _ => false)
    let reqs := plans.filterMap fun lp =>
      match lp.2 with
      | .area a => some (frameReq lp.1 (s.thread k.gk lp.1) call a)
      | _ => none
    if blocked then s
    else match s.checkAll k.gk reqs with
      | (s, none) => s
      | (s, some rs) =>
        if !s.hasRequests (coreOf k.gk) (rs.flatMap (s.frameNeeds k.gk call)).dedup.length then s
        else
        let s := barred.foldl (fun s l => s.txAbort k.gk l 5) (s.takeReplies k.gk)
        let rs := rs.map fun rc => (rc.1, rc.2.watched k.handler (s.thread k.gk rc.1.lane) rc.1)
        let (s, ts) := plans.foldl (fun (a : State × List Trap) lp =>
          let rc := rs.find? fun r => r.1.lane = lp.1
          let (s, t) := if call then a.1.callLane k target lp.1 lp.2 rc else a.1.retLane k lp.1 lp.2 rc
          (s, a.2 ++ t)) (s, [])
        let s := if plans.any fun lp => lp.2.uses then s.endRun k.gk else s
        (s.advanceOthers k (guarded g h k)).finish k ts
  | _, _ => s.finish k []

/-- `call`. -/
def execCall (f : Op3) (s : State) : Answer := withIssuer s (windowOp true f.h fun _ => f.imm)
/-- `callx`. -/
def execCallx (f : Op3) (s : State) : Answer :=
  withIssuer s fun k s => windowOp true f.h (fun t => indirect (s.group k.gk) k.handler f t) k s
/-- `ret`. -/
def execRet (f : Op3) (s : State) : Answer := withIssuer s (windowOp false f.h fun _ => 0)

/-! ## The join stack (R166 to R173) -/

/-- The entries of a stream's part of the stack: above the trap entry for the handler stream (R168). -/
def Group.ownJoins (g : Group) (handler : Bool) : List JoinEntry :=
  if handler then g.joins.takeWhile fun e => match e with | .trap .. => false | .join .. => true else g.joins

/-- The detail of class 10 (17 R392). -/
def detailJoin (cause depth : Nat) : QWord := detailOf (bytesOf cause 4 ++ bytesOf depth 4)

/-- `jopen`, `join` and `eject` of the main stream are held while a trap entry stands (R168). -/
def Group.joinHeld (g : Group) (k : Cursor) : Bool := !k.handler && g.trapEntry.isSome

/-- `jopen` (R167, R170). -/
def execJopen (f : Op3) (s : State) : Answer :=
  withIssuer s fun k s =>
    let g := s.group k.gk
    if g.joinHeld k then s
    else if !guardG g f.h k then groupMode f.h id k s
    else if 15 ≤ g.joins.length then trapAll k 10 (detailJoin 1 g.joins.length) s
    else groupMode f.h (fun g => { g with joins := .join 0 k.active f.imm 0 :: g.joins }) k s

/-- Adds lanes to ARR of the topmost entry whose TGT is `j`. -/
def arriveJoin (j : Word) (m : Word) : List JoinEntry → List JoinEntry
  | [] => []
  | .join c mask tgt arr :: t =>
    if tgt = j then .join c mask tgt (arr ||| m) :: t else .join c mask tgt arr :: arriveJoin j m t
  | e :: t => e :: arriveJoin j m t

/-- An acquire of some lane that executes is in flight: what another lane does after the event must come after it (14 R343). -/
def State.acqHolds (s : State) (k : Cursor) : Bool := (lanesOf k.active).any fun l => s.threadHolds k.gk l false

/-- `join` (R171): the lanes wait and do not advance. -/
def execJoin (f : Op3) (s : State) : Answer :=
  withIssuer s fun k s =>
    let g := s.group k.gk
    if g.joinHeld k || s.acqHolds k then s
    else if !guardG g f.h k then groupMode f.h id k s
    else if (g.ownJoins k.handler).any fun e => match e with | .join _ _ tgt _ => tgt = k.pc | .trap .. => false then
      ({ s with groups := s.groups.put k.gk { g with joins := arriveJoin k.pc k.active g.joins } }).finish k []
    else trapAll k 10 (detailJoin 2 g.joins.length) s

/-- JOIN_COMPLETION (R172): the topmost entry, with no thread ejected and every lane arrived or exited. -/
def Group.joinReady (g : Group) : Bool :=
  match g.joins with
  | .join 0 mask _ arr :: _ => (lanesOf mask).all fun l => bitOf arr l || !g.live l
  | _ => false

/-- The topmost join entry has all its lanes (07 R172). -/
def Group.joinComplete (g : Group) : Group :=
  match g.joins with
  | .join _ _ tgt arr :: rest => ({ g with joins := rest }).gotoAll (lanesOf arr) (tgt + 1)
  | _ => g

/-- The lanes that the completion of the topmost entry releases. -/
def Group.joinLanes (g : Group) : List Nat :=
  match g.joins with
  | .join _ _ _ arr :: _ => lanesOf arr
  | _ => []

/-- JOIN_COMPLETION (07 R172): it orders the lanes (14 R343). -/
def execJoinCompletion (gk : Nat) (s : State) : Answer :=
  .next (if (s.group gk).joinReady then
      (s.syncLanes ((s.group gk).joinLanes.map fun l => (gk, l))).modGroup gk Group.joinComplete
    else s)

/-- TRAP_ENTRY_POP (17 R399). -/
def execTrapEntryPop (gk : Nat) (s : State) : Answer :=
  .next (if (s.group gk).popReady then (s.modGroup gk Group.popTrap).reap gk else s)

/-! ## Ejection and return (R174 to R176) -/

/-- Changes the join entry that stands `i` places above the bottom. -/
def Group.modJoinAt (g : Group) (i : Nat) (u : JoinEntry → JoinEntry) : Group :=
  { g with joins := g.joins.mapIdx fun n e => if g.joins.length = i + n + 1 then u e else e }

/-- Changes ECNT of an entry. -/
def JoinEntry.ejected (e : JoinEntry) (u : Nat → Nat) : JoinEntry :=
  match e with
  | .join c m t a => .join (u c) m t a
  | e => e

/-- A lane has its bit set in a rejoin mask. -/
def Group.enrolled (g : Group) (l : Nat) : Bool := (List.range 4).any fun n => bitOf (g.rmask n) l

/-- Makes a lane's thread a continuation. -/
def State.ejectLane (s : State) (k : Cursor) (target : Word) (order entry l : Nat) : State :=
  match (s.group k.gk).lanes.get? l with
  | none => s
  | some t =>
    let th : Thread := { t with lpc := target, wait := .none, home := some ⟨k.gk, l, entry, t.cd⟩ }
    let c : Cont := { core := coreOf k.gk, th := th, age := 0, order := order }
    let tk := (s.group k.gk).team
    (s.modTeam tk fun t => { t with conts := t.conts ++ [c] }).modGroup k.gk fun g => { g with lanes := g.lanes.del l }

/-- `eject` (R174). -/
def execEject (f : Op3) (s : State) : Answer :=
  withIssuer s fun k s =>
    let g := s.group k.gk
    if g.joinHeld k then s
    else
      let xs := (guarded g f.h k).filter fun l =>
        match f.a with
        | .pred i => (s.thread k.gk l).pred i
        | _ => false
      let all (cause : Nat) : List Trap := xs.map fun l => ⟨l, 10, detailJoin cause g.joins.length⟩
      let s := s.advanceOthers k xs
      if xs.isEmpty then s.finish k []
      else if k.handler || g.isCont then s.finish k (all 4)
      else match g.joins with
        | .join .. :: _ =>
          if xs.any g.enrolled then s.finish k (all 5)
          else
            let order := s.clock
            let i := g.joins.length - 1
            let s := xs.foldl (fun s l => s.ejectLane k f.imm order i l) s
            (s.modGroup k.gk fun g => g.modJoinAt i (·.ejected (· + xs.length))).finish k []
        | _ => s.finish k (all 3)

/-- Moves a thread back to its home lane (R176). -/
def State.rejoinLane (s : State) (k : Cursor) (l : Nat) (t : Thread) (h : Home) : State :=
  let s := s.modGroup k.gk fun g => { g with lanes := g.lanes.del l }
  let home := s.group h.gk
  let tgt := ((home.joins.reverse.getD h.entry (.join 0 0 t.lpc 0)) |> fun e =>
    match e with
    | .join _ _ tgt _ => tgt
    | .trap .. => t.lpc)
  s.modGroup h.gk fun g =>
    ({ g with lanes := g.lanes.put h.lane { t with home := none, lpc := tgt, wait := .none } }).modJoinAt h.entry fun e =>
      match e with
      | .join c m x a => .join (c - 1) m x (a ||| maskOf [h.lane])
      | e => e

/-- `rejoin`. -/
def execRejoin (f : Op3) (s : State) : Answer :=
  withIssuer s fun k s =>
    let g := s.group k.gk
    let cs := guarded g f.h k
    let depth := g.joins.length
    if s.acqHolds k then s
    else
    let (s, ts) := cs.foldl (fun (a : State × List Trap) l =>
      let t := a.1.thread k.gk l
      let bad (c : Nat) : State × List Trap := (a.1, a.2 ++ [⟨l, 10, detailJoin c depth⟩])
      match t.home with
      | none => bad 6
      | some h =>
        if depth ≠ 0 then bad 7
        else if t.cd ≠ h.cd then bad 8
        else (a.1.rejoinLane k l t h, a.2)) (s, [])
    (s.advanceOthers k cs).finish k ts

/-! ## Exit (R177) -/

/-- Ends the thread of a lane. -/
def State.exitLane (s : State) (k : Cursor) (l : Nat) : State :=
  let g := s.group k.gk
  let t := s.thread k.gk l
  let s := s.modGroup k.gk fun g =>
    { g with rm := (List.range 4).foldl (fun m n => m.write 0 n (g.rmask n &&& ~~~(maskOf [l]))) g.rm }
  let s := match t.home with
    | some h => s.modGroup h.gk fun g =>
        g.modJoinAt h.entry (·.ejected (· - 1))
    | none => s
  let s := if g.inHandler l then
      s.modGroup k.gk fun g =>
        { g with joins := g.joins.map fun e =>
            match e with
            | .trap c p d q => .trap c (p &&& ~~~(maskOf [l])) d q
            | e => e }
    else s
  let s := s.dropToken g.team t.tid
  let s := s.modThread k.gk l fun t => { t with exited := true, wait := .none }
  let s := s.collectAgain k.gk
  match t.home with
  | some h => s.collectAgain h.gk
  | none => s

/-- The trap entry of a group whose parked lanes have all exited pops (R177). -/
def Group.popEmpty (g : Group) : Group :=
  match g.trapEntry with
  | some (_, p, _, _) => if p = 0 then g.popTrap else g
  | none => g

/-- `exit`. A home slot that waited for its last continuation is freed with it (R177). -/
def execExit (f : Op3) (s : State) : Answer :=
  withIssuer s fun k s =>
    let g := s.group k.gk
    let cs := guarded g f.h k
    let homes := (cs.filterMap fun l => (s.thread k.gk l).home.map (·.gk)).dedup
    let s := (cs.foldl (fun s l => s.exitLane k l) s).modGroup k.gk Group.popEmpty
    homes.foldl (fun s h => s.reap h) ((s.advanceOthers k cs).finish k [])

/-! ## Rejoin masks (R178, R179) -/

/-- `enrol`. -/
def execEnrol (f : Op3) (s : State) : Answer :=
  withIssuer s fun k s =>
    let n := f.imm.toNat % 4
    lanesOver f.h k (fun s l =>
      (s.modGroup k.gk fun g => { g with rm := g.rm.write 0 n (g.rmask n ||| maskOf [l]) }).stepLane k.gk l id) s

/-- `bwaitm`. -/
def execBwaitm (f : Op3) (s : State) : Answer :=
  withIssuer s fun k s =>
    let n := f.imm.toNat % 4
    if s.acqHolds k then s
    else lanesOver f.h k (fun s l =>
      if bitOf ((s.group k.gk).rmask n) l then s.modThread k.gk l fun t => { t with wait := .rejoinMask n }
      else s.stepLane k.gk l id) s

/-- Lanes that wait at a `bwaitm` naming a mask. -/
def Group.maskWaiters (g : Group) (n : Nat) : List Nat :=
  (List.range 32).filter fun l => match g.lanes.get? l with | some t => t.wait = .rejoinMask n | none => false

/-- A lane counts as exited for a rejoin mask: its thread has exited, or the packing of a regroup has left it vacant (R178; 16 R384).
A lane of a continuation group that its thread has left by `rejoin` does not. -/
def Group.maskGone (g : Group) (l : Nat) : Bool :=
  match g.lanes.get? l with
  | some t => t.exited
  | none => !g.isCont

/-- BWAITM_RELEASE (R178). -/
def Group.maskReady (g : Group) (n : Nat) : Bool :=
  !(g.maskWaiters n).isEmpty && (lanesOf (g.rmask n)).all fun l => g.maskGone l || (g.maskWaiters n).contains l

/-- BWAITM_RELEASE (07 R178). -/
def execBwaitmRelease (gk n : Nat) (s : State) : Answer :=
  .next (if (s.group gk).maskReady n then
      (s.syncLanes (((s.group gk).maskWaiters n).map fun l => (gk, l))).modGroup gk fun g =>
        { g.advanceAll (g.maskWaiters n) with rm := g.rm.del n }
    else s)

end Sys2Proof.Machine
end

