-- ==== Sys2Proof/Machine/Regroup.lean ====
section
/-! DEFINITION. Regrouping (16_regroup R378 to R389): the rendezvous, packing by key, the return home, continuation groups,
and `cqstat`; with the state of a group at its start (04_placing R92; 07_control R175). -/

namespace Sys2Proof.Machine

/-! ## A group at its start -/

/-- The scalars and special registers of a group at team start (04 R92; 02 R45; 05 R116), without threads. -/
def startGroup (tk : Nat) (t : Team) (p : Packet) (gid : Word) (j : Nat) : Group :=
  let spillb : DWord := p.spill + BitVec.ofNat 64 (t.idx * p.spillsz)
  let g : Group :=
    { team := tk, gid := gid, j := j, tbase := p.tbase, spillb := spillb, spilll := spillb + BitVec.ofNat 64 p.spillsz }
  ((g.setScalars 0 2 p.param.toNat).setScalar 2 (BitVec.ofNat 32 t.runStart)).setScalar 3 (BitVec.ofNat 32 j)

/-- Group slots of a core that no group holds (04 R86). -/
def State.freeSlots (s : State) (core : Nat) : List Nat :=
  (List.range 32).filter fun k => (s.groups.get? (32 * core + k)).isNone

/-- The groups of a team on a core. -/
def State.teamGroups (s : State) (tk core : Nat) : Tbl Group :=
  s.groups.filter fun e => e.2.team = tk && coreOf e.1 = core

/-- The position of a core among the team's cores. -/
def Team.coreIndex (t : Team) (core : Nat) : Nat := t.cores.findIdx (· = core)

/-! ## Arriving (R379, R380) -/

/-- A group has a thread that has not exited. -/
def Group.hasThread (g : Group) : Bool := g.lanes.any fun e => !e.2.exited

/-- The domain of a rendezvous. DEDUCED (log 25). -/
def State.domain (s : State) (tk core : Nat) : List Nat :=
  ((s.teamGroups tk core).filter fun e => !e.2.isCont && !e.2.idle && e.2.hasThread).map (·.1)

/-- The open rendezvous of a team on a core with a number. -/
def Team.openRdv (t : Team) (core count : Nat) : Option Rdv :=
  t.rdvs.find? fun r => r.core = core && r.count = count && !r.moving && !r.alone

/-- The first failure of R379 for a group. -/
def regroupCause (g : Group) (t : Team) (k : Cursor) (home : Bool) (mask : Word) : Option Nat :=
  if k.handler then some 1
  else if g.isCont then some 2
  else if !g.joins.isEmpty then some 3
  else if (List.range 32).any fun l => g.live l && !bitOf k.active l then some 4
  else if (lanesOf k.active).any fun l => ((g.lanes.get? l).map (·.cd)).getD 0 ≠ 0 then some 5
  else if (List.range 4).any fun n => g.rmask n ≠ 0 then some 6
  else match t.openRdv (coreOf k.gk) g.rdvCount with
    | some r => if r.home ≠ home || r.mask ≠ mask then some 7 else none
    | none => none

/-- The detail of class 22 (R379). -/
def detailRegroup (g : Group) (t : Team) (k : Cursor) (cause l : Nat) : QWord :=
  let mask := if cause = 7 then ((t.openRdv (coreOf k.gk) g.rdvCount).map (·.mask.toNat)).getD 0 else 0
  detailOf (bytesOf cause 4 ++ bytesOf (((g.lanes.get? l).map (·.cd)).getD 0) 4 ++ bytesOf g.joins.length 4 ++ bytesOf mask 4)

/-- Puts a group's arrival into its rendezvous: it opens it, in a clock that the timer counts (R381), or joins it; a latecomer opens
its own. DEDUCED (log 25). -/
def State.arrive (s : State) (k : Cursor) (home : Bool) (mask : Word) (keys : Tbl Nat) : State :=
  let g := s.group k.gk
  let core := coreOf k.gk
  let slot := slotOf k.gk
  let s := s.modTeam g.team fun t =>
    match t.openRdv core g.rdvCount with
    | some r =>
      { t with rdvs := t.rdvs.map fun x =>
          if x = r then { x with arrived := x.arrived ++ [slot], keys := keys.foldl (fun m e => m.put e.1 e.2) x.keys } else x }
    | none =>
      let late := decide (g.rdvCount < t.rdvDone.read 0 core)
      let r : Rdv :=
        { core := core, home := home, mask := mask, count := g.rdvCount, arrived := [slot], keys := keys, opener := slot
          limit := if home then 0 else g.rgtmo.toNat, timer := 1, alone := late, moving := false }
      { t with rdvs := t.rdvs ++ [r] }
  s.modGroup k.gk fun g =>
    { g with lanes := g.lanes.map fun e => if bitOf k.active e.1 then (e.1, { e.2 with wait := .regroup }) else e }

/-- The key of every arriving thread (R378). -/
def regroupKeys (f : Op3) (k : Cursor) (g : Group) : Tbl Nat :=
  (lanesOf k.active).foldl (fun m l =>
    match g.lanes.get? l with
    | some t => m.put t.tid (laneVal g t k.handler .b32 1 f.a % 2 ^ 16)
    | none => m) []

/-- `regroup` and `regroup.home`. The move writes every window register, so the arrival waits for pending ones. -/
def regroupOp (home : Bool) (f : Op3) (k : Cursor) (s : State) : State :=
  let g := s.group k.gk
  let poisoned : List Trap := (lanesOf k.active).filterMap fun l =>
    match f.a with
    | .win i => (g.usePoison k.handler l (0, i, 1)).map fun co => ⟨l, 16, detailReg l co.1 co.2⟩
    | _ => none
  if !guardG g f.h k then groupMode f.h id k s
  else if !poisoned.isEmpty then s.finish k poisoned
  else match s.teamOf g with
    | none => s.finish k []
    | some t =>
      match regroupCause g t k home f.imm with
      | some c => s.finish k ((lanesOf k.active).map fun l => ⟨l, 22, detailRegroup g t k c l⟩)
      | none =>
        if (g.lanes.any fun e => !e.2.pend.isEmpty) || s.acqHolds k then s
        else ((s.arrive k home f.imm (regroupKeys f k g)).endRun k.gk).finish k []

/-- `regroup`. -/
def execRegroup (f : Op3) (s : State) : Answer := withIssuer s (regroupOp false f)
/-- `regroup.home`. -/
def execRegroupHome (f : Op3) (s : State) : Answer := withIssuer s (regroupOp true f)

/-! ## Completion (R380, R381, R385) -/

/-- The threads of a rendezvous that have not exited. -/
def State.rdvTids (s : State) (r : Rdv) : List Nat :=
  r.arrived.flatMap fun k => ((s.group (32 * r.core + k)).lanes.filter fun e => !e.2.exited).map fun e => e.2.tid

/-- The homes of a `regroup.home` that no slot of the core holds: group numbers (R385). -/
def State.missingHomes (s : State) (tk : Nat) (r : Rdv) : List Nat :=
  (((s.rdvTids r).map (· / 32)).dedup).filter fun h =>
    !((s.teamGroups tk r.core).any fun e => !e.2.isCont && e.2.gid.toNat = h)

/-- A continuation group occupies a home slot (R385). -/
def State.homeTaken (s : State) (tk : Nat) (r : Rdv) (h : Nat) : Bool :=
  (s.teamGroups tk r.core).any fun e => e.2.isCont && e.2.overGid = some (BitVec.ofNat 32 h)

/-- Every group of the domain has arrived (R380). -/
def State.rdvFull (s : State) (tk : Nat) (r : Rdv) : Bool :=
  !r.moving && (r.alone || (s.domain tk r.core).all fun gk => r.arrived.contains (slotOf gk))

/-- The home lane of a thread is its own to take: it lies in a slot that has arrived, or holds no live thread. The manual does
not say what a late return home does where another thread runs in its lane; it waits. DESIGN CHOICE (log 59). -/
def State.homeFree (s : State) (tk : Nat) (r : Rdv) (tid : Nat) : Bool :=
  (s.teamGroups tk r.core).any fun e => !e.2.isCont && e.2.gid.toNat = tid / 32 &&
    (r.arrived.contains (slotOf e.1) || !e.2.live (tid % 32))

/-- The rendezvous can complete: every group of the domain has arrived, and a return home finds its lanes. DEDUCED
(log 25). -/
def State.rdvReady (s : State) (tk : Nat) (r : Rdv) : Bool :=
  s.rdvFull tk r && (!r.home || ((s.missingHomes tk r).isEmpty && (s.rdvTids r).all (s.homeFree tk r)))

/-- A `regroup.home` that has all its groups takes free slots of the core for homes that no slot holds, as they become free. A
slot so taken stands as at team start, idle until the move (R385). -/
def State.takeHomes (s : State) (tk : Nat) (r : Rdv) : State :=
  if !(r.home && s.rdvFull tk r) then s
  else
    let wanted := (s.missingHomes tk r).filter fun h => !s.homeTaken tk r h
    (wanted.zip (s.freeSlots r.core)).foldl (fun s (e : Nat × Nat) =>
      match s.teams.get? tk, (s.teams.get? tk).bind s.gridOf with
      | some t, some g =>
        let n := startGroup tk t g.pkt (BitVec.ofNat 32 e.1) (t.coreIndex r.core)
        { s with groups := s.groups.put (32 * r.core + e.2) { n with idle := true, rdvCount := r.count } }
      | _, _ => s) s

/-- A rendezvous completes: the relocation begins, each domain slot has completed one more (R380, R386), and its threads are
ordered after each other (14 R343). DEDUCED (log 25). -/
def State.rdvComplete (s : State) (tk : Nat) (r : Rdv) : State :=
  let s := s.syncLanes (r.arrived.flatMap fun k => s.lanesIn (32 * r.core + k))
  let s := s.modTeam tk fun t =>
    { t with
      rdvs := t.rdvs.map fun x => if x = r then { x with moving := true } else x
      rdvDone := t.rdvDone.put r.core (max (t.rdvDone.read 0 r.core) (r.count + 1)) }
  { s with groups := s.groups.map fun e =>
      if e.2.team = tk && coreOf e.1 = r.core && r.arrived.contains (slotOf e.1) then
        (e.1, { e.2 with rdvCount := r.count + 1 })
      else e }

/-- Return homes take the slots that are free as a clock begins, before continuation groups and placement do (R385, R388). -/
def State.takeAllHomes (s : State) : State :=
  (s.teams.flatMap fun e => e.2.rdvs.map fun r => (e.1, r)).foldl (fun s e => s.takeHomes e.1 e.2) s

/-- REGROUP_COMPLETION (R380, R385). -/
def execRegroupCompletion (tk core : Nat) (s : State) : Answer :=
  .next (match s.teams.get? tk with
    | some t =>
      (t.rdvs.filter fun r => r.core = core).foldl (fun s r =>
        let s := s.takeHomes tk r
        if s.rdvReady tk r then s.rdvComplete tk r else s) s
    | none => s)

/-- The time-out of a rendezvous has expired (R381). -/
def Rdv.expired (r : Rdv) : Bool := !r.moving && !r.home && r.limit ≠ 0 && r.limit ≤ r.timer

/-- REGROUP_TIMEOUT (R381): the groups present form the domain. -/
def execRegroupTimeout (tk core : Nat) (s : State) : Answer :=
  .next (match s.teams.get? tk with
    | some t =>
      (t.rdvs.filter fun r => r.core = core).foldl (fun s r => if r.expired then s.rdvComplete tk r else s) s
    | none => s)

/-! ## Packing (R382, R383) -/

/-- A thread as the move leaves it, one instruction on: registers that the mask does not name and the entries outside the
window become zero (R383, R386). -/
def Thread.moved (t : Thread) (mask : Word) : Thread :=
  let keep (e : Nat) : Bool := (List.range 32).any fun i => bitOf mask i && (t.wb + i) % 96 = e
  { t with
    stack := t.stack.filter fun e => keep e.1
    poison := t.poison.filter fun e => 96 ≤ e.1 || keep e.1
    lpc := t.lpc + 1
    wait := .none }

/-- Maximal runs of equal key of a sorted list of keys and threads. -/
def keyRuns : List (Nat × Thread) → List (Nat × List Thread)
  | [] => []
  | (k, t) :: rest =>
    match keyRuns rest with
    | (k', ts) :: more => if k = k' then (k, t :: ts) :: more else (k, [t]) :: (k', ts) :: more
    | [] => [(k, [t])]

/-- Cuts a list into pieces of 32. -/
def pieces {α : Type} : Nat → List α → List (List α)
  | 0, _ => []
  | _, [] => []
  | n + 1, l => l.take 32 :: pieces n (l.drop 32)

/-- The packing of runs into slots: each slot's threads with their keys (R382). -/
def packRuns (total : Nat) : Nat → List (Nat × List Thread) → List (List (Nat × Thread))
  | _, [] => []
  | used, (k, ts) :: rest =>
    let need := (ts.length + 31) / 32
    let others := (rest.map fun r => r.2.length).sum
    let mine := ts.map fun t => (k, t)
    if others ≤ (total - used - need) * 32 then pieces need mine ++ packRuns total (used + need) rest
    else pieces total (mine ++ rest.flatMap fun r => r.2.map fun t => (r.1, t))

/-- One slot refilled by a packing. -/
def Group.packed (g : Group) (mask : Word) (ts : List (Nat × Thread)) : Group :=
  match ts with
  | [] => { g with lanes := [], idle := true }
  | (k, _) :: _ =>
    let uniform := ts.all fun e => e.1 = k
    { g with
      idle := false
      rgkey := if uniform then BitVec.ofNat 32 k else 0xFFFF
      lanes := (List.range ts.length).zip (ts.map fun e => (e.2.moved mask).setPred 7 uniform) }

/-- Order of keys, then of thread ids. -/
def keyOrder (a b : Nat × Thread) : Bool := a.1 < b.1 || (a.1 = b.1 && a.2.tid ≤ b.2.tid)

/-- The live threads of the slots of a rendezvous with their keys. -/
def State.rdvThreads (s : State) (r : Rdv) : List (Nat × Thread) :=
  r.arrived.flatMap fun k =>
    ((s.group (32 * r.core + k)).lanes.filter fun e => !e.2.exited).map fun e => (r.keys.read 0 e.2.tid, e.2)

/-- The move of a completed `regroup`. DEDUCED (log 25). -/
def State.packThreads (s : State) (r : Rdv) : State :=
  let slots := (r.arrived.filter fun k => (s.group (32 * r.core + k)).hasThread).mergeSort (· ≤ ·)
  let packs := packRuns slots.length 0 (keyRuns ((s.rdvThreads r).mergeSort keyOrder))
  (List.range slots.length).foldl (fun s i =>
    let gk := 32 * r.core + slots.getD i 0
    (s.modGroup gk fun g => g.packed r.mask (packs.getD i [])).reap gk) s

/-- A slot after a return home: the threads whose home it is stand in their lanes, beside those of a slot that has not arrived;
a refilled slot has completed the rendezvous (R380, R385). DEDUCED (log 25). -/
def Group.homed (g : Group) (r : Rdv) (arrived : Bool) (ts : List Thread) : Group :=
  let mine := ts.filter fun t => t.tid / 32 = g.gid.toNat
  let stay := if arrived then [] else g.lanes
  if mine.isEmpty then { g with lanes := stay }
  else { g with
    idle := false
    rgkey := 0xFFFF
    rdvCount := max g.rdvCount (r.count + 1)
    lanes := mine.foldl (fun m t => m.put (t.tid % 32) (t.moved r.mask)) stay }

/-- A slot that a return home leaves empty is freed if no thread of its own home remains on the core, and is idle else (R385). A group
that took no part in it, all of whose lanes are ejected, is left as it is. DEDUCED (log 25). -/
def State.homeLeft (s : State) (tk : Nat) (r : Rdv) (gk : Nat) : State :=
  let g := s.group gk
  if !g.lanes.isEmpty || !(g.idle || r.arrived.contains (slotOf gk)) then s
  else
    let remains := (s.teamGroups tk r.core).any fun e => e.2.lanes.any fun l => !l.2.exited && l.2.tid / 32 = g.gid.toNat
    (s.modGroup gk fun g => { g with idle := remains }).reap gk

/-- The move of a completed `regroup.home` (R385). DEDUCED (log 25). -/
def State.homeThreads (s : State) (tk : Nat) (r : Rdv) : State :=
  let ts := (s.rdvThreads r).map (·.2)
  let gks := ((s.teamGroups tk r.core).filter fun e => !e.2.isCont).map (·.1)
  let s := gks.foldl (fun s gk => s.modGroup gk fun g => g.homed r (r.arrived.contains (slotOf gk)) ts) s
  gks.foldl (fun s gk => s.homeLeft tk r gk) s

/-- RELOCATION_END (R386). DEDUCED (log 25). -/
def execRelocationEnd (tk core : Nat) (s : State) : Answer :=
  .next (match s.teams.get? tk with
    | some t =>
      let s := s.modTeam tk fun t => { t with rdvs := t.rdvs.filter fun r => !(r.core = core && r.moving) }
      (t.rdvs.filter fun r => r.core = core && r.moving).foldl (fun s r =>
        if r.home then s.homeThreads tk r else s.packThreads r) s
    | none => s)

/-! ## Continuations (R388, R389) -/

/-- The continuations of a core with their teams, the earliest clock of ejection first and then the lower thread id. -/
def State.contQueue (s : State) (core : Nat) : List (Nat × Cont) :=
  (s.teams.flatMap fun e => (e.2.conts.filter fun c => c.core = core).map fun c => (e.1, c)).mergeSort fun a b =>
    a.2.order < b.2.order || (a.2.order = b.2.order && a.2.th.tid ≤ b.2.th.tid)

/-- A slot is the home of threads that a return home is about to move, or moves (R385). -/
def State.homeDue (s : State) (tk core : Nat) (gid : Word) : Bool :=
  (s.teams.get? tk).any fun t => t.rdvs.any fun r =>
    r.home && r.core = core && (r.moving || s.rdvFull tk r) && (s.rdvTids r).any fun x => x / 32 = gid.toNat

/-- The slot of a core that a team's continuations can take: a free slot, or an idle slot of the team, but for one to which a
return home is due, or from which a launch is still on its way. DEDUCED (log 25). -/
def State.contSlot (s : State) (tk core : Nat) : Option Nat :=
  match s.freeSlots core with
  | k :: _ => some (32 * core + k)
  | [] => ((s.teamGroups tk core).find? fun e => e.2.idle && e.2.launches.isEmpty && !s.homeDue tk core e.2.gid).map (·.1)

/-- The class that Swarm picks on a core, if it can form a group: its team and slot, with its threads by thread id.
DEDUCED (log 25). -/
def State.contClass (s : State) (core : Nat) : Option (Nat × Nat × List Cont) :=
  match s.contQueue core with
  | [] => none
  | (tk, c) :: rest =>
    let cls := ((tk, c) :: rest).filter fun e => e.1 = tk && e.2.th.lpc = c.th.lpc
    match s.contSlot tk core with
    | some gk =>
      if 32 ≤ cls.length || 64 ≤ c.age then
        some (tk, gk, ((cls.map (·.2)).mergeSort fun a b => a.th.tid ≤ b.th.tid).take 32)
      else none
    | none => none

/-- CONTINUATION_GROUP_FORM (R388; 07 R175). What the group of an idle slot still has under way keeps a key of its own (12 R304). A
scalar of the home group that waits on a long-latency result as the group forms is copied with the value that it holds, and the
result does not reach the copy. DESIGN CHOICE (log 67). -/
def execContinuationGroupForm (core : Nat) (s : State) : Answer :=
  .next (match s.contClass core with
    | some (tk, gk, cs) =>
      match s.teams.get? tk, (s.teams.get? tk).bind s.gridOf with
      | some t, some gr =>
        let from' := ((cs.head?.bind fun c => c.th.home).map fun h => (s.group h.gk).scal).getD []
        let fpois := ((cs.head?.bind fun c => c.th.home).map fun h => (s.group h.gk).spoison).getD []
        let g := startGroup tk t gr.pkt 0xFFFFFFFF (t.coreIndex core)
        let g : Group :=
          { g with
            isCont := true
            scal := from'
            spoison := fpois
            overGid := (s.groups.get? gk).map (·.gid)
            lanes := (List.range cs.length).zip (cs.map fun c => { c.th with wait := .none }) }
        let s := s.modTeam tk fun t => { t with conts := t.conts.filter fun c => !cs.contains c }
        let s := s.orphan gk
        { s with groups := s.groups.put gk g }
      | _, _ => s
    | none => s)

/-- `cqstat` (R389). -/
def execCqstat (f : Op3) (s : State) : Answer :=
  withIssuer s fun k s =>
    let g := s.group k.gk
    let core := coreOf k.gk
    let queued := (((s.teamOf g).map fun t => t.conts.filter fun c => c.core = core).getD []).length
    let running := ((s.teamGroups g.team core).filter fun e => e.2.isCont).foldl (fun n e =>
      n + (e.2.lanes.filter fun t => !t.2.exited).length) 0
    groupMode f.h (fun g => g.write 1 f.d (queued % 2 ^ 16 + 2 ^ 16 * (running % 2 ^ 16))) k s

end Sys2Proof.Machine
end

