-- ==== Sys2Proof/Machine/Preempt.lean ====
section
/-! DEFINITION. Asking for the pre-emption of teams (17_interrupts R408, R412): the size of a full save, the reservation in
the context's save area (03_launching R72), and the request. -/

namespace Sys2Proof.Machine

/-! ## The save area (R412) -/

/-- The physical address of a context's save area. -/
def Ctx.saveAt (c : Ctx) : Nat := c.save.toNat / 4096 * 4096

/-- Bytes that a thread takes in a record: the window registers that its group's hint names, or all 32 and a handler window
where it is parked (17 R412). DEDUCED (log 36). -/
def threadSize (hint : Option Hint) (parked : Bool) : Nat :=
  match hint with
  | some h => 256 + 4 * (lanesOf h.windows).length
  | none => 256 + 128 + if parked then 128 else 0

/-- Bytes that a group takes in a record. -/
def Group.savedSize (g : Group) (hint : Option Hint) : Nat :=
  4096 + (g.lanes.filter fun e => !e.2.exited).foldl (fun n e => n + threadSize hint (g.inHandler e.1)) 0

/-- Bytes of a team's record, by what its groups save and what each of its cores keeps of tiles and scratch bytes (17 R412;
21 R456). -/
def State.recordSize (s : State) (tk : Nat) (t : Team) (p : Packet) (hint : Group → Option Hint) (keep : Nat → Nat) : Nat :=
  let cores := (List.range t.cores.length).foldl (fun n j => n + 1024 + keep j
    + 16 * p.lane * min 1024 (p.threads - 1024 * j)) 0
  let res := (s.residencies.filter fun e => e.2.team = tk).foldl (fun n e =>
    n + (if e.2.pair then 2 else 1) * (64 + 32 * e.2.count)) 0
  let groups := (s.groups.filter fun e => e.2.team = tk).foldl (fun n e => n + e.2.savedSize (hint e.2)) 0
  256 + cores + res + groups + 384 * t.conts.length

/-- Bytes that a team's full save takes. -/
def State.fullSize (s : State) (tk : Nat) (t : Team) (p : Packet) : Nat :=
  s.recordSize tk t p (fun _ => none) fun _ => 16384 * p.tiles + p.scratch

/-- The lowest free range of the area that holds `n` bytes below LIMIT and below 2^39 (R412; 03 R72). DEDUCED (log 36). -/
def State.freeSave (s : State) (ck n : Nat) : Option Nat :=
  let c := s.ctx ck
  let h := c.saveAt
  if 2 ^ 39 - 64 ≤ h || s.poisoned .mem h 64 then none
  else
    let limit := min (s.load .mem h 8) (2 ^ 39 - 1 - h)
    let cs := (64 :: c.ranges.map fun r => r.1 + r.2).filter fun a =>
      a + n ≤ limit && c.ranges.all fun r => a + n ≤ r.1 || r.1 + r.2 ≤ a
    cs.foldl (fun m a => match m with | some b => some (min a b) | none => some a) none

/-- Takes a range: USED and HWM follow. -/
def State.takeRange (s : State) (ck off n : Nat) : State :=
  let s := s.modCtx ck fun c => { c with ranges := c.ranges.put off n }
  let c := s.ctx ck
  let hwm := c.ranges.foldl (fun m e => max m (e.1 + e.2)) 64
  (s.writePhys ck (c.saveAt + 8) (bytesOf (s.load .mem (c.saveAt + 8) 8 + n) 8)).writePhys ck (c.saveAt + 24) (bytesOf hwm 8)

/-! ## The request (R408) -/

/-- A request for one running team: its reservation is taken, or the save is refused with an event record. DEDUCED
(log 35). -/
def State.requestSave (s : State) (tk : Nat) (t : Team) (g : Grid) : State :=
  let n := s.fullSize tk t g.pkt
  match s.freeSave g.ck n with
  | some off => (s.takeRange g.ck off n).modTeam tk fun t => { t with pending := some { clocks := 0, off := off, size := n } }
  | none => s.event g.ck 0x15 0 0 g.recId t.idx n

/-- Inserts a held team in ascending order of index. -/
def holdTeam (d idx : Nat) : List (Nat × Nat) → List (Nat × Nat)
  | [] => [(d, idx)]
  | (e, i) :: r => if idx < i then (d, idx) :: (e, i) :: r else (e, i) :: holdTeam d idx r

/-- Residencies of a saved team stand on the cores where it now stands, absent (13 R331, R332). -/
def State.moveResidencies (s : State) (tk : Nat) (old new : List Nat) : State :=
  { s with residencies := s.residencies.map fun e =>
      if e.2.team = tk then (e.1, { e.2 with core := new.getD (old.findIdx (· = e.2.core)) e.2.core }) else e }

/-- A team that is placed and has not started stays held by its dispatcher (03 R82): it gives its place up. DEDUCED
(log 35). -/
def State.unplace (s : State) (tk : Nat) (t : Team) : State :=
  if (s.savedTeams.get? tk).isSome then
    { s with
      teams := s.teams.del tk
      groups := s.groups.filter fun e => e.2.team ≠ tk
      barSlots := s.barSlots.filter fun e => e.2.isGrid || e.2.owner ≠ tk }.moveResidencies tk t.cores t.saved
  else (s.removeTeam tk).modGrid t.grid fun g => { g with held := holdTeam t.d t.idx g.held }

/-- A pre-empt request for one team; a team with a request standing has been asked. One that has not started gives its place
up at TEAM_SAVE, so that what it holds is free for placement from the next clock (04 R90). DEDUCED (log 35). -/
def State.preemptTeam (s : State) (tk : Nat) : State :=
  match s.teams.get? tk, (s.teams.get? tk).bind s.gridOf with
  | some t, some g =>
    if t.pending.isSome then s
    else if !t.started && !g.pkt.cres then s.modTeam tk fun t => { t with yielding := true }
    else s.requestSave tk t g
  | _, _ => s

/-- The teams of a co-resident grid are asked together: where the save area has no room for one of them, none of them is
pre-empted (04 R99; R412). DEDUCED (log 35). -/
def State.preemptWhole (s : State) (gk : Nat) : State :=
  let tks := (s.teams.filter fun e => e.2.grid = gk).map (·.1)
  let t := tks.foldl (fun s k => s.preemptTeam k) s
  if tks.all fun k => (t.teams.get? k).any fun x => x.pending.isSome then t
  else { s with fns := t.fns }

/-- Pre-empt requests for teams; one for a team of a co-resident grid is for its grid as a whole (04 R99). -/
def State.preemptTeams (s : State) (tks : List Nat) : State :=
  let whole (k : Nat) : Option Nat :=
    (s.teams.get? k).bind fun t => (s.gridOf t).bind fun g => if g.pkt.cres then some t.grid else none
  ((tks.filterMap whole).dedup).foldl (fun s k => s.preemptWhole k)
    ((tks.filter fun k => (whole k).isNone).foldl (fun s k => s.preemptTeam k) s)

end Sys2Proof.Machine
end

