-- ==== Sys2Proof/Machine/Placing.lean ====
section
/-! DEFINITION. Placing teams on cores (04_placing R83 to R99; 03_launching R75, R80 to R82): regions, room on a core, the
placement procedure, claims, the order of grids with back-fill and ageing, co-resident grids, team start, and the
retirement of teams and grids (18_retiring R418, R419). -/

namespace Sys2Proof.Machine

/-! ## Dies, cores and regions (R84; 01 R18; 22 R468 to R470) -/

/-- The physical die that holds a logical number. -/
def State.physOf (s : State) (d : Nat) : Option Nat := (s.dies.find? fun e => e.2.log = d).map (·.1)

/-- A logical die is present to R43 and R88: a running die holds its number. -/
def State.dieThere (s : State) (d : Nat) : Bool := s.dies.any fun e => e.2.log = d && e.2.stage = .running

/-- A core is present: its die is, and self-test did not mark it absent. DEDUCED (log 34). -/
def State.coreThere (s : State) (c : Nat) : Bool :=
  s.dieThere (dieOf c) &&
    match s.physOf (dieOf c) with
    | some p => !s.unitMap.absentCores.contains (128 * p + c % 128)
    | none => false

/-- An octet register as placements of this clock see it: a write takes effect from the next clock (04 R84). -/
def State.octet (s : State) (o : Nat) : Word := s.octetsUsed.read 0x8001FFFF o
/-- RGN of an octet register (04 R84). -/
def octetRgn (r : Word) : Nat := r.toNat / 2 ^ 17 % 8

/-- The octet of a core is open to a function. -/
def State.permitted (s : State) (c fn : Nat) : Bool := bitOf (s.octet (c / 8)) 31 && bitOf (s.octet (c / 8)) fn

/-- An enabled octet starts a region. -/
def State.startsRegion (s : State) (o : Nat) : Bool :=
  o % 8 = 0 || !bitOf (s.octet (o - 1)) 31 || octetRgn (s.octet (o - 1)) ≠ octetRgn (s.octet o)

/-- The regions of a die as lists of octets, the latest first. -/
def State.regionsRev (s : State) (d : Nat) : List (List Nat) :=
  (List.range 16).foldl (fun acc i =>
    let o := 16 * d + i
    if !bitOf (s.octet o) 31 then acc
    else if s.startsRegion o then [o] :: acc
    else match acc with
      | r :: rest => (r ++ [o]) :: rest
      | [] => [[o]]) []

/-- The regions of a die as lists of cores, in order of their first core. -/
def State.regions (s : State) (d : Nat) : List (List Nat) :=
  (s.regionsRev d).reverse.map fun r => r.flatMap fun o => (List.range 8).map (8 * o + ·)

/-! ## Room on a core (R86) -/

/-- Granule runs that teams hold on a core: first granule and length. The run of a team gone with a die's loss is taken while its
accepted jobs go on (01 R31). DEDUCED (log 40). -/
def State.granuleRuns (s : State) (c : Nat) : List (Nat × Nat) :=
  ((s.teams.filter fun e => e.2.cores.contains c).flatMap fun e =>
    match s.gridOf e.2 with
    | some g =>
      let j := e.2.coreIndex c
      let runs := (e.2.laneRuns.filter fun r => r.1 / 32 = j).map fun r => (r.2, g.pkt.lane)
      ((e.2.b, g.pkt.granules) :: runs).filter fun r => r.2 ≠ 0
    | none => []) ++
  (s.remains.filter fun e => e.2.cores.contains c && e.2.granules ≠ 0).map fun e => (e.2.b, e.2.granules)

/-- Tiles that no team holds on a core, lowest first. -/
def State.freeTiles (s : State) (c : Nat) : List Nat :=
  (List.range 16).filter fun k => !(s.teams.any fun e => ((e.2.tiles.get? c).getD []).contains k)

/-- Weight slots that the residencies of saved teams hold on a core, but for one team's: they stay reserved to them (13
R331). -/
def State.reservedRuns (s : State) (c : Nat) (own : Option Nat) : List (Nat × Nat) :=
  s.residencies.filterMap fun e =>
    if own = some e.2.team || (s.teams.get? e.2.team).isSome || !e.2.cores.contains c then none
    else (s.wrunOf e.2.team c).map fun w => (w + e.2.first, e.2.ns + 1)

/-- Weight-slot runs that are taken on a core: those of placed teams, and what saved teams other than `own` have reserved. -/
def State.weightRuns (s : State) (c : Nat) (own : Option Nat) : List (Nat × Nat) :=
  ((s.teams.filter fun e => e.2.cores.contains c).filterMap fun e =>
    match e.2.wrun.get? c, s.gridOf e.2 with
    | some f, some g => if g.pkt.wslots = 0 then none else some (f, g.pkt.wslots)
    | _, _ => none) ++ s.reservedRuns c own

/-- Two runs have a unit in common. -/
def runsMeet (a n b m : Nat) : Bool := a < b + m && b < a + n

/-- A run meets none of a list of runs. -/
def runFree (taken : List (Nat × Nat)) (a n : Nat) : Bool := n = 0 || taken.all fun r => !runsMeet a n r.1 r.2

/-- The lowest place of a run of `n` below a limit: 0 or the end of a run that is taken. -/
def firstFit (taken : List (Nat × Nat)) (n limit : Nat) : Option Nat :=
  let cs := (0 :: taken.map fun r => r.1 + r.2).filter fun a => a + n ≤ limit && runFree taken a n
  cs.foldl (fun m a => match m with | some b => some (min a b) | none => some a) none

/-- Lane-slice runs for `k` groups, each at its first fit (R86). -/
def laneRunsFit (v : Nat) : Nat → List (Nat × Nat) → Option (List Nat)
  | 0, _ => some []
  | k + 1, taken =>
    match firstFit taken v 768 with
    | some a => (laneRunsFit v k (taken ++ [(a, v)])).map (a :: ·)
    | none => none

/-- What a team takes from a core: slots, lane runs, tiles, first weight slot. -/
structure Share where
  slots : List Nat
  runs : List Nat
  tiles : List Nat
  weights : Nat
deriving DecidableEq, Repr

/-- `fits` of R88 for `k` groups, with what the team would take: `slots` of the free slots, which for a saved team are those
of the groups that it still has; `own` is that team. -/
def State.share (s : State) (p : Packet) (own : Option Nat) (fn c slots k b : Nat) : Option Share :=
  let taken := s.granuleRuns c
  if !s.coreThere c || !s.permitted c fn || (s.freeSlots c).length < k || !runFree taken b p.granules
      || (s.freeTiles c).length < p.tiles then none
  else
    let scratch := if p.granules = 0 then [] else [(b, p.granules)]
    match laneRunsFit p.lane k (taken ++ scratch), firstFit (s.weightRuns c own) p.wslots 16 with
    | some rs, some w =>
      some { slots := (s.freeSlots c).take slots, runs := rs, tiles := (s.freeTiles c).take p.tiles, weights := w }
    | _, _ => none

/-- Groups of a team on its core `j` (R83). -/
def Packet.groupsOn (p : Packet) (j : Nat) : Nat := min 32 (p.groups - 32 * j)

/-- What 17 R413 asks for a saved team: its cores' numbers within their cluster and its base; and the slots that its groups
take on each core. -/
structure Want where
  team : Nat
  nums : List Nat
  base : Nat
  slots : List Nat
deriving DecidableEq, Repr

/-- Where a team may be put: cores that a rule blocks, and what a saved team wants. -/
structure Where where
  core : List Nat
  want : Option Want
deriving DecidableEq, Repr

/-- The saved team that is put. -/
def Where.own (w : Where) : Option Nat := w.want.map (·.team)

/-- A core may hold team core `j`. -/
def Where.allows (w : Where) (j c : Nat) : Bool :=
  !w.core.contains c && w.want.all fun x => x.nums.getD j 64 = c % 64

/-- Bases to try. -/
def Where.bases (w : Where) (p : Packet) : List Nat :=
  match w.want with
  | some x => [x.base]
  | none => List.range (769 - p.granules)

/-- Slots that the team takes on its core `j`. -/
def Where.slots (w : Where) (p : Packet) (j : Nat) : Nat :=
  match w.want with
  | some x => x.slots.getD j 0
  | none => p.groupsOn j

/-- Pairs for a team of several cores at a base (R88). -/
def State.pairsFit (s : State) (p : Packet) (fn b : Nat) (w : Where) : List Nat → List Nat → List Nat
  | [], acc => acc
  | l :: rest, acc =>
    let j := acc.length
    if p.ncores ≤ j then acc
    else
      let kf := p.groupsOn (j + 1)
      if w.allows j l && (s.share p w.own fn l (w.slots p j) (p.groupsOn j) b).isSome &&
          (kf = 0 || (w.allows (j + 1) (l + 1) && (s.share p w.own fn (l + 1) (w.slots p (j + 1)) kf b).isSome)) then
        s.pairsFit p fn b w rest (acc ++ (if kf = 0 then [l] else [l, l + 1]))
      else s.pairsFit p fn b w rest acc

/-- Free slots of a barrier unit, lowest first (R87). -/
def State.freeBars (s : State) (u : Nat) : Nat := 4096 - (s.barSlots.filter fun e => e.1 / 4096 = u).length

/-- `place_team` of R88: cores and scratch base. DEDUCED (log 34). -/
def State.placeTeam (s : State) (p : Packet) (fn d : Nat) (w : Where) : Option (List Nat × Nat) :=
  if !s.dieThere d || s.freeBars d < p.bars then none
  else (s.regions d).findSome? fun r =>
    if p.ncores = 1 then
      r.findSome? fun c =>
        if !w.allows 0 c then none
        else ((w.bases p).find? fun b => (s.share p w.own fn c (w.slots p 0) p.groups b).isSome).map fun b => ([c], b)
    else
      (w.bases p).findSome? fun b =>
        let cs := s.pairsFit p fn b w (r.filter fun c => c % 2 = 0) []
        if cs.length = p.ncores then some (cs, b) else none

/-- The lowest free slots of a barrier unit. -/
def State.lowBars (s : State) (u n : Nat) : List Nat :=
  if n = 0 then [] else ((List.range 4096).filter fun k => (s.barSlots.get? (4096 * u + k)).isNone).take n

/-! ## Taking the resources (R86, R89) -/

/-- One core of a placement: its share is entered in the team, and its slots hold the team's groups. -/
def State.takeCore (s : State) (tk : Nat) (p : Packet) (fn b : Nat) (w : Where) (j c : Nat) : State :=
  match s.share p w.own fn c (w.slots p j) (p.groupsOn j) b with
  | none => s
  | some x =>
    let s := s.modTeam tk fun t =>
      { t with
        cores := t.cores ++ [c]
        laneRuns := ((List.range x.runs.length).zip x.runs).foldl (fun m r => m.put (32 * j + r.1) r.2) t.laneRuns
        tiles := t.tiles.put c x.tiles
        wrun := t.wrun.put c x.weights }
    { s with groups := ((List.range x.slots.length).zip x.slots).foldl (fun m e =>
        m.put (32 * c + e.2) { team := tk, gid := BitVec.ofNat 32 (32 * j + e.1), j := j }) s.groups }

/-- Places a team under its number: all of its cores and its barrier slots in one step (R89). -/
def State.putTeam (s : State) (tk : Nat) (t : Team) (p : Packet) (fn d : Nat) (w : Where) (cores : List Nat) (b : Nat) : State :=
  let bars := s.lowBars d p.bars
  let t : Team :=
    { t with
      d := d, cores := [], b := b, laneRuns := [], tiles := [], wrun := [], bars := bars, started := false
      yielding := false, placedAt := s.clock, conts := [], rdvs := [] }
  let slot : BarSlot := { owner := tk, isGrid := false }
  let s : State := { s with
    teams := s.teams.put tk t
    barSlots := bars.foldl (fun m k => m.put (4096 * d + k) slot) s.barSlots }
  ((List.range cores.length).zip cores).foldl (fun s e => s.takeCore tk p fn b w e.1 e.2) s

/-- A team that no core holds yet. -/
def newTeam (gk idx : Nat) : Team :=
  { grid := gk, idx := idx, d := 0, cores := [], b := 0, laneRuns := [], tiles := [], wrun := [], bars := [], started := false
    startAt := 0 }

/-- Every resource free, under the current octet registers, for a test of a packet, whose grid stands under the key 0 (R91,
R98). -/
def State.emptied (s : State) (p : Packet) (fn : Nat) : State :=
  { s with
    teams := [], savedTeams := [], groups := [], barSlots := [], remains := [], octetsUsed := s.octets
    grids := s.grids.put 0
      { pkt := p, ck := 16 * fn, q := 0, dev := false, depth := 1, parent := none, stage := .released } }

/-- What a saved team wants of its new place. -/
def State.wantOf (s : State) (tk : Nat) (t : Team) : Want :=
  let gs := ((s.savedTeams.get? tk).map (·.groups)).getD []
  { team := tk, nums := t.cores.map (· % 64), base := t.b
    slots := (List.range t.cores.length).map fun j => (gs.filter fun g => g.1 = j).length }

/-- Dies of a packet's mask that are present, ascending. -/
def State.presentDies (s : State) (p : Packet) : List Nat := (List.range 8).filter fun d => p.dies.testBit d && s.dieThere d

/-- Places teams one at a time in index order, each on the lowest die on which it fits (R98, R99). A team of a saved grid is
put where 17 R413 allows. -/
def State.admitTeams (s : State) (gk : Nat) (p : Packet) (fn : Nat) (dies : List Nat) (block : List Nat) :
    List (Nat × Option (Nat × Team)) → Option State
  | [] => some s
  | (idx, saved) :: rest =>
    let w : Where := { core := block, want := saved.map fun v => s.wantOf v.1 v.2 }
    let at? := dies.findSome? fun d => (s.placeTeam p fn d w).map fun cb => (d, cb)
    match at? with
    | none => none
    | some (d, cores, b) =>
      match saved with
      | some (tk, t) => (s.putTeam tk t p fn d w cores b).admitTeams gk p fn dies block rest
      | none =>
        let (tk, s) := s.fresh
        (s.putTeam tk (newTeam gk idx) p fn d w cores b).admitTeams gk p fn dies block rest

/-- The indices of a grid's teams, if the device could hold so many at once. -/
def Packet.indices (p : Packet) : Option (List (Nat × Option (Nat × Team))) :=
  if 32768 < p.total then none else some ((List.range p.total).map fun i => (i, none))

/-- The state after a co-resident grid is placed whole, its grid slot included; none if some part does not fit. -/
def State.fitWhole (s : State) (gk : Nat) (p : Packet) (fn : Nat) (block : List Nat) (ts : List (Nat × Option (Nat × Team))) :
    Option (State × Nat) :=
  (s.admitTeams gk p fn (s.presentDies p) block ts).bind fun s =>
    match s.lowBars p.homeDie 1 with
    | n :: _ => some (s, n)
    | [] => none

/-- Steps 3 to 5 of R43: the status, 0 for a pass (R91, R98). DEDUCED (log 33). -/
def State.validateFit (s : State) (p : Packet) (fn : Nat) : Nat :=
  let dies := s.presentDies p
  let anywhere : Where := { core := [], want := none }
  if p.dies = 0 || !p.dies.testBit p.homeDie || dies.isEmpty then 6
  else if dies.all fun d => ((s.emptied p fn).placeTeam p fn d anywhere).isNone then 3
  else if p.cres && (p.indices.bind fun ts => (s.emptied p fn).fitWhole 0 p fn [] ts).isNone then 4
  else 0

/-! ## The order of grids (03 R74, R75; 04 R93) -/

/-- The function that holds the slice. -/
def State.sliceFn (s : State) : Option Nat := s.sliceNow.map fun i => (s.slices.read 0 i).toNat / 2 ^ 16 % 32

/-- A grid takes part in placement: released, its context neither halted nor disabled. So the grid of a halted context is no head
while it is halted, and bars no other grid. DESIGN CHOICE (log 62). -/
def State.inPlay (s : State) (g : Grid) : Bool :=
  g.stage = .released && (s.ctx g.ck).en && !(s.ctx g.ck).halt && !s.baseDead

/-- Saved teams of a grid that are not placed again. -/
def State.savedOf (s : State) (gk : Nat) : List (Nat × SavedTeam) :=
  s.savedTeams.filter fun e => e.2.team.grid = gk && (s.teams.get? e.1).isNone

/-- A grid has a team that could be claimed or placed (03 R74, R82). -/
def State.claimable (s : State) (gk : Nat) (g : Grid) : Bool :=
  s.inPlay g && (!(s.savedOf gk).isEmpty || !g.held.isEmpty || (if g.pkt.cres then !g.placed else g.counter < g.pkt.total))

/-- One grid comes before another (R75). -/
def State.before (s : State) (a b : Nat × Grid) : Bool :=
  let key (g : Grid) : Nat × Nat × Nat := (if s.sliceFn.all (· = g.ck / 16) then 0 else 1, 3 - g.pkt.pri, g.order)
  let x := key a.2
  let y := key b.2
  x.1 < y.1 || (x.1 = y.1 && (x.2.1 < y.2.1 || (x.2.1 = y.2.1 && x.2.2 ≤ y.2.2)))

/-- A dispatcher of a present die of the grid has not yet found its team counter at its end (03 R80). -/
def State.offered (s : State) (g : Grid) : Bool :=
  s.inPlay g && !g.pkt.cres && (s.presentDies g.pkt).any fun d => !g.dropped.contains d

/-- The grids that dispatchers consider, in the order of R75. -/
def State.candidates (s : State) : List (Nat × Grid) :=
  (s.grids.filter fun e => s.claimable e.1 e.2 || s.offered e.2).mergeSort s.before

/-- Cores that a grid's function may not use now: those that a claimable grid of the slice's holder can use (R75). -/
def State.blocked (s : State) (g : Grid) : List Nat :=
  match s.sliceFn with
  | none => []
  | some f =>
    if g.ck / 16 = f then []
    else
      let mine := s.grids.filter fun e => s.claimable e.1 e.2 && e.2.ck / 16 = f
      (List.range 1024).filter fun c => s.permitted c f && mine.any fun e => e.2.pkt.dies.testBit (dieOf c)

/-! ## A dispatcher's turn (R93 to R97) -/

/-- The next unstarted team of a grid on a dispatcher: a saved team, a held index, or the index that a claim would yield. -/
inductive NextTeam where
  | saved (tk : Nat) (t : Team)
  | held (idx : Nat)
  | claim (idx : Nat)
deriving DecidableEq, Repr

/-- The dispatcher has placed a team of the grid that has still to start or to resume: it is unstarted, and held (03 R80, R82). -/
def State.unstarted (s : State) (gk d : Nat) : Bool := s.teams.any fun e => e.2.grid = gk && e.2.d = d && !e.2.started

/-- The next team of a grid for a dispatcher: a saved one, a held one, or a fresh one, which is claimed only while the dispatcher
holds no unstarted team of the grid (04 R88, R93; 17 R413). -/
def State.nextTeam (s : State) (gk : Nat) (g : Grid) (d : Nat) : Option NextTeam :=
  let sv := ((s.savedOf gk).filter fun e => e.2.team.d = d).mergeSort fun a b => a.2.team.idx ≤ b.2.team.idx
  let hd := (g.held.filter fun e => e.1 = d).map (·.2)
  match sv, hd with
  | (tk, v) :: _, i :: _ => if v.team.idx < i then some (.saved tk v.team) else some (.held i)
  | (tk, v) :: _, [] => some (.saved tk v.team)
  | [], i :: _ => some (.held i)
  | [], [] =>
    if !g.pkt.cres && g.pkt.dies.testBit d && !g.dropped.contains d && !s.unstarted gk d then some (.claim g.counter) else none

/-- The dispatcher's next claim would find the counter at its end: it yields no team (03 R80). -/
def NextTeam.exhausted (n : NextTeam) (g : Grid) : Bool :=
  match n with
  | .claim i => g.pkt.total ≤ i
  | _ => false

/-- Cores on which a dispatcher has placed a team in this clock: it places at most one team a core (R93). -/
def State.placedOn (s : State) (d : Nat) : List Nat :=
  (s.teams.filter fun e => e.2.d = d && e.2.placedAt = s.clock).flatMap (·.2.cores)

/-- What a saved team wants of its place. -/
def State.wantFor (s : State) (n : NextTeam) : Option Want :=
  match n with
  | .saved tk t => some (s.wantOf tk t)
  | _ => none

/-- Where the next team of a grid may be put in this clock: cores of the slice's holder are left out (03 R75), and so are the cores
on which a team has been placed in this clock, so that a team goes to the next core that it fits (R93). DESIGN CHOICE
(log 63). -/
def State.whereFor (s : State) (g : Grid) (n : NextTeam) (d : Nat) : Where :=
  { core := s.blocked g ++ s.placedOn d, want := s.wantFor n }

/-- Where the next team of a grid may be placed in this clock. -/
def State.nextFit (s : State) (g : Grid) (d : Nat) (n : NextTeam) : Option (List Nat × Nat) :=
  s.placeTeam g.pkt (g.ck / 16) d (s.whereFor g n d)

/-- The next team of a grid does not fit on a die under R88, which knows nothing of slices. -/
def State.unfit (s : State) (g : Grid) (d : Nat) (n : NextTeam) : Bool :=
  (s.placeTeam g.pkt (g.ck / 16) d { core := [], want := s.wantFor n }).isNone

/-- The next team of a grid is found not to fit on a dispatcher (R95). -/
def State.missesOn (s : State) (gk : Nat) (g : Grid) (d : Nat) : Bool :=
  (s.nextTeam gk g d).any fun n => !n.exhausted g && s.unfit g d n

/-- Two grids came through one queue: a host queue, or the device queue of one context (03 R60, R77). -/
def sameQueue (g h : Grid) : Bool := g.ck = h.ck && g.dev = h.dev && (g.dev || g.q = h.q)

/-- A later grid may back-fill past a head (R96). -/
def backfills (g h : Grid) : Bool :=
  !sameQueue g h && (g.pkt.ncores < h.pkt.ncores || (g.pkt.ncores = 1 && h.pkt.ncores = 1 && g.pkt.groups < h.pkt.groups))

/-- What a dispatcher does in a turn: grids found not to fit, and the team that it places or claims. -/
structure Turned where
  misses : List Nat
  choice : Option (Nat × NextTeam × List Nat × Nat)
deriving DecidableEq, Repr

/-- A co-resident grid that is not placed, or is to resume as a whole, and is offered to a dispatcher (R99). -/
def State.wholeOn (s : State) (gk : Nat) (g : Grid) (d : Nat) : Bool :=
  g.pkt.cres && g.pkt.dies.testBit d && (!g.placed || !(s.savedOf gk).isEmpty)

/-- What bars a grid on a dispatcher: an ageing head other than it (R97), or an earlier head that it may not pass (R96). -/
def State.barred (s : State) (d : Nat) (head : Option (Nat × Grid)) (gk : Nat) (g : Grid) : Bool :=
  match s.ageing.get? d with
  | some k => gk ≠ k
  | none => head.any fun h => !backfills g h.2

/-- The teams that a co-resident grid places in one step: all of them, or the saved ones. -/
def State.wholeTeams (s : State) (gk : Nat) (g : Grid) : Option (List (Nat × Option (Nat × Team))) :=
  if g.placed then
    match (s.savedOf gk).mergeSort fun a b => a.2.team.idx ≤ b.2.team.idx with
    | [] => none
    | l => some (l.map fun e => (e.2.team.idx, some (e.1, e.2.team)))
  else g.pkt.indices

/-- A co-resident grid fits as a whole on what is free, under R88 and R99. -/
def State.wholeFits (s : State) (gk : Nat) (g : Grid) : Bool :=
  ((s.wholeTeams gk g).bind fun ts =>
    if g.placed then (s.admitTeams gk g.pkt (g.ck / 16) (s.presentDies g.pkt) [] ts).map fun _ => ()
    else (s.fitWhole gk g.pkt (g.ck / 16) [] ts).map fun _ => ()).isSome

/-- The walk of R93 to R97, up to the first team that fits. A co-resident grid is tried by the global dispatcher, and the walk
stops where one is still to be tried in this clock; once tried it stands as a grid that does not fit (R99). A grid that is
barred is tried as well, and where its team does not fit its wait timer starts, but it is not placed. DEDUCED (log 58). -/
def State.walkGrids (s : State) (d : Nat) : Option (Nat × Grid) → List Nat → List (Nat × Grid) → Turned
  | _, ms, [] => ⟨ms, none⟩
  | head, ms, (gk, g) :: rest =>
    let miss (_ : Unit) : Turned := s.walkGrids d (some (head.getD (gk, g))) (ms ++ [gk]) rest
    let skip (_ : Unit) : Turned := s.walkGrids d head ms rest
    if s.wholeOn gk g d then
      if g.triedAt ≠ s.clock then ⟨ms, none⟩
      else if s.barred d head gk g && s.wholeFits gk g then skip () else miss ()
    else match s.nextTeam gk g d with
      | none => skip ()
      | some n =>
        match if s.barred d head gk g then none else s.nextFit g d n with
        | some (cs, b) => ⟨ms, some (gk, n, cs, b)⟩
        | none => if s.missesOn gk g d then miss () else skip ()

/-- A dispatcher's choice now; a dispatcher whose die is absent takes no work. DEDUCED (log 34). -/
def State.turned (s : State) (d : Nat) : Turned := if s.dieThere d then s.walkGrids d none [] s.candidates else ⟨[], none⟩

/-- The timers of grids found not to fit start (R95). -/
def State.startTimers (s : State) (d : Nat) (ms : List Nat) : State :=
  ms.foldl (fun s gk => s.modGrid gk fun g => if (g.timers.get? d).isSome then g else { g with timers := g.timers.put d 0 }) s

/-- Placing a team starts its grid's timer again from 0, and ageing ends (R95, R97). -/
def State.restartTimer (s : State) (d gk : Nat) : State :=
  let s := s.modGrid gk fun g => { g with timers := g.timers.put d 0 }
  if s.ageing.get? d = some gk then { s with ageing := s.ageing.del d } else s

/-- A timer stops when its dispatcher has no unstarted team of the grid (R95). -/
def State.stopTimers (s : State) (d : Nat) : State :=
  { s with grids := s.grids.map fun e =>
      if s.wholeOn e.1 e.2 d || s.unstarted e.1 d || (s.nextTeam e.1 e.2 d).any (fun n => !n.exhausted e.2) then e
      else (e.1, { e.2 with timers := e.2.timers.del d }) }

/-- TEAM_CLAIM (03 R80): a fetch-and-add of 8 on the team counter. A dispatcher that finds the counter at its end takes nothing
and drops the grid. -/
def execTeamClaim (d grid : Nat) (s : State) : Answer :=
  .next (match (s.turned d).choice, s.grids.get? grid with
    | some (gk, .claim _, _, _), some g =>
      if gk ≠ grid then s
      else
        let b := g.counter
        s.modGrid gk fun g => { g with
          counter := b + 8
          dropped := if g.pkt.total ≤ b then addTo g.dropped d else g.dropped
          held := g.held ++ ((List.range (min (b + 8) g.pkt.total - b)).map fun i => (d, b + i)) }
    | _, _ => s)

/-- Puts a saved team on its new cores; TEAM_RESUME writes its state back (17 R414). -/
def State.placeSaved (s : State) (tk : Nat) (t : Team) (p : Packet) (fn d : Nat) (w : Where) (cores : List Nat) (b : Nat) : State :=
  (s.putTeam tk { t with saved := t.cores, pending := none } p fn d w cores b).moveResidencies tk t.cores cores

/-- The head of a dispatcher: the first grid in the order of R93 whose next team does not fit (R95, R99). -/
def State.headOf (s : State) (d : Nat) : Option (Nat × Grid) :=
  s.candidates.find? fun e => if s.wholeOn e.1 e.2 d then !s.wholeFits e.1 e.2 else s.missesOn e.1 e.2 d

/-- A grid's wait timer on a dispatcher has reached AGELIM (R85, R97). -/
def State.aged (s : State) (d : Nat) (g : Grid) : Bool := decide ((s.dage.read 0x186A0 d).toNat ≤ (g.timers.get? d).getD 0)

/-- The head whose wait timer has reached AGELIM. A head that aged and fits now is still the measure until its team is placed,
unless a grid before it does not fit (R97). DEDUCED (log 34). -/
def State.headAged (s : State) (d : Nat) : Option Nat :=
  let head := s.headOf d
  let standing := (s.ageing.get? d).bind fun k => s.candidates.find? fun e =>
    e.1 = k && s.aged d e.2 && (s.wholeOn k e.2 d || (s.nextTeam k e.2 d).any fun n => !n.exhausted e.2) && head.all (s.before e)
  (standing.or (head.filter fun e => s.aged d e.2)).map (·.1)

/-- AGEING_LIMIT_REACHED (R97): what bars the dispatcher's other grids from now on, if anything does. -/
def execAgeingLimitReached (d : Nat) (s : State) : Answer :=
  .next (match s.headAged d with
    | some k => { s with ageing := s.ageing.put d k }
    | none => { s with ageing := s.ageing.del d })

/-! ## Co-resident grids (R98, R99) -/

/-- No dispatcher of the grid bars it by an ageing head, or by an earlier head that it may not pass (R96, R97, R99). A grid that is
barred on one of them is not placed, and stands as head on the others even where it would fit. DESIGN CHOICE (log 64). -/
def State.wholeMay (s : State) (gk : Nat) (g : Grid) : Bool :=
  (s.presentDies g.pkt).all fun d => !s.barred d ((s.headOf d).filter fun h => h.1 ≠ gk && s.before h (gk, g)) gk g

/-- The state in which a co-resident grid stands placed, if it fits now. DEDUCED (log 34). -/
def State.placeWhole (s : State) (gk : Nat) (g : Grid) : Option State :=
  let fn := g.ck / 16
  if !s.claimable gk g || !g.pkt.cres || !s.wholeMay gk g || s.teams.any (fun e => e.2.grid = gk && e.2.pending.isSome) then none
  else (s.wholeTeams gk g).bind fun ts =>
    if g.placed then
      (s.admitTeams gk g.pkt fn (s.presentDies g.pkt) (s.blocked g) ts).map fun s =>
        ts.foldl (fun s e => match e.2 with
          | some (tk, t) =>
            let new := ((s.teams.get? tk).map (·.cores)).getD []
            (s.modTeam tk fun x => { x with saved := t.cores, pending := none }).moveResidencies tk t.cores new
          | none => s) s
    else (s.fitWhole gk g.pkt fn (s.blocked g) ts).map fun r =>
      let slot : BarSlot := { owner := gk, isGrid := true }
      let s : State := { r.1 with barSlots := r.1.barSlots.put (4096 * g.pkt.homeDie + r.2) slot }
      s.modGrid gk fun g => { g with placed := true, gslot := some (g.pkt.homeDie, r.2) }

/-- A grid of a dispatcher's misses cannot be placed on another die either: its next team there is held or saved by this
dispatcher, or fits on no die that may claim it (03 R75, R80). -/
def State.cannotElse (s : State) (gk : Nat) (g : Grid) (d : Nat) : Bool :=
  if g.pkt.cres then (s.placeWhole gk g).isNone
  else match s.nextTeam gk g d with
    | some (.claim _) => (s.presentDies g.pkt).all fun e => (s.nextTeam gk g e).all fun n => s.unfit g e n
    | some _ => true
    | none => false

/-- A grid of the slice's holder that cannot otherwise be placed on a die pre-empts the teams of other functions that stand
there on cores its function may use (03 R75), a co-resident grid as a whole (R99). DEDUCED (log 34). -/
def State.preemptOthers (s : State) (d : Nat) (misses : List Nat) : State :=
  match s.sliceFn with
  | none => s
  | some f =>
    let needs := misses.any fun k => match s.grids.get? k with
      | some g => g.ck / 16 = f && s.cannotElse k g d
      | none => false
    if !needs then s
    else s.preemptTeams ((s.teams.filter fun e => e.2.d = d && (s.gridOf e.2).any (fun g => g.ck / 16 ≠ f) && e.2.cores.any fun c =>
      s.permitted c f).map (·.1))

/-- Puts steps in front of the turns still to be taken in this clock. -/
def State.andThen (s : State) (es : List Event) : State := { s with agenda := es.map .event ++ s.agenda }

/-- TEAM_PLACEMENT (R88, R89, R93): the dispatcher's turn. It places one team, or claims, and tries again in the same clock
until nothing more fits. DEDUCED (log 34). -/
def execTeamPlacement (d : Nat) (s : State) : Answer :=
  .next (
    let s := s.stopTimers d
    let t := s.turned d
    let s := s.startTimers d t.misses
    match t.choice with
    | some (gk, n, cores, b) =>
      match s.grids.get? gk with
      | none => s
      | some g =>
        let fn := g.ck / 16
        let w := s.whereFor g n d
        match n with
        | .claim _ => s.andThen [.teamClaim d gk, .teamPlacement d]
        | .held idx =>
          let (tk, s) := s.fresh
          let s := s.putTeam tk (newTeam gk idx) g.pkt fn d w cores b
          ((s.modGrid gk fun g => { g with held := g.held.filter (· ≠ (d, idx)), waited := 0 }).restartTimer d gk).andThen
            [.ageingLimitReached d, .teamPlacement d]
        | .saved tk t =>
          (((s.placeSaved tk t g.pkt fn d w cores b).modGrid gk fun g => { g with waited := 0 }).restartTimer d gk).andThen
            [.ageingLimitReached d, .teamPlacement d]
    | none => s.preemptOthers d t.misses)

/-- CORESIDENT_PLACEMENT (R99): all of the grid's teams, or nothing. -/
def execCoresidentPlacement (grid : Nat) (s : State) : Answer :=
  .next (match s.grids.get? grid with
    | some g =>
      match s.placeWhole grid g with
      | some s =>
        (s.modGrid grid fun g => { g with timers := [], waited := 0 }) |> fun s =>
          { s with ageing := s.ageing.filter fun e => e.2 ≠ grid }
      | none => s.modGrid grid fun g => { g with triedAt := s.clock }
    | none => s)

/-! ## Start (R92) -/

/-- Zeroes an interval of a scratchpad and clears its poison (10 R491). -/
def State.zeroPad (s : State) (core a n : Nat) : State :=
  let lo := 2 ^ 19 * core + a
  { s.forget lo (lo + n) with
    scratch := s.scratch.dropRange lo (lo + n)
    scratchPoison := s.scratchPoison.filter fun w => !(lo / 4 ≤ w && w < (lo + n) / 4) }

/-- Zeroes a tile and clears its poison. -/
def State.zeroTile (s : State) (core tile : Nat) : State :=
  { s with
    acc := s.acc.dropRange ((16 * core + tile) * 4096) ((16 * core + tile + 1) * 4096)
    accPoison := dropFrom s.accPoison (16 * core + tile) }

/-- Zeroes all that a team holds on its cores: scratch, lane slices, tiles. -/
def State.zeroTeam (s : State) (t : Team) (p : Packet) : State :=
  let s := t.cores.foldl (fun s c =>
    ((t.tiles.get? c).getD []).foldl (fun s k => s.zeroTile c k) (s.zeroPad c (512 * t.b) (512 * p.granules))) s
  t.laneRuns.foldl (fun s r => s.zeroPad (t.cores.getD (r.1 / 32) 0) (512 * r.2) (512 * p.lane)) s

/-- The acquire of R79 on the team's cores, which also drops the context's lines of their instruction caches (05 R103). -/
def State.startAcquire (s : State) (t : Team) (ck : Nat) : State :=
  let s := t.cores.foldl (fun s c => s.modCore c Core.l1Clear) s
  { s with icache := s.icache.filter fun l => !(l.ck = ck && t.cores.any fun c => c / 2 = l.pair) }

/-- The threads of a group at team start, by lane (02 R44). -/
def startThreads (p : Packet) (gid : Nat) : Tbl Thread :=
  ((List.range 32).filter fun l => 32 * gid + l < p.threads).map fun l => (l, { tid := 32 * gid + l })

/-- Teams that start together: all of a co-resident grid, or one. DEDUCED (log 34). -/
def State.startSet (s : State) (tk : Nat) (t : Team) (g : Grid) : List (Nat × Team) :=
  if g.pkt.cres then s.teams.filter fun e => e.2.grid = t.grid && !e.2.started && (s.savedTeams.get? e.1).isNone
  else [(tk, t)]

/-- Starts one team; its threads come after what its launch came after, and after the grids that have ended (14 R343). DEDUCED (log
47). -/
def State.startTeam (s : State) (tk : Nat) (t : Team) (g : Grid) : State :=
  let seen := g.seen.join s.endedSeen
  let s := (s.zeroTeam t g.pkt).startAcquire t g.ck
  let s := { s with groups := s.groups.map fun (e : Nat × Group) =>
      if e.2.team = tk then
        (e.1, { startGroup tk t g.pkt e.2.gid e.2.j with
          lanes := (startThreads g.pkt e.2.gid.toNat).map fun (x : Nat × Thread) => (x.1, x.2.sees seen) })
      else e }
  let s := s.modTeam tk fun t => { t with started := true, startAt := s.clock, pc := [], rdvs := [], rdvDone := [], conts := [] }
  let gk := ((s.groups.find? fun e => e.2.team = tk).map (·.1)).getD 0
  s.trace g.ck gk 0 0 4 none none

/-- No team of the grid that the same dispatcher holds, of a lower index, has still to start or resume, whether it is placed, held or
saved (03 R80, R82). -/
def State.nextToStart (s : State) (tk : Nat) (t : Team) : Bool :=
  (s.teams.all fun e => e.1 = tk || e.2.started || e.2.grid ≠ t.grid || e.2.d ≠ t.d || t.idx ≤ e.2.idx) &&
  ((s.gridOf t).all fun g => g.pkt.cres || g.held.all fun e => e.1 ≠ t.d || t.idx ≤ e.2) &&
  s.savedTeams.all fun e => e.1 = tk || e.2.team.grid ≠ t.grid || e.2.team.d ≠ t.d || t.idx ≤ e.2.team.idx

/-- TEAM_START (R92): zeroed, loaded, acquired; its groups enter arbitration. A dispatcher starts the teams of a grid in
ascending order (03 R80). -/
def execTeamStart (team : Nat) (s : State) : Answer :=
  .next (match s.teams.get? team, (s.teams.get? team).bind s.gridOf with
    | some t, some g =>
      if t.started || t.yielding || (s.savedTeams.get? team).isSome || !s.nextToStart team t then s
      else (s.startSet team t g).foldl (fun s e => s.startTeam e.1 e.2 g) s
    | _, _ => s)

/-! ## Retirement (18 R418, R419) -/

/-- TEAM_RETIRE (R418): residencies end, resources are freed, the team record is written. -/
def execTeamRetire (team : Nat) (s : State) : Answer :=
  .next (match s.teams.get? team, (s.teams.get? team).bind s.gridOf with
    | some t, some g =>
      if !s.teamDone team t then s
      else
        let s := match t.pending with
          | some p => s.freeRange g.ck p.off p.size false
          | none => s
        let s := s.trace g.ck (32 * t.cores.headD 0) 0 0 5 none none
        let s := (s.removeTeam team).modGrid t.grid fun g => { g with retired := g.retired + 1 }
        s.gridRecord g (recordBytes 2 0 0 g.recId (s.ctx g.ck).ctime t.idx g.pkt.corrid.toNat) none []
    | _, _ => s)

/-- GRID_RETIRE (R419). -/
def execGridRetire (grid : Nat) (s : State) : Answer :=
  .next (match s.grids.get? grid with
    | some g =>
      if g.stage = .released && g.retired = g.pkt.total then s.endGrid grid 0 g.pkt.corrid.toNat [] else s
    | none => s)

end Sys2Proof.Machine
end

