-- ==== Sys2Proof/Machine/Launching.lean ====
section
/-! DEFINITION. From a packet to released grids (02_describing_work R40 to R46; 03_launching R60 to R66, R76 to R78):
reading and validating a launch packet, fetching it from a queue, wait conditions, release in queue order, and `launch`. -/

namespace Sys2Proof

/-- The fields of 128 packet bytes (R40). -/
def Packet.parse (b : List Byte) : Machine.Packet :=
  let f (i n : Nat) : Nat := ofBytes ((b.drop i).take n)
  { hdr := BitVec.ofNat 32 (f 0 4), tbase := BitVec.ofNat 32 (f 4 4), code := BitVec.ofNat 64 (f 8 8)
    gridx := f 0x10 4, gridy := f 0x14 2, gridz := f 0x16 2
    teamx := f 0x18 2, teamy := f 0x1A 2, teamz := f 0x1C 2
    res := BitVec.ofNat 16 (f 0x1E 2), scratch := f 0x20 4, bars := f 0x24 2, psize := f 0x26 2
    param := BitVec.ofNat 64 (f 0x28 8), spill := BitVec.ofNat 64 (f 0x30 8), spillsz := f 0x38 4
    rsv := BitVec.ofNat 32 (f 0x3C 4)
    w0addr := BitVec.ofNat 64 (f 0x40 8), w0val := BitVec.ofNat 64 (f 0x48 8)
    w1addr := BitVec.ofNat 64 (f 0x50 8), w1val := BitVec.ofNat 64 (f 0x58 8)
    sigaddr := BitVec.ofNat 64 (f 0x60 8), sigval := BitVec.ofNat 64 (f 0x68 8)
    ring := BitVec.ofNat 64 (f 0x70 8), corrid := BitVec.ofNat 64 (f 0x78 8) }

end Sys2Proof

namespace Sys2Proof.Machine

/-! ## Validation (R43) -/

/-- Wait condition 0 is present (02 R41). -/
def Packet.w0v (p : Packet) : Bool := bitOf p.hdr 11
/-- Wait condition 1 is present (02 R41). -/
def Packet.w1v (p : Packet) : Bool := bitOf p.hdr 12
/-- The signal is present (02 R41). -/
def Packet.sv (p : Packet) : Bool := bitOf p.hdr 13

/-- Step 1 holds: VER is 1 and every reserved bit and byte is zero. -/
def Packet.reservedOk (p : Packet) : Bool :=
  p.hdr.toNat % 256 = 1 && p.hdr.toNat / 2 ^ 27 = 0 && !bitOf p.hdr 15 && !bitOf p.res 15 && p.rsv = 0

/-- Step 2 holds: every field in its range and aligned; an address whose valid bit is clear is not checked. -/
def Packet.rangesOk (p : Packet) : Bool :=
  1 ≤ p.gridx && 1 ≤ p.gridy && 1 ≤ p.gridz && 1 ≤ p.teamx && 1 ≤ p.teamy && 1 ≤ p.teamz && p.threads ≤ 16384 &&
  p.code.toNat % 64 = 0 && p.wslots ≤ 16 && p.tiles ≤ 16 && p.lane ≤ 16 &&
  p.scratch % 16 = 0 && p.scratch ≤ 393216 && p.bars ≤ 16 && p.psize % 16 = 0 && p.psize ≤ 4096 &&
  (p.psize = 0 || p.param.toNat % 16 = 0) && p.spill.toNat % 128 = 0 && p.spillsz % 128 = 0 &&
  (!p.w0v || p.w0addr.toNat % 8 = 0) && (!p.w1v || p.w1addr.toNat % 8 = 0) && (!p.sv || p.sigaddr.toNat % 8 = 0) &&
  p.ring.toNat % 32 = 0

/-- Steps 1 and 2: the status, 0 for a pass. DEDUCED (log 33). -/
def Packet.validate12 (p : Packet) : Nat := if !p.reservedOk then 1 else if !p.rangesOk then 2 else 0

/-- All steps of R43. DEDUCED (log 33). -/
def State.validate (s : State) (p : Packet) (fn : Nat) : Nat :=
  if p.validate12 ≠ 0 then p.validate12 else s.validateFit p fn

/-! ## A grid from its packet -/

/-- A fetched grid: with no valid condition there is nothing to wait for. -/
def newGrid (p : Packet) (ck q : Nat) (dev : Bool) (depth : Nat) (parent : Option Nat) : Grid :=
  { pkt := p, ck := ck, q := q, dev := dev, depth := depth, parent := parent
    stage := if p.w0v || p.w1v then .waiting else .met }

/-- Enters a grid: its number rises with the order of entry. -/
def State.enterGrid (s : State) (g : Grid) : State × Nat :=
  let (k, s) := s.fresh
  ({ s with grids := s.grids.put k g }, k)

/-! ## Fetching (R60 to R65) -/

/-- A queue's fetch context has a packet to read (R63; 03 R72). -/
def State.fetchable (s : State) (qk : Nat) : Bool :=
  let q := s.queue qk
  (s.ctx (qk / 64)).en && q.en && q.head ≠ q.tail && !q.flt && !q.ovr && q.read.isNone && !s.baseDead

/-- A read of the packet at QHEAD begins (R61). -/
def Queue.startRead (q : Queue) : Queue :=
  let va := q.base.toNat % 2 ^ 57 + 128 * (q.head.toNat % 2 ^ q.size)
  { q with read := some { n := q.head, va := va, bytes := [], anew := false } }

/-- A packet read fails: QHEAD stays and the queue faults, with its event and then its message (R65, R71). One that fails after EN
was cleared and set anew still faults the queue, names the packet that was being read, and once FLT is cleared the packet at
the new QHEAD is read. DESIGN CHOICE (log 61). -/
def State.readFails (s : State) (qk st : Nat) (r : PacketRead) : State :=
  let ck := qk / 64
  (s.modQueue qk fun q => { q with flt := true, unc := q.unc || st = 8, fault := BitVec.ofNat 64 r.va, read := none }).postEvent
    (ck / 16) { bytes := recordBytes 0x10 st 0 (recordId ck (qk % 64) false) 0 r.n.toNat r.va, time := some ck, queue := some (ck, qk % 64) }

/-- A packet has been read in full: QHEAD passes it, unless EN has been set anew, and it is validated and entered (R43, R61,
R63). -/
def State.readEnds (s : State) (qk : Nat) (r : PacketRead) (b : List Byte) : State :=
  let ck := qk / 64
  let p := Packet.parse b
  let s := s.modQueue qk fun q => { q with read := none, head := if r.anew then q.head else q.head + 1 }
  let st := s.validate p (ck / 16)
  let (s, k) := s.enterGrid (newGrid p ck (qk % 64) false 1 none)
  if st = 0 then s else s.endGrid k st p.corrid.toNat []

/-- Bytes of a packet that one step of its read takes: how many is a free value, at least one. -/
def PacketRead.take (r : PacketRead) (i : Nat) : Nat := min (128 - r.bytes.length) (1 + Config.freeNat i % 128)

/-- PACKET_FETCH: the read of the packet at QHEAD begins, or goes on over some more of its bytes; with the last of them the
packet is validated and entered, or the queue faults (R61, R63, R65). DEDUCED (log 33). -/
def execPacketFetch (qk : Nat) (s : State) : Answer :=
  .next (match (s.queue qk).read with
    | none => if s.fetchable qk then s.modQueue qk (·.startRead) else s
    | some r =>
      let (i, s) := s.freeIdx
      match s.devRead (qk / 64) (r.va + r.bytes.length) (r.take i) .read with
      | (s, .error st) => s.readFails qk st r
      | (s, .ok b) =>
        if r.bytes.length + b.length < 128 then s.modQueue qk fun q => { q with read := some { r with bytes := r.bytes ++ b } }
        else s.readEnds qk r (r.bytes ++ b))

/-! ## Wait conditions (02 R46; 03 R66) -/

/-- The condition that a waiting grid evaluates now: number, address and value. DEDUCED (log 33). -/
def Grid.condition (g : Grid) : Option (Nat × DWord × DWord) :=
  if g.stage ≠ .waiting then none
  else if g.pkt.w0v && !g.w0met then some (0, g.pkt.w0addr, g.pkt.w0val)
  else if g.pkt.w1v && !g.w1met then some (1, g.pkt.w1addr, g.pkt.w1val)
  else none

/-- A grid with a condition met; the last one makes it ready for release. -/
def Grid.meetCondition (g : Grid) (n : Nat) : Grid :=
  let g := if n = 0 then { g with w0met := true } else { g with w1met := true }
  if (!g.pkt.w0v || g.w0met) && (!g.pkt.w1v || g.w1met) then { g with stage := .met } else g

/-- WAIT_CONDITION_CHECK: the value is read with acquire at system scope and compared. DEDUCED (log 33). -/
def execWaitConditionCheck (grid : Nat) (s : State) : Answer :=
  .next (match s.grids.get? grid with
    | none => s
    | some g =>
      match g.condition with
      | none => s
      | some (n, va, v) =>
        match s.devRead g.ck va.toNat 8 .read with
        | (s, .error st) => s.endGrid grid st va.toNat []
        | (s, .ok b) => if v.toNat ≤ ofBytes b then s.modGrid grid (·.meetCondition n) else s)

/-! ## Release (R64, R77) -/

/-- Every team of the grid has been claimed, or the grid has ended. -/
def Grid.allClaimed (g : Grid) : Bool :=
  g.stage = .ended || (g.stage = .released && if g.pkt.cres then g.placed else decide (g.pkt.total ≤ g.counter))

/-- Nothing earlier in its queue holds the grid. -/
def State.releasable (s : State) (k : Nat) (g : Grid) : Bool :=
  g.stage = .met && !s.baseDead && (s.ctx g.ck).en && s.grids.all fun e => !(e.1 < k && sameQueue e.2 g) || e.2.allClaimed

/-- GRID_RELEASE: the grid goes to the dispatchers; one from a device queue is first validated by steps 3 to 5 (R76).
DEDUCED (log 33). -/
def execGridRelease (grid : Nat) (s : State) : Answer :=
  .next (match s.grids.get? grid with
    | none => s
    | some g =>
      if !s.releasable grid g then s
      else
        let s := s.modCtx g.ck fun c => { c with devq := dropFrom c.devq grid }
        let st := if g.dev then s.validateFit g.pkt (g.ck / 16) else 0
        if st ≠ 0 then s.endGrid grid st g.pkt.corrid.toNat []
        else
          let (n, s) := s.fresh
          s.modGrid grid fun g => { g with stage := .released, order := n })

/-- QSTAT:WAIT: the queue's head packet is held on a wait condition (R60). -/
def State.queueWaits (s : State) (qk : Nat) : Bool :=
  s.grids.any fun e => 64 * e.2.ck + e.2.q = qk && !e.2.dev && e.2.stage = .waiting

/-! ## `launch` (R76 to R78) -/

/-- The grid of a group. -/
def State.gridKey (s : State) (gk : Nat) : Nat := ((s.teamOf (s.group gk)).map (·.grid)).getD 0

/-- A thread that has not exited is in a lane of the group. DEDUCED (log 33). -/
def Group.holdsThread (g : Group) (tid : Nat) : Bool := g.lanes.any fun e => e.2.tid = tid && !e.2.exited

/-- The status of a launch by steps 1 and 2 and the conditions before them. DEDUCED (log 33). -/
def launchStatus (g : Group) (gr : Grid) (p : Packet) : Nat :=
  if !g.holdsThread 0 then 9 else if gr.depth = 10 then 5 else p.validate12

/-- The packet's PRI is at most the parent's. -/
def Packet.lowerPri (p : Packet) (pri : Nat) : Packet :=
  if p.pri ≤ pri then p
  else { p with hdr := BitVec.ofNat 32 (p.hdr.toNat - (p.pri - pri) * 2 ^ 9) }

/-- Enqueues a child, or ends it as rejected, by its status, which arrives at the scalar that waits for it. -/
def State.submitLaunch (s : State) (gk : Nat) (x : Launch) (st : Nat) : State :=
  let g := s.group gk
  match s.grids.get? (s.gridKey gk) with
  | none => s
  | some gr =>
    let p := Packet.parse x.pkt
    let s := s.modGroup gk (·.deliver (x.d.getD 384) 1 0 (some st))
    if st ≠ 0 then
      let (s, k) := s.enterGrid (newGrid p gr.ck gr.q true (gr.depth + 1) (some g.team))
      s.endGrid k st p.corrid.toNat []
    else
      let (s, k) := s.enterGrid
        { newGrid (p.lowerPri gr.pkt.pri) gr.ck gr.q true (gr.depth + 1) (some g.team) with seen := x.seen }
      s.modCtx gr.ck fun c => { c with devq := c.devq ++ [k] }

/-- The trap of the packet's address and bytes. -/
def State.packetTrap (s : State) (gk a : Nat) : Option (Nat × QWord) :=
  let g := s.group gk
  match s.teamOf g, s.pktOf g with
  | some t, some p =>
    if a % 128 ≠ 0 then some (5, detailM a 0 7 128 1)
    else if !inScratch t p a 128 then some (6, detailM a 0 7 128 1)
    else if s.poisoned .pad (2 ^ 19 * coreOf gk + a) 128 then some (16, detailM a 0 7 128 1)
    else none
  | _, _ => some (6, detailM a 0 7 128 1)

/-- The scalar that a destination names. -/
def scalarDest : Operand → Option Nat
  | .scal i => some i
  | _ => none

/-- Launches of a context that have taken their room of its device queue and are not yet in it. -/
def State.onTheWay (s : State) (ck : Nat) : Nat :=
  s.groups.foldl (fun n e => if s.ckOf e.2 = ck then n + (e.2.launches.filter (·.status = some 0)).length else n) 0

/-- The device queue of the group's context has no room (R77). DEDUCED (log 33). -/
def State.devqFull (s : State) (gk : Nat) : Bool :=
  let ck := s.ckOf (s.group gk)
  decide (256 ≤ (s.ctx ck).devq.length + s.onTheWay ck)

/-- The status that a packet gets now. -/
def State.statusNow (s : State) (gk : Nat) (b : List Byte) : Nat :=
  match s.grids.get? (s.gridKey gk) with
  | some gr => launchStatus (s.group gk) gr (Packet.parse b)
  | none => 0

/-- A launch leaves its group, with its status or before it is known: the packet is copied and the status scalar is held until
DEVICE_QUEUE_ENQUEUE (06 R139). -/
def State.beginLaunch (s : State) (gk : Nat) (b : List Byte) (d : Operand) (st : Option Nat) : State :=
  ({ s with nextId := s.nextId + 1 } : State).modGroup gk fun g =>
    { g.hold 1 d with
      launches := g.launches ++ [{ id := s.nextId, pkt := b, d := scalarDest d, status := st, after := s.issuedBefore gk, seen := s.knownTo (s.lanesIn gk) }] }

/-- `launch`: the packet is copied; while the device queue has no room, whatever the status will be, the run is cut and the lanes
wait at the instruction (06 R138). DEDUCED (log 33). -/
def execLaunch (f : Op3) (s : State) : Answer :=
  withIssuer s fun k s =>
    let g := s.group k.gk
    let a := groupVal g .b32 1 f.a
    if !guardG g f.h k then groupMode f.h id k s
    else if s.padBusy (coreOf k.gk) (2 ^ 19 * coreOf k.gk + a) 128 then s
    else match s.packetTrap k.gk a with
      | some (c, d) => trapAll k c d s
      | none =>
        let b := s.bytes .pad (2 ^ 19 * coreOf k.gk + a) 128
        if s.devqFull k.gk then
          (((s.beginLaunch k.gk b f.d none).modGroup k.gk (·.await k.active (.launch s.nextId))).endRun k.gk).finish k []
        else groupModeS f.h (fun s => s.beginLaunch k.gk b f.d (some (s.statusNow k.gk b))) k s

/-- A launch that waited for room has it: its status is fixed, and its lanes go on (R76). -/
def State.roomLaunch (s : State) (gk : Nat) (x : Launch) (rest : List Launch) : State :=
  let st := s.statusNow gk x.pkt
  (s.modGroup gk fun g => { g with launches := { x with status := some st } :: rest }).wakeAll (.launch x.id)

/-- DEVICE_QUEUE_ENQUEUE: the oldest launch of a group gets its status when the queue has room, and then, once the accesses before
it are performed, it enters the device queue or is rejected (R76). DEDUCED (log 33). -/
def execDeviceQueueEnqueue (gk : Nat) (s : State) : Answer :=
  .next (match (s.group gk).launches with
    | [] => s
    | x :: rest =>
      match x.status with
      | none => if s.devqFull gk then s else s.roomLaunch gk x rest
      | some st =>
        if x.after.any fun i => (s.flights.get? i).isSome then s
        else ((s.modGroup gk fun g => { g with launches := rest }).submitLaunch gk x st).reap gk)

end Sys2Proof.Machine
end

