-- ==== Sys2Proof/Machine/Turn.lean ====
section
/-! DEFINITION. One turn of an issue slot before and after its instruction (06_issue R133 to R142): the fetch of the word
(05_encoding R100 to R103), the choice of stream, and the run. -/

namespace Sys2Proof

/-- Its type or source type is `.f64` (06 R146). -/
def Raw.wide64 (r : Raw) : Bool :=
  r.op.toNat < 0x80 && (Ty.ofCode r.f.toNat = .f64 || (r.op = 0x40 && Ty.ofCode (r.immBits 0 6) = .f64))

/-- Clocks that an issued instruction occupies at a pass count (06 R146). -/
def Raw.clocks (r : Raw) (p : Nat) : Nat := if r.u ≠ 1 then 1 else if r.wide64 then max 4 p else p

end Sys2Proof

namespace Sys2Proof.Machine

/-! ## Fetch -/

/-- What the instruction cache holds of an instruction. -/
inductive Fetched where
  | absent
  /-- class, faulting byte address and cause (05 R102) -/
  | failed (cls addr cause : Nat)
  | word (w : InsnWord)
deriving DecidableEq, Repr

/-- The instruction-cache line of a pair at an address (05 R101). -/
def State.iline (s : State) (pair ck va : Nat) : Option ICacheLine :=
  s.icache.find? fun l => l.pair = pair && l.ck = ck && l.va = va

/-- The byte address of an instruction of a group (05 R100). -/
def State.insnAddr (s : State) (gk : Nat) (idx : Word) : Nat :=
  ((s.pktOf (s.group gk)).map (·.code.toNat)).getD 0 + 12 * idx.toNat

/-- The word at an index, from the one or two cache lines that hold its bytes (05 R100 to R102). DEDUCED (log 47). -/
def State.fetchWord (s : State) (gk : Nat) (idx : Word) : Fetched :=
  let a := s.insnAddr gk idx
  let ck := s.ckOf (s.group gk)
  let l0 := a / 64 * 64
  let l1 := (a + 11) / 64 * 64
  match s.iline (coreOf gk / 2) ck l0, s.iline (coreOf gk / 2) ck l1 with
  | some x, some y =>
    if x.cls ≠ 0 then .failed x.cls a x.cause
    else if y.cls ≠ 0 then .failed y.cls l1 y.cause
    else .word (wordOfBytes ((x.bytes ++ if l0 = l1 then [] else y.bytes).drop (a - l0)))
  | _, _ => .absent

/-- Drops the failed lines of an instruction: its next fetch reads them again. -/
def State.dropFailed (s : State) (gk : Nat) (idx : Word) : State :=
  let a := s.insnAddr gk idx
  let ck := s.ckOf (s.group gk)
  { s with icache := s.icache.filter fun l =>
      !(l.pair = coreOf gk / 2 && l.ck = ck && l.cls ≠ 0 && (l.va = a / 64 * 64 || l.va = (a + 11) / 64 * 64)) }

/-! ## The choice of instruction -/

/-- What a stream would issue. -/
inductive Look where
  | nothing
  | failed (m : Word) (ls : List Nat) (cls addr cause : Nat)
  | ready (m : Word) (ls : List Nat) (w : InsnWord)
deriving DecidableEq, Repr

/-- Some register of the word waits on a long-latency producer (06 R141). -/
def Group.wordPending (g : Group) (handler : Bool) (ls : List Nat) (w : InsnWord) : Bool :=
  let r := Raw.ofWord w
  (r.reads ++ r.writes ++ [(2, r.gp.toNat, 1)]).any fun u => g.usePending handler ls u

/-- The thread waits at its instruction for an access in flight. -/
def Thread.onAccess (t : Thread) : Bool :=
  match t.wait with
  | .window _ => true
  | _ => false

/-- Conditions 2 to 4 of readiness (06 R137), and the stream was not found held in this clock (condition 5). A lane of the
instruction whose spill, fill or remote access is in flight holds it. DEDUCED (log 9). -/
def State.look (s : State) (gk : Nat) (handler : Bool) : Look :=
  let g := s.group gk
  if (if handler then g.blockedHandler else g.blockedMain) then .nothing
  else match g.pick handler with
    | none => .nothing
    | some (m, ls) =>
      if (ls.all fun l => (s.thread gk l).wait ≠ .none) || ls.any fun l => (s.thread gk l).onAccess then .nothing
      else match s.fetchWord gk m with
        | .absent => .nothing
        | .failed c a k => .failed m ls c a k
        | .word w => if g.wordPending handler ls w then .nothing else .ready m ls w

/-- Lanes of the group wait at `tlbinv`: the group is not ready (17 R407). -/
def Group.atTlbinv (g : Group) : Bool := g.lanes.any fun t => match t.2.wait with | .tlbinv _ => true | _ => false

/-- The group's team has started, its core runs, its context is not halted, and it has not stopped for a save (04 R92;
17 R408; 18 R432; 23 R484). DEDUCED (log 37). -/
def State.mayIssue (s : State) (gk : Nat) : Bool :=
  match s.groups.get? gk with
  | some g =>
    match s.teams.get? g.team with
    | some t =>
      t.started && !g.atTlbinv && !(s.ctx (s.ckOf g)).halt && g.stop.isNone && !g.idle && !s.baseDead &&
        !(s.dies.any fun d => d.2.log = dieOf (coreOf gk) && d.2.relock)
    | none => false
  | none => false

/-- The stream that issues (06 R135): the handler's if it can issue now, else the main stream. -/
def State.choose (s : State) (gk : Nat) : Bool × Look :=
  match s.look gk true with
  | .nothing => (false, s.look gk false)
  | x => (true, x)

/-- The run on an issue slot (06 R138). -/
def State.slotRun (s : State) (core slot : Nat) : Option Run := if slot = 0 then (s.core core).run0 else (s.core core).run1

/-- The pass count that a PASS code requests (23 R483). -/
def passOf (code : Nat) : Nat := 2 ^ code

/-- The effective pass count of a cluster: the greater of PASS and the controller's demand. DESIGN CHOICE (log 42). -/
def State.passes (s : State) (k : Nat) : Nat :=
  let c := s.cluster k
  max (passOf c.pass) (max (max c.capPass c.hotPass) (if s.leak then 4 else 1))

/-- `sr.passes`: the pass count that the group's run began with (06 R147). -/
def State.passesOf (s : State) (gk : Nat) : Nat :=
  let mine (o : Option Run) : Option Run := o.filter (·.gk = gk)
  let c := s.core (coreOf gk)
  (((mine c.run0).or (mine c.run1)).map (·.p)).getD (s.passes (clusterOf (coreOf gk)))

/-- The team of a group takes the charge of an issue slot in this clock; it stands although the group ends with its last
lane (18 R421, R422). -/
def State.slotTeam (s : State) (core slot gk : Nat) : State :=
  match s.groups.get? gk with
  | some g => s.modCore core fun c => if slot = 0 then { c with didt0 := some g.team } else { c with didt1 := some g.team }
  | none => s

/-- What an issue slot did in this clock, for its charge (18 R421). -/
def State.slotDid (s : State) (core slot code : Nat) (g : Option Nat) : State :=
  s.modCore core fun c => if slot = 0 then { c with did0 := code, didg0 := g } else { c with did1 := code, didg1 := g }

/-- Replaces the run on an issue slot. -/
def State.setRun (s : State) (core slot : Nat) (r : Option Run) : State :=
  s.modCore core fun c => if slot = 0 then { c with run0 := r } else { c with run1 := r }

/-- The run on an issue slot is cut before its next instruction: the slot arbitrates in this clock, which is the run's
boundary clock (06 R138). -/
def State.cutRun (s : State) (core slot gk : Nat) : State :=
  let s := (s.setRun core slot ((s.slotRun core slot).map fun r => { r with busy := 0 })).endRun gk
  { s with agenda := .event (.slotArbitration core slot) :: .probe core slot :: s.agenda }

/-- One more clock that an issue occupies (06 R146); the run that ends with it frees the slot for the next clock. -/
def State.occupied (s : State) (core slot : Nat) (r : Run) : State :=
  let s := ((s.slotTeam core slot r.gk).slotDid core slot (if r.added then 3 else 1) (some r.gk)).setRun core slot (some { r with busy := r.busy - 1 })
  if r.busy = 1 && r.ends then s.endRun r.gk else s

/-- An instruction goes to issue: its run's slot is occupied for the clocks of R146 after this one. -/
def State.occupy (s : State) (core slot : Nat) (r : Run) (w : InsnWord) : State :=
  (s.slotTeam core slot r.gk).setRun core slot (some { r with busy := (Raw.ofWord w).clocks r.p - 1, added := !(Raw.ofWord w).wide64 })

/-- A completed issue ends the "once" of a lane that went on from a breakpoint or a watchpoint (18 R429, R430).
DEDUCED (log 12). -/
def State.clearSkips (s : State) (k : Cursor) : State :=
  (lanesOf k.active).foldl (fun s l =>
    let t := s.thread k.gk l
    if (t.bkSkip || t.wpSkip) && !(s.group k.gk).setAside l then
      s.modThread k.gk l fun t => { t with bkSkip := false, wpSkip := false }
    else s) s

/-- The stream of an instruction that was held is not ready in this clock (06 R137). -/
def State.blockStream (s : State) (k : Cursor) : State :=
  { s with cur := none }.modGroup k.gk fun g => if k.handler then { g with blockedHandler := true } else { g with blockedMain := true }

/-- After the instruction. A held instruction has not issued (06 R137): the main stream may issue in place of a held handler
stream (06 R135), and else the run is cut before it. An issued one counts towards the run, which ends at E, at 24, or without
lanes (06 R138). DEDUCED (log 9). -/
def State.issueEnd (s : State) (core slot : Nat) (k : Cursor) : State :=
  match s.cur with
  | some _ =>
    let s := s.blockStream k
    if k.handler && !(s.group k.gk).mainLanes.isEmpty then
      { s.setRun core slot ((s.slotRun core slot).map fun r => { r with busy := 0 }) with agenda := .issue core slot :: s.agenda }
    else s.cutRun core slot k.gk
  | none =>
    let s := (s.clearSkips k).slotDid core slot 1 (some k.gk)
    let g := s.group k.gk
    match s.slotRun core slot with
    | none => s
    | some r =>
      if r.gk ≠ k.gk then s
      else if (Raw.ofWord k.word).e = 1 || 24 ≤ r.n + 1 || (g.handlerLanes.isEmpty && g.mainLanes.isEmpty) then s.endRun k.gk
      else s.setRun core slot (some { r with n := r.n + 1 })

/-- The turn of an issue slot up to its instruction: a run without an instruction that can issue is cut (06 R138); an
instruction whose fetch failed traps (05 R102). An issue that ends before its instruction, because every lane traps or aborts, counts
and occupies its slot as any other; one that a HALT breakpoint stops has not issued, and its run is cut (06 R138, R146; 18 R429). -/
def State.issueStart (s : State) (core slot : Nat) : State × Option Instr :=
  match s.slotRun core slot with
  | none => (s, none)
  | some r =>
    if r.busy ≠ 0 then (s.occupied core slot r, none)
    else if !s.mayIssue r.gk then (s.cutRun core slot r.gk, none)
    else match s.choose r.gk with
      | (_, .nothing) => (s.cutRun core slot r.gk, none)
      | (h, .failed m ls c a k) =>
        let cu : Cursor :=
          { gk := r.gk, full := maskOf ls, active := 0, handler := h, word := 0, pc := m, traps := [] }
        (((s.dropFailed r.gk m).finish cu
          ((ls.filter fun l => (s.thread r.gk l).wait = .none).map fun l => ⟨l, c, detailM a k 4 0 0⟩)).issueEnd core slot cu, none)
      | (h, .ready m ls w) =>
        let cu : Cursor :=
          { gk := r.gk, full := maskOf ls, active := 0, handler := h, word := w, pc := m, traps := [] }
        match (s.occupy core slot r w).prepare r.gk h ls m w with
        | (t, none) => (if (t.ctx (s.ckOf (s.group r.gk))).halt then t.cutRun core slot r.gk else t.issueEnd core slot cu, none)
        | (t, some i) => (t, some i)

/-- The group that a slot has just chosen is not ready after all (06 R137, condition 5): its main stream is tried in place
of a held handler stream, and else the slot arbitrates again. -/
def State.probeHeld (s : State) (core slot : Nat) (k : Cursor) : State :=
  let s := s.blockStream k
  if (s.choose k.gk).2 ≠ .nothing then { s with agenda := .probe core slot :: s.agenda } else s.cutRun core slot k.gk

end Sys2Proof.Machine
end

