-- ==== Sys2Proof/Machine/Saving.lean ====
section
/-! DEFINITION. Pre-emption after its request (17_interrupts R408 to R415): slices (03_launching R74), stopping a group, saving
a team, and its resume; halting a context and its dump (18_retiring R431 to R433). -/

namespace Sys2Proof.Machine

/-! ## Slices (03 R73, R74) -/

/-- A valid slice entry: function and length in context clocks. -/
def State.slice (s : State) (i : Nat) : Option (Nat × Nat) :=
  let e := s.slices.read 0 i
  if bitOf e 31 then some (e.toNat / 2 ^ 16 % 32, 1024 * (e.toNat % 2 ^ 16)) else none

/-- The function has a claimable grid. -/
def State.fnClaims (s : State) (f : Nat) : Bool := s.grids.any fun e => e.2.ck / 16 = f && s.claimable e.1 e.2

/-- The next entry in index order, wrapping, whose function has a claimable grid. DEDUCED (log 35). -/
def State.nextSlice (s : State) : Option Nat :=
  let order := match s.sliceNow with
    | none => List.range 32
    | some i => (List.range 31).map fun k => (i + 1 + k) % 32
  order.find? fun i => (s.slice i).any fun e => s.fnClaims e.1

/-- The slice has expired, its entry is no longer valid, or none holds the device and an entry could. DEDUCED (log 35). -/
def State.sliceDue (s : State) : Bool :=
  match s.sliceNow with
  | none => s.nextSlice.isSome
  | some i => (s.slice i).all fun e => e.2 ≤ s.sliceClock

/-- SLICE_EXPIRY: the next function takes the device, and the outgoing function's teams are pre-empted; with no other to take
it the slice renews. DEDUCED (log 35). -/
def execSliceExpiry (s : State) : Answer :=
  .next (
    if !s.sliceDue then s
    else match s.nextSlice with
      | none => { s with sliceNow := s.sliceNow.filter fun i => (s.slice i).isSome, sliceClock := 0 }
      | some i =>
        let f := s.sliceFn
        let s' : State := { s with sliceNow := some i, sliceClock := 0 }
        match f with
        | none => s'
        | some f =>
          if s'.sliceFn = some f then s'
          else s'.preemptTeams ((s.teams.filter fun e => (s.gridOf e.2).any fun g => g.ck / 16 = f).map (·.1)))

/-! ## Stopping a group (R408) -/

/-- A wait at which a group is saved. -/
def LaneWait.savePoint : LaneWait → Bool
  | .coreBar .. | .unitBar .. | .collect .. | .rejoinMask .. | .sleep .. | .sleepChk .. | .regroup => true
  | _ => false

/-- A pre-emption of the team is asked for and no relocation is in progress (16 R386). -/
def Team.stopping (t : Team) : Bool := t.pending.isSome && t.rdvs.all fun r => !r.moving

/-- A lane of the main stream whose next instruction is a `join`, which a standing trap entry holds (07 R168): it waits at a
`join`. -/
def State.heldAtJoin (s : State) (gk l : Nat) : Bool :=
  let g := s.group gk
  !g.setAside l && g.trapEntry.isSome && (s.thread gk l).wait = .none &&
    match s.fetchWord gk (g.lpcOf l) with
    | .word w => (Raw.ofWord w).key = 0x307
    | _ => false

/-- The group stops now: each of its eligible lanes waits at a save point. -/
def State.stopsNow (s : State) (gk : Nat) : Bool :=
  match s.groups.get? gk with
  | some g =>
    ((s.teamOf g).any (·.stopping)) && g.stop.isNone &&
      (g.handlerLanes ++ g.mainLanes).all fun l => ((s.thread gk l).wait.savePoint || s.heldAtJoin gk l)
  | none => false

/-- Stops a group for a save in full (R416: FULL). -/
def State.stopFull (s : State) (gk : Nat) : State :=
  let g := s.group gk
  let s := if g.hasThread then s.setThr (s.ckOf g) 16 else s
  (s.modGroup gk fun g => { g with stop := some none }).endRun gk

/-- GROUP_SAVE: the group stops at a wait point. -/
def execGroupSave (gk : Nat) (s : State) : Answer := .next (if s.stopsNow gk then s.stopFull gk else s)

/-- The grace period of a team has run out. -/
def State.graceOver (s : State) (t : Team) : Bool := t.stopping && (t.pending.any fun p => s.pgrace.toNat ≤ p.clocks)

/-- Groups of a team that have not stopped. -/
def State.unstopped (s : State) (tk : Nat) : List Nat := (s.groups.filter fun e => e.2.team = tk && e.2.stop.isNone).map (·.1)

/-- PREEMPT_GRACE_EXPIRY: the remaining groups stop and are saved in full. -/
def execPreemptGraceExpiry (team : Nat) (s : State) : Answer :=
  .next (match s.teams.get? team with
    | some t => if s.graceOver t then (s.unstopped team).foldl (fun s gk => s.stopFull gk) s else s
    | none => s)

/-! ## Saving (R410, R411) -/

/-- The save may begin: all groups have stopped and everything that the team issued is complete (R410; 12 R310). A team whose
last lane has exited is not saved: the exit wins, and it retires once its child grids have ended (R415; 03 R78). DEDUCED
(log 36). -/
def State.saveReady (s : State) (tk : Nat) (t : Team) : Bool :=
  t.started && t.stopping && (s.unstopped tk).isEmpty && s.liveOf tk ≠ 0 &&
  (s.groups.all fun e => e.2.team ≠ tk || e.2.replies.isEmpty) &&
  !(s.cores.any fun e => (e.2.mq.any fun o => o.team = tk) || e.2.fills.any fun f => f.2.team = tk) &&
  !(s.jobs.any fun e => e.2.team = tk) && !(s.flights.any fun e => e.2.team = tk)

/-- A stack entry of a thread is saved: a named window register, the resident caller frame (07 R164), and in a full save the
handler window of a parked lane. DEDUCED (log 36). -/
def Thread.kept (t : Thread) (hint : Option Hint) (parked : Bool) (e : Nat) : Bool :=
  let i := (e + 96 - t.wb) % 96
  (i < 32 && hint.all fun h => bitOf h.windows i) || (t.nres = 1 && 72 ≤ i) || (hint.isNone && parked && 32 ≤ i && i < 64)

/-- What a save keeps of a thread, its poison included (16 R387); what is not kept reads as zero after the resume (R414). DEDUCED
(log 36). -/
def Thread.save (t : Thread) (hint : Option Hint) (parked : Bool) : Thread :=
  let ps := match hint with
    | none => t.preds
    | some h => t.preds &&& h.preds
  { t with
    stack := t.stack.filter fun e => t.kept hint parked e.1
    preds := ps }

/-- What a save keeps of a group (17 R409, R411). -/
def Group.save (g : Group) : Group :=
  let hint := g.stop.getD none
  { g with lanes := g.lanes.map fun e => (e.1, e.2.save hint (g.inHandler e.1)) }

/-- The hints of a team's groups that hold threads on a core, or none where one of them was saved in full. -/
def State.coreHints (s : State) (tk c : Nat) : Option (List Hint) :=
  ((s.teamGroups tk c).filter fun e => e.2.hasThread).foldr (fun (e : Nat × Group) acc => match acc, e.2.stop with
    | some l, some (some h) => some (h :: l)
    | some l, none => some l
    | _, _ => none) (some [])

/-- Scratchpad bytes and poisoned words that a core keeps, by team core. -/
def State.keepScratch (s : State) (t : Team) (p : Packet) (c : Nat) (hs : Option (List Hint)) : Tbl Byte × List Nat :=
  let j := t.coreIndex c
  let ranges := match hs with
    | none => [(t.runStart, p.scratch)]
    | some l => l.flatMap fun (x : Hint) => x.ranges
  let base := 2 ^ 19 * c
  let inR (o : Nat) : Bool := ranges.any fun r => r.1 ≤ o && o < r.1 + r.2
  (((s.scratch.inRange base (base + 2 ^ 19)).filter fun e => inR (e.1 - base)).map fun e => (2 ^ 19 * j + (e.1 - base), e.2),
   (s.scratchPoison.filter fun w => base / 4 ≤ w && w < base / 4 + 2 ^ 17 && inR (4 * w - base)).map fun w => 2 ^ 17 * j + (w - base / 4))

/-- Lane-slice bytes of a team by 256 tid + offset, and their poisoned words by 2^30 + 64 tid + word. -/
def State.keepSlices (s : State) (t : Team) (p : Packet) : Tbl Byte × List Nat :=
  let v := 16 * p.lane
  t.laneRuns.foldl (fun acc r =>
    let a := 2 ^ 19 * t.cores.getD (r.1 / 32) 0 + 512 * r.2
    let tid (o : Nat) : Nat := 32 * r.1 + o / v
    (((s.scratch.inRange a (a + 32 * v)).foldl (fun m e => m.put (256 * tid (e.1 - a) + (e.1 - a) % v) e.2) acc.1),
     acc.2 ++ (s.scratchPoison.filter fun w => a / 4 ≤ w && w < (a + 32 * v) / 4).map fun w =>
       2 ^ 30 + 64 * tid (4 * w - a) + (4 * w - a) % v / 4)) ([], [])

/-- Tile elements and poisoned tiles that a core keeps, by team core and tile number. -/
def State.keepTiles (s : State) (t : Team) (c : Nat) (hs : Option (List Hint)) : Tbl Word × List Nat :=
  let j := t.coreIndex c
  let ts := (t.tiles.get? c).getD []
  let named := ((List.range ts.length).zip ts).filter fun e => hs.all fun l => l.any fun h => bitOf h.tiles e.1
  (named.flatMap fun e => (s.acc.inRange ((16 * c + e.2) * 4096) ((16 * c + e.2 + 1) * 4096)).map fun x =>
      ((16 * j + e.1) * 4096 + x.1 % 4096, x.2),
   (named.filter fun e => s.accPoison.contains (16 * c + e.2)).map fun e => 16 * j + e.1)

/-- What a team keeps. DEDUCED (log 36). -/
def State.savedTeam (s : State) (tk : Nat) (t : Team) (p : Packet) (r : Preempt) : SavedTeam :=
  let per := t.cores.map fun c => (s.keepScratch t p c (s.coreHints tk c), s.keepTiles t c (s.coreHints tk c))
  let sl := s.keepSlices t p
  { team := { t with pending := none, started := false }
    groups := (s.groups.filter fun e => e.2.team = tk).map fun e => (t.coreIndex (coreOf e.1), slotOf e.1, e.2.save)
    scratch := per.flatMap fun x => x.1.1
    spois := per.flatMap (fun x => x.1.2) ++ sl.2
    slices := sl.1
    acc := per.flatMap fun x => x.2.1
    accPois := per.flatMap fun x => x.2.2
    bars := t.bars.map fun n => match s.barSlots.get? (4096 * t.d + n) with
      | some b => (b.phase, b.arrived, b.mode)
      | none => (false, 0, none)
    off := r.off
    size := r.size }

/-- Bytes that some range covers. -/
def coveredBytes (rs : List (Nat × Nat)) : Nat :=
  let ps := ((rs.flatMap fun r => [r.1, r.1 + r.2]).dedup).insertionSort (· ≤ ·)
  (ps.zip (ps.drop 1)).foldl (fun n e => if rs.any fun r => r.1 ≤ e.1 && e.1 < r.1 + r.2 then n + (e.2 - e.1) else n) 0

/-- Bytes that a core keeps of tiles and scratchpad: all that the team has there, or what the hints of its groups name. -/
def keptSize (p : Packet) (hs : Option (List Hint)) : Nat :=
  match hs with
  | none => 16384 * p.tiles + p.scratch
  | some l => 16384 * ((List.range p.tiles).filter fun i => l.any fun h => bitOf h.tiles i).length + coveredBytes (l.flatMap (·.ranges))

/-- Bytes that a team's record takes, each group saved at its hint or in full; the rest of the range stays reserved (17
R412; 21 R456). DEDUCED (log 36). -/
def State.savedSize (s : State) (tk : Nat) (t : Team) (p : Packet) : Nat :=
  s.recordSize tk t p (fun g => g.stop.getD none) fun j => keptSize p (s.coreHints tk (t.cores.getD j 0))

/-- The bytes that the save engine writes: the layout of a record is the device's own (R412), so they are free values.
DEDUCED (log 36). -/
def freeRecord (i n : Nat) : List Byte := (List.range n).map fun k => Config.freeByte (2 ^ 64 * (i + 1) + k)

/-- Aborts the ACT lanes of a team (15 R373). -/
def State.abortAct (s : State) (tk : Nat) : State :=
  (s.groups.filter fun e => e.2.team = tk).foldl (fun s e =>
    (e.2.lanes.filter fun l => l.2.tx.act).foldl (fun s l => s.txAbort e.1 l.1 8) s) s

/-- Takes a team off its cores. Its residencies stay as descriptors, absent, their watch entries armed (13 R331, R333); a thread
keeps a serial token that it holds (15 R377). DEDUCED (log 28). DEDUCED (log 36). -/
def State.detach (s : State) (tk : Nat) : State :=
  let mine := s.residencies.filter fun e => e.2.team = tk
  let watches := s.watches
  let holds (tid : Nat) : Bool := match s.findThread tk tid with
    | some (gk, l) => (s.thread gk l).tx.tok
    | none => false
  let tokens := s.tokens.map fun (e : Nat × List (Nat × Nat)) => (e.1, e.2.filter fun r => r.1 ≠ tk || holds r.2)
  let s := s.removeTeam tk
  { s with
    residencies := mine.foldl (fun m e => m.put e.1 { e.2 with present := false, refilling := false }) s.residencies
    watches := watches
    tokens := tokens }

/-- Teams of the grid of a higher index that the same dispatcher has placed and not started give their places up, so that the
team that is saved, or gives its own place up, is again the next of its grid to start there (03 R80; 04 R94). DEDUCED
(log 35). -/
def State.unplaceAfter (s : State) (t : Team) : State :=
  (s.teams.filter fun e => e.2.grid = t.grid && e.2.d = t.d && !e.2.started && t.idx < e.2.idx).foldl
    (fun s e => s.unplace e.1 e.2) s

/-- TEAM_SAVE: the record is written in its range, the team keeps its state, and its resources are freed (R410 to
R412). DEDUCED (log 36). -/
def execTeamSave (team : Nat) (s : State) : Answer :=
  .next (match s.teams.get? team, (s.teams.get? team).bind s.gridOf with
    | some t, some g =>
      if t.yielding && !t.started then (s.unplace team { t with yielding := false }).unplaceAfter t
      else match t.pending with
      | none => s
      | some r =>
        if !s.saveReady team t then s
        else
          let s := s.abortAct team
          let v := s.savedTeam team ((s.teams.get? team).getD t) g.pkt r
          let h := (s.ctx g.ck).saveAt
          let (i, s) := s.freeIdx
          let s := s.writePhys g.ck (h + r.off) (freeRecord i (min r.size (s.savedSize team ((s.teams.get? team).getD t) g.pkt)))
          let s := s.writePhys g.ck (h + 16) (bytesOf (s.load .mem (h + 16) 4 + 1) 4)
          let s := (s.detach team).trace g.ck (32 * t.cores.headD 0) 0 0 6 none none
          (({ s with savedTeams := s.savedTeams.put team v } : State).unplaceAfter t).setThr g.ck 1
    | _, _ => s)

/-! ## Resume (R413, R414) -/

/-- Where each saved group stands now: old slot key, new slot key, and the group. The groups of a team core take its new slots
in order. -/
def State.resumeMap (s : State) (tk : Nat) (t : Team) (v : SavedTeam) : List (Nat × Nat × Group) :=
  (List.range t.cores.length).flatMap fun j =>
    let new := (s.teamGroups tk (t.cores.getD j 0)).map (·.1)
    let old := v.groups.filter fun e => e.1 = j
    (old.zip new).map fun e => (32 * v.team.cores.getD j 0 + e.1.2.1, e.2, e.1.2.2)

/-- The new key of an old slot. -/
def newKey (m : List (Nat × Nat × Group)) (gk : Nat) : Nat := ((m.find? fun e => e.1 = gk).map (·.2.1)).getD gk

/-- A wait moved to the team's new barrier slots (15 R364). -/
def LaneWait.moved (w : LaneWait) (old new : Team) : LaneWait :=
  match w with
  | .unitBar u n ph =>
    if u = old.d && old.bars.contains n then .unitBar new.d (new.bars.getD (old.bars.findIdx (· = n)) n) ph else w
  | w => w

/-- A thread moved with its team. -/
def Thread.resettled (th : Thread) (m : List (Nat × Nat × Group)) (old new : Team) : Thread :=
  { th with
    wait := th.wait.moved old new
    home := th.home.map fun h => { h with gk := newKey m h.gk } }

/-- What a team knows by core or slot, moved to its new cores. -/
def Team.moved (t : Team) (m : List (Nat × Nat × Group)) (old : Team) : Team :=
  let core (c : Nat) : Nat := t.cores.getD (old.cores.findIdx (· = c)) c
  let slot (c n : Nat) : Nat := slotOf (newKey m (32 * c + n))
  { t with
    conts := old.conts.map fun c => { c with core := core c.core, th := c.th.resettled m old t }
    rdvs := old.rdvs.map fun r => { r with core := core r.core, arrived := r.arrived.map (slot r.core), opener := slot r.core r.opener }
    rdvDone := old.rdvDone.foldl (fun x e => x.put (core e.1) e.2) [] }

/-- Writes back what a save kept of scratchpads, slices, tiles and barrier slots. -/
def State.restore (s : State) (t : Team) (p : Packet) (v : SavedTeam) : State :=
  let core (j : Nat) : Nat := t.cores.getD j 0
  let slice (tid o : Nat) : Nat := 2 ^ 19 * t.homeCore tid + t.sliceAt p tid + o
  let tile (x : Nat) : Nat := 16 * core (x / 16) + (((t.tiles.get? (core (x / 16))).getD []).getD (x % 16) 0)
  let word (w : Nat) : Nat :=
    if 2 ^ 30 ≤ w then slice ((w - 2 ^ 30) / 64) (4 * ((w - 2 ^ 30) % 64)) / 4 else 2 ^ 17 * core (w / 2 ^ 17) + w % 2 ^ 17
  let pads := v.scratch.foldl (fun m e => m.write 0 (2 ^ 19 * core (e.1 / 2 ^ 19) + e.1 % 2 ^ 19) e.2) s.scratch
  { s with
    scratch := v.slices.foldl (fun m e => m.write 0 (slice (e.1 / 256) (e.1 % 256)) e.2) pads
    scratchPoison := v.spois.foldl (fun l w => addTo l (word w)) s.scratchPoison
    acc := v.acc.foldl (fun m e => m.write 0 (tile (e.1 / 4096) * 4096 + e.1 % 4096) e.2) s.acc
    accPoison := v.accPois.foldl (fun l x => addTo l (tile x)) s.accPoison
    barSlots := (t.bars.zip v.bars).foldl (fun m (e : Nat × (Bool × Nat × Option (Option Nat))) =>
      m.modify (4096 * t.d + e.1) fun b => { b with phase := e.2.1, arrived := e.2.2.1, mode := e.2.2.2 }) s.barSlots }

/-- Writes one team's state back, with the acquire of 03 R79. DEDUCED (log 36). -/
def State.resumeTeam (s : State) (tk : Nat) (t : Team) (g : Grid) (v : SavedTeam) : State :=
  let s := ((s.zeroTeam t g.pkt).restore t g.pkt v).startAcquire t g.ck
  let m := s.resumeMap tk t v
  let back (x : Group) : Group :=
    { x with
      stop := none
      blockedMain := false
      blockedHandler := false
      lanes := x.lanes.map fun e => (e.1, e.2.resettled m v.team t) }
  let rest := s.groups.filter fun e => e.2.team ≠ tk
  let s := { s with groups := m.foldl (fun x (e : Nat × Nat × Group) => x.put e.2.1 (back e.2.2)) rest }
  let s := s.modTeam tk fun t => { t.moved m v.team with started := true, startAt := s.clock, pc := [] }
  { s.freeRange g.ck v.off v.size true with savedTeams := s.savedTeams.del tk }

/-- Saved teams that stand placed and resume together: all of a co-resident grid, or one. DEDUCED (log 36). -/
def State.resumeSet (s : State) (tk : Nat) (t : Team) (g : Grid) : List (Nat × Team) :=
  if g.pkt.cres then s.teams.filter fun e => e.2.grid = t.grid && !e.2.started && (s.savedTeams.get? e.1).isSome
  else [(tk, t)]

/-- TEAM_RESUME (R414): the state is written back, and the groups enter arbitration together. -/
def execTeamResume (team : Nat) (s : State) : Answer :=
  .next (match s.teams.get? team, (s.teams.get? team).bind s.gridOf with
    | some t, some g =>
      if t.started || t.yielding || (s.savedTeams.get? team).isNone then s
      else (s.resumeSet team t g).foldl (fun s e =>
        match s.savedTeams.get? e.1 with
        | some v => s.resumeTeam e.1 e.2 g v
        | none => s) s
    | _, _ => s)

/-! ## Halting a context (18 R431 to R433) -/

/-- CHALT_HALT. -/
def execChaltHalt (ck : Nat) (s : State) : Answer := .next (s.modCtx ck fun c => { c with halt := true })

/-- CHALT_RELEASE: the context and its clocks go on from their stopped values. -/
def execChaltRelease (ck : Nat) (s : State) : Answer := .next (s.modCtx ck fun c => { c with halt := false, stopped := false })

/-- Nothing that the context began is in flight: no issue, access, walk, fill, copy job or matrix operation, no commit that has
begun, no result on its way and no relocation. DEDUCED (log 37). -/
def State.quiet (s : State) (ck : Nat) : Bool :=
  let mine (tk : Nat) : Bool := ((s.teams.get? tk).bind s.gridOf).any fun g => g.ck = ck
  !(s.flights.any fun e => e.2.ck = ck) && !(s.walks.any fun e => e.2.ck = ck && e.2.result.isNone) &&
  !(s.jobs.any fun e => e.2.ck = ck) &&
  !(s.groups.any fun e => s.ckOf e.2 = ck && (!e.2.replies.isEmpty || e.2.lanes.any fun l => match l.2.wait with
    | .commit .. => true
    | _ => false)) &&
  !(s.teams.any fun e => mine e.1 && e.2.rdvs.any (·.moving)) &&
  !(s.cores.any fun e => (e.2.mq.any fun o => mine o.team) || (e.2.fills.any fun f => mine f.2.team) ||
    (e.2.run0.any fun r => s.ckOf (s.group r.gk) = ck) || e.2.run1.any fun r => s.ckOf (s.group r.gk) = ck)

/-- CONTEXT_STOPPED. DEDUCED (log 37). -/
def execContextStopped (ck : Nat) (s : State) : Answer :=
  .next (if (s.ctx ck).halt && s.quiet ck then s.modCtx ck fun c => { c with stopped := true } else s)

/-- Bytes of the full-save records of a context's resident teams. DEDUCED (log 37). -/
def State.dumpSize (s : State) (ck : Nat) : Nat :=
  s.teams.foldl (fun n e => match s.gridOf e.2 with
    | some g => if g.ck = ck then n + s.fullSize e.1 e.2 g.pkt else n
    | none => n) 0

/-- HWM of the header: 64 while no range has been held (17 R412). DEDUCED (log 37). -/
def State.saveHwm (s : State) (ck : Nat) : Nat := max 64 (s.load .mem ((s.ctx ck).saveAt + 24) 8)

/-- CHALT_DUMP: records of every team from HWM on, or an event record of KIND 0x15; DUMP reads 0 again. DEDUCED (log 37). -/
def execChaltDump (ck : Nat) (s : State) : Answer :=
  .next (
    let s := s.modCtx ck fun c => { c with dump := false }
    let c := s.ctx ck
    let h := c.saveAt
    let n := s.dumpSize ck
    let hwm := s.saveHwm ck
    if c.stopped && h < 2 ^ 39 - 64 && !s.poisoned .mem h 64 && hwm + n ≤ s.load .mem h 8 && h + hwm + n < 2 ^ 39 then
      let (i, s) := s.freeIdx
      s.writePhys ck (h + hwm) (freeRecord i n)
    else s.event ck 0x15 0 0 (recordId ck 0 false) 0 n)

end Sys2Proof.Machine
end

