-- ==== Sys2Proof/Machine/Host.lean ====
section
/-! DEFINITION. What the host and the firmware do to a function (03_launching R57 to R62, R65, R70, R72, R489; 10 R231; 14 R348;
22 R465): queue registers, mailboxes, host windows, event rings, contexts, and Function Level Reset. -/

namespace Sys2Proof.Machine

/-! ## Queue registers (R60, R61, R65) -/

/-- QTAIL − QHEAD exceeds the ring (R61). -/
def Queue.overruns (q : Queue) : Bool := 2 ^ q.size < (q.tail - q.head).toNat

/-- QTAIL_WRITE. -/
def execQtailWrite (qk : Nat) (v : Word) (s : State) : Answer :=
  .next (s.modQueue qk fun q =>
    let q := { q with tail := v }
    { q with ovr := q.ovr || q.overruns })

/-- QBASE is aligned to the smaller of the ring and 64 KiB (R60). -/
def Queue.aligned (q : Queue) : Bool := q.base.toNat % min (128 * 2 ^ q.size) 65536 = 0

/-- A write of QCTL: SIZE is kept while EN is 1; EN is set only with a legal SIZE and an aligned base (R61). DEDUCED
(log 39). -/
def Queue.control (q : Queue) (size : Nat) (en : Bool) : Queue :=
  if q.en then (if en then q else { q with en := false })
  else
    let q := { q with size := size }
    if en && 1 ≤ size && size ≤ 16 && q.aligned then
      { q with en := true, head := q.tail, ovr := false, flt := false, unc := false
               read := q.read.map fun r => { r with anew := true } }
    else q

/-- QUEUE_ENABLE: a write of QCTL with EN 1; `v` gives SIZE. -/
def execQueueEnable (qk : Nat) (v : Word) (s : State) : Answer := .next (s.modQueue qk (·.control (v.toNat % 32) true))

/-- QUEUE_DISABLE: a write of QCTL with EN 0. -/
def execQueueDisable (qk : Nat) (v : Word) (s : State) : Answer := .next (s.modQueue qk (·.control (v.toNat % 32) false))

/-- QSTAT_FLT_CLEAR. -/
def execQstatFltClear (qk : Nat) (s : State) : Answer := .next (s.modQueue qk fun q => { q with flt := false })

/-- QSTAT_OVR_CLEAR: OVR is set again while the ring still overflows. -/
def execQstatOvrClear (qk : Nat) (s : State) : Answer := .next (s.modQueue qk fun q => { q with ovr := q.overruns })

/-! ## Mailboxes (R57, R58) -/

/-- MBIN_WRITE. -/
def execMbinWrite (fn : Nat) (v : Word) (s : State) : Answer :=
  .next (if (s.fn fn).enabled then s.modFn fn fun f => { f with mbin := v, mbEvent := true } else s)

/-- MBOUT_POST: a reply is posted, with MSI-X vector 0. -/
def execMboutPost (fn : Nat) (s : State) : Answer :=
  .next ((s.modFn fn fun f => { f with mbout := true }).msix fn 0)

/-! ## Host windows (R489) -/

/-- The context key and virtual address of a byte of BAR4. -/
def State.hostAddr (s : State) (fn off : Nat) : Nat × Nat :=
  let c := off / 2 ^ 28 % 16
  (16 * fn + c, (((s.fn fn).hwin.read 0 c).toNat + off % 2 ^ 28) % 2 ^ 57)

/-- A Completer Abort in Advanced Error Reporting: its status bit, and with the first error that is not masked its number
and the header of the request, whose bytes the manual does not give. PRESUMED (log 49). -/
def Fn.abortLogged (f : Fn) (i : Nat) : Fn :=
  let f' := { f with aer := f.aer ||| 1#32 <<< 15 }
  if f.aer &&& ~~~f.aerMask ≠ 0 || bitOf f.aerMask 15 then f'
  else { f' with aerFirst := 15, aerLog := (List.range 4).map fun k => Config.freeWord (2 ^ 64 * (i + 1) + k) }

/-- A host access that is refused: logged as a Completer Abort, with an event record. PRESUMED (log 49). -/
def State.hostRefused (s : State) (fn ck va status count : Nat) : State :=
  let (i, s) := s.freeIdx
  ((s.send (.completerAbort fn)).modFn fn (·.abortLogged i)).event ck 0x1A status 0 (recordId ck 0 false) count va

/-- A configuration request of the physical function is answered with a retry status: STATE is below 0x3 (23 R474). -/
def State.retried (s : State) (fn : Nat) : Bool := fn = 0 && s.bstate < 3

/-- Translates a host access: the physical address and leaf, or the status of its failure. -/
def State.hostXlat (s : State) (ck va : Nat) (need : Need) : State × Except Nat (Nat × DWord) :=
  if !(s.ctx ck).en then (s, .error 9)
  else match s.xlat ck va need with
    | (s, .ok pa leaf) => (s, .ok (pa, leaf))
    | (s, .poison) => (s, .error 8)
    | (s, _) => (s, .error 7)

/-- A host write to bytes of one line, as a strong access at `.system` scope by an agent of its own, of the size that its enabled
bytes span (R489; 14 R340, R348). DEDUCED (log 38). -/
def hostAccess (fn ck : Nat) (leaf : DWord) (loc n : Nat) (chk : Bool) : Flight :=
  { kind := .store [], core := 1024, gk := 32768, team := 0, tid := 2 ^ 17 + fn, ck := ck, space := .gl, loc := loc, size := n
    va := loc, strong := true, scope := .system, acq := false, rel := false, promote := false, tx := false, remote := none
    run := (0, 0), slice := homeSlice loc leaf, chk := chk }

/-- The host's part in its write: it comes after the grids that have ended. DEDUCED (log 47). -/
def State.hostMaker (s : State) : Maker := { who := 0, seen := s.endedSeen }

/-- Performs a host write at the home of its line. One that the overlap check finds in conflict is not performed, and there is no
lane to trap (14 R348). DEDUCED (log 38). -/
def State.hostWriteLine (s : State) (fn ck : Nat) (leaf : DWord) (bytes : Tbl Byte) : State :=
  match bytes.head?, bytes.getLast? with
  | some a, some b =>
    let f : Flight := { hostAccess fn ck leaf a.1 (b.1 + 1 - a.1) (s.ctx ck).ovUsed with makers := [s.hostMaker], seq := s.nextId }
    if (s.overlapHit f f.tid).isSome then s
    else
      let mixed := s.mixedBytes f f.tid
      let s := (s.l2Touch (a.1 / 128) f.slice (insertV 0) ck none true).write .mem bytes
      ((s.blur .mem mixed).overlapNote f f.tid).strongNote f f.tid true
  | _, _ => s

/-- HOST_WINDOW_WRITE: the enabled bytes of one request, which crosses no page. DEDUCED (log 38). -/
def execHostWindowWrite (fn off : Nat) (data : List (Option Byte)) (s : State) : Answer :=
  .next (
    let (ck, va) := s.hostAddr fn off
    if !(s.fn fn).enabled then s
    else match s.hostXlat ck va .write with
      | (s, .error st) => s.hostRefused fn ck va st 1
      | (s, .ok (pa, leaf)) =>
        let bytes : Tbl Byte := ((List.range data.length).zip data).filterMap fun e => e.2.map fun b => (pa + e.1, b)
        (List.range ((pa + data.length + 127) / 128 - pa / 128)).foldl (fun s i =>
          s.hostWriteLine fn ck leaf (bytes.filter fun e => e.1 / 128 = pa / 128 + i)) s)

/-- HOST_WINDOW_READ. DEDUCED (log 38). -/
def execHostWindowRead (fn off n : Nat) (s : State) : Answer :=
  .next (
    let (ck, va) := s.hostAddr fn off
    if !(s.fn fn).enabled then s
    else match s.hostXlat ck va .read with
      | (s, .error st) => s.hostRefused fn ck va st 0
      | (s, .ok (pa, leaf)) =>
        if s.poisoned .mem pa n then s.hostRefused fn ck va 8 0
        else
          let s := s.blurRead .mem pa n
          (s.l2Touch (pa / 128) (homeSlice pa leaf) (insertV 0) ck none false).send (.hostData fn (s.bytes .mem pa n)))

/-! ## Event rings (R70) -/

/-- A write of ERCTL: SIZE is kept while EN is 1; setting EN makes ERRIDX equal to ERWIDX. DEDUCED (log 39). -/
def Fn.ringControl (f : Fn) (size : Nat) (en : Bool) : Fn :=
  if f.eren then { f with eren := en }
  else
    let f := { f with ersize := size }
    if en then { f with eren := true, err := f.erw } else f

/-- EVENT_RING_ENABLE. -/
def execEventRingEnable (fn : Nat) (v : Word) (s : State) : Answer := .next (s.modFn fn (·.ringControl (v.toNat % 32) true))

/-- ERSTAT_WRITE. -/
def execErstatWrite (fn : Nat) (s : State) : Answer := .next (s.modFn fn fun f => { f with lost := 0 })

/-- EVENT_RING_DRAIN: the oldest held record moves into the ring when there is room. -/
def execEventRingDrain (fn : Nat) (s : State) : Answer :=
  .next (match (s.fn fn).held with
    | r :: rest => if (s.fn fn).ringOpen fn then (s.modFn fn fun f => { f with held := rest }).writeEvent fn r else s
    | [] => s)

/-! ## Registers of a context -/

/-- CONTEXT_DISABLE (R72). -/
def execContextDisable (ck : Nat) (s : State) : Answer := .next (s.disableCtx ck)

/-- OVCHK_WRITE (14 R348): a change of EN begins and ends without records. -/
def execOvchkWrite (ck : Nat) (v : Word) (s : State) : Answer :=
  .next (if (s.ctx ck).ovchk = bitOf v 0 then s
    else { s.modCtx ck fun c => { c with ovchk := bitOf v 0 } with overlaps := s.overlaps.filter fun e => e.1 % 512 ≠ ck })

/-- The bits of LMAPi that are stored; EN stays 0 where LO exceeds HI (22 R465). DEDUCED (log 39). -/
def lmapStored (v : DWord) : DWord :=
  let kept := v &&& 0x80FFFF80003FFFFF#64
  if v.toNat % 2 ^ 11 < v.toNat / 2 ^ 11 % 2 ^ 11 then kept &&& ~~~(1#64 <<< 63) else kept

/-- LMAP_WRITE. -/
def execLmapWrite (ck i : Nat) (v : DWord) (s : State) : Answer :=
  .next (s.modCtx ck fun c => { c with lmap := c.lmap.write 0 i (lmapStored v) })

/-- XS_GRANT_WRITE (10 R231). -/
def execXsGrantWrite (ck d : Nat) (v : Word) (s : State) : Answer :=
  .next (if 256 < v.toNat % 256 + v.toNat / 256 % 512 then s
    else s.modCtx ck fun c => { c with grants := c.grants.write 0 d (v &&& 0x1FFFF) })

/-- VF_ENABLE (00_scope R8): the sixteen virtual functions in one block, once STATE has reached 0x3 (23 R474). -/
def execVfEnable (s : State) : Answer :=
  .next (if s.bstate < 3 then s
    else (List.range 16).foldl (fun s i => s.modFn (i + 1) fun f => { f with enabled := true }) s)

/-! ## Function Level Reset (R59) -/

/-- Copies code into a firmware core's private memory. -/
def loadCode (code : List Byte) : Tbl Byte := (placeList 0 code).filter fun e => e.2 ≠ 0

/-- A context after a reset of its function: its registers at their reset values; clocks and counts run on. DEDUCED
(log 38). -/
def Ctx.reset (c : Ctx) : Ctx :=
  { isc := c.isc, trcn := c.trcn, ctime := c.ctime, thrstat := c.thrstat, seq := c.seq }

/-- Removes everything that the contexts of a function have on the device, without a record or signal. DEDUCED (log 38). -/
def State.clearFn (s : State) (fn : Nat) : State :=
  let s := s.abortGrids true none 0 ((s.grids.filter fun e => e.2.ck / 16 = fn && e.2.depth = 1).map (·.1))
  let s := (s.grids.filter fun e => e.2.ck / 16 = fn).foldl (fun s e => s.stripGrid e.1) s
  { s with
    grids := s.grids.filter fun e => e.2.ck / 16 ≠ fn
    jobs := s.jobs.filter fun e => e.2.ck / 16 ≠ fn
    heldRecords := s.heldRecords.filter fun e => e.2.ck / 16 ≠ fn
    walks := s.walks.filter fun e => e.2.ck / 16 ≠ fn
    overlaps := s.overlaps.filter fun e => e.1 % 512 / 16 ≠ fn
    tlb2 := s.tlb2.map fun (e : Nat × List TlbEntry) => (e.1, e.2.filter fun t => t.ck / 16 ≠ fn)
    cores := s.cores.map fun (e : Nat × Core) => (e.1, { e.2 with tlb := e.2.tlb.filter fun t => t.ck / 16 ≠ fn }) }

/-- The steps of R59 for one function; the registers of Advanced Error Reporting are sticky. DEDUCED (log 38). PRESUMED
(log 49). -/
def State.resetFn (s : State) (fn : Nat) : State :=
  let s := s.clearFn fn
  let f := s.fn fn
  let fresh : Fn :=
    { enabled := f.enabled
      quota := f.quota
      aer := f.aer, aerMask := f.aerMask, aerSev := f.aerSev, aerCor := f.aerCor, aerCorMask := f.aerCorMask
      aerFirst := f.aerFirst, aerLog := f.aerLog
      priv := loadCode (if fn = 0 then s.rootCode else s.fnCode)
      running := s.bstate = 5
      entry := if fn = 0 then s.rootEntry else s.fnEntry }
  { s with
    fns := s.fns.put fn fresh
    ctxs := s.ctxs.map fun (e : Nat × Ctx) => if e.1 / 16 = fn then (e.1, e.2.reset) else e
    queues := s.queues.filter fun e => e.1 / 1024 ≠ fn }

/-- The dispatcher register block at its reset values; SLEW:STEP resets to STEPMAX (23 R483), and FENCE 0 releases a fenced die into
reset (22 R468). DEDUCED (log 38). -/
def State.resetDispatcher (s : State) : State :=
  { s with
    dage := []
    pgrace := 0xAFC8
    octets := []
    octetsUsed := []
    slices := []
    sliceNow := none
    sliceClock := 0
    ageing := []
    cores := s.cores.map fun (e : Nat × Core) => (e.1, { e.2 with llctl := 0x80010010, llLast := 0, cap := 32 })
    clusters := (List.range 16).map fun k => (k, { s.cluster k with pass := 0, swal := 0, step := s.lock.stepmax })
    dies := s.dies.map fun (e : Nat × Die) => (e.1, { e.2 with
      dop := 0
      stage := if e.2.stage = .fenced then .inReset else e.2.stage }) }

/-- FUNCTION_LEVEL_RESET: of a virtual function, or of the physical function with every virtual one, which it disables. One that
arrives while a lease reset runs is absorbed. -/
def execFunctionLevelReset (fn : Nat) (s : State) : Answer :=
  .next (
    if s.bstate < 3 || 16 < fn then s
    else if fn ≠ 0 then s.resetFn fn
    else
      let s := (List.range 17).foldl (fun s f => s.resetFn f) s
      let s := (List.range 16).foldl (fun s i => s.modFn (i + 1) fun f => { f with enabled := false }) s
      s.resetDispatcher)

end Sys2Proof.Machine
end

