-- ==== Sys2Proof/Machine/Dies.lean ====
section
/-! DEFINITION. Resetting, fencing and dropping a compute die, and fatal errors (01_machine R29 to R32; 15 R365; 22_package R468
to R470). -/

namespace Sys2Proof.Machine

/-! ## What a die's loss does (R29, R31, R365; 22 R469) -/

/-- A grid is affected by the loss of a logical die: a team of it is resident there, or the die's dispatcher holds an unstarted or
saved one (R31). -/
def State.gridOnDie (s : State) (k : Nat) (g : Grid) (d : Nat) : Bool :=
  (s.teams.any fun e => e.2.grid = k && e.2.cores.any fun c => dieOf c = d) || g.held.any (fun h => h.1 = d) ||
    s.savedTeams.any fun e => e.2.team.grid = k && e.2.team.d = d

/-- A job names the scratchpads of its own die: its source, destination, index list, barrier or ring (R31). DEDUCED
(log 40). The ring that a card names where CR is 0, to which only a record of a failure goes, does not count. DESIGN CHOICE
(log 65). -/
def Card.namesPads (c : Card) : Bool :=
  c.ssp = 1 || c.ssp = 2 || c.dsp = 1 || c.dsp = 2 || c.kind = 4 || c.kind = 5 || c.sb || c.cr

/-- Cancels a job: its record, with status 0x0B, goes to the event ring (R31). -/
def State.cancelJob (s : State) (k : Nat) (j : Job) : State :=
  let r := recordBytes 1 0x0B 0 (jobId j.core j.cardOff) (s.ctx j.ck).ctime (j.done * (Card.of j.card).e) 0
  { s.redirect j.ck r j.rid 0 0 with
    jobs := s.jobs.del k
    heldRecords := s.heldRecords.filter fun e => e.2.job ≠ some k }

/-- A submitted job may still be inside its die: it has delivered nothing and has taken no step. -/
def Job.inside (j : Job) : Bool := j.done = 0 && j.stage = 0 && j.status.isNone && !j.waiting

/-- Submitted jobs of the die's cores: one whose submission is still inside the die is lost, and whether it is so is a free value
(R29); an accepted one that names the die's scratchpads is cancelled, and every other one goes on (R31). DEDUCED (log 40). -/
def State.loseJobs (s : State) (d : Nat) : State :=
  (s.jobs.filter fun e => dieOf e.2.core = d && !e.2.recorded).foldl (fun s e =>
    let (i, s) := s.freeIdx
    if e.2.inside && Config.freeNat i % 2 = 1 then { s with jobs := s.jobs.del e.1 }
    else if (Card.of e.2.card).namesPads then s.cancelJob e.1 e.2
    else s) s

/-- Where a write leaves its die for: a home slice, or a share's chip scratchpad. -/
def Flight.exit (f : Flight) : Nat := if f.space = .xs then 128 + f.loc / 2 ^ 24 else f.slice

/-- A write of a core has left its die: the writes of a core to one destination leave in their order (22 R462), up to a free
number. DEDUCED (log 40). -/
def Flight.left (f : Flight) (i id : Nat) : Bool :=
  f.writes && f.place ≠ .pad && id < Config.freeNat (2 ^ 64 * (i + 1) + 256 * f.core + f.exit)

/-- Accesses in flight of a die's cores. A store or atomic to memory or the chip scratchpad that has left the die is carried out,
and the others are lost (R29); a release is not carried out where a write before it is lost (14 R337). DEDUCED (log 40). A copy
job that goes on while an earlier store of its group is lost reads the bytes that stand there without it. DESIGN CHOICE
(log 66). -/
def State.loseFlights (s : State) (d : Nat) : State :=
  let (i, s) := s.freeIdx
  let out (e : Nat × Flight) : Bool :=
    e.2.left i e.1 && (!e.2.heldRelease || s.flights.all fun x =>
      !(x.1 < e.1 && x.2.core = e.2.core && x.2.writes && x.2.place ≠ .pad) || x.2.left i x.1)
  { s with flights := s.flights.filter fun e => dieOf e.2.core ≠ d || out e }

/-- The grid slots of grids with a thread on the die are broken; one whose members all lie within the die ends with its grid
and is never marked (15 R365). -/
def State.breakSlots (s : State) (d : Nat) : State :=
  let stands (k : Nat) (p : Nat → Bool) : Bool := s.teams.any fun t => t.2.grid = k && t.2.cores.any fun c => p (dieOf c)
  (s.grids.filter fun e => stands e.1 (· = d) && stands e.1 (· ≠ d)).foldl (fun s e =>
    match e.2.gslot with
    | some (u, n) => s.breakSlot u n d
    | none => s) s

/-- A core after the loss of its die: the serial counter (13 R315), the top-down counters (18 R422) and LLCTL stay.
DEDUCED (log 40). -/
def Core.lost (c : Core) : Core := { serial := c.serial, leaves := c.leaves, llctl := c.llctl, llctlUsed := c.llctl }

/-- Destroys what a die's 128 cores hold (R29). DEDUCED (log 40). -/
def State.wipeDie (s : State) (d : Nat) : State :=
  let lo := 128 * d
  let pad := 2 ^ 19 * lo
  { s with
    cores := s.cores.map fun (e : Nat × Core) => if dieOf e.1 = d then (e.1, e.2.lost) else e
    scratch := s.scratch.dropRange pad (pad + 2 ^ 26)
    scratchPoison := s.scratchPoison.filter fun w => !(pad / 4 ≤ w && w < (pad + 2 ^ 26) / 4)
    acc := s.acc.dropRange (16 * lo * 4096) (16 * (lo + 128) * 4096)
    accPoison := s.accPoison.filter fun t => !(16 * lo ≤ t && t < 16 * (lo + 128))
    weights := s.weights.dropRange (16 * lo * 4096) (16 * (lo + 128) * 4096)
    scales := s.scales.dropRange (32 * lo) (32 * (lo + 128))
    icache := s.icache.filter fun l => l.pair / 64 ≠ d
    walks := s.walks.filter fun e => dieOf e.2.core ≠ d
    agenda := s.agenda.filter fun
      | .issue c _ => dieOf c ≠ d
      | _ => true }

/-- The accepted jobs of aborted grids go on as they stood before (`old`): their entries in the footprint tables, their held
records, and, on another die than the lost one, the scratch runs of their teams (R31). DEDUCED (log 40). -/
def State.keepJobs (s old : State) (d : Nat) : State :=
  let gone := old.jobs.filter fun e => (s.jobs.get? e.1).isNone
  let s := gone.foldl (fun s e => match (old.core e.2.core).foots.get? e.2.foot with
    | some f => s.modCore e.2.core fun c => { c with foots := c.foots.put e.2.foot f }
    | none => s) s
  let runs := gone.foldl (fun m e => match old.teams.get? e.2.team with
    | some t =>
      if dieOf e.2.core = d then m
      else m.put e.2.team { cores := t.cores, b := t.b, granules := ((old.gridOf t).map (·.pkt.granules)).getD 0
                            scratch := ((old.gridOf t).map (·.pkt.scratch)).getD 0 }
    | none => m) s.remains
  { s with
    jobs := old.jobs
    remains := runs
    heldRecords := (old.heldRecords.filter fun e => e.2.job.any fun j => gone.any fun x => x.1 = j).foldl
      (fun m e => m.put e.1 e.2) s.heldRecords }

/-- Steps 1 to 3 of 22 R469 for a physical die; one that holds no logical number touches no work, and neither does one that has
been lost before and has not run since. The accepted jobs of the grids that it aborts go on (R31); a grid whose last teams had
finished before retires (18 R420). DEDUCED (log 40). -/
def State.loseDie (s : State) (p : Nat) : State :=
  let d := (s.die p).log
  if 8 ≤ d || (s.die p).stage ≠ .running then s
  else
    let hit := (s.grids.filter fun e => s.gridOnDie e.1 e.2 d).map (·.1)
    let t := (hit.foldl (fun s k => s.abortGrid false none k) (s.breakSlots d)).keepJobs s d
    { ((t.loseJobs d).loseFlights d).wipeDie d with cur := none }

/-! ## DIECTL (22 R468, R469) -/

/-- Heat has fenced the die in this clock: that takes precedence over any firmware write of the clock (23 R486). -/
def State.heatFenced (s : State) (p : Nat) : Bool := (s.die p).heatAt = some s.clock

/-- The base accepts no more cells from the ports of a physical die: what they hold is lost (22 R469 step 1). -/
def State.losePorts (s : State) (p : Nat) : State := { s with links := s.links.dropRange (12 + 16 * p) (28 + 16 * p) }

/-- Writes a die's record (22 R468). -/
def State.setDie (s : State) (p : Nat) (x : DieStage) : State := s.modDie p fun d => { d with stage := x }

/-- DIE_FENCE_RELEASE: a fenced die goes into reset, unless heat has fenced it in this clock. DEDUCED (log 40). -/
def execDieFenceRelease (p : Nat) (s : State) : Answer :=
  .next (if (s.die p).stage = .fenced && !s.heatFenced p then s.setDie p .inReset else s)

/-- DIE_RESET; a fenced die is released into reset once, and a dropped one is not affected. DEDUCED (log 40). -/
def execDieReset (p : Nat) (s : State) : Answer :=
  .next (if s.heatFenced p then s
    else match (s.die p).stage with
    | .dropped => s
    | .fenced => s.setDie p .inReset
    | _ => ((s.loseDie p).losePorts p).setDie p .inReset)

/-- DIE_FENCE. -/
def execDieFence (p : Nat) (s : State) : Answer :=
  .next (match (s.die p).stage with
    | .dropped | .fenced => s
    | _ => ((s.loseDie p).losePorts p).setDie p .fenced)

/-- DIE_DROP. -/
def execDieDrop (p : Nat) (s : State) : Answer :=
  .next (if s.heatFenced p then s
    else match (s.die p).stage with
    | .dropped => s
    | .fenced => s.setDie p .dropped
    | _ => ((s.loseDie p).losePorts p).setDie p .dropped)

/-- A fatal error within a die fences it, with an event record of KIND 0x18 to the root firmware core (22 R469); its TIME is the
clock of context 0 of function 0. DESIGN CHOICE (log 57). -/
def State.fenceFatal (s : State) (p : Nat) : State :=
  match (s.die p).stage with
  | .dropped | .fenced => s
  | _ =>
    let l := (s.die p).log
    (((s.loseDie p).losePorts p).setDie p .fenced).event 0 0x18 0 0 0 p (if l < 8 then l else 0xF)

/-- DIE_FATAL_ERROR. -/
def execDieFatalError (p : Nat) (s : State) : Answer := .next (s.fenceFatal p)

/-- DIE_SELF_TEST_END: the die runs again under its former logical number, or is fenced (22 R469). -/
def execDieSelfTestEnd (p : Nat) (pass : Bool) (s : State) : Answer :=
  .next (if (s.die p).stage = .inReset then s.setDie p (if pass then .running else .fenced) else s)

/-- BASE_FATAL_ERROR: every context stops until a cold or lease reset (R32). -/
def execBaseFatalError (s : State) : Answer := .next { s with baseDead := true }

end Sys2Proof.Machine
end

