-- ==== Sys2Proof/Machine/Power.lean ====
section
/-! DEFINITION. Power, current, heat and leaks (23_platform R482 to R488). -/

namespace Sys2Proof.Machine

/-! ## Effective throttling (R483, R488) -/

/-- Bits set in a swallow pattern. -/
def bitCount (m : BitVec 16) : Nat := ((List.range 16).filter fun i => bitOf m i).length

/-- Patterns that swallow 12 of 16 pulses; which one a leak applies is a free value. DESIGN CHOICE (log 4). DESIGN
CHOICE (log 42). -/
def leakBits : BitVec 16 :=
  let ms := ((List.range 65536).map (BitVec.ofNat 16)).filter fun m => bitCount m = 12
  ms.getD (Config.freeNat 0 % 1820) 0xFFF

/-- The effective swallow pattern: SWAL with the controller's bits. DESIGN CHOICE (log 42). -/
def State.pattern (s : State) (k : Nat) : BitVec 16 :=
  let c := s.cluster k
  c.swal ||| c.capBits ||| c.hotBits ||| (if s.leak then leakBits else 0)

/-- PSTAT (R483). -/
def State.pstat (s : State) (k : Nat) : Word :=
  let c := s.cluster k
  BitVec.ofNat 32 ((s.pattern k).toNat + (if c.thermal || s.leak then 2 ^ 16 else 0) + if c.current then 2 ^ 17 else 0)

/-- The pulse of a cluster that a master clock stands for is swallowed (06 R148). -/
def State.swallowed (s : State) (k : Nat) : Bool :=
  bitOf (s.pattern k) (s.clock % 16) || s.dies.any fun d => d.2.log = k / 2 && d.2.relock

/-- The pulse is swallowed for an issue slot: by the pattern that its run began with, as a change takes effect at the run's
boundary (R483; 06 R147), else by that of its cluster. DESIGN CHOICE (log 42). -/
def State.slotSwallowed (s : State) (core slot : Nat) : Bool :=
  match (s.slotRun core slot).bind (·.pat) with
  | some m => bitOf m (s.clock % 16) || s.dies.any fun d => d.2.log = dieOf core && d.2.relock
  | none => s.swallowed (clusterOf core)

/-- The pulse is no clock for a core: it is swallowed for both its slots. -/
def State.coreSwallowed (s : State) (core : Nat) : Bool := s.slotSwallowed core 0 && s.slotSwallowed core 1

/-! ## Registers (R483, R484) -/

/-- DOP_WRITE: a change of operating point stops the die's cores while its clock relocks. -/
def execDopWrite (p : Nat) (v : Word) (s : State) : Answer :=
  .next (if (s.die p).dop = v.toNat % 8 then s
    else s.modDie p fun d => { d with dop := v.toNat % 8, relock := true })

/-- CLOCK_RELOCK_COMPLETE. -/
def execClockRelockComplete (p : Nat) (s : State) : Answer := .next (s.modDie p fun d => { d with relock := false })

/-- PASS_WRITE: the reserved code is discarded. -/
def execPassWrite (k : Nat) (v : Word) (s : State) : Answer :=
  .next (if v.toNat % 4 = 3 then s else s.modCluster k fun c => { c with pass := v.toNat % 4 })

/-- SWAL_WRITE: a pattern with more than 12 bits is discarded. -/
def execSwalWrite (k : Nat) (v : Word) (s : State) : Answer :=
  .next (
    let m : BitVec 16 := BitVec.ofNat 16 v.toNat
    if 12 < bitCount m then s else s.modCluster k fun c => { c with swal := m })

/-- SLEW_WRITE: 0 or a value above STEPMAX is stored as STEPMAX when there is one. -/
def execSlewWrite (k : Nat) (v : Word) (s : State) : Answer :=
  .next (
    let m := s.lock.stepmax
    let n := v.toNat % 256
    s.modCluster k fun c => { c with step := if m ≠ 0 && (n = 0 || m < n) then m else n })

/-! ## The controller (R485, R486, R488) -/

/-- POWER_CAP_CONTROL: the controller sets a cluster's pass count and swallow bits for current; it raises the pass count before
it adds swallow bits (R485). DESIGN CHOICE (log 42). -/
def execPowerCapControl (k pass : Nat) (bits : BitVec 16) (s : State) : Answer :=
  .next (if (pass = 1 && bits = 0) || pass = 2 || pass = 4 then
      s.modCluster k fun c => { c with capPass := pass, capBits := bits, current := pass ≠ 1 || bits ≠ 0 }
    else s)

/-- Heat throttling of the two clusters of a logical die: by how much is a free value. DESIGN CHOICE (log 4). DESIGN
CHOICE (log 42). -/
def State.heat (s : State) (d : Nat) (on : Bool) : State :=
  let (i, s) := s.freeIdx
  let pass := if Config.freeNat i % 2 = 0 then 2 else 4
  let bits : BitVec 16 := BitVec.ofNat 16 (Config.freeWord i).toNat ||| 1
  [2 * d, 2 * d + 1].foldl (fun s k => s.modCluster k fun c =>
    if on then (if c.thermal then c else { c with hotPass := pass, hotBits := bits, thermal := true })
    else { c with hotPass := 1, hotBits := 0, thermal := false }) s

/-- THERMAL_THRESHOLD: a die's sensor reads a temperature; at 105 °C the die is fenced. DESIGN CHOICE (log 42). -/
def execThermalThreshold (p temp : Nat) (s : State) : Answer :=
  .next (
    let s := s.modDie p fun d => { d with temp := temp }
    let limit := min s.lock.tcap 100
    let d := (s.die p).log
    if 105 ≤ temp then (s.modDie p fun d => { d with heatAt := some s.clock }).fenceFatal p
    else if 8 ≤ d then s
    else if limit ≤ temp then s.heat d true
    else if temp + 5 < limit then s.heat d false
    else s)

/-- LEAK_DETECTED. -/
def execLeakDetected (s : State) : Answer := .next { s with leak := true }
/-- LEAK_CLEARED. -/
def execLeakCleared (s : State) : Answer := .next { s with leak := false }
/-- MAIN_EN_HIGH. -/
def execMainEnHigh (s : State) : Answer := .next { s with mainEn := true }

end Sys2Proof.Machine
end

