-- ==== Sys2Proof/Machine/Boot.lean ====
section
/-! DEFINITION. Cold and lease resets, the boot stage, signed records and SMBus (23_platform R474 to R482, R487, R488). -/

namespace Sys2Proof.Machine

/-! ## Resets (R474, R477, R487) -/

/-- What outlives every reset: what has been sent, the model's own counters, the sensors and the pins. -/
def State.outside (s : State) : State :=
  { sent := s.sent, freeCount := s.freeCount, nextId := s.nextId, leak := s.leak, mainEn := s.mainEn, mainOk := s.mainOk
    dies := s.dies.map fun (e : Nat × Die) => (e.1, { temp := e.2.temp }) }

/-- COLD_RESET: the boot stage starts anew, and BOOTID is drawn. -/
def State.coldReset (s : State) : State :=
  let (i, s) := s.freeIdx
  { s.outside with
    fns := State.reset.fns
    bootId := Config.bootId i }

/-- COLD_RESET (23 R474). -/
def execColdReset (s : State) : Answer := .next s.coldReset

/-- Inputs that a lease reset leaves to arrive in the same clock: the resets and what the platform drives from outside (23
R477: a cold reset wins over a lease reset that runs). -/
def Turn.outlives : Turn → Bool
  | .input .coldReset | .input .leaseNAssert | .input .smbusLeaseReset | .input .railsInRegulation | .input .mainInputDropout
  | .input .mainEnHigh | .input .leakDetected | .input .leakCleared | .input (.thermalThreshold ..)
  | .input (.registerWrite .bar2 0x014 _) => true
  | _ => false

/-- A lease reset: work in flight, queues and copy jobs are discarded without a record or signal, and the boot stage starts. While
one runs, its scrub restarts. Memory is scrubbed at the end of the scrub (R478). DEDUCED (log 43). -/
def State.leaseReset (s : State) : State :=
  { s.outside with
    fns := State.reset.fns
    bstate := if s.bstate = 2 then 2 else 1
    agenda := s.agenda.filter (·.outlives)
    lcount := s.lcount + 1
    bootId := s.bootId
    nonce := s.nonce
    record := s.record
    unitMap := s.unitMap
    pendingLimits := s.pendingLimits
    dies := if s.bstate = 2 then s.dies else s.outside.dies
    mem := s.mem
    memPoison := s.memPoison
    chip := s.chip
    chipPoison := s.chipPoison
    scratch := s.scratch
    scratchPoison := s.scratchPoison
    acc := s.acc
    accPoison := s.accPoison
    weights := s.weights
    scales := s.scales }

/-- LEASE_N_ASSERT. -/
def execLeaseNAssert (s : State) : Answer := .next s.leaseReset
/-- BCTL_LRST. -/
def execBctlLrst (s : State) : Answer := .next s.leaseReset
/-- SMBUS_LEASE_RESET. -/
def execSmbusLeaseReset (s : State) : Answer := .next s.leaseReset

/-- RAILS_IN_REGULATION: MAIN_OK rises and the boot stage starts: a cold reset (R487). DEDUCED (log 43). -/
def execRailsInRegulation (s : State) : Answer := .next { s.coldReset with mainOk := true }

/-- MAIN_INPUT_DROPOUT: the compute-die rails drop and MAIN_OK goes low; what the dies held and all work in flight is
lost. DEDUCED (log 43). -/
def execMainInputDropout (s : State) : Answer :=
  .next { s with
    mainOk := false
    dies := s.dies.map fun (e : Nat × Die) => (e.1, { e.2 with log := 15 })
    cores := [], groups := [], teams := [], savedTeams := [], grids := [], flights := [], walks := [], jobs := []
    heldRecords := [], residencies := [], watches := [], barSlots := [], tokens := [], icache := []
    scratch := [], scratchPoison := [], acc := [], accPoison := [], weights := [], scales := []
    queues := [], ctxs := [], agenda := [], cur := none }

/-! ## The boot stage (R474, R476 to R481) -/

/-- Logical numbers for the present physical dies, 0 upward in physical order (22 R470). -/
def numberDies (absent : List Nat) : List (Nat × Nat) :=
  let here := (List.range 8).filter fun p => !absent.contains p
  (List.range here.length).map fun d => (here.getD d 0, d)

/-- BOOT_SELF_TEST_COMPLETE: the unit map is measured and the dies are numbered. -/
def execBootSelfTestComplete (map : UnitMap) (s : State) : Answer :=
  .next (if s.bstate ≠ 1 || !s.mainOk then s
    else
      let s := { s with unitMap := map, bstate := 2 }
      let s := map.narrowed.foldl (fun s e => s.modLink e.1 fun p => { p with lanes := trainedLanes (min p.lanes e.2) }) s
      (numberDies map.absentDies).foldl (fun s e => s.modDie e.1 fun d => { d with log := e.2 }) s)

/-- Bytes of a number, most significant first. -/
def bytesBE (n k : Nat) : List Byte := (bytesOf n k).reverse

/-- A signed record (R479). DESIGN CHOICE (log 7). -/
def State.signedRecord (s : State) (kind : Nat) (hash : BitVec 512) (result : Nat) : List Byte :=
  let map := Config.unitMapBytes s.unitMap.absentCores s.unitMap.absentDies s.unitMap.absentPages s.unitMap.narrowed
  let body := bytesOf 0x44524356 4 ++ bytesOf kind 2 ++ bytesOf (if Config.formIsModule then 2 else 1) 2 ++ bytesOf s.lcount.toNat 8
    ++ bytesOf s.bootId.toNat 16 ++ ((List.range 32).map fun i => s.nonce.read 0 i) ++ bytesBE hash.toNat 64
    ++ bytesBE (sha512 map).toNat 64 ++ bytesOf result 4 ++ bytesOf Config.romVersion.toNat 4 ++ List.replicate 8 0
  body ++ signatureOf body ++ List.replicate 12 0

/-- The bytes of RECORD; zero before the first record. -/
def State.recordNow (s : State) : List Byte := if s.record.isEmpty then List.replicate 352 0 else s.record

/-- The device identity record IDENT: the form code, and from byte 4 the identity public key in SEC 1 uncompressed form
(00_scope R1, R8; R475). -/
def identity : List Byte :=
  bytesOf (if Config.formIsModule then 2 else 1) 4 ++ 0x04 :: bytesBE identityPoint.1 66 ++ bytesBE identityPoint.2 66

/-- SCRUB_COMPLETE: every storage element is zero, without poison, and every register of the firmware blocks at its reset value; a
record of KIND 0x0001 is signed, and the pending limits are locked. DEDUCED (log 43). -/
def execScrubComplete (s : State) : Answer :=
  .next (if s.bstate ≠ 2 then s
    else
      let s := { s.outside with
        fns := State.reset.fns
        clock := s.clock
        closing := s.closing
        agenda := s.agenda
        clusters := s.clusters.map fun (e : Nat × Cluster) => (e.1, { e.2 with pass := 0, swal := 0, step := 0 })
        dies := s.dies
        lcount := s.lcount
        bootId := s.bootId
        nonce := s.nonce
        unitMap := s.unitMap
        links := s.links
        pendingLimits := s.pendingLimits }
      let s := { s with record := s.signedRecord 1 0 0, lock := s.pendingLimits, bstate := 3 }
      if s.lock.stepmax = 0 then s
      else (List.range 16).foldl (fun s k => s.modCluster k fun c => { c with step := s.lock.stepmax }) s)

/-- BCTL_GO: the image is read and measured. -/
def execBctlGo (s : State) : Answer := .next (if s.bstate = 3 then { s with bstate := 4 } else s)

/-- Header fields of an image (R476). -/
structure Image where
  rootOff : Nat
  rootSz : Nat
  fnOff : Nat
  fnSz : Nat
  rootEnt : Nat
  fnEnt : Nat
deriving DecidableEq, Repr

/-- The header of an image (23 R476). -/
def Image.of (b : List Byte) : Image :=
  let f (i : Nat) : Nat := ofBytes ((b.drop i).take 4)
  { rootOff := f 8, rootSz := f 12, fnOff := f 16, fnSz := f 20, rootEnt := f 24, fnEnt := f 28 }

/-- The check of an image's header: ERR, 0 for a pass. A reserved field that is not zero is rejected with the format
(00 R4). DEDUCED (log 43). -/
def imageErr (b : List Byte) : Nat :=
  let m := Image.of b
  if ofBytes (b.take 4) ≠ 0x4D524946 || ofBytes ((b.drop 4).take 2) ≠ 1 then 1
  else if ofBytes ((b.drop 6).take 2) ≠ 0 || ofBytes ((b.drop 32).take 32) ≠ 0 then 1
  else if 2 ^ 23 < m.rootSz || 2 ^ 22 < m.fnSz || b.length < m.rootOff + m.rootSz || b.length < m.fnOff + m.fnSz
      || m.rootSz ≤ m.rootEnt || m.fnSz ≤ m.fnEnt then 2
  else 0

/-- Ends step 0x4: the record of KIND 0x0002 is signed, whether the image passed or failed (R480). DESIGN CHOICE (log
7). -/
def State.measured (s : State) (err : Nat) : State :=
  let s := { s with berr := err, bstate := if err = 0 then 5 else 0xF }
  { s with record := s.signedRecord 2 s.imgHash err }

/-- Loads the code and starts the firmware cores (R474, R476). -/
def State.startFirmware (s : State) (b : List Byte) : State :=
  let m := Image.of b
  let s := { s with
    rootCode := (b.drop m.rootOff).take m.rootSz
    fnCode := (b.drop m.fnOff).take m.fnSz
    rootEntry := m.rootEnt
    fnEntry := m.fnEnt }
  (List.range 17).foldl (fun s f => s.modFn f fun x => { x with
    priv := loadCode (if f = 0 then s.rootCode else s.fnCode)
    running := true
    entry := if f = 0 then s.rootEntry else s.fnEntry }) s

/-- IMAGE_MEASURED: the read of BLEN bytes has ended, or failed; what was read is hashed before anything is checked. DEDUCED
(log 43). -/
def execImageMeasured (image : Option (List Byte)) (s : State) : Answer :=
  .next (if s.bstate ≠ 4 then s
    else
      let bad := s.blen.toNat < 64 || 2 ^ 24 < s.blen.toNat
      match image.filter fun b => b.length = s.blen.toNat with
      | none => s.measured (if bad then 2 else 3)
      | some b =>
        let s := { s with imgHash := sha512 b }
        let e := if bad then 2 else imageErr b
        (if e = 0 then s.startFirmware b else s).measured e)

/-! ## SMBus (R482) -/

/-- Limits as 8 bytes. -/
def Limits.bytes (l : Limits) : List Byte :=
  bytesOf l.pcap 2 ++ bytesOf l.icap 2 ++ bytesOf l.stepmax 1 ++ bytesOf l.linkmax 1 ++ bytesOf l.tcap 1 ++ [0]

/-- Limits from 8 bytes, none where a value is out of its range. DEDUCED (log 43). -/
def Limits.ofBytes? (b : List Byte) : Option Limits :=
  let f (i n : Nat) : Nat := ofBytes ((b.drop i).take n)
  let l : Limits := { pcap := f 0 2, icap := f 2 2, stepmax := f 4 1, linkmax := f 5 1, tcap := f 6 1 }
  if b.length = 8 && l.pcap ≤ 2400 && l.linkmax ≤ 2 && l.tcap ≤ 100 then some l else none

/-- SMBUS_WRITE_LIMITS. -/
def execSmbusWriteLimits (bytes : List Byte) (s : State) : Answer :=
  .next (match Limits.ofBytes? bytes with
    | some l => { s with pendingLimits := l }
    | none => s)

/-- SMBUS_READ_RECORD. -/
def execSmbusReadRecord (s : State) : Answer := .next (s.send (.smbus s.recordNow))

/-- SMBUS_READ_LIMITS: the locked limits, then the pending ones. -/
def execSmbusReadLimits (s : State) : Answer := .next (s.send (.smbus (s.lock.bytes ++ s.pendingLimits.bytes)))

/-- The coolant bytes of the module form (R488). -/
def coolantBytes (leak : Bool) (inlet outlet : Nat) : List Byte :=
  let i := signedOf 16 inlet
  let o := signedOf 16 outlet
  bytesOf inlet 2 ++ bytesOf outlet 2 ++
    [BitVec.ofNat 8 ((if leak then 1 else 0) + (if 450 < i then 2 else 0) + if 180 < o - i then 4 else 0)] ++ List.replicate 3 0

/-- SMBUS_READ_COOLANT: the sensors' readings are free values; the package form returns zeros. -/
def execSmbusReadCoolant (s : State) : Answer :=
  .next (
    let (i, s) := s.freeIdx
    let w := (Config.coolant i).toNat
    s.send (.smbus (if Config.formIsModule then coolantBytes s.leak (w % 2 ^ 16) (w / 2 ^ 16) else List.replicate 8 0)))

end Sys2Proof.Machine
end

