-- ==== Sys2Proof/Machine/Links.lean ====
section
/-! DEFINITION. Cells, links and the accesses of peers (22_package R459 to R466). -/

namespace Sys2Proof.Machine

/-! ## Cells (R462) -/

/-- CELL_RECEIVE. -/
def execCellReceive (port : Nat) (cell : List Byte) (s : State) : Answer :=
  .next ((s.modLink port fun p =>
    if !p.up then p
    else if cellGood cell && (CellHead.of cell).seq = p.rxSeq + 1 then p.accept cell
    else p.discard).strain port)

/-- CELL_NAK_RECEIVE. -/
def execCellNakReceive (port : Nat) (aseq : BitVec 12) (s : State) : Answer := .next ((s.modLink port (·.resend aseq)).strain port)

/-! ## Lanes, links and ports (R461, R463, R464) -/

/-- LINK_RETRAIN: on 8, 4 or 2 lanes; with fewer than 2 working lanes the link is down. DEDUCED (log 41). -/
def execLinkRetrain (link lanes : Nat) (s : State) : Answer :=
  .next (if lanes < 2 then s.linkDown link
    else s.modLink link fun p => { p with lanes := trainedLanes lanes, naks := 0 })

/-- The lanes of a port that self-test found to work (22 R472). -/
def State.workingLanes (s : State) (port : Nat) : Nat :=
  ((s.unitMap.narrowed.find? fun e => e.1 = port).map (·.2)).getD 8

/-- DIE_PORT_DOWN: the die's other ports carry its traffic, the cells not acknowledged first. -/
def execDiePortDown (p port : Nat) (s : State) : Answer :=
  .next ((s.linkDown (12 + 16 * p + port % 16)).modDie p fun d => { d with downPorts := addTo d.downPorts port })

/-- LINK_TRAINING: once STATE has reached 0x3 (23 R477), unless the locked limits disable links (23 R482), on the lanes that
self-test found to work (R472). DEDUCED (log 41). -/
def execLinkTraining (link lanes : Nat) (s : State) : Answer :=
  .next (
    let n := min lanes (s.workingLanes link)
    if n < 2 || s.bstate < 3 || (link < 12 && s.lock.linkmax = 0) then s
    else s.modLink link fun _ => { up := true, lanes := trainedLanes n, credits := trainedCredits })

/-! ## Accesses of peers (R465, R466) -/

/-- Context PCTX of function PFUN holds an enabled entry that names the peer. -/
def State.peerAllowed (s : State) (ck peer : Nat) : Bool :=
  (List.range 4).any fun i =>
    let e := (s.ctx ck).lmap.read 0 i
    bitOf e 63 && lmapPeer e = peer

/-- The cause that stands in a reply for poisoned data (R459: POI). DESIGN CHOICE (log 17). -/
def poisonCause : Nat := 0xFF

/-- The lanes of an atomic one after another: the old values that they receive, and what stands at the end (15 R369). -/
def remoteAtomic (r : RemoteReq) (old : Nat) : List Nat × Nat × Bool :=
  r.ops.foldl (fun (a : List Nat × Nat × Bool) o =>
    match atomNew r.op r.ecl (8 * r.size) a.2.1 o.1 o.2 with
    | some new => (a.1 ++ [a.2.1], new, true)
    | none => (a.1 ++ [a.2.1], a.2)) ([], old, false)

/-- A peer's request is answered: the reply and its cells. -/
def State.replyTo (s : State) (peer : Nat) (r : RemoteReq) (cause : Nat) (data : List Byte) : State :=
  (s.send (.remoteReply peer cause data)).linkSend peer (r.va.toNat / 128) (replyCells r data (cause = poisonCause))

/-- A peer's write has been performed: its core's count goes on (14 R352). -/
def State.peerWrote (s : State) (peer core : Nat) : State :=
  { s with peerDone := s.peerDone.put (256 * core + peer) (s.peerDone.read 0 (256 * core + peer) + 1) }

/-- A peer's request, checked, translated through the named context and performed at its home; a fault returns with its cause,
and a payload that came poisoned is stored so (R466, R471). DESIGN CHOICE (log 17). -/
def State.peerAccess (s : State) (peer : Nat) (r : RemoteReq) : State :=
  let ck := 16 * r.fn + r.ctx
  let s := if r.kind = 0 then s else s.peerWrote peer r.core
  if !s.peerAllowed ck peer then s.replyTo peer r 6 []
  else match s.xlat ck r.va.toNat (if r.kind = 0 then .read else if r.kind = 1 then .write else .both) with
    | (s, .remote _) => s.replyTo peer r 6 []
    | (s, .fault _ cause) => s.replyTo peer r cause []
    | (s, .poison) => s.replyTo peer r poisonCause []
    | (s, .ok pa leaf) =>
      let s := s.l2Touch (pa / 128) (homeSlice pa leaf) (insertV 0) ck none (r.kind ≠ 0)
      if r.kind = 1 then
        let s := s.write .mem (placeList pa r.data)
        (if r.poi && !r.data.isEmpty then s.poisonRange .mem pa r.data.length else s).replyTo peer r 0 []
      else if s.poisoned .mem pa r.size then s.replyTo peer r poisonCause []
      else if r.kind = 0 then s.replyTo peer r 0 (s.bytes .mem pa r.size)
      else
        let x := remoteAtomic r (s.load .mem pa r.size)
        (if x.2.2 then s.write .mem (place pa r.size x.2.1) else s).replyTo peer r 0 (x.1.flatMap fun v => bytesOf v r.size)

/-- The writes before a peer's release have been performed (14 R352). -/
def State.peerReady (s : State) (peer : Nat) (r : RemoteReq) : Bool :=
  r.marker.all fun m => m ≤ s.peerDone.read 0 (256 * r.core + peer)

/-- Performs the releases held that have become ready, in order. -/
def State.drainPeers (s : State) : Nat → State
  | 0 => s
  | n + 1 =>
    match s.peerHeld.find? fun e => s.peerReady e.1 e.2 with
    | some e => (({ s with peerHeld := s.peerHeld.erase e } : State).peerAccess e.1 e.2).drainPeers n
    | none => s

/-- REMOTE_ACCESS_RECEIVE: nothing is answered before STATE has reached 0x3 (23 R477); a release waits for the writes that its
marker counts. DESIGN CHOICE (log 17). -/
def execRemoteAccessReceive (peer : Nat) (r : RemoteReq) (s : State) : Answer :=
  .next (
    if s.bstate < 3 then s
    else if !s.peerReady peer r then { s with peerHeld := s.peerHeld ++ [(peer, r)] }
    else (s.peerAccess peer r).drainPeers s.peerHeld.length)

end Sys2Proof.Machine
end

