-- ==== Sys2Proof/Machine/Registers.lean ====
section
/-! DEFINITION. A write to any register of the register spaces (00_scope R8; 03_launching R56, R57, R60, R69 to R73; 04 R84, R85; 06
R144; 10 R231, R249; 14 R348; 17 R408; 18 R426, R429, R431; 22 R465, R468; 23 R475, R483): the register at the offset takes the
value under its own rule; a reserved offset discards it. -/

namespace Sys2Proof.Machine

/-- The state that a meaning gives. -/
def nextOr (s : State) (a : Answer) : State :=
  match a with
  | .next s => s
  | _ => s

/-- Chooses the value of the first condition that holds. -/
def firstThat (s : State) : List (Bool × (Unit → State)) → State
  | [] => s
  | (true, f) :: _ => f ()
  | (false, _) :: r => firstThat s r

/-- A write to a queue block (R60). -/
def State.queueReg (s : State) (qk o : Nat) (v : DWord) : State :=
  let w : Word := v.setWidth 32
  match o with
  | 0x00 => s.modQueue qk fun q => if q.en then q else { q with base := v &&& 0x01FFFFFFFFFFFFFF#64 }
  | 0x08 => s.modQueue qk (·.control (w.toNat % 32) (bitOf w 7))
  | 0x0C => nextOr s (execQtailWrite qk w s)
  | 0x14 =>
    let s := if bitOf w 0 then nextOr s (execQstatFltClear qk s) else s
    let s := if bitOf w 1 then nextOr s (execQstatOvrClear qk s) else s
    if bitOf w 2 then s.modQueue qk fun q => { q with unc := false } else s
  | _ => s

/-- A write to BAR0 of a function (R56, R57). MBUF takes 32 bits at a word offset. DEDUCED (log 39). -/
def State.bar0Reg (s : State) (fn off : Nat) (v : DWord) : State :=
  if !(s.fn fn).enabled then s
  else if 0x20000 ≤ off then s
  else if 0x10000 ≤ off then
    s.queueReg (64 * (16 * fn + (off - 0x10000) / 0x1000) + off % 0x1000 / 64) (off % 64) v
  else if off = 0x008 then nextOr s (execMbinWrite fn (v.setWidth 32) s)
  else if off = 0x00C then s.modFn fn fun f => { f with mbout := f.mbout && !bitOf v 0 }
  else if 0x100 ≤ off && off < 0x180 && off % 8 = 0 then
    s.modFn fn fun f => { f with hwin := f.hwin.write 0 ((off - 0x100) / 8) (v &&& 0x01FFFFFFF0000000#64) }
  else if 0x400 ≤ off && off < 0x1000 && off % 4 = 0 then
    s.modFn fn fun f => { f with mbuf := (place (off - 0x400) 4 v.toNat).foldl (fun m e => m.write 0 e.1 e.2) f.mbuf }
  else s

/-- A write to BAR2 (23 R475). DEDUCED (log 39). -/
def State.bar2Reg (s : State) (off : Nat) (v : DWord) : State :=
  if off = 0x008 && s.bstate = 3 then { s with bimg := v }
  else if off = 0x010 && s.bstate = 3 then { s with blen := v.setWidth 32 }
  else if off = 0x014 then
    if bitOf v 1 then s.leaseReset else if bitOf v 0 then nextOr s (execBctlGo s) else s
  else if 0x020 ≤ off && off < 0x040 && off % 8 = 0 then
    { s with nonce := (place (off - 0x020) 8 v.toNat).foldl (fun m e => m.write 0 e.1 e.2) s.nonce }
  else s

/-- A write to a context table entry (R72). DEDUCED (log 39). -/
def State.ctxReg (s : State) (ck o : Nat) (v : DWord) : State :=
  match o with
  | 0x00 => s.modCtx ck fun c => { c with ptbase := v }
  | 0x08 => s.modCtx ck fun c => { c with notify := v }
  | 0x10 => s.modCtx ck fun c => { c with save := v }
  | 0x18 => if bitOf v 0 then s.modCtx ck fun c => { c with en := true } else if (s.ctx ck).en then s.disableCtx ck else s
  | _ => s

/-- A write to the event ring registers (R70). -/
def State.ringReg (s : State) (fn o : Nat) (w : Word) : State :=
  match o with
  | 0x200 => s.modFn fn fun f => if f.eren then f else { f with erbase := w &&& 0xFFFFFFE0#32 }
  | 0x204 => s.modFn fn (·.ringControl (w.toNat % 32) (bitOf w 31))
  | 0x20C => s.modFn fn fun f => { f with err := w }
  | 0x210 => nextOr s (execErstatWrite fn s)
  | _ => s

/-- A write to CHALT: DUMP reads 1 until the dump that the write asks for has had its turn, which comes next (18 R431). -/
def State.chaltReg (s : State) (ck : Nat) (w : Word) : State :=
  let s := if bitOf w 0 then nextOr s (execChaltHalt ck s) else nextOr s (execChaltRelease ck s)
  if !bitOf w 2 then s
  else { s.modCtx ck fun c => { c with dump := true } with agenda := .event (.contextDump ck) :: s.agenda }

/-- A write to the function register block of a firmware core (R69). DEDUCED (log 39). -/
def State.fnReg (s : State) (fn off : Nat) (v : DWord) : State :=
  let w : Word := v.setWidth 32
  let ck (base stride : Nat) : Nat := 16 * fn + (off - base) / stride
  let inside (base n : Nat) : Bool := base ≤ off && off < base + n
  firstThat s
    [(inside 0 0x200, fun _ => s.ctxReg (ck 0 32) (off % 32) v),
     (inside 0x200 0x14, fun _ => s.ringReg fn off w),
     (inside 0x400 0x200 && off % 4 = 0, fun _ => nextOr s (execXsGrantWrite (ck 0x400 32) (off % 32 / 4) w s)),
     (inside 0x800 0x100 && off % 16 = 0, fun _ =>
       s.modCtx (ck 0x800 16) fun c => if c.shooting then c else { c with sdaddr := v.toNat / 2 ^ 16 % 2 ^ 41 }),
     (inside 0x800 0x100 && off % 16 = 8, fun _ => nextOr s (execShootDownStart (ck 0x800 16) w s)),
     (inside 0x900 0x40 && off % 4 = 0, fun _ => nextOr s (execOvchkWrite (ck 0x900 4) w s)),
     (inside 0xA00 0x200 && off % 8 = 0, fun _ =>
       s.modCtx (ck 0xA00 32) fun c => { c with bkpt := c.bkpt.write 0 (off % 32 / 8) (v &&& 0xE0003FFFFFFFFFFF#64) }),
     (inside 0xC00 0x40 && off % 4 = 0, fun _ => s.chaltReg (ck 0xC00 4) w),
     (inside 0xC40 0x100 && off % 16 = 0, fun _ =>
       s.modCtx (ck 0xC40 16) fun c => { c with trcbase := v &&& 0x01FFFFFFFFFFFFFF#64 }),
     (inside 0xC40 0x100 && off % 16 = 8, fun _ => s.modCtx (ck 0xC40 16) fun c => { c with trcctl := w &&& 0x80001FFF#32 }),
     (inside 0xE00 0x200 && off % 8 = 0, fun _ => nextOr s (execLmapWrite (ck 0xE00 32) (off % 32 / 8) v s)),
     (inside 0x1000 0x400, fun _ => s.modFn fn fun f => { f with qvec := f.qvec.write 0 (off - 0x1000) (v.setWidth 8) })]

/-- A write to DIECTL (22 R468): DROP over FENCE over RST; FENCE 0 releases a fenced die. -/
def State.diectl (s : State) (p : Nat) (w : Word) : State :=
  if bitOf w 2 then nextOr s (execDieDrop p s)
  else if bitOf w 1 then nextOr s (execDieFence p s)
  else if bitOf w 0 then nextOr s (execDieReset p s)
  else nextOr s (execDieFenceRelease p s)

/-- A write to the dispatcher register block (R69). -/
def State.dispatcherReg (s : State) (off : Nat) (v : DWord) : State :=
  let w : Word := v.setWidth 32
  let inside (base n : Nat) : Bool := base ≤ off && off < base + n && off % 4 = 0
  firstThat s
    [(inside 0 0x20, fun _ => { s with dage := s.dage.write 0x186A0 (off / 4) w }),
     (inside 0x40 4, fun _ => { s with pgrace := w }),
     (inside 0x80 0x20, fun _ => s.diectl ((off - 0x80) / 4) w),
     (inside 0x100 0x200, fun _ => { s with octets := s.octets.write 0x8001FFFF ((off - 0x100) / 4) (w &&& 0x800FFFFF#32) }),
     (inside 0x300 0x100 && off % 16 = 0, fun _ => nextOr s (execPassWrite ((off - 0x300) / 16) w s)),
     (inside 0x300 0x100 && off % 16 = 4, fun _ => nextOr s (execSwalWrite ((off - 0x300) / 16) w s)),
     (inside 0x300 0x100 && off % 16 = 8, fun _ => nextOr s (execSlewWrite ((off - 0x300) / 16) w s)),
     (inside 0x400 0x20, fun _ => nextOr s (execDopWrite ((off - 0x400) / 4) w s)),
     (inside 0x500 0x80, fun _ => { s with slices := s.slices.write 0 ((off - 0x500) / 4) (w &&& 0x801FFFFF#32) }),
     (inside 0x1000 0x2000 && off % 8 = 0, fun _ => s.modCore ((off - 0x1000) / 8) fun c => { c with llctl := w &&& 0x800FFFFF#32 })]

/-- A write to the MSI-X table of a function: the address and the data of a vector's message, and the vector control that masks
it (00_scope R8; 03 R71). PRESUMED (log 49). -/
def State.msixReg (s : State) (fn off : Nat) (v : DWord) : State :=
  let n := off / 16
  let w : Word := v.setWidth 32
  if 64 ≤ n then s
  else match off % 16 with
    | 0 => s.modFn fn fun f => { f with vecAddr := f.vecAddr.write 0 n (v &&& 0xFFFFFFFFFFFFFFFC#64) }
    | 8 => s.modFn fn fun f => { f with vecData := f.vecData.write 0 n w }
    | 12 => (s.modFn fn fun f => { f with
        vecMask := if bitOf w 0 then f.vecMask ||| 1#64 <<< n else f.vecMask &&& ~~~(1#64 <<< n) }).sendPending fn
    | _ => s

/-- A write to the PCI Express capabilities of a function: the message control of MSI-X, and Advanced Error Reporting with its
statuses, masks and severity (00_scope R8; 03 R71, R489). While STATE is below 0x3 the physical function answers with a retry
status (23 R474). PRESUMED (log 49). -/
def State.configReg (s : State) (fn off : Nat) (w : Word) : State :=
  if s.retried fn then s.send (.retryStatus fn)
  else match off with
  | 0 => (s.modFn fn fun f => { f with msixEn := bitOf w 15, msixMask := bitOf w 14 }).sendPending fn
  | 0x04 => s.modFn fn fun f => { f with aer := f.aer &&& ~~~w }
  | 0x08 => s.modFn fn fun f => { f with aerMask := w }
  | 0x0C => s.modFn fn fun f => { f with aerSev := w }
  | 0x10 => s.modFn fn fun f => { f with aerCor := f.aerCor &&& ~~~w }
  | 0x14 => s.modFn fn fun f => { f with aerCorMask := w }
  | _ => s

/-- REGISTER_WRITE. DESIGN CHOICE (log 45). -/
def execRegisterWrite (space : RegSpace) (off : Nat) (v : DWord) (s : State) : Answer :=
  .next (match space with
    | .bar0 fn => s.bar0Reg fn off v
    | .bar2 => s.bar2Reg off v
    | .fnBlock fn => s.fnReg fn off v
    | .dispatcher => s.dispatcherReg off v
    | .msix fn => s.msixReg fn off v
    | .config fn => s.configReg fn off (v.setWidth 32))

end Sys2Proof.Machine
end

