-- ==== Sys2Proof/Machine/Clock.lean ====
section
/-! DEFINITION. What the device does by the clock: arbitration of the issue slots (06_issue R137, R142, R147), the windows of
the load cap and of the slew limit (06 R143 to R145; 12 R308), and the top-down counters (18_retiring R421, R422). -/

namespace Sys2Proof

/-- A matrix or residency instruction: OP of class 0b10. -/
def Raw.matrixWord (r : Raw) : Bool := r.u = 2 && (r.op.toNat ≤ 0x0A || (0x20 ≤ r.op.toNat && r.op.toNat < 0x40))

/-- A pair form of `mma` or `mmt`. -/
def Raw.pairForm (r : Raw) : Bool := r.u = 2 && r.op.toNat ∈ [1, 2, 4, 5]

/-- An `ld` or `ld.nr` in `.gl`. -/
def Raw.globalLoad (r : Raw) : Bool := (r.key = 0x180 || r.key = 0x181) && r.f.toNat / 8 = 0

end Sys2Proof

namespace Sys2Proof.Machine

/-! ## Arbitration (06 R142) -/

/-- A group holds an issue slot of its core. -/
def State.holdsSlot (s : State) (gk : Nat) : Bool :=
  let c := s.core (coreOf gk)
  (c.run0.map (·.gk)) = some gk || (c.run1.map (·.gk)) = some gk

/-- The group is ready (06 R137). -/
def State.ready (s : State) (gk : Nat) : Bool := !s.holdsSlot gk && s.mayIssue gk && (s.choose gk).2 ≠ .nothing

/-- The oldest of a list of groups. -/
def State.oldest (s : State) (gks : List Nat) : Option Nat :=
  gks.foldl (fun m k => match m with
    | some b => if older (s.ageKey k) (s.ageKey b) then some k else some b
    | none => some k) none

/-- Groups on a core. -/
def State.groupsOn (s : State) (core : Nat) : List Nat := (s.groups.filter fun e => coreOf e.1 = core).map (·.1)

/-- The group that a free slot chooses: the one whose run just ended on it if it is ready, else the oldest ready group. -/
def State.chosen (s : State) (core slot : Nat) : Option Nat :=
  let c := s.core core
  match if slot = 0 then c.last0 else c.last1 with
  | some p => if s.ready p then some p else s.oldest ((s.groupsOn core).filter s.ready)
  | none => s.oldest ((s.groupsOn core).filter s.ready)

/-- SLOT_ARBITRATION: at a run's boundary, where a change of the pass count takes effect (06 R147). Whether the instruction's
own description holds the group that it chooses is found by the probe that follows (06 R137). -/
def execSlotArbitration (core slot : Nat) (s : State) : Answer :=
  .next (
    if (s.slotRun core slot).isSome then s
    else
      let g := s.chosen core slot
      let s := s.modCore core fun c => if slot = 0 then { c with last0 := none } else { c with last1 := none }
      match g with
      | none => s.slotDid core slot 0 none
      | some gk =>
        (s.slotDid core slot 2 (some gk)).setRun core slot (some { gk := gk, n := 0, p := s.passes (clusterOf core), pat := some (s.pattern (clusterOf core)) }))

/-! ## Windows -/

/-- LLCTL fields (06 R144). -/
def llThi (w : Word) : Nat := w.toNat / 2 ^ 10 % 2 ^ 10
/-- LLCTL:TLO (06 R144). -/
def llTlo (w : Word) : Nat := w.toNat % 2 ^ 10

/-- The cap after a window (06 R145). -/
def nextCap (ctl : Word) (count cap : Nat) : Nat :=
  if !bitOf ctl 31 then 32 else if llThi ctl < count then max 2 (cap / 2) else if count < llTlo ctl then min 32 (2 * cap) else cap

/-- LL_WINDOW_END. -/
def execLlWindowEnd (core : Nat) (s : State) : Answer :=
  .next (s.modCore core fun c =>
    if c.llClock < 1024 then c
    else { c with cap := nextCap c.llctlUsed c.llCount c.cap, llLast := c.llCount, llCount := 0, llClock := 0, llctlUsed := c.llctl })

/-- SLEW_WINDOW_END (12 R308). -/
def execSlewWindowEnd (core : Nat) (s : State) : Answer :=
  .next (s.modCore core fun c =>
    if c.slewClock < 64 then c else { c with slewPrev := c.slewNow, slewNow := 0, slewClock := 0 })

/-! ## Top-down counters (18 R421) -/

/-- Where the group's oldest access in flight is served. DESIGN CHOICE (log 44). -/
def State.servedLeaf (s : State) (gk : Nat) : Option Nat :=
  if s.walks.any fun w => w.2.result.isNone && w.2.gks.contains gk then some 6
  else (s.flights.find? fun e => e.2.gk = gk).map fun e =>
    let f := e.2
    match f.space with
    | .ks => 7
    | .xs => 4
    | .sp | .ln => 3
    | .gl =>
      if (s.core f.core).l1.any fun l => l.line = f.loc / 128 then 3
      else if s.l2.any fun w => w.2.line = f.loc / 128 then 4 else 5

/-- The group with those pending registers alone that a matrix operation or a residency instruction will write. -/
def State.engineOwed (s : State) (gk : Nat) : Group :=
  let g := s.group gk
  let ops := s.cores.flatMap fun c => (c.2.mq.filter fun o => o.gk = gk).flatMap fun o => match o.kind with
    | .row _ ty _ ds => ds.map fun e => (e.2.1, e.2.2, if ty = .f32 then 2 else 1)
    | _ => []
  let fills := s.cores.flatMap fun c => (c.2.fills.filter fun f => f.2.gk = gk).map (·.2)
  let scal := (g.replies.flatMap fun x => (List.range x.n).map (x.d + ·)) ++ fills.filterMap (·.d)
  let preds := (g.replies.flatMap fun x => x.lanes.map fun t => (t, 96 + x.pf)) ++
    fills.flatMap fun f => f.lanes.map fun t => (t, 96 + f.pf)
  let owed (t e : Nat) : Bool := preds.contains (t, e) || ops.any fun o => o.1 = t && (stackEntries o.2.1 o.2.2).contains e
  { g with
    spend := g.spend.filter scal.contains
    lanes := g.lanes.map fun (l : Nat × Thread) => (l.1, { l.2 with pend := l.2.pend.filter (owed l.2.tid) }) }

/-- The group waits on a matrix result, a queue, a binding, `mwait` or a residency status: it names a register that such
an operation will write, or is itself an operation that nothing else holds. -/
def State.waitsMatrix (s : State) (gk : Nat) (h : Bool) (ls : List Nat) (w : InsnWord) : Bool :=
  (s.engineOwed gk).wordPending h ls w ||
  (ls.any fun l => match (s.thread gk l).wait with | .mwait _ => true | _ => false) ||
  ((Raw.ofWord w).matrixWord && !(s.group gk).wordPending h ls w && !(ls.any fun l => (s.thread gk l).onAccess))

/-- `reason(g)`. DESIGN CHOICE (log 44). -/
def State.reason (s : State) (gk : Nat) : Nat :=
  let g := s.group gk
  let h := !g.handlerLanes.isEmpty
  match g.pick h with
  | none => 8
  | some (m, ls) =>
    let waits (p : LaneWait → Bool) : Bool := ls.any fun l => p (s.thread gk l).wait
    match s.fetchWord gk m with
    | .absent => 1
    | .failed .. => 8
    | .word w =>
      let r := Raw.ofWord w
      if r.globalLoad && !s.withinCap gk then 0xF
      else if r.u = 2 && r.op.toNat ≤ 5 && (s.slewHolds (coreOf gk) || (r.pairForm && s.slewHolds (coreOf gk + 1))) then 0xE
      else if s.waitsMatrix gk h ls w then 9
      else if waits (fun x => match x with | .regroup => true | _ => false) then 0xA
      else if waits (fun x => x.savePoint || match x with | .tlbinv .. => true | _ => false) then 0xB
      else (s.servedLeaf gk).getD 8

/-- `classify` of R421 at the end of the master clock: the leaf that an issue slot is charged to and the group, which is none
for a swallowed pulse without a group; `none` for leaf 0x10. DESIGN CHOICE (log 44). -/
def State.classify (s : State) (core slot : Nat) : Option (Nat × Option Nat) :=
  let c := s.core core
  let did := if slot = 0 then c.did0 else c.did1
  let didg := if slot = 0 then c.didg0 else c.didg1
  let run := (s.slotRun core slot).map (·.gk)
  let waiting := s.oldest ((s.groupsOn core).filter fun k =>
    !s.holdsSlot k && (!(s.group k).handlerLanes.isEmpty || !(s.group k).mainLanes.isEmpty))
  if s.slotSwallowed core slot then some (0xD, run.or waiting)
  else match did, didg, run, waiting with
  | 1, some g, _, _ => some (0, some g)
  | 2, some g, _, _ => some (2, some g)
  | 3, some g, _, _ => some (0xC, some g)
  | _, _, some g, _ => some (8, some g)
  | _, _, none, some g => some (s.reason g, some g)
  | _, _, none, none => none

/-- The team that a charge goes to: of the group that acted, as it stood when it did, else of the group named. -/
def State.chargedTeam (s : State) (core slot : Nat) (gk : Option Nat) : Option Nat :=
  let c := s.core core
  let (did, team) := if slot = 0 then (c.did0, c.didt0) else (c.did1, c.didt1)
  if did = 0 then (gk.bind s.groups.get?).map (·.team) else team.or ((gk.bind s.groups.get?).map (·.team))

/-- Charges one slot to its leaf, on the core and on the team. -/
def State.charge (s : State) (core slot : Nat) : State :=
  match s.classify core slot with
  | none => s
  | some (leaf, gk) =>
    let s := s.modCore core fun c => { c with leaves := c.leaves.put leaf (c.leaves.read 0 leaf + 1) }
    match s.chargedTeam core slot gk with
    | some tk => s.modTeam tk fun t => { t with pc := t.pc.put (64 * core + leaf) (t.pc.read 0 (64 * core + leaf) + 1) }
    | none => s

/-- ISSUE_SLOT_CHARGE: both slots of every core, for the master clock that ends. A core on which nothing stands charges leaf
0x10, which is kept as what the others leave (R422), but for a swallowed pulse. -/
def execIssueSlotCharge (s : State) : Answer :=
  .next (
    let busy := (s.cores.map (·.1) ++ s.groups.map fun e => coreOf e.1).filter fun c =>
      !(s.groupsOn c).isEmpty || (s.core c).did0 ≠ 0 || (s.core c).did1 ≠ 0
    let still := ((List.range 16).filter s.swallowed).flatMap fun k => (List.range 64).map (64 * k + ·)
    let cs := (busy ++ still).dedup
    cs.foldl (fun s c =>
      ((s.charge c 0).charge c 1).modCore c fun k => { k with did0 := 0, did1 := 0, didg0 := none, didg1 := none, didt0 := none, didt1 := none }) s)

/-- A top-down counter as the root firmware core reads it (R424). DESIGN CHOICE (log 44). -/
def State.leafCount (s : State) (core code : Nat) : Nat :=
  let c := s.core core
  if code = 0x10 then 2 * s.clock - c.leaves.foldl (fun n e => n + e.2) 0 else c.leaves.read 0 code

end Sys2Proof.Machine
end

