-- ==== Sys2Proof/Machine/Errors.lean ====
section
/-! DEFINITION. Uncorrectable errors (22_package R471): what one of them poisons, or makes absent (10_memory R256, R491; 12_matrix
R309; 13_residency R334; 16_regroup R387; 11_memory_ops R271). When and where they occur is a free value. -/

namespace Sys2Proof.Machine

/-- One member of a list, by a free number. -/
def pickFrom {α : Type} (l : List α) (n : Nat) : Option α := l[n % l.length]?

/-- A stack entry or predicate of a thread arrives or stands poisoned; `n` names one of the 96 entries or of `p1` to `p7` (R387). -/
def Thread.spoil (t : Thread) (n origin : Nat) : Thread :=
  let e := n % 103
  { t with poison := t.poison.put (if e < 96 then e else e + 1) origin }

/-- An error in the register storage of a group (R471; 16 R387): origin 4. -/
def State.spoilRegister (s : State) (n : Nat → Nat) : State :=
  match pickFrom s.groups (n 0) with
  | none => s
  | some (gk, g) =>
    match pickFrom g.lanes (n 1) with
    | none => s.modGroup gk fun g => { g with spoison := g.spoison.put (n 2 % 384) 4 }
    | some (l, _) =>
      if n 3 % 2 = 0 then s.modGroup gk fun g => { g with spoison := g.spoison.put (n 2 % 384) 4 }
      else s.modThread gk l fun t => t.spoil (n 2) 4

/-- An error on the relocation path, in a thread of a moving rendezvous or a queued continuation (16 R387, R388): origin 1. -/
def State.spoilMove (s : State) (n : Nat → Nat) : State :=
  match pickFrom s.teams (n 0) with
  | none => s
  | some (tk, t) =>
    match pickFrom (t.rdvs.filter (·.moving)) (n 1), n 2 % 2 with
    | some r, 0 =>
      match pickFrom r.arrived (n 3) with
      | none => s
      | some k =>
        let gk := 32 * r.core + k
        match pickFrom (s.group gk).lanes (n 4) with
        | some (l, _) => s.modThread gk l fun t => t.spoil (n 5) 1
        | none => s
    | _, _ =>
      s.modTeam tk fun t => { t with
        conts := ((List.range t.conts.length).zip t.conts).map fun e =>
          if e.1 = n 3 % t.conts.length then { e.2 with th := e.2.th.spoil (n 5) 1 } else e.2 }

/-- A parity error in a weight slot, found by the next operation of a core's queue: its residency becomes absent (13 R334). -/
def State.spoilWeights (s : State) (n : Nat → Nat) : State :=
  match (pickFrom s.cores (n 0)).bind fun c => c.2.nextOp with
  | none => s
  | some o => { s with residencies := s.residencies.modify o.res fun r => { r with present := false } }

/-- A parity error in a copy engine's reorder buffer: the job ends with status 0x08 at its next element (11 R271). -/
def State.spoilJob (s : State) (n : Nat → Nat) : State :=
  match pickFrom s.jobs (n 0) with
  | none => s
  | some (k, j) =>
    let c := Card.of j.card
    if c.kind = 7 || j.status.isSome || j.recorded || !s.jobReady j || c.total ≤ j.done then s
    else match s.jobElem j.core c j.done with
      | .error _ => s
      | .ok (a, _) =>
        let j' : Job := { j with status := some 8, detail := BitVec.ofNat 64 a }
        { s with jobs := s.jobs.put k j' }.modCore j.core (·.footRead j.foot)

/-- Whether an uncorrectable error occurs, and which. DESIGN CHOICE (log 46). -/
def State.upset (s : State) : State :=
  let (i, s) := s.freeIdx
  let n (k : Nat) : Nat := Config.freeNat (2 ^ 64 * (i + 1) + k)
  match Config.freeNat i % 16 with
  | 1 => { s with memPoison := addTo s.memPoison (n 0 % 2 ^ 32) }
  | 2 => { s with chipPoison := addTo s.chipPoison (n 0 % 2 ^ 20) }
  | 3 => { s with scratchPoison := addTo s.scratchPoison (2 ^ 17 * (n 0 % 1024) + n 1 % 98304) }
  | 4 => { s with accPoison := addTo s.accPoison (n 0 % 16384) }
  | 5 => s.spoilRegister n
  | 6 => s.spoilMove n
  | 7 => s.spoilWeights n
  | 8 => s.spoilJob n
  | _ => s

end Sys2Proof.Machine
end

