-- ==== Sys2Proof/Machine/System.lean ====
section
/-! DEFINITION. Traps by instruction, special registers, halting and debug (17_interrupts R401 to R409; 18_retiring R425,
R427; 05_encoding R116, R117). -/

namespace Sys2Proof.Machine

/-! ## Traps (17 R402, R403; 18 R427) -/

/-- `trap`: class 21 with the code in byte 0. -/
def execTrap (f : Op3) (s : State) : Answer :=
  withIssuer s fun k s => laneMode f.h (fun _ _ _ => .trap 21 (detailOf (bytesOf f.imm.toNat 1))) k s

/-- `bkpt`: class 19 with the counter, 0x01 and the code. -/
def execBkpt (f : Op3) (s : State) : Answer :=
  withIssuer s fun k s =>
    laneMode f.h (fun _ _ t =>
      .trap 19 (detailOf (bytesOf t.lpc.toNat 4 ++ bytesOf 1 1 ++ bytesOf f.imm.toNat 1))) k s

/-- Lanes join DMASK, with the `.skip` mark. -/
def Group.trapReturn (g : Group) (m : Word) (skip : Bool) : Group :=
  { g with
    joins := g.joins.map fun e =>
      match e with
      | .trap c p d q => .trap c p (d ||| m) q
      | e => e
    skips := if skip then g.skips ||| m else g.skips }

/-- `tret` (17 R403). -/
def execTret (f : Op3) (s : State) : Answer :=
  withIssuer s fun k s =>
    let g := s.group k.gk
    let cs := guarded g f.h k
    let depth := g.joins.length
    let fail (cause : Nat) : List Trap := cs.map fun l => ⟨l, 10, detailOf (bytesOf cause 4 ++ bytesOf depth 4)⟩
    let s := s.advanceOthers k cs
    if !k.handler then s.finish k (fail 9)
    else match g.joins with
      | .join .. :: _ => s.finish k (fail 10)
      | _ => ((s.leaveWindows k.gk cs).modGroup k.gk (·.trapReturn (maskOf cs) (bitOf f.imm 0))).finish k []

/-! ## Special registers (05 R116) -/

/-- Team coordinates of a linear index (02 R44). -/
def teamX (p : Packet) (i : Nat) : Nat := i % p.gridx
/-- The y index of a team (02 R44). -/
def teamY (p : Packet) (i : Nat) : Nat := i / p.gridx % p.gridy
/-- The z index of a team (02 R44). -/
def teamZ (p : Packet) (i : Nat) : Nat := i / p.gridx / p.gridy

/-- The value of a special register in a lane. -/
def State.special (s : State) (gk l idx : Nat) : Nat :=
  let g := s.group gk
  let t := s.thread gk l
  let ck := s.ckOf g
  let core := coreOf gk
  match s.teamOf g, (s.teamOf g).bind s.gridOf with
  | some tm, some gr =>
    let p := gr.pkt
    match idx with
    | 0x000 => t.tid
    | 0x001 => l
    | 0x002 => g.gid.toNat
    | 0x003 => teamX p tm.idx
    | 0x004 => teamY p tm.idx
    | 0x005 => teamZ p tm.idx
    | 0x006 => p.gridx
    | 0x007 => p.gridy
    | 0x008 => p.gridz
    | 0x009 => p.teamx
    | 0x00A => p.teamy
    | 0x00B => p.teamz
    | 0x00C => tm.idx % 2 ^ 32
    | 0x00D => core
    | 0x00E => clusterOf core
    | 0x00F => dieOf core
    | 0x010 => (s.ctx ck).ctime.toNat
    | 0x011 => p.code.toNat
    | 0x012 => g.tbase.toNat
    | 0x013 => g.spillb.toNat
    | 0x014 => g.spilll.toNat
    | 0x015 => g.joins.length
    | 0x016 => g.rgkey.toNat
    | 0x017 => g.rgtmo.toNat
    | 0x018 => s.passesOf gk
    | 0x019 => (s.ctx ck).thrstat.toNat
    | 0x01A => t.fpstat.toNat
    | 0x01B => g.fpen.toNat
    | 0x01C => gr.depth
    | 0x01D => ck
    | 0x01E => if privilegedCk ck then 1 else 0
    | 0x01F => tm.idx / 2 ^ 32 % 2 ^ 32
    | 0x020 | 0x021 | 0x022 | 0x023 => (g.tdet.read 0 l).toNat / 2 ^ (32 * (idx - 0x020)) % 2 ^ 32
    | 0x024 => t.lpc.toNat
    | _ => 0
  | _, _ => 0

/-- Registers that a special register occupies. -/
def specialRegs (idx : Nat) : Nat := ((srInfo idx).map (·.1)).getD 1

/-- The index of a special operand. -/
def specialIdx : Operand → Nat
  | .special i => i
  | _ => 0

/-- `mrs` (17 R404): a scalar D takes the value of the lowest guarded lane. -/
def execMrs (f : Op3) (s : State) : Answer :=
  withIssuer s fun k s =>
    let idx := specialIdx f.a
    let n := specialRegs idx
    match f.d with
    | .scal _ =>
      let cs := guarded (s.group k.gk) f.h k
      let s := match cs with
        | l :: _ => s.modGroup k.gk fun g => g.write n f.d (s.special k.gk l idx)
        | [] => s
      (s.modGroup k.gk (·.advanceActive k)).finish k []
    | _ => laneMode f.h (fun _ l t => .next (t.write k.handler n f.d (s.special k.gk l idx))) k s

/-- A write of a register held per group (17 R405). -/
def Group.setSpecial (g : Group) (idx v : Nat) : Group :=
  match idx with
  | 0x012 => { g with tbase := BitVec.ofNat 32 v }
  | 0x013 => { g with spillb := BitVec.ofNat 64 v }
  | 0x014 => { g with spilll := BitVec.ofNat 64 v }
  | 0x017 => { g with rgtmo := BitVec.ofNat 32 v }
  | 0x01B => { g with fpen := BitVec.ofNat 32 v &&& 0x3F }
  | _ => g

/-- The value that a lane writes: an immediate is zero-extended. -/
def msrValue (g : Group) (k : Cursor) (f : Op3) (n l : Nat) : Nat :=
  match f.a with
  | .imm v => v.toNat
  | a => laneVal g ((g.lanes.get? l).getD {}) k.handler .b64 n a

/-- `msr` (17 R405): per-thread registers by lane, W1C of the context by the union, the rest by the highest guarded lane; a new
value of those governs the traps of the next instruction on. -/
def execMsr (f : Op3) (s : State) : Answer :=
  withIssuer s fun k s =>
    let g := s.group k.gk
    let idx := specialIdx f.d
    let n := specialRegs idx
    let cs := guarded g f.h k
    let val (l : Nat) : Nat := msrValue g k f n l
    let s :=
      if idx = 0x01A then
        cs.foldl (fun s l => s.modThread k.gk l fun t => { t with fpstat := t.fpstat &&& ~~~(BitVec.ofNat 32 (val l)) }) s
      else if idx = 0x019 then
        let m : Word := cs.foldl (fun m l => m ||| BitVec.ofNat 32 (val l)) 0
        s.clearThr (s.ckOf g) m
      else s
    let s := (s.modGroup k.gk (·.advanceActive k)).finish k []
    match cs.getLast? with
    | some l => s.modGroup k.gk (·.setSpecial idx (val l))
    | none => s

/-! ## Halt and shoot-down (17 R406, R407) -/

/-- `halt`. -/
def execHalt (f : Op3) (s : State) : Answer :=
  withIssuer s fun k s =>
    let g := s.group k.gk
    let ck := s.ckOf g
    groupModeS f.h (fun s =>
      let s := s.modCtx ck fun c => { c with halt := true }
      match s.teamOf g, (s.teamOf g).bind s.gridOf with
      | some t, some gr => s.event ck 0x16 0 0 gr.recId t.idx gr.pkt.corrid.toNat
      | _, _ => s) k s

/-- `tlbinv`: the lanes wait for the shoot-down. DEDUCED (log 19). -/
def execTlbinv (f : Op3) (s : State) : Answer :=
  withIssuer s fun k s =>
    let g := s.group k.gk
    let a := groupVal g .b64 2 f.a
    let b := groupVal g .b32 1 f.b
    if !guardG g f.h k then groupMode f.h id k s
    else
      let (id, s) := s.fresh
      let x : Shoot :=
        { key := id, vpg := a / 2 ^ 16 % 2 ^ 41, npg := b / 2 % 512 + 1, all := b.testBit 0, begun := false
          waitFor := [] }
      let s := (lanesOf k.active).foldl (fun s l =>
        s.modThread k.gk l fun t => { t with wait := .tlbinv id }) s
      (s.shootAsk (s.ckOf g) x).finish k []

/-! ## A save point (17 R409) -/

/-- The ranges that `yieldl` names, none where they do not meet R409's conditions. -/
def State.hintRanges (s : State) (gk : Nat) (b : Operand) : Option (List (Nat × Nat)) :=
  let g := s.group gk
  match b, s.teamOf g, s.pktOf g with
  | .scal _, some t, some p =>
    let v := groupVal g .b64 2 b
    let off := v % 2 ^ 32
    let r := v / 2 ^ 32
    let base := 2 ^ 19 * coreOf gk + off
    if off % 8 ≠ 0 || 4 < r || !inScratch t p off (8 * r) || s.poisoned .pad base (8 * r) then none
    else
      let es := (List.range r).map fun i => (s.load .pad (base + 8 * i) 4, s.load .pad (base + 8 * i + 4) 4)
      if es.all fun e => e.1 % 16 = 0 && e.2 % 16 = 0 && inScratch t p e.1 e.2 then some es else none
  | .zero, _, _ => some []
  | _, _, _ => none

/-- `yieldl`: stops the group for the save while its team has a pending request; otherwise it acts as a `nop`. -/
def execYieldl (f : Op3) (s : State) : Answer :=
  withIssuer s fun k s =>
    let g := s.group k.gk
    let here := ((s.teamOf g).map (·.pending.isSome)).getD false && g.trapEntry.isNone &&
      (List.range 32).all fun l => !g.live l || bitOf k.active l
    groupModeS f.h (fun s =>
      if here then
        let a := groupVal g .b32 1 f.a
        let hint : Option Hint := (s.hintRanges k.gk f.b).map fun rs =>
          { windows := f.imm, tiles := BitVec.ofNat 16 a, preds := BitVec.ofNat 8 (a / 2 ^ 16 % 2 ^ 8 / 2 * 2), ranges := rs }
        (s.modGroup k.gk fun g => { g with stop := some hint }).endRun k.gk
      else s) k s

/-! ## Counters, trace and watchpoints (18 R425, R427) -/

/-- A team's count on a core: a leaf, the leaf total, or an L2 event. -/
def Team.counted (t : Team) (core sel : Nat) : Nat :=
  let at' (c : Nat) : Nat := t.pc.read 0 (64 * core + c)
  if sel = 0x11 then (List.range 17).foldl (fun n c => n + at' c) 0 else at' sel

/-- `pcnt`. -/
def execPcnt (f : Op3) (s : State) : Answer :=
  withIssuer s fun k s =>
    let v := ((s.teamOf (s.group k.gk)).map (·.counted (coreOf k.gk) (f.imm.toNat % 256))).getD 0
    groupMode f.h (fun g => g.write 2 f.d v) k s

/-- `trc`. -/
def execTrc (f : Op3) (s : State) : Answer :=
  withIssuer s fun k s =>
    let g := s.group k.gk
    groupModeS f.h (fun s =>
      s.trace (s.ckOf g) k.gk ((lanesOf k.full).headD 0) k.pc 1 (some (f.imm.toNat % 256)) (some (groupVal g .b32 1 f.a))) k s

/-- `wpt`. -/
def execWpt (f : Op3) (s : State) : Answer :=
  withIssuer s fun k s =>
    laneMode f.h (fun g _ t =>
      let b := laneVal g t k.handler .b32 1 f.b
      .next { t with
        wpAddr := BitVec.ofNat 64 (laneVal g t k.handler .b64 2 f.a)
        wpLen := b % 2 ^ 16
        wpKind := BitVec.ofNat 2 (b / 2 ^ 30) }) k s

end Sys2Proof.Machine
end

