-- ==== Sys2Proof/Machine/Agenda.lean ====
section
/-! DEFINITION. The agents of the device and their turns. The state's agenda lists the turns still to be taken in this clock;
when it is empty the clock passes and the next clock's turns are listed. A step that the manual gives a time ("at the end of
the first clock in which …") is listed in every clock in which it is due; a step whose time the manual leaves open is listed or
not by a free value, so that any of its orders can occur. -/

namespace Sys2Proof.Machine

/-! ## A step of the device -/

/-- The meaning of a step of the device. -/
def State.perform (s : State) : Event → Answer
  | .trapEntryPop gk => Sys2Proof.Machine.execTrapEntryPop gk s
  | .joinCompletion gk => Sys2Proof.Machine.execJoinCompletion gk s
  | .bwaitmRelease gk n => Sys2Proof.Machine.execBwaitmRelease gk n s
  | .continuationGroupForm core => Sys2Proof.Machine.execContinuationGroupForm core s
  | .regroupCompletion team core => Sys2Proof.Machine.execRegroupCompletion team core s
  | .regroupTimeout team core => Sys2Proof.Machine.execRegroupTimeout team core s
  | .relocationEnd team core => Sys2Proof.Machine.execRelocationEnd team core s
  | .slotArbitration core slot => Sys2Proof.Machine.execSlotArbitration core slot s
  | .llWindowEnd core => Sys2Proof.Machine.execLlWindowEnd core s
  | .slewWindowEnd core => Sys2Proof.Machine.execSlewWindowEnd core s
  | .sleepuWake gk => Sys2Proof.Machine.execSleepuWake gk s
  | .sleepuChkWake gk => Sys2Proof.Machine.execSleepuChkWake gk s
  | .loadDataReturn id => Sys2Proof.Machine.execLoadDataReturn id s
  | .storePerform id => Sys2Proof.Machine.execStorePerform id s
  | .atomicPerform id => Sys2Proof.Machine.execAtomicPerform id s
  | .releaseMarkerMet id => Sys2Proof.Machine.execReleaseMarkerMet id s
  | .spillFillComplete id => Sys2Proof.Machine.execSpillFillComplete id s
  | .pageWalkComplete id => Sys2Proof.Machine.execPageWalkComplete id s
  | .transactionCommit gk => Sys2Proof.Machine.execTransactionCommit gk s
  | .transactionTimeout gk lane => Sys2Proof.Machine.execTransactionTimeout gk lane s
  | .tokenGrant d => Sys2Proof.Machine.execTokenGrant d s
  | .copyJobDelivery job n => Sys2Proof.Machine.execCopyJobDelivery job n s
  | .copyJobFinish job => Sys2Proof.Machine.execCopyJobFinish job s
  | .pageMigration job => Sys2Proof.Machine.execPageMigration job s
  | .completionRecordWrite id => Sys2Proof.Machine.execCompletionRecordWrite id s
  | .coreBarrierPhaseComplete core off => Sys2Proof.Machine.execCoreBarrierPhaseComplete core off s
  | .barrierSlotComplete unit slot => Sys2Proof.Machine.execBarrierSlotComplete unit slot s
  | .matrixOpExecute core => Sys2Proof.Machine.execMatrixOpExecute core s
  | .matrixOpRetire core => Sys2Proof.Machine.execMatrixOpRetire core s
  | .residencyRefill core res => Sys2Proof.Machine.execResidencyRefill core res s
  | .rloadFillComplete core fill => Sys2Proof.Machine.execRloadFillComplete core fill s
  | .mwaitComplete gk => Sys2Proof.Machine.execMwaitComplete gk s
  | .packetFetch qk => Sys2Proof.Machine.execPacketFetch qk s
  | .waitConditionCheck grid => Sys2Proof.Machine.execWaitConditionCheck grid s
  | .gridRelease grid => Sys2Proof.Machine.execGridRelease grid s
  | .deviceQueueEnqueue gk => Sys2Proof.Machine.execDeviceQueueEnqueue gk s
  | .teamClaim d grid => Sys2Proof.Machine.execTeamClaim d grid s
  | .teamPlacement d => Sys2Proof.Machine.execTeamPlacement d s
  | .coresidentPlacement grid => Sys2Proof.Machine.execCoresidentPlacement grid s
  | .teamStart team => Sys2Proof.Machine.execTeamStart team s
  | .ageingLimitReached d => Sys2Proof.Machine.execAgeingLimitReached d s
  | .sliceExpiry => Sys2Proof.Machine.execSliceExpiry s
  | .preemptGraceExpiry team => Sys2Proof.Machine.execPreemptGraceExpiry team s
  | .groupSave gk => Sys2Proof.Machine.execGroupSave gk s
  | .teamSave team => Sys2Proof.Machine.execTeamSave team s
  | .teamResume team => Sys2Proof.Machine.execTeamResume team s
  | .teamRetire team => Sys2Proof.Machine.execTeamRetire team s
  | .gridRetire grid => Sys2Proof.Machine.execGridRetire grid s
  | .eventRingDrain fn => Sys2Proof.Machine.execEventRingDrain fn s
  | .shootDownComplete ck => Sys2Proof.Machine.execShootDownComplete ck s
  | .contextStopped ck => Sys2Proof.Machine.execContextStopped ck s
  | .contextDump ck => Sys2Proof.Machine.execChaltDump ck s
  | .instructionFetch gk => Sys2Proof.Machine.execInstructionFetch gk s
  | .issueSlotCharge => Sys2Proof.Machine.execIssueSlotCharge s

/-! ## Steps that are due (their own meanings check them again) -/

/-- An event if a condition holds. -/
def dueIf (c : Bool) (e : Event) : List Event := if c then [e] else []

/-- The step of an access in flight. -/
def Flight.due (f : Flight) (id : Nat) : Event :=
  match f.kind with
  | .load .. | .loadScalar .. | .prefetch _ => .loadDataReturn id
  | .store _ => if f.heldRelease then .releaseMarkerMet id else .storePerform id
  | .atomic .. => if f.heldRelease then .releaseMarkerMet id else .atomicPerform id
  | .spill .. | .fill => .spillFillComplete id

/-- Steps of a copy job; how many elements are delivered at once is a free value. -/
def State.jobDue (s : State) (id : Nat) (j : Job) : List Event :=
  let step : Event :=
    if (Card.of j.card).kind = 7 then .pageMigration id
    else .copyJobDelivery id (1 + (Config.freeByte (2 ^ 64 * (s.freeCount + 1) + id)).toNat)
  [step, .copyJobFinish id]

/-- Steps of a core's matrix queue and block fills. -/
def State.queueDue (s : State) (core : Nat) (c : Core) : List Event :=
  let refill : List Event := match c.nextOp with
    | some o => dueIf (o.res ≠ 0 && s.refillReady core o.res) (.residencyRefill core o.res)
    | none => []
  let fills : List Event := c.fills.map fun f => Event.rloadFillComplete core f.1
  List.flatten [dueIf (!c.mq.isEmpty) (.matrixOpExecute core), dueIf (!c.mq.isEmpty) (.matrixOpRetire core), refill, fills]

/-- Start, save or resume of a team; one that is asked to give its place up before it has started gives it up. -/
def State.teamDue (s : State) (tk : Nat) (t : Team) : List Event :=
  if t.started || t.yielding then dueIf (t.yielding || s.saveReady tk t) (.teamSave tk)
  else if !s.nextToStart tk t then []
  else if (s.savedTeams.get? tk).isSome then [.teamResume tk] else [.teamStart tk]

/-- The lane takes part in a commit. -/
def Thread.committing (t : Thread) : Bool :=
  match t.wait with
  | .commit _ => true
  | _ => false

/-- Steps whose time the manual leaves open; the accesses of one request are performed together. DESIGN CHOICE (log 1). -/
def State.timed (s : State) : List Event :=
  List.flatten
    [(s.flights.filter fun e => (s.mates e.1 e.2).headD 0 = e.1).map fun e => e.2.due e.1,
     (s.walks.filter fun e => e.2.result.isNone).map fun e => Event.pageWalkComplete e.1,
     s.jobs.flatMap fun e => s.jobDue e.1 e.2,
     s.heldRecords.map fun e => Event.completionRecordWrite e.1,
     s.cores.flatMap fun e => s.queueDue e.1 e.2,
     (s.queues.filter fun e => s.fetchable e.1 || e.2.read.isSome).map fun e => Event.packetFetch e.1,
     (s.grids.filter fun e => e.2.condition.isSome).map fun e => Event.waitConditionCheck e.1,
     s.groups.map fun e => Event.instructionFetch e.1,
     s.teams.flatMap fun e => (e.2.rdvs.filter (·.moving)).map fun r => Event.relocationEnd e.1 r.core,
     s.tokens.map fun e => Event.tokenGrant e.1,
     (s.ctxs.filter fun e => !e.2.shoots.isEmpty).map fun e => Event.shootDownComplete e.1,
     (s.fns.filter fun e => !e.2.held.isEmpty).map fun e => Event.eventRingDrain e.1,
     (s.groups.filter fun e => e.2.lanes.any fun l => l.2.committing).map fun e => Event.transactionCommit e.1,
     s.teams.flatMap fun e => s.teamDue e.1 e.2]

/-- A lane's step: the limit of its transaction. -/
def Thread.due (t : Thread) (gk l : Nat) : List Event := dueIf t.tx.act (.transactionTimeout gk l)

/-- Steps of a group. -/
def State.groupDue (s : State) (gk : Nat) (g : Group) : List Event :=
  List.flatten
    [dueIf g.popReady (.trapEntryPop gk), dueIf g.joinReady (.joinCompletion gk),
     ((List.range 4).filter g.maskReady).map fun n => Event.bwaitmRelease gk n,
     dueIf (!(s.slept gk).isEmpty) (.sleepuWake gk), dueIf (!(s.sleptChk gk).isEmpty) (.sleepuChkWake gk),
     dueIf (!(s.mwaitLanes gk).isEmpty) (.mwaitComplete gk), dueIf (!g.launches.isEmpty) (.deviceQueueEnqueue gk),
     dueIf (s.stopsNow gk) (.groupSave gk), g.lanes.flatMap fun l => l.2.due gk l.1]

/-- Steps of Swarm at the end of a clock: the rendezvous of every team (16 R380, R381). -/
def State.swarmDue (s : State) : List Event :=
  s.teams.flatMap fun e => e.2.rdvs.flatMap fun r => [Event.regroupCompletion e.1 r.core, Event.regroupTimeout e.1 r.core]

/-- The continuation groups of a clock, at most one on each core, which come before placement (16 R388). -/
def State.contDue (s : State) : List Event :=
  ((s.teams.flatMap fun e => e.2.conts.map (·.core)).dedup).map Event.continuationGroupForm

/-- Steps of a placed team. -/
def State.teamPrompt (s : State) (tk : Nat) (t : Team) : List Event :=
  dueIf (s.graceOver t) (.preemptGraceExpiry tk) ++ dueIf (s.teamDone tk t) (.teamRetire tk)

/-- Steps of a grid. -/
def State.gridDue (s : State) (k : Nat) (g : Grid) : List Event :=
  List.flatten [dueIf (s.releasable k g) (.gridRelease k), [.gridRetire k]]

/-- Steps of a locality dispatcher: a dispatcher places one team after another until no grid's next team fits (04 R93). -/
def State.dispatcherDue (s : State) (d : Nat) : List Event :=
  if s.dieThere d then [.ageingLimitReached d, .teamPlacement d] else []

/-- The turns of the dispatchers in a clock: each co-resident grid that is not placed is tried once the grids before it have
been (04 R93, R99). -/
def State.placementDue (s : State) : List Event :=
  let cs := s.candidates
  if cs.isEmpty && s.ageing.isEmpty then []
  else
    let all := (List.range 8).flatMap s.dispatcherDue
    all ++ (cs.filter fun e => e.2.pkt.cres).flatMap fun e => .coresidentPlacement e.1 :: all

/-- Steps at the end of every clock in which they are due. DESIGN CHOICE (log 1). -/
def State.prompt (s : State) : List Event :=
  List.flatten
    [s.groups.flatMap fun e => s.groupDue e.1 e.2,
     s.swarmDue,
     s.teams.flatMap fun e => s.teamPrompt e.1 e.2,
     (s.barSlots.filter fun e => s.slotReady e.2).map fun e => Event.barrierSlotComplete (e.1 / 4096) (e.1 % 4096),
     s.grids.flatMap fun e => s.gridDue e.1 e.2,
     dueIf s.sliceDue .sliceExpiry,
     (s.ctxs.filter fun e => e.2.halt && !e.2.stopped && s.quiet e.1).map fun e => Event.contextStopped e.1,
     s.cores.flatMap fun e => List.flatten
       [dueIf (decide (1024 ≤ e.2.llClock)) (.llWindowEnd e.1), dueIf (decide (64 ≤ e.2.slewClock)) (.slewWindowEnd e.1)]]

/-- The turns of the issue slots: a slot with a run issues, and a free one arbitrates; one whose pulse is swallowed does
neither (06 R148). DESIGN CHOICE (log 1). -/
def State.slotTurns (s : State) : List Turn :=
  ((s.groups.map fun e => coreOf e.1).dedup).flatMap fun c =>
    ([0, 1].filter fun n => !s.slotSwallowed c n).flatMap fun n => if (s.slotRun c n).isSome then [.issue c n] else [.event (.slotArbitration c n), .probe c n]

/-- The free choice among timed steps. DESIGN CHOICE (log 1). -/
def pickTimed (i : Nat) (es : List Event) : List Event :=
  (((List.range es.length).zip es).filter fun e => Config.freeNat (2 ^ 64 * (i + 1) + e.1) % 2 = 0).map (·.2)

/-! ## The clock -/

/-- Every context of the function that has a grid is halted: its slice does not run (03 R74). -/
def State.fnHalted (s : State) (f : Nat) : Bool :=
  let cs := s.ctxs.filter fun e => e.1 / 16 = f && e.2.en
  !cs.isEmpty && cs.all fun e => e.2.halt

/-- The released grid waits for its function's slice (17 R416). -/
def State.denied (s : State) (k : Nat) (g : Grid) : Bool :=
  s.claimable k g && !(s.teams.any fun e => e.2.grid = k) && (s.sliceFn.any fun f => f ≠ g.ck / 16)

/-- Length of the slice that runs. -/
def State.sliceLen (s : State) : Nat := ((s.sliceNow.bind s.slice).map (·.2)).getD 0

/-- A grid that is denied has waited as long as the slice that runs is long (17 R416); its wait is then counted anew. -/
def State.waitedOut (s : State) (k : Nat) (g : Grid) : Bool := s.denied k g && decide (s.sliceLen ≤ g.waited + 1)

/-- Timers of a team in one clock: what the manual counts in delivered clocks, and what in context clocks. -/
def Team.tick (t : Team) (halted : Bool) (delivered : Nat → Bool) : Team :=
  { t with
    rdvs := t.rdvs.map fun r => if halted || !delivered r.core then r else { r with timer := r.timer + 1 }
    conts := t.conts.map fun c => if delivered c.core then { c with age := c.age + 1 } else c
    pending := if halted then t.pending else t.pending.map fun p => { p with clocks := p.clocks + 1 } }

/-- One clock passes. A context's clock begins to run when its entry is first written. DESIGN CHOICE (log 3). A fatal error in
the base has stopped every context, and with it every clock of theirs (01 R32). DEDUCED (log 37). DESIGN CHOICE (log 44). -/
def State.tick (s : State) : State :=
  let s := ({ s with clock := s.clock + 1, octetsUsed := s.octets } : State).sweepJobs.sweepRevoked
  if s.baseDead then s
  else
  let delivered (c : Nat) : Bool := !s.coreSwallowed c
  let halted (ck : Nat) : Bool := (s.ctx ck).halt
  let slice := match s.sliceFn with
    | some f => if s.fnHalted f then s.sliceClock else s.sliceClock + 1
    | none => s.sliceClock
  let late := s.grids.filter fun e => !halted e.2.ck && s.waitedOut e.1 e.2
  let slow := (s.teams.filter fun e => e.2.started && e.2.cores.any fun c =>
    s.passes (clusterOf c) ≠ 1 || s.pattern (clusterOf c) ≠ 0).filterMap fun e => (s.gridOf e.2).map (·.ck)
  let s : State := { s with
    sliceClock := slice
    ctxs := s.ctxs.map fun (e : Nat × Ctx) =>
      (e.1, { e.2 with thrNew := 0, thrOld := e.2.thrstat, ovUsed := e.2.ovchk, ctime := if e.2.halt then e.2.ctime else e.2.ctime + 1 })
    groups := s.groups.map fun (e : Nat × Group) => (e.1, { e.2 with blockedMain := false, blockedHandler := false })
    teams := s.teams.map fun (e : Nat × Team) => (e.1, e.2.tick (((s.gridOf e.2).map fun g => halted g.ck).getD false) delivered)
    grids := s.grids.map fun (e : Nat × Grid) =>
      if halted e.2.ck then e
      else (e.1, { e.2 with
        timers := e.2.timers.map fun t => (t.1, t.2 + 1)
        waited := if s.denied e.1 e.2 && !s.waitedOut e.1 e.2 then e.2.waited + 1 else 0 })
    cores := s.cores.map fun (e : Nat × Core) =>
      if delivered e.1 then (e.1, { e.2 with llClock := e.2.llClock + 1, slewClock := e.2.slewClock + 1 }) else e }
  let s := late.foldl (fun s e => s.setThr e.2.ck 1) s
  slow.dedup.foldl (fun s ck => s.setThr ck 2) s

/-- The end of a clock: its issue slots are charged, and the steps that the manual takes at the end of the clock in which
something first holds are listed (04 R90; 11 R287; 18 R418, R421). DESIGN CHOICE (log 1). -/
def State.closeClock (s : State) : State :=
  { s with closing := true, agenda := .event .issueSlotCharge :: if s.baseDead then [] else s.prompt.map .event }

/-- Results on their way to groups arrive, the oldest of a group first; when is a free value (06 R139). DESIGN CHOICE (log 1). -/
def State.bringReplies (s : State) (i : Nat) : State :=
  (s.groups.filter fun e => !e.2.replies.isEmpty && Config.freeNat (2 ^ 64 * (i + 1) + 2 ^ 32 + e.1) % 2 = 0).foldl
    (fun s e => s.nextReply e.1) s

/-- The next clock and its turns: an error may strike and results arrive; return homes, then continuation groups, then the
dispatchers take what was free at its start (04 R90; 16 R388), then come the steps whose time is open, then the issue slots.
DESIGN CHOICE (log 1). DESIGN CHOICE (log 44). -/
def State.openClock (s : State) : State :=
  let s := { s.tick with closing := false }
  if s.baseDead then s
  else
    let (i, s) := s.upset.freeIdx
    let s := (s.bringReplies i).takeAllHomes
    { s with agenda := (s.contDue ++ s.placementDue ++ pickTimed i s.timed).map .event ++ s.slotTurns }

/-- The end of this clock, or the next one. -/
def State.nextClock (s : State) : State := if s.closing then s.openClock else s.closeClock

end Sys2Proof.Machine
end

