-- ==== Sys2Proof/Machine/Arithmetic.lean ====
section
/-! DEFINITION. The shared arithmetic opcodes (09_compute R204): each instruction of class 0b00 and of class 0b01 as the
result it computes over the shape of its operands, and the predicate instructions (R217). -/

namespace Sys2Proof.Machine

/-- `mov` (09 R214). -/
def execMov (f : Arith) (s : State) : Answer := scalarOp (shapeOf f) resMov f s
/-- `vmov` (09 R214). -/
def execVmov (f : Arith) (s : State) : Answer := vectorOp (shapeOf f) resMov f s
/-- `add` (09 R205). -/
def execAdd (f : Arith) (s : State) : Answer := scalarOp (shapeOf f) (resAdd f) f s
/-- `vadd` (09 R205). -/
def execVadd (f : Arith) (s : State) : Answer := vectorOp (shapeOf f) (resAdd f) f s
/-- `sub` (09 R205). -/
def execSub (f : Arith) (s : State) : Answer := scalarOp (shapeOf f) (resSub f) f s
/-- `vsub` (09 R205). -/
def execVsub (f : Arith) (s : State) : Answer := vectorOp (shapeOf f) (resSub f) f s
/-- `mul` (09 R205). -/
def execMul (f : Arith) (s : State) : Answer := scalarOp (shapeOf f) (resMul f) f s
/-- `vmul` (09 R205). -/
def execVmul (f : Arith) (s : State) : Answer := vectorOp (shapeOf f) (resMul f) f s
/-- `mulhi` (09 R205). -/
def execMulhi (f : Arith) (s : State) : Answer := scalarOp (shapeOf f) (resMulhi f) f s
/-- `vmulhi` (09 R205). -/
def execVmulhi (f : Arith) (s : State) : Answer := vectorOp (shapeOf f) (resMulhi f) f s
/-- `mad` (09 R205). -/
def execMad (f : Arith) (s : State) : Answer := scalarOp (shapeOf f) (resMad f) f s
/-- `vmad` (09 R205). -/
def execVmad (f : Arith) (s : State) : Answer := vectorOp (shapeOf f) (resMad f) f s
/-- `madhi` (09 R205). -/
def execMadhi (f : Arith) (s : State) : Answer := scalarOp (shapeOf f) (resMadhi f) f s
/-- `vmadhi` (09 R205). -/
def execVmadhi (f : Arith) (s : State) : Answer := vectorOp (shapeOf f) (resMadhi f) f s
/-- `div` (09 R206). -/
def execDiv (f : Arith) (s : State) : Answer := scalarOp (shapeOf f) (resDiv f) f s
/-- `vdiv` (09 R206). -/
def execVdiv (f : Arith) (s : State) : Answer := vectorOp (shapeOf f) (resDiv f) f s
/-- `rem` (09 R206). -/
def execRem (f : Arith) (s : State) : Answer := scalarOp (shapeOf f) (resRem f) f s
/-- `vrem` (09 R206). -/
def execVrem (f : Arith) (s : State) : Answer := vectorOp (shapeOf f) (resRem f) f s
/-- `min` (09 R205). -/
def execMin (f : Arith) (s : State) : Answer := scalarOp (shapeOf f) (resMin f) f s
/-- `vmin` (09 R205). -/
def execVmin (f : Arith) (s : State) : Answer := vectorOp (shapeOf f) (resMin f) f s
/-- `max` (09 R205). -/
def execMax (f : Arith) (s : State) : Answer := scalarOp (shapeOf f) (resMax f) f s
/-- `vmax` (09 R205). -/
def execVmax (f : Arith) (s : State) : Answer := vectorOp (shapeOf f) (resMax f) f s
/-- `abs` (09 R205). -/
def execAbs (f : Arith) (s : State) : Answer := scalarOp (shapeOf f) (resAbs f) f s
/-- `vabs` (09 R205). -/
def execVabs (f : Arith) (s : State) : Answer := vectorOp (shapeOf f) (resAbs f) f s
/-- `neg` (09 R205). -/
def execNeg (f : Arith) (s : State) : Answer := scalarOp (shapeOf f) (resNeg f) f s
/-- `vneg` (09 R205). -/
def execVneg (f : Arith) (s : State) : Answer := vectorOp (shapeOf f) (resNeg f) f s
/-- `adds` (09 R205). -/
def execAdds (f : Arith) (s : State) : Answer := scalarOp (shapeOf f) (resAdds f) f s
/-- `vadds` (09 R205). -/
def execVadds (f : Arith) (s : State) : Answer := vectorOp (shapeOf f) (resAdds f) f s
/-- `subs` (09 R205). -/
def execSubs (f : Arith) (s : State) : Answer := scalarOp (shapeOf f) (resSubs f) f s
/-- `vsubs` (09 R205). -/
def execVsubs (f : Arith) (s : State) : Answer := vectorOp (shapeOf f) (resSubs f) f s
/-- `and` (09 R207). -/
def execAnd (f : Arith) (s : State) : Answer := scalarOp (shapeOf f) (resAnd f) f s
/-- `vand` (09 R207). -/
def execVand (f : Arith) (s : State) : Answer := vectorOp (shapeOf f) (resAnd f) f s
/-- `or` (09 R207). -/
def execOr (f : Arith) (s : State) : Answer := scalarOp (shapeOf f) (resOr f) f s
/-- `vor` (09 R207). -/
def execVor (f : Arith) (s : State) : Answer := vectorOp (shapeOf f) (resOr f) f s
/-- `xor` (09 R207). -/
def execXor (f : Arith) (s : State) : Answer := scalarOp (shapeOf f) (resXor f) f s
/-- `vxor` (09 R207). -/
def execVxor (f : Arith) (s : State) : Answer := vectorOp (shapeOf f) (resXor f) f s
/-- `not` (09 R207). -/
def execNot (f : Arith) (s : State) : Answer := scalarOp (shapeOf f) (resNot f) f s
/-- `vnot` (09 R207). -/
def execVnot (f : Arith) (s : State) : Answer := vectorOp (shapeOf f) (resNot f) f s
/-- `shl` (09 R207). -/
def execShl (f : Arith) (s : State) : Answer := scalarOp (shapeOf f) (resShl f) f s
/-- `vshl` (09 R207). -/
def execVshl (f : Arith) (s : State) : Answer := vectorOp (shapeOf f) (resShl f) f s
/-- `shr` (09 R207). -/
def execShr (f : Arith) (s : State) : Answer := scalarOp (shapeOf f) (resShr f) f s
/-- `vshr` (09 R207). -/
def execVshr (f : Arith) (s : State) : Answer := vectorOp (shapeOf f) (resShr f) f s
/-- `sar` (09 R207). -/
def execSar (f : Arith) (s : State) : Answer := scalarOp (shapeOf f) (resSar f) f s
/-- `vsar` (09 R207). -/
def execVsar (f : Arith) (s : State) : Answer := vectorOp (shapeOf f) (resSar f) f s
/-- `rot` (09 R207). -/
def execRot (f : Arith) (s : State) : Answer := scalarOp (shapeOf f) (resRot f) f s
/-- `vrot` (09 R207). -/
def execVrot (f : Arith) (s : State) : Answer := vectorOp (shapeOf f) (resRot f) f s
/-- `bfx` (09 R208). -/
def execBfx (f : Arith) (s : State) : Answer := scalarOp (shapeB32 f) (resBfx f) f s
/-- `vbfx` (09 R208). -/
def execVbfx (f : Arith) (s : State) : Answer := vectorOp (shapeB32 f) (resBfx f) f s
/-- `bfi` (09 R208). -/
def execBfi (f : Arith) (s : State) : Answer := scalarOp (shapeB32 f) (resBfi f) f s
/-- `vbfi` (09 R208). -/
def execVbfi (f : Arith) (s : State) : Answer := vectorOp (shapeB32 f) (resBfi f) f s
/-- `popc` (09 R207). -/
def execPopc (f : Arith) (s : State) : Answer := scalarOp (shapeOf f) (resPopc f) f s
/-- `vpopc` (09 R207). -/
def execVpopc (f : Arith) (s : State) : Answer := vectorOp (shapeOf f) (resPopc f) f s
/-- `clz` (09 R207). -/
def execClz (f : Arith) (s : State) : Answer := scalarOp (shapeOf f) (resClz f) f s
/-- `vclz` (09 R207). -/
def execVclz (f : Arith) (s : State) : Answer := vectorOp (shapeOf f) (resClz f) f s
/-- `ctz` (09 R207). -/
def execCtz (f : Arith) (s : State) : Answer := scalarOp (shapeOf f) (resCtz f) f s
/-- `vctz` (09 R207). -/
def execVctz (f : Arith) (s : State) : Answer := vectorOp (shapeOf f) (resCtz f) f s
/-- `brev` (09 R207). -/
def execBrev (f : Arith) (s : State) : Answer := scalarOp (shapeOf f) (resBrev f) f s
/-- `vbrev` (09 R207). -/
def execVbrev (f : Arith) (s : State) : Answer := vectorOp (shapeOf f) (resBrev f) f s
/-- `bswp` (09 R207). -/
def execBswp (f : Arith) (s : State) : Answer := scalarOp (shapeOf f) (resBswp f) f s
/-- `vbswp` (09 R207). -/
def execVbswp (f : Arith) (s : State) : Answer := vectorOp (shapeOf f) (resBswp f) f s
/-- `lea` (09 R209). -/
def execLea (f : Arith) (s : State) : Answer := scalarOp ⟨2, 2, 1, 0, .b32⟩ (resLea f) f s
/-- `vlea` (09 R209). -/
def execVlea (f : Arith) (s : State) : Answer := vectorOp ⟨2, 2, 1, 0, .b32⟩ (resLea f) f s
/-- `fma` (09 R210). -/
def execFma (f : Arith) (s : State) : Answer := scalarOp (shapeOf f) (resFma f) f s
/-- `vfma` (09 R210). -/
def execVfma (f : Arith) (s : State) : Answer := vectorOp (shapeOf f) (resFma f) f s
/-- `rcp` (09 R212). -/
def execRcp (f : Arith) (s : State) : Answer := scalarOp (shapeOf f) (resRcp f) f s
/-- `vrcp` (09 R212). -/
def execVrcp (f : Arith) (s : State) : Answer := vectorOp (shapeOf f) (resRcp f) f s
/-- `rsq` (09 R212). -/
def execRsq (f : Arith) (s : State) : Answer := scalarOp (shapeOf f) (resRsq f) f s
/-- `vrsq` (09 R212). -/
def execVrsq (f : Arith) (s : State) : Answer := vectorOp (shapeOf f) (resRsq f) f s
/-- `sqrt` (09 R212). -/
def execSqrt (f : Arith) (s : State) : Answer := scalarOp (shapeOf f) (resSqrt f) f s
/-- `vsqrt` (09 R212). -/
def execVsqrt (f : Arith) (s : State) : Answer := vectorOp (shapeOf f) (resSqrt f) f s
/-- `exp2` (09 R212). -/
def execExp2 (f : Arith) (s : State) : Answer := scalarOp (shapeOf f) (resExp2 f) f s
/-- `vexp2` (09 R212). -/
def execVexp2 (f : Arith) (s : State) : Answer := vectorOp (shapeOf f) (resExp2 f) f s
/-- `log2` (09 R212). -/
def execLog2 (f : Arith) (s : State) : Answer := scalarOp (shapeOf f) (resLog2 f) f s
/-- `vlog2` (09 R212). -/
def execVlog2 (f : Arith) (s : State) : Answer := vectorOp (shapeOf f) (resLog2 f) f s
/-- `sin` (09 R212). -/
def execSin (f : Arith) (s : State) : Answer := scalarOp (shapeOf f) (resSin f) f s
/-- `vsin` (09 R212). -/
def execVsin (f : Arith) (s : State) : Answer := vectorOp (shapeOf f) (resSin f) f s
/-- `cos` (09 R212). -/
def execCos (f : Arith) (s : State) : Answer := scalarOp (shapeOf f) (resCos f) f s
/-- `vcos` (09 R212). -/
def execVcos (f : Arith) (s : State) : Answer := vectorOp (shapeOf f) (resCos f) f s
/-- `tanh` (09 R212). -/
def execTanh (f : Arith) (s : State) : Answer := scalarOp (shapeOf f) (resTanh f) f s
/-- `vtanh` (09 R212). -/
def execVtanh (f : Arith) (s : State) : Answer := vectorOp (shapeOf f) (resTanh f) f s
/-- `frnd` (09 R213). -/
def execFrnd (f : Arith) (s : State) : Answer := scalarOp (shapeOf f) (resFrnd f) f s
/-- `vfrnd` (09 R213). -/
def execVfrnd (f : Arith) (s : State) : Answer := vectorOp (shapeOf f) (resFrnd f) f s
/-- `fcls` (09 R213). -/
def execFcls (f : Arith) (s : State) : Answer := scalarOp { shapeOf f with d := 1 } (resFcls f) f s
/-- `vfcls` (09 R213). -/
def execVfcls (f : Arith) (s : State) : Answer := vectorOp { shapeOf f with d := 1 } (resFcls f) f s
/-- `csgn` (09 R211). -/
def execCsgn (f : Arith) (s : State) : Answer := scalarOp (shapeOf f) (resCsgn f) f s
/-- `vcsgn` (09 R211). -/
def execVcsgn (f : Arith) (s : State) : Answer := vectorOp (shapeOf f) (resCsgn f) f s
/-- `scl` (09 R210). -/
def execScl (f : Arith) (s : State) : Answer := scalarOp (if f.ty.slot = 16 then (shapeOf f) else (shapeB32 f)) (resScl f) f s
/-- `vscl` (09 R210). -/
def execVscl (f : Arith) (s : State) : Answer := vectorOp (if f.ty.slot = 16 then (shapeOf f) else (shapeB32 f)) (resScl f) f s
/-- `dp2` (09 R210). -/
def execDp2 (f : Arith) (s : State) : Answer := scalarOp ⟨1, 1, 1, 1, f.ty⟩ (resDp2 f) f s
/-- `vdp2` (09 R210). -/
def execVdp2 (f : Arith) (s : State) : Answer := vectorOp ⟨1, 1, 1, 1, f.ty⟩ (resDp2 f) f s
/-- `cmpeq` (09 R216). -/
def execCmpEq (f : Arith) (s : State) : Answer := scalarOp { shapeOf f with d := 1 } (resCmp .eq f) f s
/-- `vcmpeq` (09 R216). -/
def execVcmpEq (f : Arith) (s : State) : Answer := vectorOp { shapeOf f with d := 1 } (resCmp .eq f) f s
/-- `cmpne` (09 R216). -/
def execCmpNe (f : Arith) (s : State) : Answer := scalarOp { shapeOf f with d := 1 } (resCmp .ne f) f s
/-- `vcmpne` (09 R216). -/
def execVcmpNe (f : Arith) (s : State) : Answer := vectorOp { shapeOf f with d := 1 } (resCmp .ne f) f s
/-- `cmplt` (09 R216). -/
def execCmpLt (f : Arith) (s : State) : Answer := scalarOp { shapeOf f with d := 1 } (resCmp .lt f) f s
/-- `vcmplt` (09 R216). -/
def execVcmpLt (f : Arith) (s : State) : Answer := vectorOp { shapeOf f with d := 1 } (resCmp .lt f) f s
/-- `cmple` (09 R216). -/
def execCmpLe (f : Arith) (s : State) : Answer := scalarOp { shapeOf f with d := 1 } (resCmp .le f) f s
/-- `vcmple` (09 R216). -/
def execVcmpLe (f : Arith) (s : State) : Answer := vectorOp { shapeOf f with d := 1 } (resCmp .le f) f s
/-- `cmpgt` (09 R216). -/
def execCmpGt (f : Arith) (s : State) : Answer := scalarOp { shapeOf f with d := 1 } (resCmp .gt f) f s
/-- `vcmpgt` (09 R216). -/
def execVcmpGt (f : Arith) (s : State) : Answer := vectorOp { shapeOf f with d := 1 } (resCmp .gt f) f s
/-- `cmpge` (09 R216). -/
def execCmpGe (f : Arith) (s : State) : Answer := scalarOp { shapeOf f with d := 1 } (resCmp .ge f) f s
/-- `vcmpge` (09 R216). -/
def execVcmpGe (f : Arith) (s : State) : Answer := vectorOp { shapeOf f with d := 1 } (resCmp .ge f) f s
/-- `cmpnum` (09 R216). -/
def execCmpNum (f : Arith) (s : State) : Answer := scalarOp { shapeOf f with d := 1 } (resCmp .num f) f s
/-- `vcmpnum` (09 R216). -/
def execVcmpNum (f : Arith) (s : State) : Answer := vectorOp { shapeOf f with d := 1 } (resCmp .num f) f s
/-- `cmpnan` (09 R216). -/
def execCmpNan (f : Arith) (s : State) : Answer := scalarOp { shapeOf f with d := 1 } (resCmp .nan f) f s
/-- `vcmpnan` (09 R216). -/
def execVcmpNan (f : Arith) (s : State) : Answer := vectorOp { shapeOf f with d := 1 } (resCmp .nan f) f s
/-- `sel` (09 R215). -/
def execSel (f : Arith) (s : State) : Answer := scalarOp { shapeOf f with c := 1 } resSel f s
/-- `vsel` (09 R215). -/
def execVsel (f : Arith) (s : State) : Answer := vectorOp { shapeOf f with c := 1 } resSel f s
/-- `cvt` (09 R219). -/
def execCvt (f : Arith) (s : State) : Answer := scalarOp ⟨f.ty.regs, f.sty.regs, 2, 0, f.ty⟩ (resCvt f) f s
/-- `vcvt` (09 R219). -/
def execVcvt (f : Arith) (s : State) : Answer := vectorOp ⟨f.ty.regs, f.sty.regs, 2, 0, f.ty⟩ (resCvt f) f s
/-- `pack` (09 R220). -/
def execPack (f : Arith) (s : State) : Answer := scalarOp (if f.ty = .b16 then (shapeOf f) else ⟨4, 4, 0, 0, f.ty⟩) (resPack f) f s
/-- `vpack` (09 R220). -/
def execVpack (f : Arith) (s : State) : Answer := vectorOp (if f.ty = .b16 then (shapeOf f) else ⟨4, 4, 0, 0, f.ty⟩) (resPack f) f s
/-- `unpk` (09 R220). -/
def execUnpk (f : Arith) (s : State) : Answer := scalarOp (if f.ty = .b16 then (shapeOf f) else ⟨4, 4, 0, 0, f.ty⟩) resUnpk f s
/-- `vunpk` (09 R220). -/
def execVunpk (f : Arith) (s : State) : Answer := vectorOp (if f.ty = .b16 then (shapeOf f) else ⟨4, 4, 0, 0, f.ty⟩) resUnpk f s

/-! ## Predicates (09 R217) -/

/-- `pand`: D receives A ∧ B. -/
def execPand (f : Arith) (s : State) : Answer := vectorOp ⟨1, 1, 1, 0, .none⟩ (fun x => (x.a * x.b, 0)) f s
/-- `por`: D receives A ∨ B. -/
def execPor (f : Arith) (s : State) : Answer := vectorOp ⟨1, 1, 1, 0, .none⟩ (fun x => (x.a + x.b, 0)) f s
/-- `pxor`: D receives A ⊕ B. -/
def execPxor (f : Arith) (s : State) : Answer := vectorOp ⟨1, 1, 1, 0, .none⟩ (fun x => ((x.a + x.b) % 2, 0)) f s
/-- `pnot`: D receives ¬A. -/
def execPnot (f : Arith) (s : State) : Answer := vectorOp ⟨1, 1, 0, 0, .none⟩ (fun x => (1 - x.a, 0)) f s

end Sys2Proof.Machine
end

