-- ==== Sys2Proof/Machine/Lanes.lean ====
section
/-! DEFINITION. Between scalars and lanes (09_compute R221), between lanes (R222 to R224), and reductions and scans in
their fixed orders (R225; 08_numbers R197, R198). A lane whose result takes the value of a poisoned register reads it
(16_regroup R387). -/

namespace Sys2Proof.Machine

/-- The poison in an operand of a lane. DEDUCED (log 14). -/
def operandPoison (g : Group) (handler : Bool) (l n : Nat) : Operand → Option (Nat × Nat)
  | .win i => g.usePoison handler l (0, i, n)
  | .pred i => g.usePoison handler l (2, i, 1)
  | _ => none

/-- The first poisoned operand among lanes. DEDUCED (log 14). -/
def lanesPoison (g : Group) (handler : Bool) (n : Nat) (o : Operand) (ls : List Nat) : Option (Nat × Nat) :=
  ls.findSome? fun l => operandPoison g handler l n o

/-- An operand as a lane of the group holds it; 0 where the lane is vacant. DEDUCED (log 13). -/
def laneOperand (g : Group) (handler : Bool) (ty : Ty) (n : Nat) (o : Operand) (l : Nat) : Nat :=
  match g.lanes.get? l with
  | some t => laneVal g t handler ty n o
  | none => 0

/-! ## Scalars and lanes (09 R221) -/

/-- `vtos`: the register of lane B mod 32, whatever that lane's state, in the window that the lane uses. DEDUCED (log
14). -/
def execVtos (f : Arith) (s : State) : Answer :=
  withIssuer s fun k s =>
    let g := s.group k.gk
    let n := f.ty.regs
    let j := groupVal g .b32 1 f.b % 32
    let own := g.inHandler j
    let idx := match f.a with | .win i => i | _ => 0
    if !guardG g f.h k then groupMode f.h id k s
    else if (g.lanes.get? j).isSome && g.usePending own [j] (0, idx, n) then s
    else match operandPoison g own j n f.a with
      | some (c, o) => s.finish k ((lanesOf k.active).map fun l => ⟨l, 16, detailReg l c o⟩)
      | none => groupMode f.h (fun g => g.write n f.d (laneOperand g own f.ty n f.a j)) k s

/-- `stov`: A to the lanes of `active` whose bit of B is set. -/
def execStov (f : Arith) (s : State) : Answer :=
  withIssuer s fun k s =>
    groupMode f.h (fun g =>
      let m := groupVal g .b32 1 f.b
      let v := groupVal g f.ty f.ty.regs f.a
      ((lanesOf k.active).filter fun l => m.testBit l).foldl
        (fun g l => g.modThread l fun t => t.write k.handler f.ty.regs f.d v) g) k s

/-! ## Exchanges (09 R222, R223) -/

/-- One lane of an exchange: its source lane's value if that lane is in C, else its own. It reads B in the lane `by'` names, and then A
in its source lane, and traps where what it reads is poisoned (09 R202; 16 R387). -/
def exchangeLane (f : Arith) (k : Cursor) (by' : Group → Nat → Nat) (src : Group → Nat → Nat) (g : Group) (l : Nat) (t : Thread) :
    LaneOut :=
  let n := f.ty.regs
  let j := if (guardedFull g f.h k).contains (src g l) then src g l else l
  match (operandPoison g k.handler (by' g l) 1 f.b).or (operandPoison g k.handler j n f.a) with
  | some (c, o) => .trap 16 (detailReg l c o)
  | none => .next (t.write k.handler n f.d (laneOperand g k.handler f.ty n f.a j))

/-- A lane exchange with a source lane chosen by `src` (09 R222, R223). DEDUCED (log 14). -/
def exchange (f : Arith) (by' src : Cursor → Group → Nat → Nat) (s : State) : Answer :=
  withIssuer s fun k s => laneMode f.h (exchangeLane f k (by' k) (src k)) k s

/-- The lane number or distance in B, bits 4:0. DEDUCED (log 13). -/
def exchangeB (f : Arith) (k : Cursor) (g : Group) (l : Nat) : Nat := laneOperand g k.handler .b32 1 f.b l % 32

/-- `vshfl`: source lane B. -/
def execVshfl (f : Arith) (s : State) : Answer := exchange f (fun _ _ l => l) (fun k g l => exchangeB f k g l) s
/-- `vbfly`: source lane L xor B. -/
def execVbfly (f : Arith) (s : State) : Answer := exchange f (fun _ _ l => l) (fun k g l => Nat.xor l (exchangeB f k g l)) s
/-- `vbcast`: the source lane that the lowest lane of C names. -/
def execVbcast (f : Arith) (s : State) : Answer :=
  exchange f (fun k g _ => (guardedFull g f.h k).headD 0) (fun k g _ => exchangeB f k g ((guardedFull g f.h k).headD 0)) s

/-! ## Masks (09 R224) -/

/-- Writes one 32-bit mask a lane; a poisoned operand in C reaches every lane. DEDUCED (log 14). -/
def maskLane (f : Arith) (k : Cursor) (n : Nat) (m : Group → List Nat → Nat → Word) (g : Group) (l : Nat) (t : Thread) :
    LaneOut :=
  let cs := guardedFull g f.h k
  match lanesPoison g k.handler n f.a cs with
  | some (c, o) => .trap 16 (detailReg l c o)
  | none => .next (t.write k.handler 1 f.d (m g cs l).toNat)

/-- `vballot`: the lanes of C whose predicate holds. -/
def execVballot (f : Arith) (s : State) : Answer :=
  withIssuer s fun k s =>
    laneMode f.h (maskLane f k 1 fun g cs _ =>
      maskOf (cs.filter fun j => laneOperand g k.handler .b32 1 f.a j ≠ 0)) k s

/-- `vmatch`: the lanes of C that hold an equal value. -/
def execVmatch (f : Arith) (s : State) : Answer :=
  withIssuer s fun k s =>
    laneMode f.h (maskLane f k f.ty.regs fun g cs l =>
      let v (j : Nat) : Nat := laneOperand g k.handler f.ty f.ty.regs f.a j
      maskOf (cs.filter fun j => v j = v l)) k s

/-! ## Reductions and scans (08 R197, R198; 09 R225) -/

/-- `combine` of R197: an absent value gives the other one. -/
def combine (op : Nat → Nat → Nat) : Option Nat → Option Nat → Option Nat
  | none, y => y
  | x, none => x
  | some x, some y => some (op x y)

/-- One level of the pairwise tree. -/
def pairUp (op : Nat → Nat → Nat) : List (Option Nat) → List (Option Nat)
  | x :: y :: t => combine op x y :: pairUp op t
  | l => l

/-- The tree over 32 lanes: five levels (08 R197). -/
def treeRed (op : Nat → Nat → Nat) (v : List (Option Nat)) : Option Nat :=
  ((pairUp op (pairUp op (pairUp op (pairUp op (pairUp op v))))).headD none)

/-- One step of the scan at a distance. -/
def scanStep (op : Nat → Nat → Nat) (d : Nat) (v : List (Option Nat)) : List (Option Nat) :=
  (List.range v.length).map fun i =>
    if d ≤ i then combine op (v.getD (i - d) none) (v.getD i none) else v.getD i none

/-- The five steps of the scan (08 R198). -/
def scanAll (op : Nat → Nat → Nat) (v : List (Option Nat)) : List (Option Nat) :=
  [1, 2, 4, 8, 16].foldl (fun v d => scanStep op d v) v

/-- The operands of the lanes of C by lane number, absent elsewhere. -/
def contributions (g : Group) (f : Arith) (k : Cursor) : List (Option Nat) :=
  let cs := guardedFull g f.h k
  (List.range 32).map fun l => if cs.contains l then some (laneOperand g k.handler f.ty f.ty.regs f.a l) else none

/-- A reduction: one scalar for the group, also for an empty C, or a register in every lane of C (05 R112; 09 R225).
DEDUCED (log 14). -/
def reduce (f : Arith) (op : Nat → Nat → Nat) (empty : Nat) (s : State) : Answer :=
  withIssuer s fun k s =>
    let g := s.group k.gk
    let n := f.ty.regs
    let p := lanesPoison g k.handler n f.a (guardedFull g f.h k)
    let v := (treeRed op (contributions g f k)).getD empty
    let s := match p with
      | none => { s with groups := s.groups.put k.gk (g.write n f.d v) }
      | some _ => s
    laneMode f.h (fun _ l t =>
      match p with
      | some (c, o) => .trap 16 (detailReg l c o)
      | none => .next (t.write k.handler n f.d v)) k s

/-- A scan: each lane of C receives the combination of the lanes of C up to it. DEDUCED (log 14). -/
def scan (f : Arith) (op : Nat → Nat → Nat) (s : State) : Answer :=
  withIssuer s fun k s =>
    let n := f.ty.regs
    laneMode f.h (fun g l t =>
      match lanesPoison g k.handler n f.a ((guardedFull g f.h k).filter (· ≤ l)) with
      | some (c, o) => .trap 16 (detailReg l c o)
      | none => .next (t.write k.handler n f.d (((scanAll op (contributions g f k)).getD l none).getD 0))) k s

/-- The value of a two-operand result, without its flags (08 R193). -/
def valueOf (r : Src → FRes) (x y : Nat) : Nat := (r ⟨x, y, 0, 0⟩).1

/-- The type's largest or smallest value, or the infinity (09 R225). -/
def extreme (t : Ty) (largest : Bool) : Nat :=
  spread t (if t.isFloat then (t.fmt.inf (!largest)).1
    else truncI t.slot (if largest then intHi t.signed t.slot else intLo t.signed t.slot))

/-- Every bit of an operand of the type. -/
def allOnes (t : Ty) : Nat := 2 ^ (32 * t.regs) - 1

/-- `vred.add` (09 R225; 08 R197). -/
def execVredAdd (f : Arith) (s : State) : Answer := reduce f (valueOf (resAdd f)) 0 s
/-- `vred.min` (09 R225; 08 R197). -/
def execVredMin (f : Arith) (s : State) : Answer := reduce f (valueOf (resMin f)) (extreme f.ty true) s
/-- `vred.max` (09 R225; 08 R197). -/
def execVredMax (f : Arith) (s : State) : Answer := reduce f (valueOf (resMax f)) (extreme f.ty false) s
/-- `vred.and` (09 R225; 08 R197). -/
def execVredAnd (f : Arith) (s : State) : Answer := reduce f (valueOf (resAnd f)) (allOnes f.ty) s
/-- `vred.or` (09 R225; 08 R197). -/
def execVredOr (f : Arith) (s : State) : Answer := reduce f (valueOf (resOr f)) 0 s
/-- `vred.xor` (09 R225; 08 R197). -/
def execVredXor (f : Arith) (s : State) : Answer := reduce f (valueOf (resXor f)) 0 s
/-- `vscan.add` (09 R225; 08 R198). -/
def execVscanAdd (f : Arith) (s : State) : Answer := scan f (valueOf (resAdd f)) s
/-- `vscan.min` (09 R225; 08 R198). -/
def execVscanMin (f : Arith) (s : State) : Answer := scan f (valueOf (resMin f)) s
/-- `vscan.max` (09 R225; 08 R198). -/
def execVscanMax (f : Arith) (s : State) : Answer := scan f (valueOf (resMax f)) s

end Sys2Proof.Machine
end

