-- ==== Sys2Proof/Machine/Dispatch.lean ====
section
/-! DEFINITION. One arm for every row of the opcode table: the instruction words, then the steps of the other agents. -/

namespace Sys2Proof.Machine

/-- What an instruction or a step of another agent does. -/
def exec (i : Instr) (s : State) : Host.Outcome State Fault Refusal :=
  match i with
  | .mov f => Sys2Proof.Machine.execMov f s
  | .vmov f => Sys2Proof.Machine.execVmov f s
  | .add f => Sys2Proof.Machine.execAdd f s
  | .vadd f => Sys2Proof.Machine.execVadd f s
  | .sub f => Sys2Proof.Machine.execSub f s
  | .vsub f => Sys2Proof.Machine.execVsub f s
  | .mul f => Sys2Proof.Machine.execMul f s
  | .vmul f => Sys2Proof.Machine.execVmul f s
  | .mulhi f => Sys2Proof.Machine.execMulhi f s
  | .vmulhi f => Sys2Proof.Machine.execVmulhi f s
  | .mad f => Sys2Proof.Machine.execMad f s
  | .vmad f => Sys2Proof.Machine.execVmad f s
  | .madhi f => Sys2Proof.Machine.execMadhi f s
  | .vmadhi f => Sys2Proof.Machine.execVmadhi f s
  | .div f => Sys2Proof.Machine.execDiv f s
  | .vdiv f => Sys2Proof.Machine.execVdiv f s
  | .rem f => Sys2Proof.Machine.execRem f s
  | .vrem f => Sys2Proof.Machine.execVrem f s
  | .min f => Sys2Proof.Machine.execMin f s
  | .vmin f => Sys2Proof.Machine.execVmin f s
  | .max f => Sys2Proof.Machine.execMax f s
  | .vmax f => Sys2Proof.Machine.execVmax f s
  | .abs f => Sys2Proof.Machine.execAbs f s
  | .vabs f => Sys2Proof.Machine.execVabs f s
  | .neg f => Sys2Proof.Machine.execNeg f s
  | .vneg f => Sys2Proof.Machine.execVneg f s
  | .adds f => Sys2Proof.Machine.execAdds f s
  | .vadds f => Sys2Proof.Machine.execVadds f s
  | .subs f => Sys2Proof.Machine.execSubs f s
  | .vsubs f => Sys2Proof.Machine.execVsubs f s
  | .and f => Sys2Proof.Machine.execAnd f s
  | .vand f => Sys2Proof.Machine.execVand f s
  | .or f => Sys2Proof.Machine.execOr f s
  | .vor f => Sys2Proof.Machine.execVor f s
  | .xor f => Sys2Proof.Machine.execXor f s
  | .vxor f => Sys2Proof.Machine.execVxor f s
  | .not f => Sys2Proof.Machine.execNot f s
  | .vnot f => Sys2Proof.Machine.execVnot f s
  | .shl f => Sys2Proof.Machine.execShl f s
  | .vshl f => Sys2Proof.Machine.execVshl f s
  | .shr f => Sys2Proof.Machine.execShr f s
  | .vshr f => Sys2Proof.Machine.execVshr f s
  | .sar f => Sys2Proof.Machine.execSar f s
  | .vsar f => Sys2Proof.Machine.execVsar f s
  | .rot f => Sys2Proof.Machine.execRot f s
  | .vrot f => Sys2Proof.Machine.execVrot f s
  | .bfx f => Sys2Proof.Machine.execBfx f s
  | .vbfx f => Sys2Proof.Machine.execVbfx f s
  | .bfi f => Sys2Proof.Machine.execBfi f s
  | .vbfi f => Sys2Proof.Machine.execVbfi f s
  | .popc f => Sys2Proof.Machine.execPopc f s
  | .vpopc f => Sys2Proof.Machine.execVpopc f s
  | .clz f => Sys2Proof.Machine.execClz f s
  | .vclz f => Sys2Proof.Machine.execVclz f s
  | .ctz f => Sys2Proof.Machine.execCtz f s
  | .vctz f => Sys2Proof.Machine.execVctz f s
  | .brev f => Sys2Proof.Machine.execBrev f s
  | .vbrev f => Sys2Proof.Machine.execVbrev f s
  | .bswp f => Sys2Proof.Machine.execBswp f s
  | .vbswp f => Sys2Proof.Machine.execVbswp f s
  | .lea f => Sys2Proof.Machine.execLea f s
  | .vlea f => Sys2Proof.Machine.execVlea f s
  | .fma f => Sys2Proof.Machine.execFma f s
  | .vfma f => Sys2Proof.Machine.execVfma f s
  | .rcp f => Sys2Proof.Machine.execRcp f s
  | .vrcp f => Sys2Proof.Machine.execVrcp f s
  | .rsq f => Sys2Proof.Machine.execRsq f s
  | .vrsq f => Sys2Proof.Machine.execVrsq f s
  | .sqrt f => Sys2Proof.Machine.execSqrt f s
  | .vsqrt f => Sys2Proof.Machine.execVsqrt f s
  | .exp2 f => Sys2Proof.Machine.execExp2 f s
  | .vexp2 f => Sys2Proof.Machine.execVexp2 f s
  | .log2 f => Sys2Proof.Machine.execLog2 f s
  | .vlog2 f => Sys2Proof.Machine.execVlog2 f s
  | .sin f => Sys2Proof.Machine.execSin f s
  | .vsin f => Sys2Proof.Machine.execVsin f s
  | .cos f => Sys2Proof.Machine.execCos f s
  | .vcos f => Sys2Proof.Machine.execVcos f s
  | .tanh f => Sys2Proof.Machine.execTanh f s
  | .vtanh f => Sys2Proof.Machine.execVtanh f s
  | .frnd f => Sys2Proof.Machine.execFrnd f s
  | .vfrnd f => Sys2Proof.Machine.execVfrnd f s
  | .fcls f => Sys2Proof.Machine.execFcls f s
  | .vfcls f => Sys2Proof.Machine.execVfcls f s
  | .csgn f => Sys2Proof.Machine.execCsgn f s
  | .vcsgn f => Sys2Proof.Machine.execVcsgn f s
  | .scl f => Sys2Proof.Machine.execScl f s
  | .vscl f => Sys2Proof.Machine.execVscl f s
  | .dp2 f => Sys2Proof.Machine.execDp2 f s
  | .vdp2 f => Sys2Proof.Machine.execVdp2 f s
  | .cmpEq f => Sys2Proof.Machine.execCmpEq f s
  | .vcmpEq f => Sys2Proof.Machine.execVcmpEq f s
  | .cmpNe f => Sys2Proof.Machine.execCmpNe f s
  | .vcmpNe f => Sys2Proof.Machine.execVcmpNe f s
  | .cmpLt f => Sys2Proof.Machine.execCmpLt f s
  | .vcmpLt f => Sys2Proof.Machine.execVcmpLt f s
  | .cmpLe f => Sys2Proof.Machine.execCmpLe f s
  | .vcmpLe f => Sys2Proof.Machine.execVcmpLe f s
  | .cmpGt f => Sys2Proof.Machine.execCmpGt f s
  | .vcmpGt f => Sys2Proof.Machine.execVcmpGt f s
  | .cmpGe f => Sys2Proof.Machine.execCmpGe f s
  | .vcmpGe f => Sys2Proof.Machine.execVcmpGe f s
  | .cmpNum f => Sys2Proof.Machine.execCmpNum f s
  | .vcmpNum f => Sys2Proof.Machine.execVcmpNum f s
  | .cmpNan f => Sys2Proof.Machine.execCmpNan f s
  | .vcmpNan f => Sys2Proof.Machine.execVcmpNan f s
  | .sel f => Sys2Proof.Machine.execSel f s
  | .vsel f => Sys2Proof.Machine.execVsel f s
  | .cvt f => Sys2Proof.Machine.execCvt f s
  | .vcvt f => Sys2Proof.Machine.execVcvt f s
  | .pack f => Sys2Proof.Machine.execPack f s
  | .vpack f => Sys2Proof.Machine.execVpack f s
  | .unpk f => Sys2Proof.Machine.execUnpk f s
  | .vunpk f => Sys2Proof.Machine.execVunpk f s
  | .pand f => Sys2Proof.Machine.execPand f s
  | .por f => Sys2Proof.Machine.execPor f s
  | .pxor f => Sys2Proof.Machine.execPxor f s
  | .pnot f => Sys2Proof.Machine.execPnot f s
  | .vtos f => Sys2Proof.Machine.execVtos f s
  | .stov f => Sys2Proof.Machine.execStov f s
  | .vshfl f => Sys2Proof.Machine.execVshfl f s
  | .vbfly f => Sys2Proof.Machine.execVbfly f s
  | .vbcast f => Sys2Proof.Machine.execVbcast f s
  | .vballot f => Sys2Proof.Machine.execVballot f s
  | .vmatch f => Sys2Proof.Machine.execVmatch f s
  | .vredAdd f => Sys2Proof.Machine.execVredAdd f s
  | .vredMin f => Sys2Proof.Machine.execVredMin f s
  | .vredMax f => Sys2Proof.Machine.execVredMax f s
  | .vredAnd f => Sys2Proof.Machine.execVredAnd f s
  | .vredOr f => Sys2Proof.Machine.execVredOr f s
  | .vredXor f => Sys2Proof.Machine.execVredXor f s
  | .vscanAdd f => Sys2Proof.Machine.execVscanAdd f s
  | .vscanMin f => Sys2Proof.Machine.execVscanMin f s
  | .vscanMax f => Sys2Proof.Machine.execVscanMax f s
  | .ldScalar f => Sys2Proof.Machine.execLdScalar f s
  | .ldVector f => Sys2Proof.Machine.execLdVector f s
  | .ldNr f => Sys2Proof.Machine.execLdNr f s
  | .stScalar f => Sys2Proof.Machine.execStScalar f s
  | .stVector f => Sys2Proof.Machine.execStVector f s
  | .pfScalar f => Sys2Proof.Machine.execPfScalar f s
  | .pfVector f => Sys2Proof.Machine.execPfVector f s
  | .pgreqScalar f => Sys2Proof.Machine.execPgreqScalar f s
  | .pgreqVector f => Sys2Proof.Machine.execPgreqVector f s
  | .cinv f => Sys2Proof.Machine.execCinv f s
  | .cdem f => Sys2Proof.Machine.execCdem f s
  | .atomAdd f => Sys2Proof.Machine.execAtomAdd f s
  | .atomMin f => Sys2Proof.Machine.execAtomMin f s
  | .atomMax f => Sys2Proof.Machine.execAtomMax f s
  | .atomAnd f => Sys2Proof.Machine.execAtomAnd f s
  | .atomOr f => Sys2Proof.Machine.execAtomOr f s
  | .atomXor f => Sys2Proof.Machine.execAtomXor f s
  | .atomExch f => Sys2Proof.Machine.execAtomExch f s
  | .atomCas f => Sys2Proof.Machine.execAtomCas f s
  | .aredAdd f => Sys2Proof.Machine.execAredAdd f s
  | .aredMin f => Sys2Proof.Machine.execAredMin f s
  | .aredMax f => Sys2Proof.Machine.execAredMax f s
  | .aredAnd f => Sys2Proof.Machine.execAredAnd f s
  | .aredOr f => Sys2Proof.Machine.execAredOr f s
  | .aredXor f => Sys2Proof.Machine.execAredXor f s
  | .xbegin f => Sys2Proof.Machine.execXbegin f s
  | .xend f => Sys2Proof.Machine.execXend f s
  | .xabort f => Sys2Proof.Machine.execXabort f s
  | .xstat f => Sys2Proof.Machine.execXstat f s
  | .mma f => Sys2Proof.Machine.execMma f s
  | .mmaN2 f => Sys2Proof.Machine.execMmaN2 f s
  | .mmaK2 f => Sys2Proof.Machine.execMmaK2 f s
  | .mmt f => Sys2Proof.Machine.execMmt f s
  | .mmtN2 f => Sys2Proof.Machine.execMmtN2 f s
  | .mmtK2 f => Sys2Proof.Machine.execMmtK2 f s
  | .mzero f => Sys2Proof.Machine.execMzero f s
  | .mld f => Sys2Proof.Machine.execMld f s
  | .mst f => Sys2Proof.Machine.execMst f s
  | .mrow f => Sys2Proof.Machine.execMrow f s
  | .mwait f => Sys2Proof.Machine.execMwait f s
  | .tmset f => Sys2Proof.Machine.execTmset f s
  | .tmget f => Sys2Proof.Machine.execTmget f s
  | .ralloc f => Sys2Proof.Machine.execRalloc f s
  | .rloadMap f => Sys2Proof.Machine.execRloadMap f s
  | .rloadGlobal f => Sys2Proof.Machine.execRloadGlobal f s
  | .rpin f => Sys2Proof.Machine.execRpin f s
  | .runpin f => Sys2Proof.Machine.execRunpin f s
  | .rrev f => Sys2Proof.Machine.execRrev f s
  | .rstat f => Sys2Proof.Machine.execRstat f s
  | .rquota f => Sys2Proof.Machine.execRquota f s
  | .cpy f => Sys2Proof.Machine.execCpy f s
  | .sleepu f => Sys2Proof.Machine.execSleepu f s
  | .sleepuChk f => Sys2Proof.Machine.execSleepuChk f s
  | .barx f => Sys2Proof.Machine.execBarx f s
  | .bar f => Sys2Proof.Machine.execBar f s
  | .barc f => Sys2Proof.Machine.execBarc f s
  | .bart f => Sys2Proof.Machine.execBart f s
  | .barg f => Sys2Proof.Machine.execBarg f s
  | .nop f => Sys2Proof.Machine.execNop f s
  | .bra f => Sys2Proof.Machine.execBra f s
  | .brx f => Sys2Proof.Machine.execBrx f s
  | .call f => Sys2Proof.Machine.execCall f s
  | .callx f => Sys2Proof.Machine.execCallx f s
  | .ret f => Sys2Proof.Machine.execRet f s
  | .jopen f => Sys2Proof.Machine.execJopen f s
  | .join f => Sys2Proof.Machine.execJoin f s
  | .eject f => Sys2Proof.Machine.execEject f s
  | .rejoin f => Sys2Proof.Machine.execRejoin f s
  | .enrol f => Sys2Proof.Machine.execEnrol f s
  | .bwaitm f => Sys2Proof.Machine.execBwaitm f s
  | .bsz f => Sys2Proof.Machine.execBsz f s
  | .bsnz f => Sys2Proof.Machine.execBsnz f s
  | .loop f => Sys2Proof.Machine.execLoop f s
  | .exit f => Sys2Proof.Machine.execExit f s
  | .launch f => Sys2Proof.Machine.execLaunch f s
  | .fence f => Sys2Proof.Machine.execFence f s
  | .regroup f => Sys2Proof.Machine.execRegroup f s
  | .regroupHome f => Sys2Proof.Machine.execRegroupHome f s
  | .cqstat f => Sys2Proof.Machine.execCqstat f s
  | .trap f => Sys2Proof.Machine.execTrap f s
  | .tret f => Sys2Proof.Machine.execTret f s
  | .yieldl f => Sys2Proof.Machine.execYieldl f s
  | .mrs f => Sys2Proof.Machine.execMrs f s
  | .msr f => Sys2Proof.Machine.execMsr f s
  | .bkpt f => Sys2Proof.Machine.execBkpt f s
  | .wpt f => Sys2Proof.Machine.execWpt f s
  | .pcnt f => Sys2Proof.Machine.execPcnt f s
  | .trc f => Sys2Proof.Machine.execTrc f s
  | .halt f => Sys2Proof.Machine.execHalt f s
  | .tlbinv f => Sys2Proof.Machine.execTlbinv f s
  | .trapEntryPop gk => Sys2Proof.Machine.execTrapEntryPop gk s
  | .joinCompletion gk => Sys2Proof.Machine.execJoinCompletion gk s
  | .bwaitmRelease gk n => Sys2Proof.Machine.execBwaitmRelease gk n s
  | .continuationGroupForm core => Sys2Proof.Machine.execContinuationGroupForm core s
  | .regroupCompletion team core => Sys2Proof.Machine.execRegroupCompletion team core s
  | .regroupTimeout team core => Sys2Proof.Machine.execRegroupTimeout team core s
  | .relocationEnd team core => Sys2Proof.Machine.execRelocationEnd team core s
  | .slotArbitration core slot => Sys2Proof.Machine.execSlotArbitration core slot s
  | .llWindowEnd core => Sys2Proof.Machine.execLlWindowEnd core s
  | .slewWindowEnd core => Sys2Proof.Machine.execSlewWindowEnd core s
  | .sleepuWake gk => Sys2Proof.Machine.execSleepuWake gk s
  | .sleepuChkWake gk => Sys2Proof.Machine.execSleepuChkWake gk s
  | .loadDataReturn id => Sys2Proof.Machine.execLoadDataReturn id s
  | .storePerform id => Sys2Proof.Machine.execStorePerform id s
  | .atomicPerform id => Sys2Proof.Machine.execAtomicPerform id s
  | .releaseMarkerMet id => Sys2Proof.Machine.execReleaseMarkerMet id s
  | .spillFillComplete id => Sys2Proof.Machine.execSpillFillComplete id s
  | .pageWalkComplete id => Sys2Proof.Machine.execPageWalkComplete id s
  | .transactionCommit gk => Sys2Proof.Machine.execTransactionCommit gk s
  | .transactionTimeout gk lane => Sys2Proof.Machine.execTransactionTimeout gk lane s
  | .tokenGrant d => Sys2Proof.Machine.execTokenGrant d s
  | .copyJobDelivery job elements => Sys2Proof.Machine.execCopyJobDelivery job elements s
  | .copyJobFinish job => Sys2Proof.Machine.execCopyJobFinish job s
  | .pageMigration job => Sys2Proof.Machine.execPageMigration job s
  | .completionRecordWrite id => Sys2Proof.Machine.execCompletionRecordWrite id s
  | .coreBarrierPhaseComplete core off => Sys2Proof.Machine.execCoreBarrierPhaseComplete core off s
  | .barrierSlotComplete unit slot => Sys2Proof.Machine.execBarrierSlotComplete unit slot s
  | .matrixOpExecute core => Sys2Proof.Machine.execMatrixOpExecute core s
  | .matrixOpRetire core => Sys2Proof.Machine.execMatrixOpRetire core s
  | .residencyRefill core res => Sys2Proof.Machine.execResidencyRefill core res s
  | .rloadFillComplete core fill => Sys2Proof.Machine.execRloadFillComplete core fill s
  | .mwaitComplete gk => Sys2Proof.Machine.execMwaitComplete gk s
  | .packetFetch qk => Sys2Proof.Machine.execPacketFetch qk s
  | .waitConditionCheck grid => Sys2Proof.Machine.execWaitConditionCheck grid s
  | .gridRelease grid => Sys2Proof.Machine.execGridRelease grid s
  | .deviceQueueEnqueue gk => Sys2Proof.Machine.execDeviceQueueEnqueue gk s
  | .teamClaim d grid => Sys2Proof.Machine.execTeamClaim d grid s
  | .teamPlacement d => Sys2Proof.Machine.execTeamPlacement d s
  | .coresidentPlacement grid => Sys2Proof.Machine.execCoresidentPlacement grid s
  | .teamStart team => Sys2Proof.Machine.execTeamStart team s
  | .ageingLimitReached d => Sys2Proof.Machine.execAgeingLimitReached d s
  | .sliceExpiry => Sys2Proof.Machine.execSliceExpiry s
  | .preemptGraceExpiry team => Sys2Proof.Machine.execPreemptGraceExpiry team s
  | .groupSave gk => Sys2Proof.Machine.execGroupSave gk s
  | .teamSave team => Sys2Proof.Machine.execTeamSave team s
  | .teamResume team => Sys2Proof.Machine.execTeamResume team s
  | .teamRetire team => Sys2Proof.Machine.execTeamRetire team s
  | .gridRetire grid => Sys2Proof.Machine.execGridRetire grid s
  | .qtailWrite qk v => Sys2Proof.Machine.execQtailWrite qk v s
  | .queueEnable qk v => Sys2Proof.Machine.execQueueEnable qk v s
  | .queueDisable qk v => Sys2Proof.Machine.execQueueDisable qk v s
  | .qstatFltClear qk => Sys2Proof.Machine.execQstatFltClear qk s
  | .qstatOvrClear qk => Sys2Proof.Machine.execQstatOvrClear qk s
  | .mbinWrite fn v => Sys2Proof.Machine.execMbinWrite fn v s
  | .mboutPost fn => Sys2Proof.Machine.execMboutPost fn s
  | .hostWindowWrite fn off data => Sys2Proof.Machine.execHostWindowWrite fn off data s
  | .hostWindowRead fn off n => Sys2Proof.Machine.execHostWindowRead fn off n s
  | .functionLevelReset fn => Sys2Proof.Machine.execFunctionLevelReset fn s
  | .contextDisable ck => Sys2Proof.Machine.execContextDisable ck s
  | .eventRingEnable fn v => Sys2Proof.Machine.execEventRingEnable fn v s
  | .erstatWrite fn => Sys2Proof.Machine.execErstatWrite fn s
  | .eventRingDrain fn => Sys2Proof.Machine.execEventRingDrain fn s
  | .shootDownStart ck v => Sys2Proof.Machine.execShootDownStart ck v s
  | .shootDownComplete ck => Sys2Proof.Machine.execShootDownComplete ck s
  | .ovchkWrite ck v => Sys2Proof.Machine.execOvchkWrite ck v s
  | .lmapWrite ck n v => Sys2Proof.Machine.execLmapWrite ck n v s
  | .xsGrantWrite ck d v => Sys2Proof.Machine.execXsGrantWrite ck d v s
  | .chaltHalt ck => Sys2Proof.Machine.execChaltHalt ck s
  | .chaltRelease ck => Sys2Proof.Machine.execChaltRelease ck s
  | .chaltDump ck => Sys2Proof.Machine.execChaltDump ck s
  | .contextStopped ck => Sys2Proof.Machine.execContextStopped ck s
  | .dieReset p => Sys2Proof.Machine.execDieReset p s
  | .dieFence p => Sys2Proof.Machine.execDieFence p s
  | .dieFenceRelease p => Sys2Proof.Machine.execDieFenceRelease p s
  | .dieDrop p => Sys2Proof.Machine.execDieDrop p s
  | .dieFatalError p => Sys2Proof.Machine.execDieFatalError p s
  | .dieSelfTestEnd p pass => Sys2Proof.Machine.execDieSelfTestEnd p pass s
  | .baseFatalError => Sys2Proof.Machine.execBaseFatalError s
  | .cellReceive port cell => Sys2Proof.Machine.execCellReceive port cell s
  | .cellNakReceive port aseq => Sys2Proof.Machine.execCellNakReceive port aseq s
  | .linkRetrain link lanes => Sys2Proof.Machine.execLinkRetrain link lanes s
  | .diePortDown p port => Sys2Proof.Machine.execDiePortDown p port s
  | .remoteAccessReceive peer r => Sys2Proof.Machine.execRemoteAccessReceive peer r s
  | .dopWrite p v => Sys2Proof.Machine.execDopWrite p v s
  | .clockRelockComplete p => Sys2Proof.Machine.execClockRelockComplete p s
  | .passWrite k v => Sys2Proof.Machine.execPassWrite k v s
  | .swalWrite k v => Sys2Proof.Machine.execSwalWrite k v s
  | .slewWrite k v => Sys2Proof.Machine.execSlewWrite k v s
  | .powerCapControl k pass bits => Sys2Proof.Machine.execPowerCapControl k pass bits s
  | .thermalThreshold p temp => Sys2Proof.Machine.execThermalThreshold p temp s
  | .leakDetected => Sys2Proof.Machine.execLeakDetected s
  | .leakCleared => Sys2Proof.Machine.execLeakCleared s
  | .mainEnHigh => Sys2Proof.Machine.execMainEnHigh s
  | .railsInRegulation => Sys2Proof.Machine.execRailsInRegulation s
  | .mainInputDropout => Sys2Proof.Machine.execMainInputDropout s
  | .coldReset => Sys2Proof.Machine.execColdReset s
  | .leaseNAssert => Sys2Proof.Machine.execLeaseNAssert s
  | .bctlLrst => Sys2Proof.Machine.execBctlLrst s
  | .bctlGo => Sys2Proof.Machine.execBctlGo s
  | .bootSelfTestComplete map => Sys2Proof.Machine.execBootSelfTestComplete map s
  | .scrubComplete => Sys2Proof.Machine.execScrubComplete s
  | .imageMeasured image => Sys2Proof.Machine.execImageMeasured image s
  | .smbusLeaseReset => Sys2Proof.Machine.execSmbusLeaseReset s
  | .smbusWriteLimits bytes => Sys2Proof.Machine.execSmbusWriteLimits bytes s
  | .smbusReadRecord => Sys2Proof.Machine.execSmbusReadRecord s
  | .smbusReadLimits => Sys2Proof.Machine.execSmbusReadLimits s
  | .smbusReadCoolant => Sys2Proof.Machine.execSmbusReadCoolant s
  | .registerWrite space off v => Sys2Proof.Machine.execRegisterWrite space off v s
  | .instructionFetch gk => Sys2Proof.Machine.execInstructionFetch gk s
  | .issueSlotCharge => Sys2Proof.Machine.execIssueSlotCharge s
  | .linkTraining link lanes => Sys2Proof.Machine.execLinkTraining link lanes s
  | .vfEnable => Sys2Proof.Machine.execVfEnable s

end Sys2Proof.Machine
end

