-- ==== Sys2Proof/Machine/Step.lean ====
section
/-! DEFINITION. One step of the device, and the placing of a word where the next step fetches it. -/

namespace Sys2Proof.Machine

/-- One step: the next turn of the agenda, or the passing of a clock when it is empty. A turn of an issue slot fetches,
decodes and executes one instruction (06_issue R133); a probe gives a chosen group's instruction to its meaning to see whether
it is held, and keeps no more than that (06 R137). DESIGN CHOICE (log 45). -/
def step (s : State) : Host.Outcome State Fault Refusal :=
  match s.agenda with
  | [] => .next s.nextClock
  | .event e :: r => { s with agenda := r }.perform e
  | .input i :: r => exec i { s with agenda := r }
  | .probe c n :: r =>
    let s := { s with agenda := r }
    match s.issueStart c n with
    | (_, none) => .next s
    | (s', some i) =>
      match exec i s' with
      | .next t => .next (if t.cur.isSome then t.probeHeld c n (s'.cur.getD ⟨0, 0, 0, false, 0, 0, []⟩) else s)
      | .fault f => .fault f
      | .refused f => .refused f
  | .issue c n :: r =>
    match { s with agenda := r }.issueStart c n with
    | (s', none) => .next s'
    | (s', some i) =>
      match exec i s' with
      | .next t => .next (t.issueEnd c n (s'.cur.getD ⟨0, 0, 0, false, 0, 0, []⟩))
      | .fault f => .fault f
      | .refused f => .refused f

/-! ## A word at the next fetch -/

/-- Where the placed word stands: virtual page 1 is mapped to physical page 1. DESIGN CHOICE (log 5). -/
def benchCode : Nat := 0x10000

/-- The page table of the placed grid: four tables at 0x80000, and one run that maps virtual pages 0 to 15 to the
physical pages of the same numbers with every permission (10 R242 to R245). DESIGN CHOICE (log 5). -/
def benchTable : List (Nat × Byte) :=
  place 0x80000 8 (0x82000 + 1) ++ place 0x82000 8 (0x84000 + 1) ++ place 0x84000 8 (0x86000 + 1)
    ++ (List.range 16).flatMap fun i => place (0x86000 + 8 * i) 8 ((15 - i) * 2 ^ 55 + 2 ^ 16 * i + 0x3F)

/-- The packet of the placed grid (02 R40): one team of one full group with 16 tiles, 16 weight slots, a lane slice of
256 bytes, 1,024 bytes of scratch and one barrier. DESIGN CHOICE (log 5). -/
def benchPacket : Packet :=
  { hdr := 0x00010001, tbase := 0, code := BitVec.ofNat 64 benchCode, gridx := 1, gridy := 1, gridz := 1,
    teamx := 32, teamy := 1, teamz := 1, res := 0x4210, scratch := 1024, bars := 1, psize := 0,
    param := 0, spill := 0, spillsz := 0, rsv := 0, w0addr := 0, w0val := 0, w1addr := 0, w1val := 0,
    sigaddr := 0, sigval := 0, ring := 0, corrid := 0 }

/-- A privileged context of function 0 with the table, running one started team, whose group 0 stands at the placed
word on issue slot 0 of core 0; the word is in memory and in the instruction cache of its core pair. What the device
loads through a queue, a packet and a dispatcher is put in place directly (log 5). -/
def State.withFetchWord (s : State) (_nbits w : Nat) : State :=
  let code := bytesOf w 12
  let t : Team :=
    { grid := 0, idx := 0, d := 0, cores := [0], b := 0, laneRuns := [(0, 2)], tiles := [(0, List.range 16)],
      wrun := [(0, 0)], bars := [0], started := true, startAt := 0 }
  let g : Group := { startGroup 0 t benchPacket 0 0 with lanes := startThreads benchPacket 0 }
  { s with
    ctxs := s.ctxs.put 0 { s.ctx 0 with ptbase := 0x80000, en := true, halt := false }
    grids := s.grids.put 0 { pkt := benchPacket, ck := 0, q := 0, dev := false, depth := 1, parent := none, stage := .released }
    teams := s.teams.put 0 t
    groups := s.groups.put 0 g
    barSlots := s.barSlots.put 0 { owner := 0, isGrid := false }
    cores := s.cores.put 0 { s.core 0 with run0 := some { gk := 0, n := 0 } }
    icache := { pair := 0, ck := 0, va := benchCode, bytes := code ++ List.replicate 52 0, cls := 0, cause := 0 } ::
      s.icache.filter fun l => !(l.pair = 0 && l.ck = 0 && l.va = benchCode)
    mem := (benchTable ++ placeList benchCode code).foldl (fun m e => m.write 0 e.1 e.2) s.mem
    baseDead := false
    dies := s.dies.map fun (e : Nat × Die) => (e.1, { e.2 with relock := e.2.relock && e.2.log ≠ 0 })
    agenda := [.issue 0 0]
    cur := none }

end Sys2Proof.Machine
end

