-- ==== Sys2Proof/Machine/Reads.lean ====
section
/-! DEFINITION. What a read of a register gives, in every register space (00_scope R1, R8; 03_launching R56, R57, R60, R69 to
R73; 04 R84, R85; 06 R144; 10 R231, R249; 14 R348; 17 R408; 18 R424, R426, R429, R431; 22 R465, R468; 23 R475, R483): 64 bits from
the offset on. A reserved offset reads as zero. What a write-only register reads as is a free value (log 45). -/

namespace Sys2Proof.Machine

/-- A register at an offset of its space: its bytes and its value. -/
structure RegAt where
  base : Nat
  size : Nat
  value : Nat
deriving DecidableEq, Repr

/-- The value at an offset: what the register that holds the byte has from there on, else zero. -/
def readAt (o : Nat) : List RegAt → DWord
  | [] => 0
  | r :: rest =>
    if r.base ≤ o && o < r.base + r.size then BitVec.ofNat 64 (r.value % 2 ^ (8 * r.size) / 2 ^ (8 * (o - r.base)))
    else readAt o rest

/-- A bit as a number, at its place. -/
def flagAt (b : Bool) (k : Nat) : Nat := if b then 2 ^ k else 0

/-- A queue block (03 R60). -/
def State.readQueue (s : State) (qk o : Nat) : DWord :=
  let q := s.queue qk
  readAt o
    [⟨0x00, 8, q.base.toNat⟩, ⟨0x08, 4, q.size + flagAt q.en 7⟩, ⟨0x0C, 4, q.tail.toNat⟩, ⟨0x10, 4, q.head.toNat⟩,
     ⟨0x14, 4, flagAt q.flt 0 + flagAt q.ovr 1 + flagAt q.unc 2 + flagAt (s.queueWaits qk) 3⟩, ⟨0x18, 8, q.fault.toNat⟩]

/-- BAR0 of a function (03 R56, R57). -/
def State.readBar0 (s : State) (fn off : Nat) : DWord :=
  let f := s.fn fn
  if 0x10000 ≤ off && off < 0x20000 then
    s.readQueue (64 * (16 * fn + (off - 0x10000) / 0x1000) + off % 0x1000 / 64) (off % 64)
  else
    readAt off
      [⟨0x000, 4, fn⟩, ⟨0x008, 4, (Config.freeWord 8).toNat⟩, ⟨0x00C, 4, flagAt f.mbout 0⟩,
       ⟨0x100 + off % 0x100 / 8 * 8, if off < 0x180 then 8 else 0, (f.hwin.read 0 (off % 0x100 / 8)).toNat⟩,
       ⟨0x400, 0xC00, ofBytes ((List.range 0xC00).map fun i => f.mbuf.read 0 i)⟩]

/-- BAR2 of the physical function (23 R475). -/
def State.readBar2 (s : State) (off : Nat) : DWord :=
  readAt off
    [⟨0x000, 4, 2 ^ 28 * s.bstate + s.berr⟩, ⟨0x008, 8, s.bimg.toNat⟩, ⟨0x010, 4, s.blen.toNat⟩, ⟨0x014, 4, (Config.freeWord 0x14).toNat⟩,
     ⟨0x020, 32, ofBytes ((List.range 32).map fun i => s.nonce.read 0 i)⟩, ⟨0x040, 352, ofBytes s.recordNow⟩,
     ⟨0x200, 137, ofBytes identity⟩]

/-- The function register block of a firmware core (03 R69). -/
def State.readFn (s : State) (fn off : Nat) : DWord :=
  let f := s.fn fn
  let ck (base stride : Nat) : Ctx := s.ctx (16 * fn + (off - base) / stride)
  let at' (base stride n inner size value : Nat) : RegAt :=
    ⟨base + (off - base) / stride * stride + inner, if base ≤ off && off < base + stride * n then size else 0, value⟩
  let c := ck 0 32
  let d := ck 0x800 16
  let t := ck 0xC40 16
  let h := ck 0xC00 4
  let four (base : Nat) : Nat := (off - base) % 32 / 8
  readAt off
    [at' 0 32 16 0x00 8 c.ptbase.toNat, at' 0 32 16 0x08 8 c.notify.toNat, at' 0 32 16 0x10 8 c.save.toNat,
     at' 0 32 16 0x18 4 (flagAt c.en 0),
     ⟨0x200, 4, f.erbase.toNat⟩, ⟨0x204, 4, f.ersize + flagAt f.eren 31⟩, ⟨0x208, 4, f.erw.toNat⟩, ⟨0x20C, 4, f.err.toNat⟩,
     ⟨0x210, 4, 2 ^ 16 * f.lost + f.held.length⟩,
     at' 0x400 4 128 0 4 ((ck 0x400 32).grants.read 0 ((off - 0x400) % 32 / 4)).toNat,
     at' 0x800 16 16 0 8 (2 ^ 16 * d.sdaddr), at' 0x800 16 16 8 4 (flagAt d.shooting 31 + 2 * d.sdnpg + flagAt d.sdall 0),
     at' 0x900 4 16 0 4 (flagAt (ck 0x900 4).ovchk 0),
     at' 0xA00 8 64 0 8 ((ck 0xA00 32).bkpt.read 0 (four 0xA00)).toNat,
     at' 0xC00 4 16 0 4 (flagAt h.halt 0 + flagAt h.stopped 1 + flagAt h.dump 2),
     at' 0xC40 16 16 0 8 t.trcbase.toNat, at' 0xC40 16 16 8 4 t.trcctl.toNat,
     at' 0xE00 8 64 0 8 ((ck 0xE00 32).lmap.read 0 (four 0xE00)).toNat,
     at' 0x1000 1 1024 0 1 (f.qvec.read 0 (off - 0x1000)).toNat]

/-- STATE of DIECTL (22 R468). -/
def DieStage.code : DieStage → Nat
  | .running => 0
  | .inReset => 1
  | .fenced => 2
  | .dropped => 3

/-- The dispatcher register block (03 R69). -/
def State.readDispatcher (s : State) (off : Nat) : DWord :=
  let at' (base stride n inner size value : Nat) : RegAt :=
    ⟨base + (off - base) / stride * stride + inner, if base ≤ off && off < base + stride * n then size else 0, value⟩
  let die := s.die ((off - 0x80) / 4)
  let k := (off - 0x300) / 16
  let c := s.core ((off - 0x1000) / 8)
  readAt off
    [at' 0 4 8 0 4 (s.dage.read 0x186A0 (off / 4)).toNat, ⟨0x40, 4, s.pgrace.toNat⟩,
     at' 0x80 4 8 0 4 (2 ^ 12 * die.log + 2 ^ 6 * die.stage.code + flagAt (die.stage = .fenced) 1),
     at' 0x100 4 128 0 4 (s.octets.read 0x8001FFFF ((off - 0x100) / 4)).toNat,
     at' 0x300 16 16 0 4 (s.cluster k).pass, at' 0x300 16 16 4 4 (s.cluster k).swal.toNat, at' 0x300 16 16 8 4 (s.cluster k).step,
     at' 0x300 16 16 12 4 (s.pstat k).toNat,
     at' 0x400 4 8 0 4 (s.die ((off - 0x400) / 4)).dop,
     at' 0x500 4 32 0 4 (s.slices.read 0 ((off - 0x500) / 4)).toNat,
     at' 0x1000 8 1024 0 4 c.llctl.toNat, at' 0x1000 8 1024 4 4 (2 ^ 6 * c.llLast + c.cap),
     at' 0x40000 8 (32 * 1024) 0 8
       (if (off - 0x40000) % 0x100 / 8 ≤ 0x10 then s.leafCount ((off - 0x40000) / 0x100) ((off - 0x40000) % 0x100 / 8) else 0)]

/-- The MSI-X table with its pending bits from 0x400 on, and the capabilities of a function, which read as nothing while its
configuration requests are retried (00_scope R8; 23 R474). PRESUMED (log 49). -/
def State.readConfig (s : State) (fn : Nat) (table : Bool) (off : Nat) : DWord :=
  let f := s.fn fn
  let row (o n v : Nat) : RegAt := ⟨off / 16 * 16 + o, if off < 1024 then n else 0, v⟩
  if table then
    readAt off
      [row 0 8 (f.vecAddr.read 0 (off / 16)).toNat, row 8 4 (f.vecData.read 0 (off / 16)).toNat,
       row 12 4 (flagAt (bitOf f.vecMask (off / 16)) 0), ⟨0x400, 8, f.vecPend.toNat⟩]
  else if s.retried fn then 0
  else
    readAt off
      ([⟨0, 4, flagAt f.msixEn 15 + flagAt f.msixMask 14 + 63⟩, ⟨0x04, 4, f.aer.toNat⟩, ⟨0x08, 4, f.aerMask.toNat⟩,
        ⟨0x0C, 4, f.aerSev.toNat⟩, ⟨0x10, 4, f.aerCor.toNat⟩, ⟨0x14, 4, f.aerCorMask.toNat⟩, ⟨0x18, 4, f.aerFirst⟩] ++
       (List.range 4).map fun k => ⟨0x1C + 4 * k, 4, (f.aerLog.getD k 0).toNat⟩)

/-- What a read at an offset of a register space gives. -/
def State.readReg (s : State) (space : RegSpace) (off : Nat) : DWord :=
  match space with
  | .bar0 fn => s.readBar0 fn off
  | .bar2 => s.readBar2 off
  | .fnBlock fn => s.readFn fn off
  | .dispatcher => s.readDispatcher off
  | .msix fn => s.readConfig fn true off
  | .config fn => s.readConfig fn false off

end Sys2Proof.Machine
end

