-- ==== Sys2Proof/WellFormed.lean ====
section
/-! DEFINITION. Which terms of Instr are steps of this device: typed conditions on the fields of an instruction word, each
the check of 05_encoding R118 that the term's word would meet (guard, form, operands, modifiers, hints), and the ranges
of the units that another agent's step names (01_machine R15). Stated over the terms, apart from the decoder. -/

namespace Sys2Proof

/-- A guard: `!p0` is reserved (05 R112, R118 step 3). -/
def Head.ok (h : Head) : Bool := h.gp < 8 && !(h.neg && h.gp = 0)

/-- The kind of an operand (05 R105). -/
def Operand.kind : Operand → Nat
  | .win _ => 0 | .scal _ => 1 | .pred _ => 2 | .tmap _ => 3 | .acc _ => 4 | .special _ => 5 | .imm _ => 6 | .zero => 7

/-- The index of an operand; an immediate and `zero` have index 0 (05 R105). -/
def Operand.index : Operand → Nat
  | .win i | .scal i | .pred i | .tmap i | .acc i | .special i => i
  | .imm _ | .zero => 0

/-- An operand stands where one of these kinds and register counts is accepted: its kind, its index in range, and a pair
or a quad aligned (05 R105, R106). -/
def Operand.fits (tiles : Nat) (acc : List (Nat × Nat)) (o : Operand) : Bool :=
  acc.any fun kw => kw.1 = o.kind && indexOk tiles o.kind o.index && o.index % max kw.2 1 = 0

/-- Some operand is an immediate. -/
def immUsed (d a b : Operand) : Bool := d.isImm || a.isImm || b.isImm

/-- At most one operand of a word takes the value of IMM (05 R107). -/
def immOnce (d a b : Operand) : Bool := !(d.isImm && a.isImm) && !(d.isImm && b.isImm) && !(a.isImm && b.isImm)

/-! ## Scalar and vector instructions (09_compute R200 to R225) -/

/-- The lane instructions of class 0b01, which share no opcode with class 0b00. -/
def laneOpcode (u op : Nat) : Bool := u = 1 && ((0x39 ≤ op && op ≤ 0x3C) || 0x50 ≤ op)

/-- Kinds and register counts of a field of the term. -/
def Arith.accepts (u op : Nat) (f : Arith) (field : Nat) : List (Nat × Nat) :=
  if laneOpcode u op then laneAccepts op f.ty.code field
  else arithAccepts u op f.ty.code f.sty.code f.rm.code field

/-- The type is one that the opcode accepts (step 4). -/
def Arith.formOk (u op : Nat) (f : Arith) : Bool :=
  if laneOpcode u op then
    if op ≤ 0x3C ∨ op = 0x55 then f.ty = .none
    else if op ≤ 0x56 then f.ty = .b32 || f.ty = .b64
    else if 0x5B ≤ op ∧ op ≤ 0x5D then f.ty.code ∈ tyB ++ tyI
    else f.ty.code ∈ tyI ++ tyF
  else f.ty.code ∈ arithTypes op

/-- The operands stand where they may (step 5). -/
def Arith.operandsOk (u op : Nat) (f : Arith) : Bool :=
  f.d.fits 0 (f.accepts u op 1) && f.a.fits 0 (f.accepts u op 2) && f.b.fits 0 (f.accepts u op 3)
    && immOnce f.d f.a f.b

/-- The third source operand of an instruction that has one (R201, R215). -/
def Arith.thirdOk (u op : Nat) (f : Arith) : Bool :=
  let w := if op = 0x2D ∨ op = 0x38 then 1 else f.ty.regs
  if op = 0x38 then f.c.fits 16 (if u = 1 then [(2, 0)] else [(1, 1)])
  else f.c.fits 16 ((if u = 1 then [(0, w)] else []) ++ [(1, w), (7, 0)])

/-- Source type, element and rounding of a conversion (R218). -/
def Arith.conversionOk (f : Arith) : Bool :=
  let s := f.sty.code
  let t := f.ty.code
  let m := min f.sty.slot f.ty.slot
  f.c = .zero && s ∈ tyI ++ tyF ++ tyNarrow && s ≠ t
    && (if s = 0x19 then t = 0x12 else if t = 0x19 then s = 0x12 else true)
    && (f.rm = .rn || !(s ∈ tyI && t ∈ tyI))
    && (f.rm ≠ .rs || t ∈ tyNarrow)
    && (if m < 32 then f.sub < 32 / m && f.sub < 8 else f.sub = 0)

/-- The modifiers: with an immediate there are none (R200); without one, rounding where the opcode rounds, SH of `lea`, the
third operand (step 6). -/
def Arith.modifiersOk (u op : Nat) (f : Arith) : Bool :=
  if immUsed f.d f.a f.b then f.rm = .rn && f.sub = 0 && f.sty = .none && f.c = .zero
  else if !laneOpcode u op && op = 0x40 then f.conversionOk
  else
    f.sty = .none
      && (f.rm = .rn || ((if laneOpcode u op then op = 0x58 || op = 0x5E else rounds op) && f.ty.code ∈ tyF && f.rm ≠ .rs))
      && (if !laneOpcode u op && op = 0x1F then f.sub < 8 else f.sub = 0)
      && (if !laneOpcode u op && usesC op then f.thirdOk u op else f.c = .zero)

/-- An arithmetic instruction is encodable (05 R104 to R111; 09 R200). -/
def Arith.wellFormed (u op : Nat) (f : Arith) : Bool :=
  f.h.ok && f.formOk u op && f.operandsOk u op && f.modifiersOk u op

/-! ## Memory instructions and atomics (05 R110, R111; 11 R258, R259; 15 R368) -/

/-- Space and size that the opcode accepts (step 4). -/
def MemF.formOk (u op : Nat) (f : MemF) : Bool :=
  let plainForm := f.space = .gl && f.size = .s8
  if u = 0 then
    if op = 0x80 then f.space ≠ .ln
    else if op = 0x82 then f.space ≠ .ln && f.size ≠ .i8 && f.size ≠ .i16
    else plainForm
  else if 0x90 ≤ op then f.space ≠ .ln && (f.size = .s32 || f.size = .s64)
  else if op = 0x80 then true
  else if op = 0x81 then f.space = .gl
  else if op = 0x82 then f.size ≠ .i8 && f.size ≠ .i16
  else plainForm

/-- The operands of a memory instruction are of the kinds that its row allows (11 R258). -/
def MemF.operandsOk (u op : Nat) (f : MemF) : Bool :=
  let k := f.space.code * 8 + f.size.code
  f.d.fits 0 (memAccepts u op k 1) && f.a.fits 0 (memAccepts u op k 2) && f.b.fits 0 (memAccepts u op k 3)
    && !(u = 1 && op = 0x81 && f.b.index = 0)

/-- Ordering, scope and element class (step 6). -/
def MemF.modifiersOk (op : Nat) (f : MemF) : Bool :=
  let strong := (f.size = .s32 || f.size = .s64) && scopeOk f.space.code f.sco.code
  let none := f.ord = .plain && f.sco = .none && f.ecl = .natural
  if op = 0x85 then none && f.ofs = 0
  else if op = 0x81 ∨ op = 0x83 ∨ op = 0x84 ∨ op = 0x86 then none
  else if op = 0x80 then
    f.ecl = .natural && (match f.ord with
      | .plain => f.sco = .none
      | .rp => f.space = .gl && strong && (f.sco = .device || f.sco = .system)
      | .rlx | .acq => strong
      | .rel | .ar => false)
  else if op = 0x82 then
    f.ecl = .natural && (match f.ord with
      | .plain => f.sco = .none
      | .rlx | .rel => strong
      | .acq | .ar | .rp => false)
  else
    scopeOk f.space.code f.sco.code
      && (if 0x98 ≤ op then f.ord = .rlx || f.ord = .rel else f.ord ≠ .plain && f.ord ≠ .rp)
      && ((if 0x98 ≤ op then op ≤ 0x9A else op ≤ 0x92) || f.ecl = .natural)

/-- RD on a load or prefetch of `.gl`, HV on an access of `.gl` (step 7; 05 R114, R115). -/
def MemF.hintsOk (op : Nat) (f : MemF) : Bool :=
  (f.rd = 0 || (f.space = .gl && (op = 0x80 || op = 0x81 || op = 0x83))) && (f.home.isNone || f.space = .gl)

/-- A memory instruction is encodable (11 R258). -/
def MemF.wellFormed (u op : Nat) (f : MemF) : Bool :=
  f.h.ok && f.formOk u op && f.operandsOk u op && f.modifiersOk op && f.hintsOk op

/-! ## Matrix and residency instructions (12 R295, R296; 13 R317) -/

/-- The modifiers of a matrix instruction are legal (12 R296). -/
def MatF.formOk (op : Nat) (f : MatF) : Bool :=
  if op ≤ 0x05 then f.ty.code ∈ tyMul
  else if op = 0x07 then f.ty = .f32 || f.ty = .f16 || f.ty = .bf16 || f.ty = .i32
  else if op = 0x08 then f.ty ∈ [.f32, .f16, .bf16, .e4m3, .e5m2, .i32, .i8]
  else if op = 0x09 then f.ty = .f32 || f.ty = .f16 || f.ty = .bf16
  else f.ty = .none

/-- The operands of a matrix instruction are of the kinds that its row allows (12 R296). -/
def MatF.operandsOk (tiles op : Nat) (f : MatF) : Bool :=
  f.d.fits tiles (engineAccepts op f.ty.code f.b.kind 1) && f.a.fits tiles (engineAccepts op f.ty.code f.b.kind 2)
    && f.b.fits tiles (engineAccepts op f.ty.code f.b.kind 3)

/-- The fields that a matrix row does not use are zero (12 R296). -/
def MatF.modifiersOk (op : Nat) (f : MatF) : Bool :=
  let noBlock := f.row = 0 && f.blk = 0
  if op ≤ 0x02 then f.rm = .rn && f.row = 0 && f.blk < 32 && etOk f.ty.code f.et.code
  else if op ≤ 0x05 then f.rm = .rn && noBlock && etOk f.ty.code f.et.code
  else if op = 0x07 ∨ op = 0x08 then f.rm ≠ .rs && noBlock && f.et = .none && !(op = 0x08 && f.ty = .i32 && f.rm ≠ .rn)
  else if op = 0x09 then f.rm ≠ .rs && f.row < 64 && f.blk = 0 && f.et = .none
  else f.rm = .rn && noBlock && f.et = .none

/-- A matrix instruction is encodable (12 R296). -/
def MatF.wellFormed (tiles op : Nat) (f : MatF) : Bool :=
  f.h.ok && f.formOk op && f.operandsOk tiles op && f.modifiersOk op

/-- The modifiers of a residency instruction are legal (13 R317). -/
def ResF.formOk (op : Nat) (f : ResF) : Bool := if op = 0x20 then f.ty.code ∈ tyMul else f.ty = .none

/-- The operands of a residency instruction are of the kinds that its row allows (13 R317). -/
def ResF.operandsOk (op : Nat) (f : ResF) : Bool :=
  f.d.fits 0 (engineAccepts op f.ty.code f.b.kind 1) && f.a.fits 0 (engineAccepts op f.ty.code f.b.kind 2)
    && f.b.fits 0 (engineAccepts op f.ty.code f.b.kind 3)

/-- `ralloc` gives NS (odd slots of a 16-bit type are refused), PIN, PAIR, the half and PF; `rload` gives BLK, HALF, WATCH
and PF; the others give nothing (13 R317). -/
def ResF.modifiersOk (op : Nat) (f : ResF) : Bool :=
  let none := f.et = .none && !f.pin && !f.pair && !f.watch && !f.half && f.ns = 0 && f.pf = 0 && f.blk = 0
  if op = 0x20 then
    !f.watch && !f.half && f.ns < 16 && f.pf < 8 && f.blk = 0 && etOk f.ty.code f.et.code
      && !((f.ty = .f16 || f.ty = .bf16) && f.ns % 2 = 0)
  else if op = 0x21 then
    !f.pin && !f.pair && f.ns = 0 && f.pf < 8 && f.blk < 32 && f.et = .none && !(f.watch && f.b.kind = 3)
  else none

/-- `map`: B is a tile map (`some true`), a scalar (`some false`), or it does not matter. -/
def ResF.wellFormed (op : Nat) (map : Option Bool) (f : ResF) : Bool :=
  f.h.ok && f.formOk op && f.operandsOk op && f.modifiersOk op
    && (match map with
      | some true => f.b.kind = 3
      | some false => f.b.kind ≠ 3
      | none => true)

/-! ## The other words -/

/-- Kinds and register counts of a field; a special register's width is that of `mrs` and `msr` (17 R404, R405). -/
def Op3.accepts (u op : Nat) (f : Op3) (field : Nat) : List (Nat × Nat) :=
  match u with
  | 1 => if field = 1 ∧ op = 0xA1 then [(0, 1), (7, 0)] else if field = 1 ∧ op = 0xA3 then [(0, 1)] else [(7, 0)]
  | 2 => engineAccepts op 0 f.b.kind field
  | _ => controlAccepts op f.d.bits f.a.bits field

/-- The operands of another instruction are of the kinds that its row allows (05 R121). -/
def Op3.operandsOk (u op : Nat) (f : Op3) : Bool :=
  f.d.fits 0 (f.accepts u op 1) && f.a.fits 0 (f.accepts u op 2) && f.b.fits 0 (f.accepts u op 3)
    && immOnce f.d f.a f.b
    && !(u = 3 && op = 0x64 && ((srInfo f.d.index).map (·.2)) = some .ro)

/-- What IMM may hold where no operand takes it: targets, offsets and bitmaps any value; codes, masks and selectors their
ranges; else zero (step 6). -/
def immediateOk (u op : Nat) (imm : Word) : Bool :=
  let n := imm.toNat
  match u with
  | 1 => if op = 0xA0 then true else if op = 0xA2 then n < 256 else n = 0
  | 2 => n = 0
  | _ =>
    match op with
    | 0x01 | 0x02 | 0x03 | 0x04 | 0x06 | 0x08 | 0x0C | 0x0D | 0x0E | 0x30 | 0x31 | 0x62 => true
    | 0x0A | 0x0B => n < 4
    | 0x20 => n < 256 && n % 4 = 0 && 2 ≤ n / 32 && n / 32 ≤ 4 && 1 ≤ n / 4 % 8 && n / 4 % 8 ≤ 6
    | 0x60 | 0x65 | 0x68 => n < 256
    | 0x61 => n < 2
    | 0x67 => n ≤ 0x11 || (0x20 ≤ n && n ≤ 0x23)
    | _ => n = 0

/-- The fields that another row does not use are zero (05 R121). -/
def Op3.modifiersOk (u op : Nat) (f : Op3) : Bool :=
  (if immUsed f.d f.a f.b then f.imm = 0 else immediateOk u op f.imm) && (f.rd = 0 || (u = 2 && op = 0x40))

/-- Another instruction is encodable (05 R121). -/
def Op3.wellFormed (u op : Nat) (priv : Bool) (f : Op3) : Bool :=
  f.h.ok && f.operandsOk u op && f.modifiersOk u op && (priv || !privileged (u * 256 + op))

/-! ## Units (01_machine R15) -/

/-- A function number. -/
def fnOk (n : Nat) : Bool := n < 17
/-- A context key. -/
def ckOk (n : Nat) : Bool := n < 272
/-- A queue key. -/
def queueOk (n : Nat) : Bool := n < 272 * 64
/-- A core number. -/
def coreOk (n : Nat) : Bool := n < 1024
/-- A group key. -/
def groupOk (n : Nat) : Bool := n < 32 * 1024
/-- A die number. -/
def dieOk (n : Nat) : Bool := n < 8
/-- A cluster number. -/
def clusterOk (n : Nat) : Bool := n < 16
/-- Package links 0 to 11, then sixteen ports a die (22 R460, R464). -/
def linkOk (n : Nat) : Bool := n < 140

/-- The place of a register in its space: 4 or 8 byte aligned and inside the space (03 R57, R69). -/
def RegSpace.ok : RegSpace → Bool
  | .bar0 n | .fnBlock n | .msix n | .config n => fnOk n
  | .bar2 | .dispatcher => true

/-- The term is a step of this device: an instruction word that a team with `tiles` accumulator tiles may execute in a
context that is privileged or not, or a step of another agent that names units of the device. -/
def Instr.wellFormed (tiles : Nat) (priv : Bool) : Instr → Bool
  | .mov f => f.wellFormed 0 0x01
  | .vmov f => f.wellFormed 1 0x01
  | .add f => f.wellFormed 0 0x02
  | .vadd f => f.wellFormed 1 0x02
  | .sub f => f.wellFormed 0 0x03
  | .vsub f => f.wellFormed 1 0x03
  | .mul f => f.wellFormed 0 0x04
  | .vmul f => f.wellFormed 1 0x04
  | .mulhi f => f.wellFormed 0 0x05
  | .vmulhi f => f.wellFormed 1 0x05
  | .mad f => f.wellFormed 0 0x06
  | .vmad f => f.wellFormed 1 0x06
  | .madhi f => f.wellFormed 0 0x07
  | .vmadhi f => f.wellFormed 1 0x07
  | .div f => f.wellFormed 0 0x08
  | .vdiv f => f.wellFormed 1 0x08
  | .rem f => f.wellFormed 0 0x09
  | .vrem f => f.wellFormed 1 0x09
  | .min f => f.wellFormed 0 0x0A
  | .vmin f => f.wellFormed 1 0x0A
  | .max f => f.wellFormed 0 0x0B
  | .vmax f => f.wellFormed 1 0x0B
  | .abs f => f.wellFormed 0 0x0C
  | .vabs f => f.wellFormed 1 0x0C
  | .neg f => f.wellFormed 0 0x0D
  | .vneg f => f.wellFormed 1 0x0D
  | .adds f => f.wellFormed 0 0x0E
  | .vadds f => f.wellFormed 1 0x0E
  | .subs f => f.wellFormed 0 0x0F
  | .vsubs f => f.wellFormed 1 0x0F
  | .and f => f.wellFormed 0 0x10
  | .vand f => f.wellFormed 1 0x10
  | .or f => f.wellFormed 0 0x11
  | .vor f => f.wellFormed 1 0x11
  | .xor f => f.wellFormed 0 0x12
  | .vxor f => f.wellFormed 1 0x12
  | .not f => f.wellFormed 0 0x13
  | .vnot f => f.wellFormed 1 0x13
  | .shl f => f.wellFormed 0 0x14
  | .vshl f => f.wellFormed 1 0x14
  | .shr f => f.wellFormed 0 0x15
  | .vshr f => f.wellFormed 1 0x15
  | .sar f => f.wellFormed 0 0x16
  | .vsar f => f.wellFormed 1 0x16
  | .rot f => f.wellFormed 0 0x17
  | .vrot f => f.wellFormed 1 0x17
  | .bfx f => f.wellFormed 0 0x18
  | .vbfx f => f.wellFormed 1 0x18
  | .bfi f => f.wellFormed 0 0x19
  | .vbfi f => f.wellFormed 1 0x19
  | .popc f => f.wellFormed 0 0x1A
  | .vpopc f => f.wellFormed 1 0x1A
  | .clz f => f.wellFormed 0 0x1B
  | .vclz f => f.wellFormed 1 0x1B
  | .ctz f => f.wellFormed 0 0x1C
  | .vctz f => f.wellFormed 1 0x1C
  | .brev f => f.wellFormed 0 0x1D
  | .vbrev f => f.wellFormed 1 0x1D
  | .bswp f => f.wellFormed 0 0x1E
  | .vbswp f => f.wellFormed 1 0x1E
  | .lea f => f.wellFormed 0 0x1F
  | .vlea f => f.wellFormed 1 0x1F
  | .fma f => f.wellFormed 0 0x20
  | .vfma f => f.wellFormed 1 0x20
  | .rcp f => f.wellFormed 0 0x21
  | .vrcp f => f.wellFormed 1 0x21
  | .rsq f => f.wellFormed 0 0x22
  | .vrsq f => f.wellFormed 1 0x22
  | .sqrt f => f.wellFormed 0 0x23
  | .vsqrt f => f.wellFormed 1 0x23
  | .exp2 f => f.wellFormed 0 0x24
  | .vexp2 f => f.wellFormed 1 0x24
  | .log2 f => f.wellFormed 0 0x25
  | .vlog2 f => f.wellFormed 1 0x25
  | .sin f => f.wellFormed 0 0x26
  | .vsin f => f.wellFormed 1 0x26
  | .cos f => f.wellFormed 0 0x27
  | .vcos f => f.wellFormed 1 0x27
  | .tanh f => f.wellFormed 0 0x28
  | .vtanh f => f.wellFormed 1 0x28
  | .frnd f => f.wellFormed 0 0x29
  | .vfrnd f => f.wellFormed 1 0x29
  | .fcls f => f.wellFormed 0 0x2A
  | .vfcls f => f.wellFormed 1 0x2A
  | .csgn f => f.wellFormed 0 0x2B
  | .vcsgn f => f.wellFormed 1 0x2B
  | .scl f => f.wellFormed 0 0x2C
  | .vscl f => f.wellFormed 1 0x2C
  | .dp2 f => f.wellFormed 0 0x2D
  | .vdp2 f => f.wellFormed 1 0x2D
  | .cmpEq f => f.wellFormed 0 0x30
  | .vcmpEq f => f.wellFormed 1 0x30
  | .cmpNe f => f.wellFormed 0 0x31
  | .vcmpNe f => f.wellFormed 1 0x31
  | .cmpLt f => f.wellFormed 0 0x32
  | .vcmpLt f => f.wellFormed 1 0x32
  | .cmpLe f => f.wellFormed 0 0x33
  | .vcmpLe f => f.wellFormed 1 0x33
  | .cmpGt f => f.wellFormed 0 0x34
  | .vcmpGt f => f.wellFormed 1 0x34
  | .cmpGe f => f.wellFormed 0 0x35
  | .vcmpGe f => f.wellFormed 1 0x35
  | .cmpNum f => f.wellFormed 0 0x36
  | .vcmpNum f => f.wellFormed 1 0x36
  | .cmpNan f => f.wellFormed 0 0x37
  | .vcmpNan f => f.wellFormed 1 0x37
  | .sel f => f.wellFormed 0 0x38
  | .vsel f => f.wellFormed 1 0x38
  | .cvt f => f.wellFormed 0 0x40
  | .vcvt f => f.wellFormed 1 0x40
  | .pack f => f.wellFormed 0 0x41
  | .vpack f => f.wellFormed 1 0x41
  | .unpk f => f.wellFormed 0 0x42
  | .vunpk f => f.wellFormed 1 0x42
  | .pand f => f.wellFormed 1 0x39
  | .por f => f.wellFormed 1 0x3A
  | .pxor f => f.wellFormed 1 0x3B
  | .pnot f => f.wellFormed 1 0x3C
  | .vtos f => f.wellFormed 1 0x50
  | .stov f => f.wellFormed 1 0x51
  | .vshfl f => f.wellFormed 1 0x52
  | .vbfly f => f.wellFormed 1 0x53
  | .vbcast f => f.wellFormed 1 0x54
  | .vballot f => f.wellFormed 1 0x55
  | .vmatch f => f.wellFormed 1 0x56
  | .vredAdd f => f.wellFormed 1 0x58
  | .vredMin f => f.wellFormed 1 0x59
  | .vredMax f => f.wellFormed 1 0x5A
  | .vredAnd f => f.wellFormed 1 0x5B
  | .vredOr f => f.wellFormed 1 0x5C
  | .vredXor f => f.wellFormed 1 0x5D
  | .vscanAdd f => f.wellFormed 1 0x5E
  | .vscanMin f => f.wellFormed 1 0x5F
  | .vscanMax f => f.wellFormed 1 0x60
  | .ldScalar f => f.wellFormed 0 0x80
  | .ldVector f => f.wellFormed 1 0x80
  | .ldNr f => f.wellFormed 1 0x81
  | .stScalar f => f.wellFormed 0 0x82
  | .stVector f => f.wellFormed 1 0x82
  | .pfScalar f => f.wellFormed 0 0x83
  | .pfVector f => f.wellFormed 1 0x83
  | .pgreqScalar f => f.wellFormed 0 0x84
  | .pgreqVector f => f.wellFormed 1 0x84
  | .cinv f => f.wellFormed 1 0x85
  | .cdem f => f.wellFormed 1 0x86
  | .atomAdd f => f.wellFormed 1 0x90
  | .atomMin f => f.wellFormed 1 0x91
  | .atomMax f => f.wellFormed 1 0x92
  | .atomAnd f => f.wellFormed 1 0x93
  | .atomOr f => f.wellFormed 1 0x94
  | .atomXor f => f.wellFormed 1 0x95
  | .atomExch f => f.wellFormed 1 0x96
  | .atomCas f => f.wellFormed 1 0x97
  | .aredAdd f => f.wellFormed 1 0x98
  | .aredMin f => f.wellFormed 1 0x99
  | .aredMax f => f.wellFormed 1 0x9A
  | .aredAnd f => f.wellFormed 1 0x9B
  | .aredOr f => f.wellFormed 1 0x9C
  | .aredXor f => f.wellFormed 1 0x9D
  | .xbegin f => f.wellFormed 1 0xA0 priv
  | .xend f => f.wellFormed 1 0xA1 priv
  | .xabort f => f.wellFormed 1 0xA2 priv
  | .xstat f => f.wellFormed 1 0xA3 priv
  | .mma f => f.wellFormed tiles 0x00
  | .mmaN2 f => f.wellFormed tiles 0x01
  | .mmaK2 f => f.wellFormed tiles 0x02
  | .mmt f => f.wellFormed tiles 0x03
  | .mmtN2 f => f.wellFormed tiles 0x04
  | .mmtK2 f => f.wellFormed tiles 0x05
  | .mzero f => f.wellFormed tiles 0x06
  | .mld f => f.wellFormed tiles 0x07
  | .mst f => f.wellFormed tiles 0x08
  | .mrow f => f.wellFormed tiles 0x09
  | .mwait f => f.wellFormed tiles 0x0A
  | .tmset f => f.wellFormed tiles 0x0B
  | .tmget f => f.wellFormed tiles 0x0C
  | .ralloc f => f.wellFormed 0x20 none
  | .rloadMap f => f.wellFormed 0x21 (some true)
  | .rloadGlobal f => f.wellFormed 0x21 (some false)
  | .rpin f => f.wellFormed 0x22 none
  | .runpin f => f.wellFormed 0x23 none
  | .rrev f => f.wellFormed 0x24 none
  | .rstat f => f.wellFormed 0x25 none
  | .rquota f => f.wellFormed 0x26 none && priv
  | .cpy f => f.wellFormed 2 0x40 priv
  | .sleepu f => f.wellFormed 2 0x41 priv
  | .sleepuChk f => f.wellFormed 2 0x42 priv
  | .barx f => f.wellFormed 2 0x43 priv
  | .bar f => f.wellFormed 2 0x44 priv
  | .barc f => f.wellFormed 2 0x45 priv
  | .bart f => f.wellFormed 2 0x46 priv
  | .barg f => f.wellFormed 2 0x47 priv
  | .nop f => f.wellFormed 3 0x00 priv
  | .bra f => f.wellFormed 3 0x01 priv
  | .brx f => f.wellFormed 3 0x02 priv
  | .call f => f.wellFormed 3 0x03 priv
  | .callx f => f.wellFormed 3 0x04 priv
  | .ret f => f.wellFormed 3 0x05 priv
  | .jopen f => f.wellFormed 3 0x06 priv
  | .join f => f.wellFormed 3 0x07 priv
  | .eject f => f.wellFormed 3 0x08 priv
  | .rejoin f => f.wellFormed 3 0x09 priv
  | .enrol f => f.wellFormed 3 0x0A priv
  | .bwaitm f => f.wellFormed 3 0x0B priv
  | .bsz f => f.wellFormed 3 0x0C priv
  | .bsnz f => f.wellFormed 3 0x0D priv
  | .loop f => f.wellFormed 3 0x0E priv
  | .exit f => f.wellFormed 3 0x0F priv
  | .launch f => f.wellFormed 3 0x12 priv
  | .fence f => f.wellFormed 3 0x20 priv
  | .regroup f => f.wellFormed 3 0x30 priv
  | .regroupHome f => f.wellFormed 3 0x31 priv
  | .cqstat f => f.wellFormed 3 0x32 priv
  | .trap f => f.wellFormed 3 0x60 priv
  | .tret f => f.wellFormed 3 0x61 priv
  | .yieldl f => f.wellFormed 3 0x62 priv
  | .mrs f => f.wellFormed 3 0x63 priv
  | .msr f => f.wellFormed 3 0x64 priv
  | .bkpt f => f.wellFormed 3 0x65 priv
  | .wpt f => f.wellFormed 3 0x66 priv
  | .pcnt f => f.wellFormed 3 0x67 priv
  | .trc f => f.wellFormed 3 0x68 priv
  | .halt f => f.wellFormed 3 0x69 priv
  | .tlbinv f => f.wellFormed 3 0x6A priv
  | .trapEntryPop gk => groupOk gk
  | .joinCompletion gk => groupOk gk
  | .bwaitmRelease gk n => groupOk gk && n < 4
  | .continuationGroupForm core => coreOk core
  | .regroupCompletion _ core => coreOk core
  | .regroupTimeout _ core => coreOk core
  | .relocationEnd _ core => coreOk core
  | .slotArbitration core slot => coreOk core && slot < 2
  | .llWindowEnd core => coreOk core
  | .slewWindowEnd core => coreOk core
  | .sleepuWake gk => groupOk gk
  | .sleepuChkWake gk => groupOk gk
  | .loadDataReturn _ => true
  | .storePerform _ => true
  | .atomicPerform _ => true
  | .releaseMarkerMet _ => true
  | .spillFillComplete _ => true
  | .pageWalkComplete _ => true
  | .transactionCommit gk => groupOk gk
  | .transactionTimeout gk lane => groupOk gk && lane < 32
  | .tokenGrant d => dieOk d
  | .copyJobDelivery _ _ => true
  | .copyJobFinish _ => true
  | .pageMigration _ => true
  | .completionRecordWrite _ => true
  | .coreBarrierPhaseComplete core _ => coreOk core
  | .barrierSlotComplete unit slot => dieOk unit && slot < 4096
  | .matrixOpExecute core => coreOk core
  | .matrixOpRetire core => coreOk core
  | .residencyRefill core _ => coreOk core
  | .rloadFillComplete core _ => coreOk core
  | .mwaitComplete gk => groupOk gk
  | .packetFetch qk => queueOk qk
  | .waitConditionCheck _ => true
  | .gridRelease _ => true
  | .deviceQueueEnqueue gk => groupOk gk
  | .teamClaim d _ => dieOk d
  | .teamPlacement d => dieOk d
  | .coresidentPlacement _ => true
  | .teamStart _ => true
  | .ageingLimitReached d => dieOk d
  | .sliceExpiry => true
  | .preemptGraceExpiry _ => true
  | .groupSave gk => groupOk gk
  | .teamSave _ => true
  | .teamResume _ => true
  | .teamRetire _ => true
  | .gridRetire _ => true
  | .qtailWrite qk _ => queueOk qk
  | .queueEnable qk _ => queueOk qk
  | .queueDisable qk _ => queueOk qk
  | .qstatFltClear qk => queueOk qk
  | .qstatOvrClear qk => queueOk qk
  | .mbinWrite fn _ => fnOk fn
  | .mboutPost fn => fnOk fn
  | .hostWindowWrite fn _ _ => fnOk fn
  | .hostWindowRead fn _ _ => fnOk fn
  | .functionLevelReset fn => fnOk fn
  | .contextDisable ck => ckOk ck
  | .eventRingEnable fn _ => fnOk fn
  | .erstatWrite fn => fnOk fn
  | .eventRingDrain fn => fnOk fn
  | .shootDownStart ck _ => ckOk ck
  | .shootDownComplete ck => ckOk ck
  | .ovchkWrite ck _ => ckOk ck
  | .lmapWrite ck i _ => ckOk ck && i < 4
  | .xsGrantWrite ck d _ => ckOk ck && dieOk d
  | .chaltHalt ck => ckOk ck
  | .chaltRelease ck => ckOk ck
  | .chaltDump ck => ckOk ck
  | .contextStopped ck => ckOk ck
  | .dieReset p => dieOk p
  | .dieFence p => dieOk p
  | .dieFenceRelease p => dieOk p
  | .dieDrop p => dieOk p
  | .dieFatalError p => dieOk p
  | .dieSelfTestEnd p _ => dieOk p
  | .baseFatalError => true
  | .cellReceive _ cell => cell.length = 64
  | .cellNakReceive _ _ => true
  | .linkRetrain link _ => linkOk link
  | .diePortDown p port => dieOk p && port < 16
  | .remoteAccessReceive _ r => fnOk r.fn && r.ctx < 16 && r.kind < 3
  | .dopWrite p _ => dieOk p
  | .clockRelockComplete p => dieOk p
  | .passWrite k _ => clusterOk k
  | .swalWrite k _ => clusterOk k
  | .slewWrite k _ => clusterOk k
  | .powerCapControl k pass _ => clusterOk k && (pass = 1 || pass = 2 || pass = 4)
  | .thermalThreshold p _ => dieOk p
  | .leakDetected => true
  | .leakCleared => true
  | .mainEnHigh => true
  | .railsInRegulation => true
  | .mainInputDropout => true
  | .coldReset => true
  | .leaseNAssert => true
  | .bctlLrst => true
  | .bctlGo => true
  | .bootSelfTestComplete _ => true
  | .scrubComplete => true
  | .imageMeasured _ => true
  | .smbusLeaseReset => true
  | .smbusWriteLimits _ => true
  | .smbusReadRecord => true
  | .smbusReadLimits => true
  | .smbusReadCoolant => true
  | .registerWrite space _ _ => space.ok
  | .instructionFetch gk => groupOk gk
  | .issueSlotCharge => true
  | .linkTraining link _ => linkOk link
  | .vfEnable => true

end Sys2Proof
end

