-- ==== Sys2Proof/Safety.lean ====
section
/-! DEFINITION. The terms in which claims about the machine are made: an answer that goes on, a group that issues, what an
instruction leaves of its group, and the invariants that a safe run keeps. -/

namespace Sys2Proof.Machine

/-- A run is safe at a step when the machine goes on from it. -/
def Safe (a : Answer) : Prop := ∃ t, a = .next t

/-- A group issues an instruction: `k` is the issue and `g` the group in its slot. No lane trapped before the instruction,
some lane of `active` executes it, and every lane that executes it holds a thread that has not exited (06 R133 to R136). -/
structure Issuing (s : State) (k : Cursor) (g : Group) : Prop where
  cur : s.cur = some k
  clean : k.traps = []
  group : s.groups.get? k.gk = some g
  nonempty : lanesOf k.active ≠ []
  within : ∀ l ∈ lanesOf k.active, l ∈ lanesOf k.full
  present : ∀ l ∈ lanesOf k.active, ∃ t, g.lanes.get? l = .some t ∧ t.exited = false

/-- The state after an issue that changed the issuing group alone, to `g`. -/
def State.issued (s : State) (k : Cursor) (g : Group) : State := { s with cur := none, groups := s.groups.put k.gk g }

/-- The group of a slot is put in place of what stands there. -/
def State.setGroup (s : State) (gk : Nat) (g : Group) : State := { s with groups := s.groups.put gk g }

/-- From group `g` to `g'` only the lanes that execute changed, each by its function. -/
structure LanesBecome (k : Cursor) (g g' : Group) (f : Nat → Thread → Thread) : Prop where
  rest : g' = { g with lanes := g'.lanes }
  others : ∀ l, l ∉ lanesOf k.active → g'.lanes.get? l = g.lanes.get? l
  runs : ∀ l t, l ∈ lanesOf k.active → g.lanes.get? l = some t → g'.lanes.get? l = some (f l t)

/-- The counter of a lane advances by one (06 R133). -/
def Thread.step (t : Thread) : Thread := { t with lpc := t.lpc + 1 }

/-- A lane goes on from where it waited: its counter advances by one, and it no longer waits. -/
def Thread.goOn (t : Thread) : Thread := { t.step with wait := .none }

/-- The lane is one of those that execute, and its guard holds: it is in the set C of 09 R222. -/
def InC (k : Cursor) (g : Group) (h : Head) (l : Nat) : Prop :=
  l ∈ lanesOf k.active ∧ ∃ t, g.lanes.get? l = some t ∧ t.guard h = true

/-- The lanes of C all trap with a class, each with its detail, and the other lanes that execute advance; `base` is the state
apart from the group and its traps. -/
def LanesTrap (i : Instr) (h : Head) (s base : State) (k : Cursor) (g : Group) (cls : Nat) (det : Nat → Thread → QWord) : Prop :=
  ∃ g', exec i s = .next ((base.setGroup k.gk g').finish k ((guarded g h k).map fun l =>
      ⟨l, cls, det l ((g.lanes.get? l).getD {})⟩)) ∧ g' = { g with lanes := g'.lanes } ∧
    (∀ l, (l ∉ lanesOf k.active ∨ InC k g h l) → g'.lanes.get? l = g.lanes.get? l) ∧
    ∀ l t, l ∈ lanesOf k.active → g.lanes.get? l = some t → t.guard h = false →
      ∃ u, g'.lanes.get? l = some u ∧ { u with wait := .none } = t.goOn

/-- A lane runs an instruction that writes `n` registers of its destination, or only advances where its guard fails. -/
def laneWrites (k : Cursor) (h : Head) (n : Nat) (d : Operand) (v : Nat → Thread → Nat) (l : Nat) (t : Thread) : Thread :=
  if t.guard h then (t.write k.handler n d (v l t)).step else t.step

/-- An instruction of mode L runs: each lane whose guard holds receives in its destination a value `v` of `n` registers
that is `good`, and every lane that executes advances; nothing else of the state changes. -/
def VectorResult (i : Instr) (h : Head) (d : Operand) (n : Nat) (s : State) (k : Cursor) (g : Group)
    (good : Nat → Thread → Nat → Prop) : Prop :=
  ∃ g' v, exec i s = .next (s.issued k g') ∧ LanesBecome k g g' (laneWrites k h n d v) ∧
    ∀ l t, l ∈ lanesOf k.active → g.lanes.get? l = .some t → t.guard h = true → good l t (v l t)

/-- An instruction of mode G runs: where its guard holds the group's destination receives a value of `n` scalars that is
`good`, and every lane that executes advances; nothing else of the state changes. -/
def ScalarResult (i : Instr) (h : Head) (d : Operand) (n : Nat) (s : State) (k : Cursor) (g : Group)
    (good : Nat → Prop) : Prop :=
  ∃ g' v, exec i s = .next (s.issued k g') ∧
    LanesBecome k (if guardG g h k then g.write n d v else g) g' (fun _ t => { t.step with wait := .none }) ∧ good v

/-- A lane's operand as an instruction of type `ty` reads `n` registers of it. -/
def Cursor.val (k : Cursor) (g : Group) (t : Thread) (ty : Ty) (n : Nat) (o : Operand) : Nat := laneVal g t k.handler ty n o

/-! ## Rows of the arithmetic table, for statements -/

/-- A shared opcode in both classes with the shape of its operands and its result (09 R204). -/
structure ArithRow where
  scalar : Arith → Instr
  vector : Arith → Instr
  shape : Arith → Shape
  result : Arith → Src → FRes

/-- The row of an opcode with one result. -/
def plainRow (s v : Arith → Instr) (r : Arith → Src → FRes) : ArithRow := ⟨s, v, shapeOf, r⟩

/-- The row of a comparison. -/
def testRow (s v : Arith → Instr) (c : Cond) : ArithRow := ⟨s, v, fun f => { shapeOf f with d := 1 }, resCmp c⟩

/-- Integer, bit and move opcodes. -/
def integerRows : List ArithRow :=
  [plainRow .mov .vmov fun _ => resMov, plainRow .add .vadd resAdd, plainRow .sub .vsub resSub,
   plainRow .mul .vmul resMul, plainRow .mulhi .vmulhi resMulhi, plainRow .mad .vmad resMad,
   plainRow .madhi .vmadhi resMadhi, plainRow .div .vdiv resDiv, plainRow .rem .vrem resRem,
   plainRow .min .vmin resMin, plainRow .max .vmax resMax, plainRow .abs .vabs resAbs, plainRow .neg .vneg resNeg,
   plainRow .adds .vadds resAdds, plainRow .subs .vsubs resSubs, plainRow .and .vand resAnd, plainRow .or .vor resOr,
   plainRow .xor .vxor resXor, plainRow .not .vnot resNot, plainRow .shl .vshl resShl, plainRow .shr .vshr resShr,
   plainRow .sar .vsar resSar, plainRow .rot .vrot resRot, ⟨.bfx, .vbfx, shapeB32, resBfx⟩,
   ⟨.bfi, .vbfi, shapeB32, resBfi⟩, plainRow .popc .vpopc resPopc, plainRow .clz .vclz resClz,
   plainRow .ctz .vctz resCtz, plainRow .brev .vbrev resBrev, plainRow .bswp .vbswp resBswp,
   ⟨.lea, .vlea, fun _ => ⟨2, 2, 1, 0, .b32⟩, resLea⟩]

/-- Floating-point, comparison, selection and conversion opcodes. -/
def floatRows : List ArithRow :=
  [plainRow .fma .vfma resFma, plainRow .rcp .vrcp resRcp, plainRow .rsq .vrsq resRsq, plainRow .sqrt .vsqrt resSqrt,
   plainRow .exp2 .vexp2 resExp2, plainRow .log2 .vlog2 resLog2, plainRow .sin .vsin resSin,
   plainRow .cos .vcos resCos, plainRow .tanh .vtanh resTanh, plainRow .frnd .vfrnd resFrnd,
   ⟨.fcls, .vfcls, fun f => { shapeOf f with d := 1 }, resFcls⟩, plainRow .csgn .vcsgn resCsgn,
   ⟨.scl, .vscl, fun f => if f.ty.slot = 16 then shapeOf f else shapeB32 f, resScl⟩,
   ⟨.dp2, .vdp2, fun f => ⟨1, 1, 1, 1, f.ty⟩, resDp2⟩,
   testRow .cmpEq .vcmpEq .eq, testRow .cmpNe .vcmpNe .ne, testRow .cmpLt .vcmpLt .lt, testRow .cmpLe .vcmpLe .le,
   testRow .cmpGt .vcmpGt .gt, testRow .cmpGe .vcmpGe .ge, testRow .cmpNum .vcmpNum .num,
   testRow .cmpNan .vcmpNan .nan, ⟨.sel, .vsel, fun f => { shapeOf f with c := 1 }, fun _ => resSel⟩,
   ⟨.cvt, .vcvt, fun f => ⟨f.ty.regs, f.sty.regs, 2, 0, f.ty⟩, resCvt⟩,
   ⟨.pack, .vpack, fun f => if f.ty = .b16 then shapeOf f else ⟨4, 4, 0, 0, f.ty⟩, resPack⟩,
   ⟨.unpk, .vunpk, fun f => if f.ty = .b16 then shapeOf f else ⟨4, 4, 0, 0, f.ty⟩, fun _ => resUnpk⟩]

/-- The pairwise tree of 08 R197 from its meaning: the combination of a block of 2^d lanes. -/
def treeOf (op : Nat → Nat → Nat) (v : Nat → Option Nat) : Nat → Nat → Option Nat
  | 0, j => v j
  | d + 1, j => combine op (treeOf op v d (2 * j)) (treeOf op v d (2 * j + 1))

/-- A lane's value after d steps of 08 R198. -/
def scanOf (op : Nat → Nat → Nat) (v : Nat → Option Nat) : Nat → Nat → Option Nat
  | 0, l => v l
  | d + 1, l => if 2 ^ d ≤ l then combine op (scanOf op v d (l - 2 ^ d)) (scanOf op v d l) else scanOf op v d l

/-- The rational number that a finite value is. -/
def FVal.rat : FVal → ℚ
  | .fin n u e => (if n then -1 else 1) * u * (2 : ℚ) ^ e
  | _ => 0

/-- A result is the exact sum of finite terms rounded once, an exact zero with the sign of 08 R187. -/
def RoundsSum (m : Fmt) (rm : Rm) (ts : List FVal) (r : FRes) : Prop :=
  let v := (ts.map FVal.rat).sum
  (v ≠ 0 → ∃ (k : Nat) (i : Int), |v| = k * (2 : ℚ) ^ i ∧ r = m.round rm 0 (decide (v < 0)) k i false) ∧
  (v = 0 → r = (m.signBit (if ts.all fun t => t.isZero && !t.neg? then false
    else if ts.all fun t => t.isZero && t.neg? then true else decide (rm = .rd)), 0))

/-- A result is rounded once from the exact magnitude that is the greatest number which is `low`: from enough of its leading
bits, and whether anything stands below them (08 R187). -/
def RoundsNear (m : Fmt) (rm : Rm) (neg : Bool) (low : ℚ → Prop) (r : FRes) : Prop :=
  ∃ (k : Nat) (i : Int) (st : Bool), r = m.round rm 0 neg k i st ∧ 2 ^ (m.m + 2) ≤ k ∧ low (k * (2 : ℚ) ^ i) ∧
    ¬low ((k + 1) * (2 : ℚ) ^ i) ∧ (st = false ↔ ∀ d : ℚ, 0 < d → ¬low (k * (2 : ℚ) ^ i + d))

/-- The operands of an arithmetic instruction as a lane reads them (09 R199). -/
def laneSrc (w : Shape) (f : Arith) (k : Cursor) (g : Group) (t : Thread) : Src :=
  ⟨laneVal g t k.handler f.ty w.a f.a, laneVal g t k.handler w.bty w.b f.b, laneVal g t k.handler f.ty w.c f.c,
    laneVal g t k.handler f.ty w.d f.d⟩

/-- The operands of an arithmetic instruction as the group reads them. -/
def groupSrc (w : Shape) (f : Arith) (g : Group) : Src :=
  ⟨groupVal g f.ty w.a f.a, groupVal g w.bty w.b f.b, groupVal g f.ty w.c f.c, groupVal g f.ty w.d f.d⟩

/-- Both classes of a shared opcode write a value that is `good` for its operands, in every lane or in the group, and raise
no flag: the result of an instruction that cannot trap. -/
def BothWrite (sc ve : Instr) (w : Shape) (f : Arith) (s : State) (k : Cursor) (g : Group) (good : Src → Nat → Prop) : Prop :=
  VectorResult ve f.h f.d w.d s k g (fun _ t v => good (laneSrc w f k g t) v) ∧
    ScalarResult sc f.h f.d w.d s k g (fun v => good (groupSrc w f g) v)

/-- The elements of a value are those of the sources under an integer function (09 R205). -/
def ElemsAre (t : Ty) (op : Int → Int → Int → Int) (x : Src) (v : Nat) : Prop :=
  ∀ i < t.elems, elem t.slot i v =
    truncI t.slot (op (intVal t (elem t.slot i x.a)) (intVal t (elem t.slot i x.b)) (intVal t (elem t.slot i x.c)))

/-- The elements of a value stand in a relation to those of A and B, all as n-bit numbers (09 R207). -/
def ElemsMeet (t : Ty) (rel : Nat → Nat → Nat → Nat → Prop) (x : Src) (v : Nat) : Prop :=
  ∀ i < t.elems, rel t.slot (elem t.slot i x.a) (elem t.slot i x.b) (elem t.slot i v)
/-! ## The matrix queue, for statements -/

/-- An instruction of the matrix queue: the accumulator it names, what it asks of the queue, and what its operation does
(12 R296 to R302). -/
structure MatRow where
  instr : Instr
  acc : Operand
  plan : MatPlan
  kind : MatKind

/-- The instructions of the queue for one set of operands, `mrow` apart. -/
def matRows (f : MatF) (g : Group) : List MatRow :=
  let mul (i : Instr) (pair : Nat) (resident : Bool) : MatRow :=
    ⟨i, f.d, mulPlan g f pair resident, mulKind f (mulPlan g f pair resident)⟩
  [mul (.mma f) 0 true, mul (.mmaN2 f) 1 true, mul (.mmaK2 f) 2 true, mul (.mmt f) 0 false, mul (.mmtN2 f) 1 false,
   mul (.mmtK2 f) 2 false, ⟨.mzero f, f.d, mapPlan [] none, .zero⟩,
   ⟨.mld f, f.d, mapPlan [mapOf g f.a 0] none, .ld f.rm (mapOf g f.a 0)⟩,
   ⟨.mst f, f.a, mapPlan [] (some (mapOf g f.d 0)), .st f.rm (mapOf g f.d 0)⟩]
/-! ## Memory instructions -/

/-- An access ended its issue: the group of the issue is `g'`, and beside it only scratchpad bytes, translations, the L1s,
accesses in flight, the notes of strong accesses, releases and undefined bytes and the counter that numbers them changed; the accesses that were in flight
still are. -/
def AccessFrame (s t : State) (k : Cursor) (g' : Group) : Prop :=
  t = { s with
    cur := none
    groups := s.groups.put k.gk g'
    cores := t.cores
    tlb2 := t.tlb2
    walks := t.walks
    flights := t.flights
    scratch := t.scratch
    scratchPoison := t.scratchPoison
    strongs := t.strongs
    rels := t.rels
    hazy := t.hazy
    nextId := t.nextId } ∧
  s.nextId ≤ t.nextId ∧ ∀ id < s.nextId, t.flights.get? id = s.flights.get? id

/-- Of the lanes of a group none outside `active` changed, and those whose guard failed only advanced. -/
def OthersAdvance (k : Cursor) (h : Head) (g g' : Group) : Prop :=
  g' = { g with lanes := g'.lanes } ∧ (∀ l, l ∉ lanesOf k.active → g'.lanes.get? l = g.lanes.get? l) ∧
    ∀ l u, l ∈ lanesOf k.active → g.lanes.get? l = some u → u.guard h = false →
      g'.lanes.get? l = some { u.step with wait := .none }

/-- A local level, where accesses are performed at once. -/
def nearSpace (space : Space) : Bool := space = .sp || space = .ln

/-- The lanes of C may make their access now: none is in a transaction, and nothing earlier holds them. -/
def lanesFree (s : State) (k : Cursor) (g : Group) (h : Head) (wr : Bool) : Prop :=
  ∀ l ∈ guarded g h k, (s.thread k.gk l).tx.act = false ∧ s.threadHolds k.gk l wr = false

/-- A checked access of a lane goes ahead: no watchpoint and no access in flight meets it. -/
def accessFree (s : State) (k : Cursor) (f : MemF) (wr : Bool) (rc : Req × Checked) : Prop :=
  rc.2.watched k.handler (s.thread k.gk rc.1.lane) rc.1 = rc.2 ∧ s.locHolds k.gk (nearSpace f.space) wr rc.1 rc.2 = false

/-- An access meets no byte that 14 R347 makes undefined, whichever number it takes in the order of events. -/
def State.clearOf (s : State) (f : Flight) (tid : Nat) : Prop := ∀ q, s.nextId ≤ q → s.mixedBytes { f with seq := q } tid = []

/-- What the model notes of strong accesses is listed in order, each key once. -/
def State.notesSorted (s : State) : Prop := s.strongs.sorted = true ∧ s.rels.sorted = true ∧ s.hazy.sorted = true

/-- An access of a lane meets no byte that 14 R347 makes undefined, and its thread is told from those of the other lanes. -/
def accessClear (s : State) (k : Cursor) (f : MemF) (rs : List (Req × Checked)) (rc : Req × Checked) : Prop :=
  let tid := (s.thread k.gk rc.1.lane).tid
  s.clearOf (memFlight f s k.gk [rc.1.lane] tid rc.1 rc.2 false [] .fill) tid ∧ s.notesSorted ∧ tid < 65536 ∧
    ∀ x ∈ rs, (s.thread k.gk x.1.lane).tid = tid → x.1.lane = rc.1.lane

/-- The scope at which a store of a thread acts, with the scope that a fence has lent it (14 R342), and whether it is a
release that waits for its core's earlier writes (14 R352). -/
def storeHeld (f : MemF) (lent : Option Scope) : Bool :=
  (f.ord = .rel || f.ord = .ar || (isStrong f && lent.isSome)) &&
    (widerScope f.sco ((if isStrong f then lent else none).getD .none)).wide

/-- Groups, lanes and accesses in flight are listed in order, each key once. -/
def State.tablesSorted (s : State) : Prop :=
  s.groups.sorted = true ∧ s.flights.sorted = true ∧ ∀ gk g, s.groups.get? gk = some g → g.lanes.sorted = true
/-! ## Barriers -/

/-- The lanes of C all arrive at a barrier of identity `b` at once: no lane of the group collects there, and either the
instruction names no mask, or every lane names one mask that holds it and whose other lanes have all exited (15 R358). -/
def arrivesAll (f : Op3) (s : State) (k : Cursor) (g : Group) (b : Nat) : Prop :=
  g.collecting b = [] ∧ (f.b = .zero ∨ ∃ m : Word,
    (∀ l ∈ guarded g f.h k, ∀ u, g.lanes.get? l = some u →
      BitVec.ofNat 32 (k.val g u .b32 1 f.b) = m ∧ bitOf m l = true) ∧
    ∀ l ∈ lanesOf m, l ∈ guarded g f.h k ∨ s.gone k.gk l = true)

/-- The places of the threads of a completed `regroup`, in order of key and thread id, as slot of the domain and lane, from
the sizes of the runs of equal key: from slot `s` on of `n`, a run has slots of its own where the later runs still find room
after it, and else all that remain are packed together (16 R382). -/
def placesOf (n : Nat) : Nat → List Nat → List (Nat × Nat)
  | _, [] => []
  | s, size :: later =>
    let put (count : Nat) : List (Nat × Nat) := (List.range count).map fun j => (s + j / 32, j % 32)
    if later.sum ≤ (n - s - (size + 31) / 32) * 32 then put size ++ placesOf n (s + (size + 31) / 32) later
    else put (size + later.sum)

/-- No lane that executes still waits for an earlier instruction. -/
def lanesAwake (k : Cursor) (g : Group) : Prop := ∀ l u, l ∈ lanesOf k.active → g.lanes.get? l = some u → u.wait = .none

/-- The lanes of C wait at the barrier and the others advance. -/
def ArriveAndWait (k : Cursor) (h : Head) (g g' : Group) (w : LaneWait) : Prop :=
  LanesBecome k g g' fun _ u => if u.guard h then { u with wait := w } else { u.step with wait := .none }

/-- Every memory that the invariants speak of is in its canonical form. -/
def State.memoriesWf (s : State) : Prop :=
  Memory.wf s.mem = true ∧ Memory.wf s.scratch = true ∧ Memory.wf s.chip = true

/-- A thread's window base is one of its four places (07 R155). -/
def Thread.based (t : Thread) : Prop := t.wb = 0 ∨ t.wb = 24 ∨ t.wb = 48 ∨ t.wb = 72

/-- A group's lanes are listed in order, each once, as are the bytes that a transaction buffers, and its threads' window bases
are in their places. -/
def Group.kept (g : Group) : Prop := g.lanes.sorted = true ∧ ∀ e ∈ g.lanes, e.2.based ∧ e.2.tx.wset.sorted = true

/-- The bytes that an access in flight will write are listed in order, each once. -/
def Flight.kept (f : Flight) : Prop :=
  match f.kind with
  | .store b | .spill b _ => b.sorted = true
  | _ => True

/-- Groups, teams, grids, accesses in flight and their bytes, jobs, held records, residencies, links, the notes of ordering and
the lanes of groups, saved ones too, are listed in order, each key once, and the window base of every thread is in its place:
what the premises of other statements take from here. -/
def State.tablesKept (s : State) : Prop :=
  s.groups.sorted = true ∧ s.teams.sorted = true ∧ s.flights.sorted = true ∧ (∀ e ∈ s.groups, e.2.kept) ∧
    (∀ e ∈ s.teams, ∀ c ∈ e.2.conts, c.th.based ∧ c.th.tx.wset.sorted = true) ∧
    (∀ e ∈ s.savedTeams, (∀ x ∈ e.2.groups, x.2.2.kept) ∧ ∀ c ∈ e.2.team.conts, c.th.based ∧ c.th.tx.wset.sorted = true) ∧
    (∀ e ∈ s.flights, e.2.kept) ∧ s.notesSorted ∧ s.grids.sorted = true ∧ s.jobs.sorted = true ∧
    s.heldRecords.sorted = true ∧ s.residencies.sorted = true ∧ s.links.sorted = true

end Sys2Proof.Machine
end

