-- ==== Sys2Proof/Certificates/Slice0/Obligations.lean ====
section
/-! DEFINITION. The statements about the machine, in the order of the spec's chapters. -/

open Sys2Proof Sys2Proof.Machine

/-! ## Scalar and vector instructions (09_compute) -/

/-- 09 R199, R204: every shared opcode in class 0b01. Each lane that executes and whose guard holds receives in D the
result of the lane's own operands and adds the raised flags to its own; a lane whose guard fails only advances; nothing
else of the device changes. For lanes that raise no enabled flag. -/
def Obligations.VectorArithmeticCompletes : Prop :=
  ∀ row ∈ integerRows ++ floatRows, ∀ (f : Arith) (s : State) (k : Cursor) (g : Group), Issuing s k g →
    let w := row.shape f
    let r (t : Thread) : FRes := row.result f (laneSrc w f k g t)
    (∀ l t, l ∈ lanesOf k.active → g.lanes.get? l = some t → t.guard f.h = true → fpTraps g.fpen (r t).2 = false) →
    ∃ g', exec (row.vector f) s = .next (s.issued k g') ∧ LanesBecome k g g' fun _ t =>
      if t.guard f.h then ((t.write k.handler w.d f.d (r t).1).flags (r t).2).step else t.step

/-- 09 R199, R203, R204: every shared opcode in class 0b00. Where the guard holds in the lowest lane the group's D receives
the result and the raised flags are added in every lane that executes; every such lane advances; nothing else changes. -/
def Obligations.ScalarArithmeticCompletes : Prop :=
  ∀ row ∈ integerRows ++ floatRows, ∀ (f : Arith) (s : State) (k : Cursor) (g : Group), Issuing s k g →
    let w := row.shape f
    let r : FRes := row.result f (groupSrc w f g)
    let runs := guardG g f.h k
    (runs = true → fpTraps g.fpen r.2 = false) →
    ∃ g', exec (row.scalar f) s = .next (s.issued k g') ∧
      LanesBecome k (if runs then g.write w.d f.d r.1 else g) g' fun _ t =>
        { (if runs then t.flags r.2 else t).step with wait := .none }

/-- 08 R192; 09 R203: an enabled flag traps. A lane of a class 0b01 instruction whose raised set holds an enabled bit is
among the lanes that are raised, with class 18 and the raised set, and is itself left as it stood; a class 0b00
instruction raises class 18 in every lane that executes and writes nothing. Rests on log 11. -/
def Obligations.EnabledFlagTraps : Prop :=
  ∀ row ∈ integerRows ++ floatRows, ∀ (f : Arith) (s : State) (k : Cursor) (g : Group),
    s.cur = some k → s.groups.get? k.gk = some g →
    (let w := row.shape f
     let r (t : Thread) : FRes := row.result f (laneSrc w f k g t)
     ∃ g' ts, exec (row.vector f) s = .next (({ s with groups := s.groups.put k.gk g' }).finish k ts) ∧
       ∀ l t, l ∈ lanesOf k.active → g.lanes.get? l = some t →
         (t.guard f.h = true ∧ fpTraps g.fpen (r t).2 = true →
           g'.lanes.get? l = some t ∧ ∀ c, (⟨l, 18, c⟩ : Trap) ∈ ts ↔ c = BitVec.ofNat 128 (r t).2.toNat) ∧
         (¬(t.guard f.h = true ∧ fpTraps g.fpen (r t).2 = true) → ∀ c d, (⟨l, c, d⟩ : Trap) ∉ ts)) ∧
    (let r : FRes := row.result f (groupSrc (row.shape f) f g)
     guardG g f.h k = true → fpTraps g.fpen r.2 = true →
       exec (row.scalar f) s = .next (s.finish k ((lanesOf k.active).map fun l =>
         ⟨l, 18, BitVec.ofNat 128 r.2.toNat⟩)))

/-- 09 R205: the integer arithmetic of both classes, element by element and exact before truncation: sum, difference,
product, high half, multiply-add, minimum, maximum, absolute value, negation, and the two that saturate. 09 R206: integer
division and remainder truncate toward zero; a zero divisor gives all ones and the dividend, without a trap. The quotient and
the remainder are said by what characterises them. -/
def Obligations.IntegerArithmeticAndDivision : Prop :=
  (∀ (f : Arith) (s : State) (k : Cursor) (g : Group), f.ty.isInt = true → Issuing s k g →
     let n := f.ty.slot
     let lo : Int := if f.ty.signed then -(2 ^ (n - 1) : Int) else 0
     let hi : Int := if f.ty.signed then (2 ^ (n - 1) : Int) - 1 else (2 ^ n : Int) - 1
     let clamp (v : Int) : Int := if v < lo then lo else if hi < v then hi else v
     let is (sc ve : Arith → Instr) (op : Int → Int → Int → Int) : Prop :=
       BothWrite (sc f) (ve f) (shapeOf f) f s k g (ElemsAre f.ty op)
     is .add .vadd (fun a b _ => a + b) ∧ is .sub .vsub (fun a b _ => a - b) ∧ is .mul .vmul (fun a b _ => a * b)
       ∧ is .mulhi .vmulhi (fun a b _ => Int.fdiv (a * b) (2 ^ n)) ∧ is .mad .vmad (fun a b c => a * b + c)
       ∧ is .madhi .vmadhi (fun a b c => Int.fdiv (a * b) (2 ^ n) + c)
       ∧ is .min .vmin (fun a b _ => if a ≤ b then a else b) ∧ is .max .vmax (fun a b _ => if a ≥ b then a else b)
       ∧ is .abs .vabs (fun a _ _ => |a|) ∧ is .neg .vneg (fun a _ _ => -a)
       ∧ is .adds .vadds (fun a b _ => clamp (a + b)) ∧ is .subs .vsubs (fun a b _ => clamp (a - b))) ∧
  (∀ (f : Arith) (s : State) (k : Cursor) (g : Group), f.ty.isInt = true → Issuing s k g →
     let n := f.ty.slot
     let val (v i : Nat) : Int := intVal f.ty (elem n i v)
     let divided (a b q r : Int) : Prop := a = q * b + r ∧ |r| < |b| ∧ 0 ≤ r * a
     BothWrite (.div f) (.vdiv f) (shapeOf f) f s k g (fun x v => ∀ i < f.ty.elems,
         (val x.b i = 0 → elem n i v = 2 ^ n - 1) ∧
         (val x.b i ≠ 0 → ∃ q r, divided (val x.a i) (val x.b i) q r ∧ elem n i v = truncI n q)) ∧
       BothWrite (.rem f) (.vrem f) (shapeOf f) f s k g (fun x v => ∀ i < f.ty.elems,
         (val x.b i = 0 → elem n i v = elem n i x.a) ∧
         (val x.b i ≠ 0 → ∃ q r, divided (val x.a i) (val x.b i) q r ∧ elem n i v = truncI n r)))

/-- 09 R207: the bit instructions, said bit by bit of each element. 09 R208, R209: extracting and inserting a bit field, and
forming an address. -/
def Obligations.BitsFieldsAndAddresses : Prop :=
  (∀ (f : Arith) (s : State) (k : Cursor) (g : Group), f.ty.isInt = true ∨ f.ty ∈ [Ty.b8, .b16, .b32, .b64] → Issuing s k g →
     let is (sc ve : Arith → Instr) (rel : Nat → Nat → Nat → Nat → Prop) : Prop :=
       BothWrite (sc f) (ve f) (shapeOf f) f s k g (ElemsMeet f.ty rel)
     is .and .vand (fun n a b v => ∀ j < n, v.testBit j = (a.testBit j && b.testBit j))
       ∧ is .or .vor (fun n a b v => ∀ j < n, v.testBit j = (a.testBit j || b.testBit j))
       ∧ is .xor .vxor (fun n a b v => ∀ j < n, v.testBit j = (a.testBit j ^^ b.testBit j))
       ∧ is .not .vnot (fun n a _ v => ∀ j < n, v.testBit j = !a.testBit j)
       ∧ is .shl .vshl (fun n a b v => ∀ j < n, v.testBit j = (decide (b ≤ j) && a.testBit (j - b)))
       ∧ is .shr .vshr (fun n a b v => ∀ j < n, v.testBit j = (decide (j + b < n) && a.testBit (j + b)))
       ∧ is .sar .vsar (fun n a b v => ∀ j < n, v.testBit j = a.testBit (min (j + b) (n - 1)))
       ∧ is .rot .vrot (fun n a b v => ∀ j < n, v.testBit ((j + b) % n) = a.testBit j)
       ∧ is .popc .vpopc (fun n a _ v => v = ((List.range n).filter fun j => a.testBit j).length)
       ∧ is .clz .vclz (fun n a _ v => v ≤ n ∧ (∀ j < n, n - v ≤ j → a.testBit j = false)
           ∧ (v < n → a.testBit (n - 1 - v) = true))
       ∧ is .ctz .vctz (fun n a _ v => v ≤ n ∧ (∀ j < v, a.testBit j = false) ∧ (v < n → a.testBit v = true))
       ∧ is .brev .vbrev (fun n a _ v => ∀ j < n, v.testBit (n - 1 - j) = a.testBit j)
       ∧ (f.ty.slot ≠ 8 → is .bswp .vbswp (fun n a _ v => ∀ j < n,
           v.testBit (8 * (n / 8 - 1 - j / 8) + j % 8) = a.testBit j))) ∧
  (∀ (f : Arith) (s : State) (k : Cursor) (g : Group), Issuing s k g →
     let n := f.ty.slot
     let ext (b : Bool) : Bool := f.ty.signed && b
     ((f.ty = .i32 ∨ f.ty = .i64 ∨ f.ty = .n32 ∨ f.ty = .n64) →
       BothWrite (.bfx f) (.vbfx f) (shapeB32 f) f s k g fun x v =>
         let a := x.a % 2 ^ n
         let pos := x.b % 256
         let len := min (x.b / 256 % 256) n
         let src (j : Nat) : Bool := if j < n then a.testBit j else ext (a.testBit (n - 1))
         ∀ j < n, v.testBit j =
           if j < len then src (pos + j) else decide (0 < len) && ext (src (pos + len - 1))) ∧
     ((f.ty = .b32 ∨ f.ty = .b64) →
       BothWrite (.bfi f) (.vbfi f) (shapeB32 f) f s k g fun x v =>
         let pos := x.b % 256
         let len := x.b / 256 % 256
         ∀ j < n, v.testBit j =
           if pos ≤ j ∧ j < min (pos + len) n then x.a.testBit (j - pos) else x.c.testBit j) ∧
     ((f.ty = .i32 ∨ f.ty = .n32) → f.sub < 8 →
       BothWrite (.lea f) (.vlea f) ⟨2, 2, 1, 0, .b32⟩ f s k g fun x v =>
         let b : Int := if f.ty = .i32 then (BitVec.ofNat 32 x.b).toInt else x.b % 2 ^ 32
         (v : Int) = (x.a + b * 2 ^ f.sub) % 2 ^ 64))

/-- 01 R22; 09 R199, R214: what writing a destination does. A window register, pair or quad receives the low bits of the
value, in the registers that the instruction names and no other, and loses its poison; a predicate receives (value ≠ 0),
but a write to `p0` is discarded and `p0` reads as true; a scalar receives the low bits; a write to `zero` is discarded.
09 R221: a lane's register to a scalar, whatever that lane's state, 0 from a vacant lane; a scalar to the masked lanes
of `active` and to no other. Which window `vtos` reads in a parked lane is the model's reading (log 14). Rests on log
14. -/
def Obligations.DestinationsAndScalars : Prop :=
  ((∀ (t : Thread) (h : Bool) (i n v : Nat), i + n ≤ 32 →
     let t' := t.write h n (.win i) v
     t' = { t with stack := t'.stack, poison := t'.poison } ∧ t'.regs h i n = v % 2 ^ (32 * n) ∧
       (∀ j < 32, ¬(i ≤ j ∧ j < i + n) → t'.reg h j = t.reg h j) ∧
       (∀ j, i ≤ j → j < i + n → t'.poison.get? (t.entry h j) = none) ∧
       ∀ e, (∀ j, i ≤ j → j < i + n → t.entry h j ≠ e) →
         t'.stack.read 0 e = t.stack.read 0 e ∧ t'.poison.get? e = t.poison.get? e) ∧
   (∀ (t : Thread) (h : Bool) (i n v : Nat), i < 8 →
     let t' := t.write h n (.pred i) v
     (i = 0 → t' = t) ∧ t'.pred 0 = true ∧ (i ≠ 0 → t'.pred i = decide (v ≠ 0)) ∧
       (∀ j < 8, j ≠ i → t'.pred j = t.pred j) ∧ t' = { t with preds := t'.preds, poison := t'.poison }) ∧
   (∀ (g : Group) (i n v : Nat),
     let g' := g.write n (.scal i) v
     g' = { g with scal := g'.scal, spoison := g'.spoison } ∧ g'.scalars i n = v % 2 ^ (32 * n) ∧
       ∀ j, ¬(i ≤ j ∧ j < i + n) → g'.scalar j = g.scalar j) ∧
   (∀ (t : Thread) (g : Group) (h : Bool) (n v : Nat), t.write h n .zero v = t ∧ g.write n .zero v = g)) ∧
  (∀ (f : Arith) (s : State) (k : Cursor) (g : Group), Issuing s k g →
     let n := f.ty.regs
     let runs := guardG g f.h k
     (∀ i, f.a = .win i → let j := groupVal g .b32 1 f.b % 32
       g.usePending (g.inHandler j) [j] (0, i, n) = false → g.usePoison (g.inHandler j) j (0, i, n) = none →
       ∃ g' v, exec (.vtos f) s = .next (s.issued k g') ∧
         LanesBecome k (if runs then g.write n f.d v else g) g' (fun _ t => { t.step with wait := .none }) ∧
         v = match g.lanes.get? j with
           | some t => t.regs (g.inHandler j) i n
           | none => 0) ∧
     (∃ g', exec (.stov f) s = .next (s.issued k g') ∧ LanesBecome k g g' fun l t =>
       { (if runs && (groupVal g .b32 1 f.b).testBit l then t.write k.handler n f.d (groupVal g f.ty n f.a) else t).step with
         wait := .none }))

/-- 09 R214, R215: a move copies A; a selection writes A where C holds and B where it does not. Neither raises a flag.
09 R219, R220: an integer conversion clamps one element to the range of the destination type and leaves the other
elements of D; packing and unpacking move bits. Rests on log 8. -/
def Obligations.MovesSelectionsAndConversions : Prop :=
  (∀ (f : Arith) (s : State) (k : Cursor) (g : Group), Issuing s k g →
     BothWrite (.mov f) (.vmov f) (shapeOf f) f s k g (fun x v => v = x.a) ∧
       BothWrite (.sel f) (.vsel f) { shapeOf f with c := 1 } f s k g
         (fun x v => (x.c ≠ 0 → v = x.a) ∧ (x.c = 0 → v = x.b))) ∧
  (∀ (f : Arith) (s : State) (k : Cursor) (g : Group), Issuing s k g →
     let ws := f.sty.slot
     let wd := f.ty.slot
     let lo : Int := if f.ty.signed then -(2 ^ (wd - 1) : Int) else 0
     let hi : Int := if f.ty.signed then (2 ^ (wd - 1) : Int) - 1 else (2 ^ wd : Int) - 1
     (f.ty.isInt = true → f.sty.isInt = true → f.sub < (if min ws wd < 32 then 32 / min ws wd else 1) →
       BothWrite (.cvt f) (.vcvt f) ⟨f.ty.regs, f.sty.regs, 2, 0, f.ty⟩ f s k g fun x v =>
         let from' := intVal f.sty (elem ws (if ws ≤ wd ∧ ws < 32 then f.sub else 0) x.a)
         let j := if wd ≤ ws ∧ wd < 32 then f.sub else 0
         intVal f.ty (elem wd j v) = (if from' < lo then lo else if hi < from' then hi else from') ∧
           (wd < 32 → ∀ i < 32 / wd, i ≠ j → elem wd i v = elem wd i x.d)) ∧
     (f.ty = .b16 → BothWrite (.pack f) (.vpack f) (shapeOf f) f s k g
       (fun x v => elem 16 0 v = x.a % 2 ^ 16 ∧ elem 16 1 v = x.b % 2 ^ 16)) ∧
     (f.ty = .e3m2 ∨ f.ty = .e2m3 →
       BothWrite (.pack f) (.vpack f) ⟨4, 4, 0, 0, f.ty⟩ f s k g
         (fun x v => v < 2 ^ 96 ∧ ∀ i < 16, elem 6 i v = elem 8 i x.a % 2 ^ 6) ∧
       BothWrite (.unpk f) (.vunpk f) ⟨4, 4, 0, 0, f.ty⟩ f s k g
         (fun x v => v < 2 ^ 128 ∧ ∀ i < 16, elem 8 i v = elem 6 i x.a)))

/-- 09 R216: an integer or untyped comparison writes 1 where it holds of element 0 of the sources and 0 where it does not. 09
R217: the predicate instructions, on predicates and `zero`, in each lane whose guard holds. -/
def Obligations.ComparisonsAndPredicates : Prop :=
  (∀ (f : Arith) (s : State) (k : Cursor) (g : Group), f.ty.isFloat = false → Issuing s k g →
     let val (x : Nat) : Int := intVal f.ty (elem f.ty.slot 0 x)
     let is (sc ve : Arith → Instr) (rel : Int → Int → Prop) : Prop :=
       BothWrite (sc f) (ve f) { shapeOf f with d := 1 } f s k g
         (fun x v => (rel (val x.a) (val x.b) → v = 1) ∧ (¬rel (val x.a) (val x.b) → v = 0))
     is .cmpEq .vcmpEq (· = ·) ∧ is .cmpNe .vcmpNe (· ≠ ·) ∧ is .cmpLt .vcmpLt (· < ·) ∧ is .cmpLe .vcmpLe (· ≤ ·)
       ∧ is .cmpGt .vcmpGt (· > ·) ∧ is .cmpGe .vcmpGe (· ≥ ·)) ∧
  (∀ (f : Arith) (s : State) (k : Cursor) (g : Group), Issuing s k g →
     (f.a.kind = 2 ∨ f.a = .zero) → (f.b.kind = 2 ∨ f.b = .zero) →
     let p (t : Thread) (o : Operand) : Prop := o.kind = 2 ∧ t.pred o.index = true
     let is (i : Instr) (rel : Thread → Prop) : Prop :=
       VectorResult i f.h f.d 1 s k g (fun _ t v => v ≠ 0 ↔ rel t)
     is (.pand f) (fun t => p t f.a ∧ p t f.b) ∧ is (.por f) (fun t => p t f.a ∨ p t f.b)
       ∧ is (.pxor f) (fun t => Xor (p t f.a) (p t f.b)) ∧ is (.pnot f) (fun t => ¬p t f.a))

/-- 08 R182, R187; 09 R210 to R212: floating-point results in the four arithmetic formats. An invalid operation gives the
default NaN with INV, a quiet NaN gives it with no flag, a zero divisor gives an infinity with DBZ. A finite result is the
exact value rounded once: of a sum, a difference, a product, a fused product and sum, a sum of two products, a quotient, a
root or a reciprocal, said in rational numbers; of the other functions at the arguments where they are rational. A minimum
and a maximum are one of the operands. 08 R181, R187: a value that a format holds is rounded to itself, in every mode and
with no flag, for every format; so a result is inexact only where the exact value has no encoding. -/
def Obligations.FloatResultsOfKnownValues : Prop :=
  ((∀ m ∈ [fmt16, fmtB16, fmt32, fmt64], ∀ (rm : Rm) (a b c : Nat),
     let x := m.decode a
     let y := m.decode b
     let nan : FRes := (m.nanBits, if x.isSnan || y.isSnan then flagINV else 0)
     let invalid : FRes := (m.nanBits, flagINV)
     let zero (v : FVal) : Prop := v.isZero = true
     (x.isNan = true ∨ y.isNan = true → m.add rm a b = nan ∧ m.sub rm a b = nan ∧ m.mul rm a b = nan ∧ m.div rm a b = nan) ∧
     (x = .inf false → y = .inf true → m.add rm a b = invalid) ∧ (x = .inf false → y = .inf false → m.sub rm a b = invalid) ∧
     (x.isInf = true → zero y → m.mul rm a b = invalid) ∧ (x.isInf = true → y.isInf = true → m.div rm a b = invalid) ∧
     (zero x → zero y → m.div rm a b = invalid) ∧
     (∀ n e u e', x = .fin n u e → u ≠ 0 → y = .fin false 0 e' → m.div rm a b = (m.signBit n + m.infBits, flagDBZ)) ∧
     (∀ n u e, x = .fin n u e → u ≠ 0 → n = true → m.sqrt rm a = invalid) ∧
     (zero x → m.rcp rm a = (m.signBit x.neg? + m.infBits, flagDBZ)) ∧
     let z := m.decode c
     let one : FRes := (m.nanBits, if x.isSnan then flagINV else 0)
     let unit (neg : Bool) : FRes := m.round rm 0 neg 1 0 false
     let inf (neg : Bool) : FRes := (m.signBit neg + m.infBits, 0)
     let isFin (v : FVal) : Prop := v.isNan = false ∧ v.isInf = false
     (isFin x → isFin y → RoundsSum m rm [x, y] (m.add rm a b) ∧ RoundsSum m rm [x, y.negate] (m.sub rm a b) ∧
       (∀ n u e n' u' e', x = .fin n u e → y = .fin n' u' e' →
         m.mul rm a b = m.round rm 0 (n != n') (u * u') (e + e') false ∧
         (isFin z → RoundsSum m rm [.fin (n != n') (u * u') (e + e'), z] (m.fma rm a b c)) ∧
         (u' ≠ 0 → u ≠ 0 → RoundsNear m rm (n != n') (fun v => v * |y.rat| ≤ |x.rat|) (m.div rm a b)) ∧
         (u ≠ 0 → u' ≠ 0 → n = false → RoundsNear m rm false (fun v => v ^ 2 ≤ x.rat) (m.sqrt rm a) ∧
           RoundsNear m rm false (fun v => v ^ 2 * x.rat ≤ 1) (m.rsq rm a)) ∧
         (u ≠ 0 → RoundsNear m rm n (fun v => v * |x.rat| ≤ 1) (m.rcp rm a)))) ∧
     ((x.isNan || y.isNan || z.isNan) = true → (x.isInf && y.isZero || x.isZero && y.isInf) = false →
       m.fma rm a b c = (m.nanBits, if x.isSnan || y.isSnan || z.isSnan then flagINV else 0)) ∧
     ((x.isInf && y.isZero || x.isZero && y.isInf) = true → m.fma rm a b c = invalid) ∧
     (x.isNan = false → y.isNan = false → z.isNan = false → (x.isInf && y.isZero || x.isZero && y.isInf) = false →
       ((x.isInf || y.isInf) = true → m.fma rm a b c = if z = .inf (!(x.neg? != y.neg?)) then invalid else inf (x.neg? != y.neg?)) ∧
       (isFin x → isFin y → ∀ n, z = .inf n → m.fma rm a b c = inf n)) ∧
     (∀ less, (x.isNan = true → y.isNan = true → m.minmax less a b = nan) ∧
       (x.isNan = true → y.isNan = false → m.minmax less a b = (b, if x.isSnan then flagINV else 0)) ∧
       (x.isNan = false → y.isNan = true → m.minmax less a b = (a, if y.isSnan then flagINV else 0)) ∧
       (isFin x → isFin y → (m.minmax less a b = (a, 0) ∨ m.minmax less a b = (b, 0)) ∧
         (m.decode (m.minmax less a b).1).rat = (if less then min x.rat y.rat else max x.rat y.rat)) ∧
       (zero x → zero y → x.neg? ≠ y.neg? → m.minmax less a b = (if x.neg? = less then a else b, 0)) ∧
       (∀ n, x = .inf n → y.isNan = false → y ≠ x → m.minmax less a b = (if n = less then a else b, 0))) ∧
     (x.isNan = true → m.sqrt rm a = one ∧ m.rsq rm a = one ∧ m.rcp rm a = one ∧ m.exp2 rm a = one ∧ m.log2 rm a = one ∧
       m.sin rm a = one ∧ m.cos rm a = one ∧ m.tanh rm a = one) ∧
     (∀ n, x = .inf n → m.rcp rm a = (m.signBit n, 0) ∧ m.sqrt rm a = (if n then invalid else inf false) ∧
       m.rsq rm a = (if n then invalid else (0, 0)) ∧ m.exp2 rm a = (if n then (0, 0) else inf false) ∧
       m.log2 rm a = (if n then invalid else inf false) ∧ m.sin rm a = invalid ∧ m.cos rm a = invalid ∧
       m.tanh rm a = unit n) ∧
     (zero x → m.sqrt rm a = (m.signBit x.neg?, 0) ∧ m.rsq rm a = (m.signBit x.neg? + m.infBits, flagDBZ) ∧
       m.exp2 rm a = unit false ∧ m.log2 rm a = (m.signBit true + m.infBits, flagDBZ) ∧
       m.sin rm a = (m.signBit x.neg?, 0) ∧ m.cos rm a = unit false ∧ m.tanh rm a = (m.signBit x.neg?, 0)) ∧
     (∀ u e, x = .fin true u e → u ≠ 0 → m.rsq rm a = invalid ∧ m.log2 rm a = invalid) ∧
     (isFin x → ∀ j : Int,
       (x.rat = j → |j| < 8192 → m.exp2 rm a = m.round rm 0 false 1 j false) ∧
       (x.rat = (2 : ℚ) ^ j → m.log2 rm a = m.round rm 0 (decide (j < 0)) j.natAbs 0 false) ∧
       (x.rat = j → m.sin rm a = (m.signBit x.neg?, 0) ∧ m.cos rm a = unit (decide (j % 2 = 1))) ∧
       (x.rat = j + 1 / 2 → m.sin rm a = unit (decide (j % 2 = 1)) ∧ m.cos rm a = (0, 0)))) ∧
   (∀ m ∈ [fmt16, fmtB16], ∀ (rm : Rm) (a b c : Nat),
     let p := mulTerm (m.decode (a % 2 ^ 16)) (m.decode (b % 2 ^ 16))
     let q := mulTerm (m.decode (a / 2 ^ 16 % 2 ^ 16)) (m.decode (b / 2 ^ 16 % 2 ^ 16))
     let ts := [p, q, fmt32.decode c]
     let both := (ts.any fun v => v = .inf false) && ts.any fun v => v = .inf true
     (ts.any FVal.isNan = true → m.dp2 rm a b c = (fmt32.nanBits, if ts.any FVal.isSnan || both then flagINV else 0)) ∧
     (ts.any FVal.isNan = false → both = true → m.dp2 rm a b c = (fmt32.nanBits, flagINV)) ∧
     (ts.any FVal.isNan = false → both = false → ∀ n, FVal.inf n ∈ ts → m.dp2 rm a b c = (fmt32.signBit n + fmt32.infBits, 0)) ∧
     (ts.any FVal.isNan = false → ts.any FVal.isInf = false → RoundsSum fmt32 rm ts (m.dp2 rm a b c)) ∧
     (∀ n u e n' u' e', mulTerm (.fin n u e) (.fin n' u' e') = .fin (n != n') (u * u') (e + e')) ∧
     ∀ n v, v.isZero = true → mulTerm (.inf n) v = .nan true ∧ mulTerm v (.inf n) = .nan true)) ∧
  (∀ t ∈ [Ty.f16, .bf16, .f32, .f64, .e5m2, .e4m3, .e3m2, .e2m3, .e2m1], ∀ (rm : Rm) (rnd bits : Nat), bits < 2 ^ t.fmt.width →
     ∀ neg man e, t.fmt.decode bits = .fin neg man e → rnd < 256 → t.fmt.round rm rnd neg man e false = (bits, 0))

/-- 09 R222, R223: the index exchanges. Each lane of C reads its source lane as it stood at issue, or its own A where
the source is not in C; only lanes of C are written. No lane of C holds a poisoned register among the operands. 09 R224:
the masks of the lanes of C whose predicate holds, and of those that hold a lane's value. Rests on log 13, 14 and 55. -/
def Obligations.LaneExchangesAndMasks : Prop :=
  (∀ (f : Arith) (s : State) (k : Cursor) (g : Group), Issuing s k g →
     let n := f.ty.regs
     let inC (l : Nat) : Prop := l ∈ lanesOf k.full ∧ ∃ t, g.lanes.get? l = some t ∧ t.guard f.h = true
     let A (l : Nat) : Nat := laneOperand g k.handler f.ty n f.a l
     let B (l : Nat) : Nat := laneOperand g k.handler .b32 1 f.b l % 32
     let reads (j l v : Nat) : Prop := (inC j → v = A j) ∧ (¬inC j → v = A l)
     (∀ l, inC l → operandPoison g k.handler l n f.a = none ∧ operandPoison g k.handler l 1 f.b = none) →
     VectorResult (.vshfl f) f.h f.d n s k g (fun l _ v => reads (B l) l v) ∧
       VectorResult (.vbfly f) f.h f.d n s k g (fun l _ v => reads (Nat.xor l (B l)) l v) ∧
       VectorResult (.vbcast f) f.h f.d n s k g (fun l _ v =>
         ∀ m, inC m → (∀ j, inC j → m ≤ j) → reads (B m) l v)) ∧
  (∀ (f : Arith) (s : State) (k : Cursor) (g : Group), Issuing s k g →
     let inC (l : Nat) : Prop := l ∈ lanesOf k.full ∧ ∃ t, g.lanes.get? l = some t ∧ t.guard f.h = true
     let A (n l : Nat) : Nat := laneOperand g k.handler f.ty n f.a l
     ((∀ l, inC l → operandPoison g k.handler l 1 f.a = none) →
       VectorResult (.vballot f) f.h f.d 1 s k g (fun _ _ v => ∀ j, v.testBit j = true ↔
         inC j ∧ laneOperand g k.handler .b32 1 f.a j ≠ 0)) ∧
     ((∀ l, inC l → operandPoison g k.handler l f.ty.regs f.a = none) →
       VectorResult (.vmatch f) f.h f.d 1 s k g (fun l _ v => ∀ j, v.testBit j = true ↔
         inC j ∧ A f.ty.regs j = A f.ty.regs l)))

/-- 08 R197; 09 R225: a reduction combines the values of the lanes of C element by element, and floating-point values by
the tree of R197 with each sum rounded once; without a contributing lane it gives the stated value. A scalar D receives
it once, also when C is empty. 08 R198; 09 R225: a scan gives each lane of C the combination of the lanes of C up to it,
of floating-point values in the five steps of R198 with each sum rounded once. Rests on log 14. -/
def Obligations.ReductionsAndScans : Prop :=
  (∀ (f : Arith) (s : State) (k : Cursor) (g : Group), Issuing s k g →
     let n := f.ty.slot
     let w := f.ty.regs
     let inC (l : Nat) : Prop := l ∈ lanesOf k.full ∧ ∃ t, g.lanes.get? l = some t ∧ t.guard f.h = true
     let e (i l : Nat) : Nat := elem n i (laneOperand g k.handler f.ty w f.a l)
     (∀ l, inC l → operandPoison g k.handler l w f.a = none) →
     let writes (i : Instr) (good : Nat → Prop) : Prop := ∃ g' v, exec i s = .next (s.issued k g') ∧ good v ∧
       LanesBecome k (g.write w f.d v) g' (laneWrites k f.h w f.d fun _ _ => v)
     let cs := (lanesOf k.full).filter fun l => match g.lanes.get? l with
       | some t => t.guard f.h
       | none => false
     let least (i : Nat) (x : Nat) (le : Int → Int → Prop) (last : Int) : Prop :=
       (cs = [] → intVal f.ty x = last) ∧
         (cs ≠ [] → (∃ l, inC l ∧ e i l = x) ∧ ∀ l, inC l → le (intVal f.ty x) (intVal f.ty (e i l)))
     let lo : Int := if f.ty.signed then -(2 ^ (n - 1) : Int) else 0
     let hi : Int := if f.ty.signed then (2 ^ (n - 1) : Int) - 1 else (2 ^ n : Int) - 1
     let m := f.ty.fmt
     let tree (op : Nat → Nat → Nat) (last i : Nat) : Nat :=
       (treeOf op (fun l => if cs.contains l then some (e i l) else none) 5 0).getD last
     (f.ty.isFloat = true →
       writes (.vredAdd f) (fun v => ∀ i < f.ty.elems, elem n i v = tree (fun a b => (m.add f.rm a b).1) 0 i) ∧
       writes (.vredMin f) (fun v => ∀ i < f.ty.elems, elem n i v = tree (fun a b => (m.minmax true a b).1) m.infBits i) ∧
       writes (.vredMax f) (fun v => ∀ i < f.ty.elems, elem n i v =
         tree (fun a b => (m.minmax false a b).1) (m.signBit true + m.infBits) i)) ∧
     (f.ty.isInt = true →
       writes (.vredAdd f) (fun v => ∀ i < f.ty.elems, elem n i v = (cs.map (e i)).sum % 2 ^ n) ∧
       writes (.vredMin f) (fun v => ∀ i < f.ty.elems, least i (elem n i v) (· ≤ ·) hi) ∧
       writes (.vredMax f) (fun v => ∀ i < f.ty.elems, least i (elem n i v) (· ≥ ·) lo)) ∧
     (f.ty.isFloat = false →
       writes (.vredAnd f) (fun v => ∀ i < f.ty.elems, ∀ j < n,
         (elem n i v).testBit j = true ↔ ∀ l, inC l → (e i l).testBit j = true) ∧
       writes (.vredOr f) (fun v => ∀ i < f.ty.elems, ∀ j < n,
         (elem n i v).testBit j = true ↔ ∃ l, inC l ∧ (e i l).testBit j = true) ∧
       writes (.vredXor f) (fun v => ∀ i < f.ty.elems, ∀ j < n,
         (elem n i v).testBit j = decide ((cs.filter fun l => (e i l).testBit j).length % 2 = 1)))) ∧
  (∀ (f : Arith) (s : State) (k : Cursor) (g : Group), Issuing s k g →
     let n := f.ty.slot
     let w := f.ty.regs
     let e (i l : Nat) : Nat := elem n i (laneOperand g k.handler f.ty w f.a l)
     let upTo (m : Nat) : List Nat := (lanesOf k.full).filter fun l => l ≤ m && match g.lanes.get? l with
       | some t => t.guard f.h
       | none => false
     (∀ l ∈ upTo 31, operandPoison g k.handler l w f.a = none) →
     let best (m i x : Nat) (le : Int → Int → Prop) : Prop :=
       (∃ l ∈ upTo m, e i l = x) ∧ ∀ l ∈ upTo m, le (intVal f.ty x) (intVal f.ty (e i l))
     let steps (op : Nat → Nat → Nat) (m i v : Nat) : Prop :=
       scanOf op (fun l => if (upTo 31).contains l then some (e i l) else none) 5 m = some (elem n i v)
     (f.ty.isInt = true →
       VectorResult (.vscanAdd f) f.h f.d w s k g (fun m _ v =>
         ∀ i < f.ty.elems, elem n i v = ((upTo m).map (e i)).sum % 2 ^ n) ∧
       VectorResult (.vscanMin f) f.h f.d w s k g (fun m _ v => ∀ i < f.ty.elems, best m i (elem n i v) (· ≤ ·)) ∧
       VectorResult (.vscanMax f) f.h f.d w s k g (fun m _ v => ∀ i < f.ty.elems, best m i (elem n i v) (· ≥ ·))) ∧
     (f.ty.isFloat = true → let r := f.ty.fmt
       VectorResult (.vscanAdd f) f.h f.d w s k g (fun m _ v =>
         ∀ i < f.ty.elems, steps (fun a b => (r.add f.rm a b).1) m i v) ∧
       VectorResult (.vscanMin f) f.h f.d w s k g (fun m _ v =>
         ∀ i < f.ty.elems, steps (fun a b => (r.minmax true a b).1) m i v) ∧
       VectorResult (.vscanMax f) f.h f.d w s k g (fun m _ v =>
         ∀ i < f.ty.elems, steps (fun a b => (r.minmax false a b).1) m i v)))

/-! ## Control flow (07_control) -/

/-- 07 R152 to R154: the branches. A guarded lane of `bra` and `brx` takes its own target; `bsz`, `bsnz` and `loop` move every
lane of `active` together by one scalar, which `loop` has first decremented; `nop` and a failed guard only advance. -/
def Obligations.BranchesMoveTheCounters : Prop :=
  ∀ (f : Op3) (s : State) (k : Cursor) (g : Group), Issuing s k g →
    let runs := guardG g f.h k
    let sends (i : Instr) (base : Group) (take : Bool) : Prop := ∃ g', exec i s = .next (s.issued k g') ∧
      LanesBecome k base g' fun _ t => if take then { t with lpc := f.imm } else { t.step with wait := .none }
    let v : Word := BitVec.ofNat 32 (groupVal g .b32 1 f.d) - 1
    (∃ g', exec (.nop f) s = .next (s.issued k g') ∧ LanesBecome k g g' fun _ t => t.step) ∧
      (∃ g', exec (.bra f) s = .next (s.issued k g') ∧
        LanesBecome k g g' fun _ t => if t.guard f.h then { t with lpc := f.imm } else t.step) ∧
      (∃ g', exec (.brx f) s = .next (s.issued k g') ∧ LanesBecome k g g' fun _ t =>
        if t.guard f.h then { t with lpc := BitVec.ofNat 32 (k.val g t .b32 1 f.a) + f.imm } else t.step) ∧
      sends (.bsz f) g (runs && decide (groupVal g .b32 1 f.a = 0)) ∧
      sends (.bsnz f) g (runs && decide (groupVal g .b32 1 f.a ≠ 0)) ∧
      sends (.loop f) (if runs then g.write 1 f.d v.toNat else g) (runs && decide (v ≠ 0))

/-- 07 R157 to R159: a call and a return. The lane's window moves by 24 entries, the link of the new frame position
holds the next counter, the new window's locals are zero, and the lane goes to the target; a return goes back to the
link. A call on a resident caller frame first spills it to the lane slice, and a return without one first fills it from
there, as long as the slice has room for the record. A call at depth 65,535 and a return at depth 0 trap. Lanes whose
guard fails advance. In the main stream, with no register of the group pending and no access of a lane holding it. 07
R159: the 128-byte record of a frame. Entry i of the caller's frame lies at bytes 4i to 4i + 3 and its link at 96 to 99,
the rest is zero; filling the record back restores both, whatever the entries have become in between. Rests on log 24.
-/
def Obligations.CallsReturnsAndFrameRecords : Prop :=
  (∀ (f : Op3) (s : State) (k : Cursor) (g : Group) (tm : Team) (p : Packet), Issuing s k g → s.teamOf g = some tm →
     s.pktOf g = some p → k.handler = false →
     (∀ e, (g.lanes.any fun t => t.2.pend.contains e) = false) → s.requestsUsed (coreOf k.gk) ≤ 512 →
     let lane (l : Nat) (t : Thread) : Prop := l ∈ lanesOf k.active ∧ g.lanes.get? l = some t ∧ t.guard f.h = true
     let record (t : Thread) (n : Nat) : Nat := localLoc (coreOf k.gk) tm p .ln t.tid (sliceBytes p - 128 * n)
     let free (l : Nat) (t : Thread) (n : Nat) : Prop := t.tx.act = false ∧ s.threadHolds k.gk l false = false ∧
       s.padBusy (coreOf k.gk) (record t n) 128 = false
     let others (g' : Group) : Prop := (∀ l, l ∉ lanesOf k.active → g'.lanes.get? l = g.lanes.get? l) ∧
       ∀ l t, l ∈ lanesOf k.active → g.lanes.get? l = some t → t.guard f.h = false → g'.lanes.get? l = some t.goOn
     let called (target : Thread → Word) (t u : Thread) : Prop :=
       u.lpc = target t ∧ u.wb = (t.wb + 24) % 96 ∧ u.nres = 1 ∧ u.cd = t.cd + 1 ∧
         u.links.read 0 (u.wb / 24) = t.lpc + 1 ∧ (∀ i, 8 ≤ i → i < 32 → u.reg false i = 0) ∧
         (∀ i < 8, u.reg false i = t.reg false (24 + i)) ∧ ∀ i < 24, u.stackEntry (u.frameAt + i) = t.reg false i
     let returned (t : Thread) : Thread :=
       { t with lpc := t.links.read 0 (t.wb / 24), wb := (t.wb + 72) % 96, cd := t.cd - 1, nres := 0 }
     let calls (i : Instr) (target : Thread → Word) : Prop :=
       ((∀ l t, lane l t → t.nres = 0 ∧ t.cd < 65535) →
         ∃ g', exec i s = .next ((s.takeReplies k.gk).issued k g') ∧ g' = { g with lanes := g'.lanes } ∧ others g' ∧
           ∀ l t, lane l t → ∃ u, g'.lanes.get? l = some u ∧ called target t u ∧ u.nls = t.nls ∧ u.ngl = t.ngl) ∧
       ((∀ l t, lane l t → t.nres = 1 ∧ t.cd < 65535 ∧ t.nls < framePositions p ∧ free l t (t.nls + 1)) →
         ∃ t' g', exec i s = .next t' ∧ t'.cur = none ∧ t'.groups.get? k.gk = some g' ∧ g' = { g with lanes := g'.lanes } ∧
           others g' ∧ (∀ l t, lane l t → ∃ u, g'.lanes.get? l = some u ∧ called target t u ∧ u.nls = t.nls + 1 ∧ u.ngl = t.ngl) ∧
           (∀ l t, lane l t → (∀ l' t', lane l' t' → l' = l) →
             t'.bytes .pad (record t (t.nls + 1)) 128 = t.frameRecord) ∧
           t'.mem = s.mem ∧ t'.flights = s.flights) ∧
       ((∀ l t, lane l t → t.cd = 65535) →
         LanesTrap i f.h s (s.takeReplies k.gk) k g 7 fun _ t => detailWindow t)
     calls (.call f) (fun _ => f.imm) ∧ calls (.callx f) (fun t => BitVec.ofNat 32 (k.val g t .b32 1 f.a) + f.imm) ∧
       ((∀ l t, lane l t → t.nres = 1 ∧ 0 < t.cd) →
         ∃ g', exec (.ret f) s = .next ((s.takeReplies k.gk).issued k g') ∧ g' = { g with lanes := g'.lanes } ∧ others g' ∧
           ∀ l t, lane l t → g'.lanes.get? l = some (returned t)) ∧
       ((∀ l t, lane l t → t.nres = 0 ∧ 0 < t.cd ∧ t.ngl = 0 ∧ free l t t.nls ∧ s.poisoned .pad (record t t.nls) 128 = false) →
         ∃ t' g', exec (.ret f) s = .next t' ∧ t'.cur = none ∧ t'.groups.get? k.gk = some g' ∧
           g' = { g with lanes := g'.lanes } ∧ others g' ∧
           (∀ l t, lane l t → g'.lanes.get? l =
             some (returned { t.fillFrame (s.bytes .pad (record t t.nls) 128) with nls := t.nls - 1 })) ∧
           t'.mem = s.mem ∧ t'.scratch = s.scratch ∧ t'.flights = s.flights) ∧
       ((∀ l t, lane l t → t.cd = 0) → LanesTrap (.ret f) f.h s (s.takeReplies k.gk) k g 8 fun _ t => detailWindow t)) ∧
  (∀ (t u : Thread), t.wb ∈ [0, 24, 48, 72] → u.wb = t.wb →
     t.frameRecord.length = 128 ∧
       (∀ i < 24, ofBytes ((t.frameRecord.drop (4 * i)).take 4) = (t.stackEntry (t.frameAt + i)).toNat) ∧
       ofBytes ((t.frameRecord.drop 96).take 4) = (t.links.read 0 (t.frameAt / 24)).toNat ∧
       (∀ b ∈ t.frameRecord.drop 100, b = 0) ∧
       (∀ i < 24, (u.fillFrame t.frameRecord).stackEntry (t.frameAt + i) = t.stackEntry (t.frameAt + i)) ∧
       (∀ i < 72, (u.fillFrame t.frameRecord).stackEntry (t.wb + i) = u.stackEntry (t.wb + i)) ∧
       (u.fillFrame t.frameRecord).links.read 0 (t.frameAt / 24) = t.links.read 0 (t.frameAt / 24))

/-- 07 R167, R170 to R172: opening a join entry, arriving at it, the two class 10 traps, and the completion that pops the
topmost entry and sends the arrived lanes on. A lane whose guard fails advances with the others of its group. No lane has an
acquire in flight where it arrives. 07 R178: enrolling in a rejoin mask, waiting at one, and the release that clears the mask
and lets every waiting lane on once each lane set in it waits there or has exited. No lane has an acquire in flight where it
waits. -/
def Obligations.JoinsAndRejoinMasks : Prop :=
  ((∀ (f : Op3) (s : State) (k : Cursor) (g : Group), Issuing s k g → g.joinHeld k = false →
     (guardG g f.h k = false → ∀ i ∈ [Instr.jopen f, .join f], (i = .join f → s.acqHolds k = false) →
       ∃ g', exec i s = .next (s.issued k g') ∧ LanesBecome k g g' fun _ t => t.goOn) ∧
     (guardG g f.h k = true →
       (g.joins.length < 15 → ∃ g', exec (.jopen f) s = .next (s.issued k g') ∧
         LanesBecome k { g with joins := .join 0 k.active f.imm 0 :: g.joins } g' fun _ t => t.goOn) ∧
       (15 ≤ g.joins.length → g.joins.length ≤ 16 → exec (.jopen f) s = .next (s.finish k ((lanesOf k.active).map fun l =>
         ⟨l, 10, BitVec.ofNat 128 (1 + 2 ^ 32 * g.joins.length)⟩))) ∧
       (s.acqHolds k = false → ∀ pre c m a post, g.joins = pre ++ .join c m k.pc a :: post →
         (∀ e ∈ pre, ∃ c m tgt a, e = .join c m tgt a ∧ tgt ≠ k.pc) →
         exec (.join f) s = .next (s.issued k { g with joins := pre ++ .join c m k.pc (a ||| k.active) :: post })) ∧
       (s.acqHolds k = false → (∀ c m a, .join c m k.pc a ∉ g.joins) → g.joins.length ≤ 16 →
         exec (.join f) s = .next (s.finish k
           ((lanesOf k.active).map fun l => ⟨l, 10, BitVec.ofNat 128 (2 + 2 ^ 32 * g.joins.length)⟩))))) ∧
   (∀ (gk : Nat) (s : State) (g : Group) (c : Nat) (mask tgt arr : Word) (rest : List JoinEntry),
     s.groups.get? gk = some g → g.joins = .join c mask tgt arr :: rest →
     let done := c = 0 ∧ ∀ l ∈ lanesOf mask, bitOf arr l = true ∨ g.live l = false
     (¬done → exec (.joinCompletion gk) s = .next s) ∧
     (done → ∃ g', exec (.joinCompletion gk) s = .next { s with groups := s.groups.put gk g' } ∧
       g' = { g with joins := rest, lanes := g'.lanes } ∧
       ∀ l, g'.lanes.get? l = if l ∈ lanesOf arr then (g.lanes.get? l).map fun t =>
           { t.sees (s.knownTo ((lanesOf arr).map fun j => (gk, j))) with lpc := tgt + 1 }
         else g.lanes.get? l))) ∧
  ((∀ (f : Op3) (s : State) (k : Cursor) (g : Group), Issuing s k g →
     let n := f.imm.toNat % 4
     (∃ g', exec (.enrol f) s = .next (s.issued k g') ∧ g' = { g with lanes := g'.lanes, rm := g'.rm } ∧
       (∀ l, l ∉ lanesOf k.active → g'.lanes.get? l = g.lanes.get? l) ∧
       (∀ l t, l ∈ lanesOf k.active → g.lanes.get? l = some t → g'.lanes.get? l =
         some (if t.guard f.h then t.step else t.goOn)) ∧
       ∀ j < 4, ∀ l < 32, bitOf (g'.rmask j) l = true ↔ bitOf (g.rmask j) l = true ∨ j = n ∧ InC k g f.h l) ∧
     (s.acqHolds k = false → ∃ g', exec (.bwaitm f) s = .next (s.issued k g') ∧ LanesBecome k g g' fun l t =>
       if t.guard f.h then (if bitOf (g.rmask n) l then { t with wait := .rejoinMask n } else t.step) else t.goOn)) ∧
   (∀ (gk n : Nat) (s : State) (g : Group), s.groups.get? gk = some g →
     let waits (l : Nat) : Prop := ∃ t, g.lanes.get? l = some t ∧ t.wait = .rejoinMask n
     let ready := (∃ l < 32, waits l) ∧ ∀ l ∈ lanesOf (g.rmask n), waits l ∨ g.maskGone l = true
     (¬ready → exec (.bwaitmRelease gk n) s = .next s) ∧
     (ready → ∃ g', exec (.bwaitmRelease gk n) s = .next { s with groups := s.groups.put gk g' } ∧
       g' = { g with lanes := g'.lanes, rm := g'.rm } ∧ g'.rmask n = 0 ∧ (∀ j, j ≠ n → g'.rmask j = g.rmask j) ∧
       (∀ l < 32, waits l → g'.lanes.get? l = (g.lanes.get? l).map fun t =>
         (t.sees (s.knownTo ((g.maskWaiters n).map fun j => (gk, j)))).goOn) ∧
       ∀ l, ¬(l < 32 ∧ waits l) → g'.lanes.get? l = g.lanes.get? l)))

/-- 07 R174, R176: ejecting threads and bringing them back. Each lane whose guard and predicate hold becomes vacant and
its thread a continuation of the team with the target, the home lane, entry and depth; the entry counts them; the other
lanes advance. Ejecting from a continuation group or a handler, from a lane enrolled in a rejoin mask, or without a join
entry on top traps. A thread that rejoins stands in its home lane at the entry's join, arrived and no longer counted; a
thread that is no continuation, has open join entries, or is at another call depth traps. An acquire in flight holds a
rejoin back (14 R345). 16 R388; 07 R175: Swarm takes the continuations of the team and target counter of a core's oldest
one, the lower thread id of two of one clock, where a slot is free, or idle with no return home due to it and no launch
of it on its way, and either 32 of them wait or the oldest has waited 64 delivered clocks. Up to 32 of them, those of
the lowest thread ids, leave the queue as a group in ascending lanes: empty join stack and masks, the scalars of the
home group of the lowest, `sr.gid` 0xFFFF_FFFF; what the idle slot's group still has under way stays its own. Without a
slot, or with fewer and younger ones, nothing changes. Rests on log 25 and 67. -/
def Obligations.ContinuationsLeaveFormAndReturn : Prop :=
  ((∀ (f : Op3) (s : State) (k : Cursor) (g : Group) (i : Nat), Issuing s k g → f.a = .pred i → g.joinHeld k = false →
     let inX (l : Nat) : Bool := match g.lanes.get? l with
       | some t => t.guard f.h && t.pred i
       | none => false
     let xs := (lanesOf k.active).filter inX
     let advanced (g' : Group) : Prop := ∀ l u, l ∈ lanesOf k.active → inX l = false → g.lanes.get? l = some u →
       g'.lanes.get? l = some u.goOn
     let traps (cause : Nat) : Prop := ∃ g', exec (.eject f) s = .next ((s.setGroup k.gk g').finish k (xs.map fun l =>
         ⟨l, 10, BitVec.ofNat 128 (cause + 2 ^ 32 * g.joins.length)⟩)) ∧ g' = { g with lanes := g'.lanes } ∧ advanced g' ∧
       ∀ l, l ∈ xs ∨ l ∉ lanesOf k.active → g'.lanes.get? l = g.lanes.get? l
     (xs = [] → ∃ g', exec (.eject f) s = .next (s.issued k g') ∧ LanesBecome k g g' fun _ t => t.goOn) ∧
     (xs ≠ [] → g.joins.length ≤ 16 →
       (k.handler = true ∨ g.isCont = true → traps 4) ∧
       (k.handler = false → g.isCont = false → (∀ c m t a r, g.joins ≠ .join c m t a :: r) → traps 3) ∧
       (k.handler = false → g.isCont = false → ∀ c m tgt a rest, g.joins = .join c m tgt a :: rest →
         ((∃ l ∈ xs, g.enrolled l = true) → traps 5) ∧
         (∀ tm, s.teams.get? g.team = some tm → (∀ l ∈ xs, g.enrolled l = false) →
           ∃ t g' tm', exec (.eject f) s = .next t ∧ t.cur = none ∧ t.groups.get? k.gk = some g' ∧
             t.teams.get? g.team = some tm' ∧ g'.joins = .join (c + xs.length) m tgt a :: rest ∧ advanced g' ∧
             (∀ l ∈ xs, g'.lanes.get? l = none) ∧ (∀ l, l ∉ lanesOf k.active → g'.lanes.get? l = g.lanes.get? l) ∧
             tm' = { tm with conts := tm.conts ++ xs.filterMap fun l => (g.lanes.get? l).map fun u =>
               { core := coreOf k.gk, age := 0, order := s.clock,
                 th := { u with lpc := f.imm, wait := .none, home := some ⟨k.gk, l, rest.length, u.cd⟩ } } } ∧
             (∀ gk', gk' ≠ k.gk → t.groups.get? gk' = s.groups.get? gk') ∧ t.mem = s.mem ∧ t.scratch = s.scratch)))) ∧
   (∀ (f : Op3) (s : State) (k : Cursor) (g : Group), Issuing s k g → s.acqHolds k = true → exec (.rejoin f) s = .next s) ∧
   (∀ (f : Op3) (s : State) (k : Cursor) (g : Group), Issuing s k g → g.joins.length ≤ 16 → s.acqHolds k = false →
     let inC (l : Nat) (u : Thread) : Prop := l ∈ lanesOf k.active ∧ g.lanes.get? l = some u ∧ u.guard f.h = true
     let traps (cause : Nat) : Prop := LanesTrap (.rejoin f) f.h s s k g 10 fun _ _ =>
       BitVec.ofNat 128 (cause + 2 ^ 32 * g.joins.length)
     ((∀ l u, inC l u → u.home = none) → traps 6) ∧
     (g.joins ≠ [] → (∀ l u, inC l u → u.home ≠ none) → traps 7) ∧
     (g.joins = [] → (∀ l u, inC l u → ∃ h, u.home = some h ∧ u.cd ≠ h.cd) → traps 8) ∧
     (g.joins = [] →
       (∀ l u, inC l u → ∃ h hg c m tgt a, u.home = some h ∧ u.cd = h.cd ∧ h.gk ≠ k.gk ∧ h.lane < 32 ∧
         s.groups.get? h.gk = some hg ∧ hg.joins.reverse[h.entry]? = some (.join c m tgt a)) →
       (∀ l l' u u' h h', inC l u → inC l' u' → u.home = some h → u'.home = some h' → h.gk = h'.gk → h.lane = h'.lane →
         l = l') →
       ∃ t, exec (.rejoin f) s = .next t ∧ t.cur = none ∧ t.mem = s.mem ∧ t.scratch = s.scratch ∧
         (∀ l u h hg c m tgt a, inC l u → u.home = some h → s.groups.get? h.gk = some hg →
           hg.joins.reverse[h.entry]? = some (.join c m tgt a) →
           ∃ hg' a', t.groups.get? h.gk = some hg' ∧
             hg'.lanes.get? h.lane = some { u with home := none, lpc := tgt, wait := .none } ∧
             hg'.joins.reverse[h.entry]? = some (.join (c - ((guarded g f.h k).filter fun j =>
               (s.thread k.gk j).home.any fun x => x.gk = h.gk && x.entry = h.entry).length) m tgt a') ∧
             bitOf a' h.lane = true ∧ ∀ j < 32, bitOf a j = true → bitOf a' j = true) ∧
         ∀ g', t.groups.get? k.gk = some g' → (∀ l u, inC l u → g'.lanes.get? l = none) ∧
           ∀ l u, l ∈ lanesOf k.active → g.lanes.get? l = some u → u.guard f.h = false → g'.lanes.get? l = some u.goOn))) ∧
  (∀ (core : Nat) (s : State),
     ((s.teams.all fun e => e.2.conts.all fun c => c.core ≠ core) = true →
       exec (.continuationGroupForm core) s = .next s) ∧
     ∀ (tk : Nat) (tm : Team) (gr : Grid) (c : Cont), s.teams.get? tk = some tm → s.gridOf tm = some gr → s.teams.sorted = true →
       c ∈ tm.conts → c.core = core →
       (∀ e ∈ s.teams, ∀ d ∈ e.2.conts, d.core = core → (e.1 = tk ∧ d = c) ∨ c.order < d.order ∨
         (c.order = d.order ∧ c.th.tid < d.th.tid)) →
       let cls := tm.conts.filter fun d => d.core = core && d.th.lpc = c.th.lpc
       let idle := (s.teamGroups tk core).filter fun e => e.2.idle && e.2.launches.isEmpty && !s.homeDue tk core e.2.gid
       let due : Prop := 32 ≤ cls.length ∨ 64 ≤ c.age
       (¬due ∨ (s.freeSlots core = [] ∧ idle = []) → exec (.continuationGroupForm core) s = .next s) ∧
       (∀ gk, due → ((∃ k, (s.freeSlots core).head? = some k ∧ gk = 32 * core + k) ∨
           (s.freeSlots core = [] ∧ (idle.map (·.1)).head? = some gk)) →
         ∃ (t : State) (g' : Group) (cs : List Cont), exec (.continuationGroupForm core) s = .next t ∧
           t = { s.orphan gk with groups := s.groups.put gk g',
                                  teams := s.teams.put tk { tm with conts := tm.conts.filter fun d => !cs.contains d } } ∧
           cs.length = min 32 cls.length ∧ (∀ d ∈ cs, d ∈ cls) ∧ (cs.map fun d => d.th.tid).Pairwise (· ≤ ·) ∧
           (∀ d ∈ cls, d ∈ cs ∨ ∀ x ∈ cs, x.th.tid ≤ d.th.tid) ∧
           g'.isCont = true ∧ g'.idle = false ∧ g'.team = tk ∧ g'.gid = 0xFFFFFFFF ∧ g'.rgkey = 0xFFFF ∧ g'.joins = [] ∧ g'.rm = [] ∧
           g'.spillb = gr.pkt.spill + BitVec.ofNat 64 (tm.idx * gr.pkt.spillsz) ∧
           g'.spilll = g'.spillb + BitVec.ofNat 64 gr.pkt.spillsz ∧
           (∀ d h, cs.head? = some d → d.th.home = some h → g'.scal = (s.group h.gk).scal) ∧
           ∀ i, g'.lanes.get? i = cs[i]?.map fun d => { d.th with wait := .none }))

/-- 07 R177; 06 R138: every guarded lane's thread ends and leaves the rejoin masks; the others live on, and advance where they
execute. The group stays while a thread of it lives, and its slot is freed with the last one where no thread of it is a
continuation and no launch of it is still on its way. Where no lane of a group collects at a barrier: an exit that completes a
collection is 15 R358. -/
def Obligations.ExitEndsThreads : Prop :=
  ∀ (f : Op3) (s : State) (k : Cursor) (g : Group), Issuing s k g →
    (∀ gk g', s.groups.get? gk = some g' → g'.collections = []) →
    let stays (l : Nat) (t : Thread) : Prop := g.lanes.get? l = some t ∧ t.exited = false ∧ ¬InC k g f.h l
    ((∃ l t, stays l t) → ∃ t g', exec (.exit f) s = .next t ∧ t.cur = none ∧ t.groups.get? k.gk = some g' ∧
      (∀ l, InC k g f.h l → (∃ u, g'.lanes.get? l = some u ∧ u.exited = true) ∧ ∀ n < 4, bitOf (g'.rmask n) l = false) ∧
      (∀ l u, stays l u → ∃ w, g'.lanes.get? l = some w ∧ w.exited = false ∧
        (g.trapEntry = none → w.lpc = if l ∈ lanesOf k.active then u.lpc + 1 else u.lpc)) ∧
      t.mem = s.mem ∧ t.scratch = s.scratch) ∧
    (g.lanes.sorted = true → (∀ l t, ¬stays l t) → g.idle = false → g.launches = [] → s.hasConts k.gk = false →
      ∃ t, exec (.exit f) s = .next t ∧ t.cur = none ∧ t.groups.get? k.gk = none)

/-! ## Memory (10_memory, 11_memory_ops) -/

/-- 10 R226 to R231, R246 to R248; 22 R466: the checks on an address. A misaligned one fails with class 5, a local one
out of bounds with class 6; a local one within bounds is accepted at its location. In `.gl` an address from 2^57 on
fails with class 3 cause 4; a remote one goes to its peer, or fails with cause 6 while the link group does not work; a
page that a TLB covers gives its physical address, or class 3 cause 3 without the permission; the failure of a walk that
the group waited for is that of the access; for a page that no TLB covers the access waits, and starts a walk where no
walk serves it and a walker is free. Rests on log 19. -/
def Obligations.AddressChecks : Prop :=
  ∀ (s : State) (gk : Nat) (r : Req) (tm : Team) (p : Packet), s.teamOf (s.group gk) = some tm →
    s.pktOf (s.group gk) = some p →
    let ck := s.ckOf (s.group gk)
    let c := coreOf gk
    let page := r.addr / 65536
    let fails (cls cause : Nat) : Prop := (s.check gk r).2 = .trap cls (detailM r.addr cause r.kind r.size r.space.code)
    let near (ok : Prop) (loc : Nat) : Prop := (ok → s.check gk r = (s, .ok loc (0, 0) 0)) ∧ (¬ok → fails 6 0)
    let answered (w : Walk) : Prop := w.ck = ck ∧ w.page = page ∧ gk ∈ w.gks ∧ w.result.isSome = true
    let found (e : TlbEntry) : Prop := (s.core c).tlb.find? (fun e => e.covers ck page) = some e ∨
      ((∀ e ∈ (s.core c).tlb, e.covers ck page = false) ∧ (s.tlb2Of (dieOf c)).find? (fun e => e.covers ck page) = some e)
    (r.addr % r.size ≠ 0 → fails 5 0) ∧
    (r.addr % r.size = 0 →
      (r.space = .ln → near (r.addr + r.size ≤ 16 * p.lane)
        (2 ^ 19 * tm.homeCore r.tid + tm.sliceAt p r.tid + r.addr)) ∧
      (r.space = .sp → near (512 * tm.b ≤ r.addr ∧ r.addr + r.size ≤ 512 * tm.b + p.scratch) (2 ^ 19 * c + r.addr)) ∧
      (r.space = .ks → let home := c / 64 * 64 + r.addr / 2 ^ 19 % 64
        near (r.addr < 2 ^ 25 ∧ home ∈ tm.cores ∧ 512 * tm.b ≤ r.addr % 2 ^ 19 ∧
          r.addr % 2 ^ 19 + r.size ≤ 512 * tm.b + p.scratch) (2 ^ 19 * home + r.addr % 2 ^ 19)) ∧
      (r.space = .xs → let grant := (s.ctx ck).grants.read 0 (r.addr / 2 ^ 24)
        let o := r.addr % 2 ^ 24
        near (r.addr < 2 ^ 27 ∧ o + r.size ≤ 2 ^ 24 ∧ 65536 * (grant.toNat % 256) ≤ o ∧
          o + r.size ≤ 65536 * (grant.toNat % 256 + grant.toNat / 256 % 512)) r.addr) ∧
      (r.space = .gl → 2 ^ 57 ≤ r.addr → fails 3 4) ∧
      (r.space = .gl → r.addr < 2 ^ 57 → ∀ i, s.remoteOf ck r.addr = some i →
        (s.peerUp ck i = true → s.check gk r = (s, .remote i)) ∧ (s.peerUp ck i = false → fails 3 6)) ∧
      (r.space = .gl → r.addr < 2 ^ 57 → s.remoteOf ck r.addr = none →
        (∀ e, found e →
          (leafAllows e.leaf r.need = false → fails 3 3) ∧
          (leafAllows e.leaf r.need = true → let pa := (leafPfn e.leaf + (page - e.first)) * 65536 + r.addr % 65536
            (s.check gk r).2 = .ok pa (e.first, e.len) (homeSlice pa e.leaf))) ∧
        ((∀ e ∈ (s.core c).tlb ++ s.tlb2Of (dieOf c), e.covers ck page = false) →
          (∀ x ∈ s.walks, answered x.2 →
            (∀ y ∈ s.walks, answered y.2 → y.2.result = x.2.result) →
            (∀ cls cause, x.2.result = some (.fault cls cause) → fails cls cause) ∧
            (x.2.result = some .poison → fails 16 0)) ∧
          ((∀ x ∈ s.walks, ¬answered x.2) → (s.check gk r).2 = .wait ∧
            ((∀ x ∈ s.walks, dieOf x.2.core = dieOf c → s.joins x.2 ck page = false) → s.walkersBusy (dieOf c) < 32 →
              s.check gk r = ({ s with
                nextId := s.nextId + 1
                walks := s.walks.put s.nextId
                  { ck := ck, page := page, core := c, isc := (s.ctx ck).isc, gks := [gk], result := none } }, .wait))))))

/-- 10 R236; 11 R260, R263: loads by lanes that pass the checks of R226. In `.sp` and `.ln`, and on a hit of the core's
L1 in `.gl`, a guarded lane's destination receives the bytes extended to its width and the lane advances; otherwise its
access goes in flight, its destination waits on it (06 R139), and the lane advances, or waits at the instruction where
the context's overlap check needs it (a lane that may not use the L1 empties the sector for the others of its
instruction). `ld.nr` sets its predicate to false with the data; in a page that is not resident it delivers 0 and sets
the predicate, with no trap. The lanes whose guard fails advance. A load in `.gl` issues within the core's cap, with
free request entries for the sectors that miss the L1; no lane is in a transaction, and no access of another shape to
the bytes has made them undefined. Rests on log 9 and 16. -/
def Obligations.VectorLoads : Prop :=
  ∀ (f : MemF) (i : Instr) (flag : Nat) (s s1 : State) (k : Cursor) (g : Group) (rs : List (Req × Checked)), Issuing s k g →
    (i = .ldVector f ∧ flag = 0 ∨ i = .ldNr f ∧ f.b = .pred flag ∧ flag ≠ 0 ∧ flag < 8 ∧ f.space = .gl) →
    (f.space = .gl → s.withinCap k.gk = true ∧
      s.hasRequests (coreOf k.gk) (requestCount 64 (s.loadMisses k f flag rs)) = true) →
    lanesFree s k g f.h false → s.checkAll k.gk (laneReqs g k f f.size.bytes .read 1) = (s1, some rs) →
    (∀ rc ∈ rs, accessFree s k f false rc ∧ accessClear s k f rs rc ∧ ((∃ loc run slice, rc.2 = .ok loc run slice ∧
      (nearSpace f.space = true → s.poisoned .pad loc f.size.bytes = false)) ∨ (flag ≠ 0 ∧ ∃ d, rc.2 = .trap 4 d))) →
    let n := f.size.regs
    let overlapped := isStrong f = true ∧ f.space = .gl ∧ (s.ctx (s.ckOf g)).ovUsed = true
    let flagged (b : Bool) (w : Thread) : Thread := if flag = 0 then w else w.setPred flag b
    ∃ t g', exec i s = .next t ∧ AccessFrame s t k g' ∧ OthersAdvance k f.h g g' ∧ t.scratch = s.scratch ∧
      t.scratchPoison = s.scratchPoison ∧
      ∀ rc ∈ rs, ∀ u, g.lanes.get? rc.1.lane = some u → ∃ w, g'.lanes.get? rc.1.lane = some w ∧
        let hits := s.l1Hits (s.loadFlight k f flag 0 rc.1 rc.2)
        (∀ d, rc.2 = .trap 4 d → w = (flagged true (u.write k.handler n f.d 0)).step) ∧
        ∀ loc run slice, rc.2 = .ok loc run slice →
          (nearSpace f.space = true → ∃ fl ns,
            w = ((u.write k.handler n f.d (loadValue f.size (s.load .pad loc f.size.bytes))).tookFrom fl ns).step) ∧
          (hits = true → (∀ x ∈ rs, ∀ loc' run slice, x.2 = .ok loc' run slice → loc' / 64 = loc / 64 →
              s.mayHit (s.loadFlight k f flag 0 x.1 x.2) = true) →
            ∃ fl ns d, (s.core (coreOf k.gk)).l1Sector loc = some d ∧
            w = (flagged false ((u.write k.handler n f.d
              (loadValue f.size (ofBytes ((d.drop (loc % 64)).take f.size.bytes)))).tookFrom fl ns)).step) ∧
          (nearSpace f.space = false → hits = false →
            ∃ id fl, s.nextId ≤ id ∧ t.flights.get? id = some fl ∧
              fl.kind = .load (u.destEntry k.handler f.d) n f.size flag f.rd.toNat ∧ fl.loc = loc ∧ fl.size = f.size.bytes ∧
              fl.tid = u.tid ∧ fl.team = g.team ∧ fl.core = coreOf k.gk ∧ fl.space = f.space ∧ fl.remote = none ∧
              let v : Thread := if isStrong f then { u with strongRead := some id } else u
              let v' := if flag = 0 then v.hold k.handler n f.d else (v.hold k.handler n f.d).hold k.handler 1 (.pred flag)
              (overlapped → w = { v' with wait := .window id }) ∧ (¬overlapped → w = v'.step))

/-- 10 R237; 11 R260, R261: stores by lanes that pass the checks of R226. In `.sp` and `.ln` a store that is no wide
release is performed at once: each stored byte takes the value of the highest lane that writes it, and no other byte
changes. The other stores go in flight with the bytes that no higher lane writes, and memory does not change yet; the
lanes advance, or wait at the instruction under the overlap check. Request entries are free for the lines; no lane is in
a transaction, and no access of another shape to the bytes has made them undefined. Rests on log 15 and 16. -/
def Obligations.VectorStores : Prop :=
  ∀ (f : MemF) (s s1 : State) (k : Cursor) (g : Group) (rs : List (Req × Checked)), Issuing s k g →
    lanesFree s k g f.h true → (isStrong f = true → s.lendHolds k.gk (guarded g f.h k) = false) →
    s.checkAll k.gk (laneReqs g k f f.size.bytes .write 2) = (s1, some rs) →
    (∀ rc ∈ rs, accessFree s k f true rc ∧ accessClear s k f rs rc ∧ ∃ loc run slice, rc.2 = .ok loc run slice) →
    (f.space = .gl → s.hasRequests (coreOf k.gk) (requestCount 128 rs) = true) →
    let n := f.size.bytes
    let stores (l loc : Nat) : Prop := ∃ rc ∈ rs, rc.1.lane = l ∧ ∃ run slice, rc.2 = .ok loc run slice
    let value (l : Nat) : Nat := laneVal g ((g.lanes.get? l).getD {}) k.handler .b32 f.size.regs f.b
    let overlapped := isStrong f = true ∧ f.space = .gl ∧ (s.ctx (s.ckOf g)).ovUsed = true
    let above (l a : Nat) : Prop := ∃ l' loc', l < l' ∧ stores l' loc' ∧ loc' ≤ a ∧ a < loc' + n
    let held (u : Thread) : Bool := storeHeld f u.fenceRel
    ∃ t g', exec (.stVector f) s = .next t ∧ AccessFrame s t k g' ∧ OthersAdvance k f.h g g' ∧
      (∀ l loc u, stores l loc → g.lanes.get? l = some u →
        let v : Thread := if isStrong f then { u with fenceRel := none } else u
        ∃ w, g'.lanes.get? l = some w ∧
          (nearSpace f.space = true ∧ held u = false → w = v.step ∧
            ∀ j < n, ¬above l (loc + j) → t.scratch.read 0 (loc + j) = BitVec.ofNat 8 (value l / 256 ^ j)) ∧
          (¬(nearSpace f.space = true ∧ held u = false) → ∃ id fl b, s.nextId ≤ id ∧ t.flights.get? id = some fl ∧
            fl.kind = .store b ∧ fl.loc = loc ∧ fl.size = n ∧ fl.tid = u.tid ∧ fl.team = g.team ∧ fl.core = coreOf k.gk ∧
            fl.space = f.space ∧ fl.remote = none ∧ fl.heldRelease = held u ∧
            (∀ a x, (a, x) ∈ b ↔ ¬above l a ∧ ∃ j < n, a = loc + j ∧ x = BitVec.ofNat 8 (value l / 256 ^ j)) ∧
            (overlapped → w = { v with wait := .window id }) ∧ (¬overlapped → w = v.step))) ∧
      (∀ a, (∀ l loc u, stores l loc → g.lanes.get? l = some u → nearSpace f.space = true → held u = false →
          ¬(loc ≤ a ∧ a < loc + n)) →
        t.scratch.read 0 a = s.scratch.read 0 a)

/-- 11 R260: loads and stores of the group, in class 0b00. The guard is that of the lowest lane. Where the access passes
the checks of R226, `ld.sp` writes its scalars and `st.sp` stores at once; otherwise the access goes in flight, or a
load hits the L1, and the scalars of a load wait on it. Every lane that executes advances, or waits at the instruction
under the overlap check; a skipped instruction only advances. No lane that executes is in a transaction. Rests on log 15
and 16. -/
def Obligations.ScalarAccesses : Prop :=
  ∀ (f : MemF) (s : State) (k : Cursor) (g : Group), Issuing s k g →
    (guardG g f.h k = false →
      ((f.space = .gl → s.withinCap k.gk = true) → ∃ g', exec (.ldScalar f) s = .next (s.issued k g') ∧
        LanesBecome k g g' fun _ t => t.goOn) ∧
      ∃ g', exec (.stScalar f) s = .next (s.issued k g') ∧ LanesBecome k g g' fun _ t => t.goOn) ∧
    (guardG g f.h k = true → (∀ l ∈ lanesOf k.active, (s.thread k.gk l).tx.act = false) →
      let n := f.size.regs
      let c := s.core (coreOf k.gk)
      let overlapped := isStrong f = true ∧ f.space = .gl ∧ (s.ctx (s.ckOf g)).ovUsed = true
      let fits (need : Need) (kind : Nat) (wr : Bool) (c : Checked) : Prop :=
        let r := groupReq g k f f.size.bytes need kind
        (∀ l ∈ lanesOf k.active, s.threadHolds k.gk l wr = false) ∧ s.watchAll k r = [] ∧ (s.check k.gk r).2 = c ∧
          s.locHolds k.gk (f.space = .sp) wr r c = false ∧
          s.clearOf (s.groupLoadFlight k f r c) (groupTid k.gk) ∧ s.notesSorted
      let flies (t : State) (g1 g' : Group) (id : Nat) (u : Thread → Thread) : Prop :=
        (overlapped → LanesBecome k g1 g' fun _ t => { u t with wait := .window id }) ∧
          (¬overlapped → LanesBecome k g1 g' fun _ t => (u t).goOn) ∧ s.nextId ≤ id ∧ t.scratch = s.scratch
      (∀ loc run slice, fits .read 1 false (.ok loc run slice) →
        (f.space = .sp → s.poisoned .pad loc f.size.bytes = false) →
        let r := groupReq g k f f.size.bytes .read 1
        let hits := s.l1Hits (s.groupLoadFlight k f r (.ok loc run slice))
        (f.space = .gl → s.withinCap k.gk = true ∧ (hits = true ∨ s.hasRequests (coreOf k.gk) 1 = true)) →
        ∃ t g', exec (.ldScalar f) s = .next t ∧ AccessFrame s t k g' ∧ t.scratch = s.scratch ∧
          (f.space = .sp → ∃ fl ns, LanesBecome k (g.write n f.d (loadValue f.size (s.load .pad loc f.size.bytes))) g'
            fun _ t => (t.tookFrom fl ns).goOn) ∧
          (hits = true → ∃ fl ns d, c.l1Sector loc = some d ∧
            LanesBecome k (g.write n f.d (loadValue f.size (ofBytes ((d.drop (loc % 64)).take f.size.bytes)))) g'
              fun _ t => (t.tookFrom fl ns).goOn) ∧
          (f.space ≠ .sp → hits = false → ∃ id fl, t.flights.get? id = some fl ∧
            fl.kind = .loadScalar ((scalOf f.d).getD 384) n f.size f.rd.toNat [] ∧
            fl.loc = loc ∧ fl.gk = k.gk ∧
            flies t (g.hold n f.d) g' id fun u => if isStrong f then { u with strongRead := some id } else u)) ∧
      (∀ loc run slice, fits .write 2 true (.ok loc run slice) →
        (isStrong f = true → s.lendHolds k.gk (lanesOf k.active) = false) →
        (f.space = .gl → s.hasRequests (coreOf k.gk) 1 = true) →
        let r := groupReq g k f f.size.bytes .write 2
        let v := groupVal g .b32 n f.b
        let clear (u : Thread) : Thread := if isStrong f then { u with fenceRel := none } else u
        let held := (memFlight f s k.gk (lanesOf k.active) (groupTid k.gk) r (.ok loc run slice) false
          (s.lentBy k.gk (lanesOf k.active) (isStrong f)) .fill).heldRelease
        ∃ t g', exec (.stScalar f) s = .next t ∧ AccessFrame s t k g' ∧
          (f.space = .sp ∧ held = false → LanesBecome k g g' (fun _ t => (clear t).goOn) ∧
            ∀ a, t.scratch.read 0 a =
              if loc ≤ a ∧ a < loc + f.size.bytes then BitVec.ofNat 8 (v / 256 ^ (a - loc)) else s.scratch.read 0 a) ∧
          (¬(f.space = .sp ∧ held = false) → ∃ id fl, t.flights.get? id = some fl ∧
            fl.kind = .store (place loc f.size.bytes v) ∧ fl.loc = loc ∧ fl.heldRelease = held ∧
            flies t g g' id clear)))

/-- 10 R253; 11 R264 to R267: `pf` puts a prefetch of the sector of each address that passes the checks in flight,
unless the L1 holds it, and drops the others; `pgreq` sends one record to the event ring of the context's firmware core
for each page that is not valid and resident, and its lanes wait while one of the records is held; `cinv` empties the
core's L1; `cdem` demotes the lines of its range in their slices and drops them from the L1; it looks the page up in the
TLBs, and needs a free walker where they do not hold it (10 R248). None writes a register or traps, and otherwise every
lane advances. A `pf` issues with free request entries for the sectors that it fetches. Rests on log 18. -/
def Obligations.PrefetchesPageRequestsAndCacheControl : Prop :=
  ∀ (f : MemF) (s : State) (k : Cursor) (g : Group), Issuing s k g →
    let core := coreOf k.gk
    let ck := s.ckOf g
    let skips (i : Instr) : Prop := ∃ g', exec i s = .next (s.issued k g') ∧ LanesBecome k g g' fun _ t => t.goOn
    let done (i : Instr) (good : State → (Thread → Thread) → Prop) : Prop := ∃ t g' u, exec i s = .next t ∧ good t u ∧
      t = { s with cur := none, groups := s.groups.put k.gk g', cores := t.cores, tlb2 := t.tlb2, walks := t.walks,
                   flights := t.flights, nextId := t.nextId, fns := t.fns, l2 := t.l2, strongs := t.strongs,
                   hazy := t.hazy, sent := t.sent, links := t.links } ∧
      LanesBecome k g g' fun _ t => u t
    let lists (sc ve : Instr) (ok : List (Req × Checked) → Prop)
        (good : List (Req × Checked) → State → (Thread → Thread) → Prop) : Prop :=
      (∀ s1 rs, s.checkAll k.gk (laneReqs g k f 1 .read 1) = (s1, some rs) → ok rs → done ve (good rs)) ∧
      (guardG g f.h k = false → skips sc) ∧
      (guardG g f.h k = true → ∀ s1 rs, s.checkAll k.gk [groupReq g k f 1 .read 1] = (s1, some rs) → ok rs →
        done sc (good rs))
    lists (.pfScalar f) (.pfVector f)
      (fun rs => s.hasRequests core (max 1 ((s.pfFlights k f 0 rs).filter fun fl => !s.l1Hits fl).length) = true)
      (fun rs t u => u = Thread.goOn ∧ t.fns = s.fns ∧ t.l2 = s.l2 ∧
        (∀ rc ∈ rs, ∀ loc run slice, rc.2 = .ok loc run slice →
          ((s.core core).l1Sector loc).isSome = true ∨ ∃ id fl, s.nextId ≤ id ∧ t.flights.get? id = some fl ∧
            fl.kind = .prefetch f.rd.toNat ∧ fl.loc / 64 = loc / 64 ∧ fl.core = core ∧ fl.remote = none) ∧
        (∀ rc ∈ rs, ∀ i, rc.2 = .remote i → ∃ id fl, s.nextId ≤ id ∧ t.flights.get? id = some fl ∧
          fl.kind = .prefetch f.rd.toNat ∧ fl.loc / 64 = rc.1.addr / 64 ∧ fl.remote = some i) ∧
        ((∀ rc ∈ rs, ∃ cls d, rc.2 = .trap cls d) → t.flights = s.flights)) ∧
    ((∀ n, s.nextId ≤ n → s.wakeAll (.pgreq n) = s) →
      lists (.pgreqScalar f) (.pgreqVector f) (fun _ => True) (fun rs t u => t.flights = s.flights ∧ t.l2 = s.l2 ∧
        ∃ tag, s.nextId ≤ tag ∧
          let pages := firsts ((rs.filter fun rc => rc.2.absentPage).map fun rc => rc.1.addr / 65536)
          let dev := ((s.teamOf g).bind s.gridOf).any (·.dev)
          t.fns = (pages.foldl (fun s p => s.postEvent (ck / 16)
            { bytes := recordBytes 0x12 0 0 (recordId ck 0 dev) 0 core (p * 65536), time := some ck, tag := tag }) s).fns ∧
          (((t.fn (ck / 16)).held.any fun r => r.tag = tag) = true → u = fun x => { x with wait := .pgreq tag }) ∧
          (((t.fn (ck / 16)).held.any fun r => r.tag = tag) = false → u = Thread.goOn))) ∧
    (guardG g f.h k = false → skips (.cinv f) ∧ skips (.cdem f)) ∧
    (guardG g f.h k = true →
      done (.cinv f) (fun t u => u = Thread.goOn ∧ (t.core core).l1 = [] ∧
        (∀ c, c ≠ core → t.cores.get? c = s.cores.get? c) ∧ t.l2 = s.l2 ∧ t.fns = s.fns ∧ t.flights = s.flights) ∧
      let a := groupAddr g f
      let n := groupVal g .b32 1 f.b
      (n = 0 → done (.cdem f) fun t u => u = Thread.goOn ∧ t.l2 = s.l2 ∧ t.cores = s.cores) ∧
      (∀ s' e pa leaf, 0 < n → a % 65536 + n ≤ 65536 → a < 2 ^ 57 → s.demoteHolds core ck a n = false →
        s.remoteOf ck (a / 65536 * 65536) = none → s.lookupNow core ck (a / 65536) = (s', some e) →
        e.check (a / 65536 * 65536) .read = .ok pa leaf →
        let inside (line : Nat) : Prop := (pa + a % 65536) / 128 ≤ line ∧ line * 128 < pa + a % 65536 + n
        done (.cdem f) fun t u => u = Thread.goOn ∧ (∀ l ∈ (t.core core).l1, ¬inside l.line) ∧ t.fns = s.fns ∧
          t.flights = s.flights ∧ ∀ j e, s'.l2.get? j = some e →
            ∃ e', t.l2.get? j = some e' ∧ (inside e.line → e' = { e with v := 7 }) ∧ (¬inside e.line → e' = e)))

/-- 15 R368, R369: the atomics go to the homes of their locations. Where every guarded lane's address passes the checks
of R226, the lanes that name one location make one access in flight, which carries each lane's thread, destination and
operands; a destination waits on it and the lane advances. A lane waits at the instruction under the overlap check, and
where it has no register destination and its location is poisoned. Rests on log 15, 16 and 20. -/
def Obligations.AtomicsGoToTheirHomes : Prop :=
  ∀ (f : MemF) (s s1 : State) (k : Cursor) (g : Group) (rs : List (Req × Checked)), Issuing s k g →
    ∀ p ∈ [(Instr.atomAdd f, 0), (.atomMin f, 1), (.atomMax f, 2), (.atomAnd f, 3), (.atomOr f, 4), (.atomXor f, 5),
        (.atomExch f, 6), (.atomCas f, 7), (.aredAdd f, 0), (.aredMin f, 1), (.aredMax f, 2), (.aredAnd f, 3),
        (.aredOr f, 4), (.aredXor f, 5)],
    lanesFree s k g f.h false → s.lendHolds k.gk (guarded g f.h k) = false →
    s.checkAll k.gk (laneReqs g k f f.size.bytes .both 3) = (s1, some rs) →
    (∀ rc ∈ rs, rc.2.watched k.handler (s.thread k.gk rc.1.lane) rc.1 = rc.2 ∧ s.locHolds k.gk false true rc.1 rc.2 = false ∧
      ∃ loc run slice, rc.2 = .ok loc run slice) →
    (f.space = .gl → s.hasRequests (coreOf k.gk) (requestCount 1 rs) = true) →
    let w := f.size.regs
    let names (l loc : Nat) : Prop := ∃ rc ∈ rs, rc.1.lane = l ∧ ∃ run slice, rc.2 = .ok loc run slice
    let b (l : Nat) : Nat := laneVal g ((g.lanes.get? l).getD {}) k.handler .b32 (if p.2 = 7 then 2 * w else w) f.b
    let waits (loc : Nat) : Prop := (isStrong f = true ∧ f.space = .gl ∧ (s.ctx (s.ckOf g)).ovUsed = true) ∨
      ((∀ j, f.d ≠ .win j) ∧ s.poisoned (placeOf f.space) loc f.size.bytes = true)
    ∃ t g', exec p.1 s = .next t ∧ AccessFrame s t k g' ∧ OthersAdvance k f.h g g' ∧ t.scratch = s.scratch ∧
      ∀ l loc u, names l loc → g.lanes.get? l = some u → ∃ id fl ops x, s.nextId ≤ id ∧ t.flights.get? id = some fl ∧
        fl.kind = .atomic p.2 f.ecl ops ∧ fl.loc = loc ∧ fl.size = f.size.bytes ∧ fl.team = g.team ∧ fl.space = f.space ∧
        (∀ l' u', g.lanes.get? l' = some u' → names l' loc →
          (l', u'.tid, u'.destEntry k.handler f.d, b l' % 2 ^ (32 * w), b l' / 2 ^ (32 * w)) ∈ ops) ∧
        (∀ o ∈ ops, names o.1 loc) ∧ g'.lanes.get? l = some x ∧
        let v := ({ u with fenceRel := none, strongRead := some id } : Thread).hold k.handler w f.d
        (waits loc → x = { v with wait := .window id }) ∧ (¬waits loc → x = v.step)

/-- 10 R237, R490; 11 R260, R263; 15 R368, R369: accesses in flight are performed at their homes. A load's bytes,
extended, reach its thread's destination, or poison of origin 3 where the location is poisoned; a store changes its
bytes and no other; an atomic changes its location by its lane, which receives the value before its own operation; a
load of the group reaches its scalars. The access is then no longer in flight, and a lane that waited on it goes on. For
an access that is a request of its own, that does not conflict under the overlap check, and whose bytes no access of
another shape has made undefined. 05 R101; 10 R247, R250, R251: a walk that ends with a run fills the second-level TLB
of its locality and the TLB of the core that asked; one that fails keeps its failure for the groups that wait; one that
began before a shoot-down starts again. A fetch brings the three lines of the block at a stream's counter into the
instruction cache of the pair. Rests on log 15, 17, 19, 47 and 53. -/
def Obligations.AccessesWalksAndFetchesEnd : Prop :=
  ((∀ (id : Nat) (s : State) (f : Flight) (g : Group) (d n rd : Nat) (size : Size), s.tablesSorted →
     s.flights.get? id = some f → f.remote = none → f.tx = false → s.mates id f = [id] → s.flightReady id = true →
     (f.chk = false ∨ (s.ctx f.ck).ovchk = false) → s.mixedBytes f f.tid = [] → s.groups.get? f.gk = some g →
     f.kind = .loadScalar d n size rd [] → d + n ≤ 384 → n ≤ 4 →
     let v := loadValue size (s.load f.place f.loc f.size)
     ∃ t g', exec (.loadDataReturn id) s = .next t ∧ t.flights = s.flights.del id ∧ t.groups.get? f.gk = some g' ∧
       (∀ p a, t.byte p a = s.byte p a) ∧
       (∀ j < n, d + j ∉ g'.spend ∧
         (s.poisoned f.place f.loc f.size = false → g'.scalar (d + j) = BitVec.ofNat 32 (v / 2 ^ (32 * j)) ∧
           g'.spoison.get? (d + j) = none) ∧
         (s.poisoned f.place f.loc f.size = true → g'.spoison.get? (d + j) = some 3)) ∧
       ∀ l u, g.lanes.get? l = some u → ∃ w, g'.lanes.get? l = some w ∧
         (u.wait = .window id → w.wait = .none ∧ w.lpc = u.lpc + 1) ∧
         (u.wait ≠ .window id → w.wait = u.wait ∧ w.lpc = u.lpc)) ∧
   ∀ (id : Nat) (s : State) (f : Flight) (gk l : Nat) (g : Group) (u : Thread), s.tablesSorted →
     s.flights.get? id = some f → f.remote = none → f.tx = false → s.mates id f = [id] → s.flightReady id = true →
     (f.chk = false ∨ (s.ctx f.ck).ovchk = false) → s.mixedBytes f f.tid = [] → s.findThread f.team f.tid = some (gk, l) →
     s.groups.get? gk = some g → g.lanes.get? l = some u →
     let bad := s.poisoned f.place f.loc f.size
     let home := s.load f.place f.loc f.size
     let sameBytes (t : State) : Prop := ∀ p a, t.byte p a = s.byte p a
     let wakes (w : Thread) : Prop := (u.wait = .window id → w.wait = .none ∧ w.lpc = u.lpc + 1) ∧
       (u.wait ≠ .window id → w.wait = u.wait ∧ w.lpc = u.lpc)
     let takes (i : Instr) (d n v : Nat) (flag : Nat) (good : State → Prop) : Prop :=
       ∃ t g' w, exec i s = .next t ∧ t.flights = s.flights.del id ∧ t.groups.get? gk = some g' ∧ g'.lanes.get? l = some w ∧
         wakes w ∧ good t ∧
         (d < 96 → ∀ j < n, (d + j) % 96 ∉ w.pend ∧
           (bad = false → w.stack.read 0 ((d + j) % 96) = BitVec.ofNat 32 (v / 2 ^ (32 * j)) ∧
             w.poison.get? ((d + j) % 96) = none) ∧
           (bad = true → w.poison.get? ((d + j) % 96) = some 3)) ∧
         (d = 96 → w.stack = u.stack) ∧ (flag ≠ 0 → w.pred flag = false ∧ 96 + flag ∉ w.pend)
     (∀ d n size flag rd, f.kind = .load d n size flag rd → d ≤ 96 → n ≤ 4 → flag < 8 →
       takes (.loadDataReturn id) d n (loadValue size home) flag sameBytes) ∧
     (∀ b, f.kind = .store b → b.sorted = true → f.heldRelease = false →
       takes (.storePerform id) 96 0 0 0 fun t => ∀ p a, t.byte p a =
         if p = f.place then (b.get? a).getD (s.byte p a) else s.byte p a) ∧
     (∀ b, f.kind = .store b → b.sorted = true → f.heldRelease = true → exec (.storePerform id) s = .next s ∧
       takes (.releaseMarkerMet id) 96 0 0 0 fun t => ∀ p a, t.byte p a =
         if p = f.place then (b.get? a).getD (s.byte p a) else s.byte p a) ∧
     (∀ op ecl d v v2 lane, f.kind = .atomic op ecl [(lane, f.tid, d, v, v2)] → f.heldRelease = false → d ≤ 96 →
       (f.size = 4 ∨ f.size = 8) → v < 2 ^ (8 * f.size) → v2 < 2 ^ (8 * f.size) → (d = 96 → bad = false) →
       let w := 8 * f.size
       let becomes (x : Nat) : Prop := takes (.atomicPerform id) d (f.size / 4) home 0 fun t =>
         (bad = true → sameBytes t) ∧ (bad = false → t.load f.place f.loc f.size = x ∧
           ∀ p a, ¬(p = f.place ∧ f.loc ≤ a ∧ a < f.loc + f.size) → t.byte p a = s.byte p a)
       (op = 0 → ecl ≠ .float → becomes ((home + v) % 2 ^ w)) ∧ (op = 1 → ecl = .natural → becomes (min home v)) ∧
       (op = 2 → ecl = .natural → becomes (max home v)) ∧
       (op = 1 → ecl = .signed → becomes (if signedOf w v < signedOf w home then v else home)) ∧
       (op = 2 → ecl = .signed → becomes (if signedOf w home < signedOf w v then v else home)) ∧
       (op = 3 → becomes (home &&& v)) ∧ (op = 4 → becomes (home ||| v)) ∧ (op = 5 → becomes (home ^^^ v)) ∧
       (op = 6 → becomes v) ∧ (op = 7 → becomes (if home = v then v2 else home))) ∧
     (∀ b, f.kind = .spill b false → b.sorted = true → f.size ≤ 128 → ∃ t g' w, exec (.spillFillComplete id) s = .next t ∧
       t.flights = s.flights.del id ∧ t.groups.get? gk = some g' ∧ g'.lanes.get? l = some w ∧
       (u.wait = .window id → w = { u with wait := .none, wpSkip := false, bkSkip := false }) ∧
       ∀ p a, t.byte p a = if p = f.place then (b.get? a).getD (s.byte p a) else s.byte p a) ∧
     (f.kind = .fill → s.poisoned f.place f.loc 128 = true → exec (.spillFillComplete id) s =
       .next ({ s with flights := s.flights.del id }.wakeTrap id 16 (fun _ => true) (detailM f.va 0 6 128 0))) ∧
     (f.kind = .fill → s.poisoned f.place f.loc 128 = false → ∃ t g' w, exec (.spillFillComplete id) s = .next t ∧
       t.flights = s.flights.del id ∧ t.groups.get? gk = some g' ∧ g'.lanes.get? l = some w ∧ sameBytes t ∧
       (u.wait = .window id →
         w = { ({ u.fillFrame (s.bytes f.place f.loc 128) with ngl := u.ngl - 1 } : Thread).doRet with wait := .none }))) ∧
  ((∀ (id : Nat) (s : State) (w : Walk), s.walks.get? id = some w → w.result = none →
     (w.isc ≠ (s.ctx w.ck).isc →
       exec (.pageWalkComplete id) s = .next { s with walks := s.walks.put id { w with isc := (s.ctx w.ck).isc } }) ∧
     (w.isc = (s.ctx w.ck).isc →
       (∀ e, s.walk w.ck (w.page * 65536) = .ok e → ∃ t, exec (.pageWalkComplete id) s = .next t ∧
         t.walks = s.walks.del id ∧ e ∈ (t.core w.core).tlb ∧ (∀ gk ∈ w.gks, e ∈ (t.core (coreOf gk)).tlb) ∧
         e ∈ t.tlb2Of (dieOf w.core) ∧ t = { s with walks := t.walks, cores := t.cores, tlb2 := t.tlb2, l2 := t.l2 }) ∧
       (∀ x, s.walk w.ck (w.page * 65536) = x → (∀ e, x ≠ .ok e) → ∃ t, exec (.pageWalkComplete id) s = .next t ∧
         t = { s with walks := t.walks, l2 := t.l2 } ∧
         t.walks = if w.gks = [] then s.walks.del id else s.walks.put id { w with result := some x }))) ∧
   (∀ (gk : Nat) (s : State) (g : Group) (m : Word) (ls : List Nat) (p : Packet), s.groups.get? gk = some g →
     s.pktOf g = some p → g.pick true = none → g.pick false = some (m, ls) → (∀ x ∈ s.icache, x.pair ≠ coreOf gk / 2) →
     ∃ t, exec (.instructionFetch gk) s = .next t ∧
       t = { s with icache := t.icache, l2 := t.l2, teams := t.teams } ∧
       ∀ j < 3, s.readLine (coreOf gk) (s.ckOf g) (p.code.toNat + 192 * (m.toNat / 16) + 64 * j) ∈ t.icache))

/-! ## Fences, transactions, barriers (14_ordering, 15_synchronisation) -/

/-- 14 R342; 15 R367, R371, R372: fences and the instructions of a transaction. A releasing fence lends its scope to the
next strong write of each thread, with all that came before it, and an acquiring one orders each thread after the
releases that its latest strong read returned or, while it is in flight, makes it an acquire, and empties the L1 from
`.cluster` scope on. `xbegin` starts a transaction with its target, or aborts one that stands with cause 7, or, in the
handler stream, goes to its target with cause 5; `xabort` ends one with cause 1 and its code; `xstat` reads the status
word; `xend` outside a transaction writes 0x0B, and in one takes part in the commit. 14 R355; 15 R374 to R377: the
commit of one lane of a group, once its core has performed what it comes after. Where every recorded word still holds
its value, its buffered bytes are written to memory, its destination receives 0, its counter advances and its
transaction ends; otherwise its destination receives 3 and it goes to its abort target, with no byte written. Of two
lanes without a token whose words meet, the higher one aborts with cause 2. A transaction that has run for 65,536
context clocks aborts with cause 10. The first request of a locality holds its serial token. Rests on log 21, 22 and 47.
-/
def Obligations.FencesAndTransactions : Prop :=
  (∀ (f : Op3) (s : State) (k : Cursor) (g : Group), Issuing s k g → lanesAwake k g →
     let now := (s.ctx (s.ckOf g)).ctime
     let lane (i : Instr) (after : Thread → Thread → Prop) : Prop := ∃ t g', exec i s = .next t ∧
       t = { s with cur := none, groups := s.groups.put k.gk g', tokens := t.tokens } ∧ OthersAdvance k f.h g g' ∧
       ((∀ l u, g.lanes.get? l = some u → u.tx.act = false) → t.tokens = s.tokens) ∧
       ∀ l u, l ∈ lanesOf k.active → g.lanes.get? l = some u → u.guard f.h = true → ∃ w, g'.lanes.get? l = some w ∧ after u w
     let aborted (cause code : Nat) (u w : Thread) : Prop :=
       w = { u with lpc := u.tx.tgt, wait := .none,
                    tx := { u.tx with act := false, cause := cause, code := code, cnt := min (u.tx.cnt + 1) 255, tok := false,
                                      rset := [], wset := [], homes := [], runs := [], shot := false } }
     let ord := Ord.ofCode (f.imm.toNat / 32 % 8)
     let sco := Scope.ofCode (f.imm.toNat / 4 % 8)
     let acq := ord = .acq ∨ ord = .ar
     (guardG g f.h k = false → ∃ g', exec (.fence f) s = .next (s.issued k g') ∧
       LanesBecome k g g' fun _ t => t.goOn) ∧
     (guardG g f.h k = true → ∃ t g', exec (.fence f) s = .next t ∧
       t = { s with cur := none, groups := s.groups.put k.gk g', flights := t.flights, cores := t.cores } ∧
       LanesBecome k g g' (fun l t => { t.goOn with
         fenceRel := (if ord = .rel ∨ ord = .ar then some (widerScope sco (t.fenceRel.getD .none)) else t.fenceRel),
         fenceSeen := (if ord = .rel ∨ ord = .ar then s.knows k.gk l else t.fenceSeen),
         seen := (if acq ∧ t.strongRead = none then
           t.seen.join (seenFrom t.readFrom (widerScope sco t.readScope) (coreOf k.gk) k.gk false) else t.seen) }) ∧
       (¬acq → t.flights = s.flights ∧ t.cores = s.cores) ∧
       (acq → (sco.wide = true → (t.core (coreOf k.gk)).l1 = []) ∧
         (∀ l u id fl, l ∈ lanesOf k.active → g.lanes.get? l = some u → u.strongRead = some id →
           s.flights.get? id = some fl → ∃ fl', t.flights.get? id = some fl' ∧ fl'.acq = true ∧ fl'.loc = fl.loc ∧
             fl'.kind = fl.kind ∧ fl'.scope = widerScope sco fl.scope))) ∧
     ((∀ l ∈ guarded g f.h k, ∀ e ∈ s.flights, ¬(e.2.team = g.team ∧ (s.thread k.gk l).tid ∈ e.2.txTids)) →
       lane (.xbegin f) fun u w =>
         (k.handler = true → w = { u with lpc := f.imm, tx := { u.tx with cause := 5 } }) ∧
         (k.handler = false → u.tx.act = true → aborted 7 u.tx.code u w) ∧
         (k.handler = false → u.tx.act = false →
           w = { u.step with
             tx := { u.tx with act := true, tgt := f.imm, start := now, rset := [], wset := [], homes := [], runs := [],
                               shot := false } })) ∧
     lane (.xabort f) (fun u w => (u.tx.act = true → aborted 1 (f.imm.toNat % 256) u w) ∧ (u.tx.act = false → w = u.step)) ∧
     VectorResult (.xstat f) f.h f.d 1 s k g (fun _ t v => v = (if t.tx.act then 2 ^ 31 else 0) +
       (if t.tx.tok then 2 ^ 30 else 0) + 2 ^ 16 * t.tx.code + 2 ^ 8 * t.tx.cnt + t.tx.cause) ∧
     ((∀ e ∈ g.lanes, ∀ d, e.2.wait ≠ .commit d) →
       (∀ l ∈ guarded g f.h k, (s.thread k.gk l).tx.act = true → s.threadHolds k.gk l true = false) →
       lane (.xend f) fun u w => (u.tx.act = false → w = (u.write k.handler 1 f.d 0x0B).step) ∧
         (u.tx.act = true → w = { u.hold k.handler 1 f.d with wait := .commit (u.destEntry k.handler f.d) }))) ∧
  ((∀ (gk l d : Nat) (s : State) (g : Group) (u : Thread), s.groups.get? gk = some g → g.lanes.get? l = some u →
     committing g = [(l, d, u)] → u.tx.wset.sorted = true → d ≤ 96 →
     s.owedDone (coreOf gk) false = true → s.readBefore (committing g) = false →
     let got (v : Word) (w : Thread) : Prop := d < 96 → w.stack.read 0 d = v ∧ w.poison.get? d = none ∧ d ∉ w.pend
     (s.validates g.team u = true → ∃ t g' w, exec (.transactionCommit gk) s = .next t ∧
       t.groups.get? gk = some g' ∧ g'.lanes.get? l = some w ∧ got 0 w ∧ w.lpc = u.lpc + 1 ∧ w.wait = .none ∧
       w.tx.act = false ∧ w.tx.cnt = 0 ∧ w.tx.tok = false ∧ (t.core (coreOf gk)).l1 = [] ∧
       ∀ p a, t.byte p a = if p = .mem then (u.tx.wset.get? a).getD (s.byte p a) else s.byte p a) ∧
     (s.validates g.team u = false → ∃ t g' w, exec (.transactionCommit gk) s = .next t ∧
       t.groups.get? gk = some g' ∧ g'.lanes.get? l = some w ∧ got 3 w ∧ w.lpc = u.tx.tgt ∧ w.wait = .none ∧
       w.tx.act = false ∧ w.tx.cause = 3 ∧ w.tx.cnt = min (u.tx.cnt + 1) 255 ∧ w.tx.tok = u.tx.tok ∧
       ∀ p a, t.byte p a = s.byte p a) ∧
     ((∀ o, s.tokenHolder o = none ∨ s.tokenHolder o = some (g.team, u.tid)) → (s.validates g.team u = true ↔
       ∀ w ∈ u.tx.rset, s.poisoned .mem (4 * w.1) 4 = false ∧ s.load .mem (4 * w.1) 4 = w.2.toNat))) ∧
   (∀ (gk l l' d d' : Nat) (s : State) (g : Group) (u u' : Thread), s.groups.get? gk = some g → g.lanes.get? l = some u →
     g.lanes.get? l' = some u' → l ≠ l' → committing g = [(l, d, u), (l', d', u')] → u.tx.tok = false → u'.tx.tok = false →
     (∃ w ∈ u.tx.writeWords, w ∈ u'.tx.readWords ++ u'.tx.writeWords) → d' < 96 →
     s.owedDone (coreOf gk) false = true → s.readBefore (committing g) = false →
     ∃ t g' w, exec (.transactionCommit gk) s = .next t ∧ t.groups.get? gk = some g' ∧ g'.lanes.get? l' = some w ∧
       w.lpc = u'.tx.tgt ∧ w.tx.act = false ∧ w.tx.cause = 2 ∧ w.stack.read 0 d' = 2) ∧
   (∀ (gk l : Nat) (s : State) (g : Group) (u : Thread), s.groups.get? gk = some g → g.lanes.get? l = some u →
     u.tx.act = true → 65536 ≤ ((s.ctx (s.ckOf g)).ctime - u.tx.start).toNat →
     ∃ t g' w, exec (.transactionTimeout gk l) s = .next t ∧ t.groups.get? gk = some g' ∧ g'.lanes.get? l = some w ∧
       w.lpc = u.tx.tgt ∧ w.tx.act = false ∧ w.tx.cause = 10 ∧ w.tx.cnt = min (u.tx.cnt + 1) 255 ∧ w.wait = .none ∧
       t = { s with groups := t.groups, tokens := t.tokens }) ∧
   (∀ (d gk l team tid : Nat) (s : State) (g : Group) (u : Thread) (rest : List (Nat × Nat)),
     s.tokens.get? d = some ((team, tid) :: rest) → s.findThread team tid = some (gk, l) → s.groups.get? gk = some g →
     g.lanes.get? l = some u →
     (u.exited = false → ∃ g', exec (.tokenGrant d) s = .next (s.setGroup gk g') ∧ g' = { g with lanes := g'.lanes } ∧
       ∀ j, g'.lanes.get? j = if j = l then some { u with tx := { u.tx with tok := true } } else g.lanes.get? j) ∧
     (u.exited = true → ∃ t, exec (.tokenGrant d) s = .next t ∧ ∀ o q, t.tokens.get? o = some q → (team, tid) ∉ q)))

/-- 11 R283; 15 R358, R360 to R362: arriving at a barrier. Where all lanes of C arrive, each counts once, and waits for
the phase that it found: `bar` lowers the pending arrivals of its object in the scratchpad, `barc`, `bart` and `barg`
raise those of their slot and set its mode, once their core has performed what the arrivals come after. `barx` adds to
its object's pending bytes and marks it posted, and its lanes advance. Where some lane of the mask has not come, the
lanes of C only collect. An object whose address fails its checks, and a broken slot, trap them. 11 R287; 15 R360, R363:
the completion of a phase. An object without pending arrivals or bytes, and posted where it counts bytes, turns its
phase, takes its expected arrivals again and clears posted; a slot that has all the arrivals it expects turns its phase
and forgets its arrivals and mode. The lanes that wait for the phase that passed advance by one, those of a saved team
of the grid too; nothing else of a group changes. Rests on log 23. -/
def Obligations.BarriersArriveAndComplete : Prop :=
  (∀ (f : Op3) (s : State) (k : Cursor) (g : Group) (tm : Team), Issuing s k g → lanesAwake k g → s.teamOf g = some tm →
     let core := coreOf k.gk
     let off := groupVal g .b32 1 f.a
     let at8 := 2 ^ 19 * core + off
     let o := s.barObj core off
     let n := (guarded g f.h k).length
     let pad (t : State) (g' : Group) (o' : BarObj) : Prop :=
       t = { s with cur := none, groups := s.groups.put k.gk g', scratch := t.scratch, scratchPoison := t.scratchPoison,
                    agenda := t.agenda } ∧ t.barObj core off = o' ∧
       .event (.coreBarrierPhaseComplete core off) ∈ t.agenda ∧
       ∀ a, (a < at8 ∨ at8 + 8 ≤ a) → t.scratch.read 0 a = s.scratch.read 0 a
     let ready := ∀ l ∈ guarded g f.h k, s.threadHolds k.gk l false = false
     let slot (i : Instr) (b u m : Nat) (mode : Option Nat) : Prop :=
       (∀ e d, s.barSlots.get? (4096 * u + m) = some e → e.broken = some d →
         LanesTrap i f.h s s k g 12 fun _ _ =>
           detailBroken (e.ident u m (if b = barGrid then 0 else b - barTeam 0)) d) ∧
       ∀ e, s.barSlots.get? (4096 * u + m) = some e → e.broken = none → s.owedDone core false = true → ready →
         arrivesAll f s k g b →
         (e.mode = none ∨ e.mode = some mode) → (∀ c, mode = some c → e.arrived + n ≤ c) →
         ∃ t g', exec i s = .next t ∧ ArriveAndWait k f.h g g' (.unitBar u m e.phase) ∧
           t = { s with cur := none, groups := s.groups.put k.gk g', agenda := t.agenda,
                        barSlots := s.barSlots.put (4096 * u + m) { e with mode := some mode, arrived := e.arrived + n } } ∧
           .event (.barrierSlotComplete u m) ∈ t.agenda
     let skips (i : Instr) : Prop := ∃ g', exec i s = .next (s.issued k g') ∧
       LanesBecome k g g' fun _ t => t.goOn
     (guarded g f.h k = [] → skips (.bar f) ∧ skips (.barc f) ∧ skips (.bart f) ∧ skips (.barg f)) ∧
     (guarded g f.h k ≠ [] → ∀ c d, s.barTrap k.gk off = some (c, d) → LanesTrap (.bar f) f.h s s k g c fun _ _ => d) ∧
     (guarded g f.h k ≠ [] → s.barTrap k.gk off = none → off < 2 ^ 19 → s.padBusy core at8 8 = false → ready →
       (arrivesAll f s k g off → n ≤ o.arrc → ∃ t g', exec (.bar f) s = .next t ∧
         ArriveAndWait k f.h g g' (.coreBar off o.phase) ∧ pad t g' { o with arrc := o.arrc - n }) ∧
       (∀ m : Word, f.b ≠ .zero → g.collecting off = [] →
         (∀ l ∈ guarded g f.h k, ∀ u, g.lanes.get? l = some u →
           BitVec.ofNat 32 (k.val g u .b32 1 f.b) = m ∧ bitOf m l = true) →
         (∃ l ∈ lanesOf m, l ∉ guarded g f.h k ∧ s.gone k.gk l = false) →
         ∃ g', exec (.bar f) s = .next (s.issued k g') ∧ ArriveAndWait k f.h g g' (.collect off m none))) ∧
     (guardG g f.h k = false → skips (.barx f)) ∧
     (guardG g f.h k = true → ∀ c d, s.barTrap k.gk off = some (c, d) →
       exec (.barx f) s = .next (s.finish k ((lanesOf k.active).map fun l => ⟨l, c, d⟩))) ∧
     (guardG g f.h k = true → s.barTrap k.gk off = none → s.padBusy core at8 8 = false →
       ∃ t g', exec (.barx f) s = .next t ∧ LanesBecome k g g' (fun _ t => t.goOn) ∧
         pad t g' { o with bytes := (o.bytes + groupVal g .b32 1 f.b) % 2 ^ 38, posted := true }) ∧
     (guarded g f.h k ≠ [] →
       (∀ m, tm.bars[0]? = some m → slot (.bart f) (barTeam 0) tm.d m none) ∧
       (∀ m gr u, s.gridOf tm = some gr → gr.gslot = some (u, m) → slot (.barg f) barGrid u m none) ∧
       (∀ m a c, groupVal g .b32 1 f.a = a + 2 ^ 16 * c → a < 16 → 1 ≤ c → c ≤ 16384 → tm.bars[a]? = some m →
         slot (.barc f) (barTeam a) tm.d m (some c)))) ∧
  ((∀ (core off : Nat) (s : State), s.tablesSorted →
     let o := s.barObj core off
     let now := if o.ready then !o.phase else o.phase
     ∃ t, exec (.coreBarrierPhaseComplete core off) s = .next t ∧
       t.barObj core off = (if o.arrc = 0 ∧ o.bytes = 0 ∧ (o.bc = true → o.posted = true) then
         { o with phase := !o.phase, arrc := o.expa, posted := false } else o) ∧
       (∀ a, (a < 2 ^ 19 * core + off ∨ 2 ^ 19 * core + off + 8 ≤ a) → t.scratch.read 0 a = s.scratch.read 0 a) ∧
       t.mem = s.mem ∧ t.flights = s.flights ∧ ∀ gk g, s.groups.get? gk = some g → ∃ g', t.groups.get? gk = some g' ∧
         g' = { g with lanes := g'.lanes } ∧ ∀ l u, g.lanes.get? l = some u → g'.lanes.get? l =
           some (if coreOf gk = core ∧ u.wait = .coreBar off (!now) then (u.sees (s.knownTo (s.barWaiters core off now))).goOn else u)) ∧
   (∀ (unit slot : Nat) (s : State) (b : BarSlot), s.tablesSorted → s.barSlots.get? (4096 * unit + slot) = some b →
     (¬(b.mode ≠ none ∧ b.broken = none ∧ s.expected b ≤ b.arrived) → exec (.barrierSlotComplete unit slot) s = .next s) ∧
     (b.mode ≠ none → b.broken = none → s.expected b ≤ b.arrived →
       ∃ t, exec (.barrierSlotComplete unit slot) s = .next t ∧
         t = { s with barSlots := t.barSlots, groups := t.groups, cores := t.cores, savedTeams := t.savedTeams } ∧
         (b.isGrid = false → t.savedTeams = s.savedTeams) ∧
         (b.isGrid = true → t.savedTeams = s.savedTeams.map fun (e : Nat × SavedTeam) =>
           (e.1, e.2.passed b.owner unit slot (s.slotSeen b unit slot))) ∧
         t.barSlots = s.barSlots.put (4096 * unit + slot) { b with phase := !b.phase, arrived := 0, mode := none } ∧
         ∀ gk g, s.groups.get? gk = some g → ∃ g', t.groups.get? gk = some g' ∧ g' = { g with lanes := g'.lanes } ∧
           ∀ l u, g.lanes.get? l = some u →
             ((∃ ph, u.wait = .unitBar unit slot ph) →
               g'.lanes.get? l = some (u.sees (s.slotSeen b unit slot)).goOn ∧ (t.core (coreOf gk)).l1 = []) ∧
             ((∀ ph, u.wait ≠ .unitBar unit slot ph) → g'.lanes.get? l = some u))))

/-! ## Regrouping (16_regroup) -/

/-- 16 R378 to R380: arriving at a rendezvous. A group that meets the conditions of R379 opens the rendezvous of its
count with its kind and mask, its clock being the first that the time-out counts, or joins it; its lanes wait at the
instruction. In a group that fails one, every lane raises class 22 with the cause of the first failure. `cqstat` (R389)
reads the counts of continuations queued and running. 16 R380 to R386: a rendezvous whose whole domain has arrived, or
whose time-out has expired, completes: its relocation begins, every slot that arrived has completed one more, and every
thread is ordered after all that the others have done; one that a group of its domain has not reached waits.
`regroup.home` completes once every thread finds its home slot, and takes the core's first free slot for a home that no
slot holds. At the end of the relocation each thread has advanced by one and keeps its identity and the registers that
the mask names, the other window registers being zero; `regroup.home` puts it into lane tid mod 32 of the slot with its
group number, and `regroup` packs the threads of its slots in order of key and thread id, each run of one key in slots
of its own as long as the later ones find room, with `p7` and `sr.rgkey` saying whether a slot's keys are one. Rests on
log 25 and 59. -/
def Obligations.RendezvousOpenAndComplete : Prop :=
  (∀ (f : Op3) (s : State) (k : Cursor) (g : Group) (tm : Team), Issuing s k g → s.teamOf g = some tm →
     let core := coreOf k.gk
     let slot := slotOf k.gk
     (∀ p ∈ [(Instr.regroup f, false), (.regroupHome f, true)],
       (guardG g f.h k = false → ∃ g', exec p.1 s = .next (s.issued k g') ∧
         LanesBecome k g g' fun _ t => { t.step with wait := .none }) ∧
       (guardG g f.h k = true → (∀ l ∈ lanesOf k.active, ∀ i, f.a = .win i → g.usePoison k.handler l (0, i, 1) = none) →
         (regroupCause g tm k p.2 f.imm = none → (∀ e ∈ g.lanes, e.2.pend = []) → s.acqHolds k = false → ∃ t g' tm', exec p.1 s = .next t ∧
           t = { s with cur := none, groups := s.groups.put k.gk g', teams := s.teams.put g.team tm', cores := t.cores } ∧
           LanesBecome k g g' (fun _ u => { u with wait := .regroup }) ∧ tm' = { tm with rdvs := tm'.rdvs } ∧
           ((∀ r ∈ tm.rdvs, r.core ≠ core ∨ r.count ≠ g.rdvCount) → ∃ r, tm'.rdvs = tm.rdvs ++ [r] ∧ r.core = core ∧
             r.home = p.2 ∧ r.mask = f.imm ∧ r.count = g.rdvCount ∧ r.arrived = [slot] ∧ r.timer = 1 ∧ r.moving = false ∧
             r.limit = (if p.2 then 0 else g.rgtmo.toNat) ∧
             ∀ l u, l ∈ lanesOf k.active → g.lanes.get? l = some u →
               (∀ j v, j ∈ lanesOf k.active → g.lanes.get? j = some v → v.tid = u.tid → j = l) →
               r.keys.read 0 u.tid = k.val g u .b32 1 f.a % 2 ^ 16) ∧
           (∀ r, tm.openRdv core g.rdvCount = some r → ∃ r' ∈ tm'.rdvs, r'.arrived = r.arrived ++ [slot] ∧
             r'.home = r.home ∧ r'.mask = r.mask ∧ r'.timer = r.timer)) ∧
         (k.handler = true → regroupCause g tm k p.2 f.imm = some 1) ∧
         (k.handler = false → g.isCont = true → regroupCause g tm k p.2 f.imm = some 2) ∧
         (k.handler = false → g.isCont = false →
           let halts : Prop := ∃ l < 32, g.live l = true ∧ l ∉ lanesOf k.active
           let deep : Prop := ∃ l u, l ∈ lanesOf k.active ∧ g.lanes.get? l = some u ∧ u.cd ≠ 0
           let enrolled : Prop := ∃ n < 4, g.rmask n ≠ 0
           (g.joins ≠ [] → regroupCause g tm k p.2 f.imm = some 3) ∧
           (g.joins = [] → halts → regroupCause g tm k p.2 f.imm = some 4) ∧
           (g.joins = [] → ¬halts → deep → regroupCause g tm k p.2 f.imm = some 5) ∧
           (g.joins = [] → ¬halts → ¬deep → enrolled → regroupCause g tm k p.2 f.imm = some 6) ∧
           (g.joins = [] → ¬halts → ¬deep → ¬enrolled →
             (∀ r, tm.openRdv core g.rdvCount = some r → r.home ≠ p.2 ∨ r.mask ≠ f.imm → regroupCause g tm k p.2 f.imm = some 7) ∧
             (tm.openRdv core g.rdvCount = none → regroupCause g tm k p.2 f.imm = none))) ∧
         (∀ c, regroupCause g tm k p.2 f.imm = some c → exec p.1 s =
           .next (s.finish k ((lanesOf k.active).map fun l => ⟨l, 22, detailRegroup g tm k c l⟩))))) ∧
     ScalarResult (.cqstat f) f.h f.d 1 s k g (fun v =>
       v = (tm.conts.filter fun c => c.core = core).length % 2 ^ 16 +
         2 ^ 16 * ((((s.groups.filter fun e => e.2.team = g.team && coreOf e.1 = core && e.2.isCont).map fun e =>
           (e.2.lanes.filter fun t => !t.2.exited).length).sum) % 2 ^ 16))) ∧
  (∀ (tk core : Nat) (s : State) (tm : Team) (r : Rdv), s.teams.get? tk = some tm →
     (tm.rdvs.filter fun x => x.core = core) = [r] →
     let arrived (gk : Nat) : Prop := coreOf gk = core ∧ slotOf gk ∈ r.arrived
     let but (o : Option Thread) : Option Thread := o.map fun u => { u with seen := [] }
     let together : Tbl Nat := s.knownTo (r.arrived.flatMap fun k => s.lanesIn (32 * core + k))
     let completes (i : Instr) : Prop := ∃ t tm', exec i s = .next t ∧
       t = { s with groups := t.groups, teams := s.teams.put tk tm' } ∧
       tm' = { tm with rdvs := tm.rdvs.map fun x => if x = r then { x with moving := true } else x,
                       rdvDone := tm.rdvDone.put core (max (tm.rdvDone.read 0 core) (r.count + 1)) } ∧
       ∀ gk g, s.groups.get? gk = some g → ∃ g', t.groups.get? gk = some g' ∧
         g' = { g with lanes := g'.lanes, rdvCount := g'.rdvCount } ∧
         (g'.rdvCount = if g.team = tk ∧ coreOf gk = core ∧ slotOf gk ∈ r.arrived then r.count + 1 else g.rdvCount) ∧
         ∀ l, but (g'.lanes.get? l) = but (g.lanes.get? l) ∧
           (arrived gk → ∀ u, g'.lanes.get? l = some u → ∀ a, together.read 0 a ≤ u.seen.read 0 a)
     let moves (mask : Word) (u w : Thread) : Prop := w.tid = u.tid ∧ w.lpc = u.lpc + 1 ∧ w.wait = .none ∧ w.wb = u.wb ∧
       ∀ i < 32, w.reg false i = if bitOf mask i then u.reg false i else 0
     let whole := ∀ gk g, s.groups.get? gk = some g → g.team = tk → coreOf gk = core → g.isCont = false → g.idle = false →
       g.hasThread = true → slotOf gk ∈ r.arrived
     (r.moving = false → r.alone = true ∨ whole → s.groups.sorted = true →
       (r.home = true → ∀ e ∈ s.rdvThreads r, s.homeFree tk r e.2.tid = true) → completes (.regroupCompletion tk core)) ∧
     (r.moving = false → r.alone = false → ¬whole → exec (.regroupCompletion tk core) s = .next s) ∧
     (∀ h k gr, r.home = true → r.moving = false → r.alone = true ∨ whole → s.groups.sorted = true →
       s.missingHomes tk r = [h] → s.homeTaken tk r h = false → (s.freeSlots core).head? = some k → s.gridOf tm = some gr →
       ∃ t g', exec (.regroupCompletion tk core) s = .next t ∧ t.groups.get? (32 * core + k) = some g' ∧ g'.idle = true ∧
         g'.team = tk ∧ g'.gid = BitVec.ofNat 32 h ∧ g'.lanes = [] ∧ g'.joins = [] ∧ g'.scalars 0 2 = gr.pkt.param.toNat ∧
         g'.scalar 2 = BitVec.ofNat 32 tm.runStart ∧ g'.scalar 3 = BitVec.ofNat 32 (tm.coreIndex core)) ∧
     (r.moving = true → exec (.regroupCompletion tk core) s = .next s) ∧
     (r.home = false → r.moving = false → r.limit ≠ 0 → r.limit ≤ r.timer → completes (.regroupTimeout tk core)) ∧
     (r.home = true ∨ r.moving = true ∨ r.limit = 0 ∨ r.timer < r.limit → exec (.regroupTimeout tk core) s = .next s) ∧
     (r.moving = false → s.teams.sorted = true → exec (.relocationEnd tk core) s = .next s) ∧
     (∀ k g, r.moving = true → r.home = false → r.arrived = [k] → s.groups.get? (32 * core + k) = some g →
       let ts := (s.rdvThreads r).mergeSort keyOrder
       ts ≠ [] → ts.length ≤ 32 → ∃ t g', exec (.relocationEnd tk core) s = .next t ∧
         t = { s with groups := s.groups.put (32 * core + k) g', teams := t.teams } ∧ g'.scal = g.scal ∧ g'.gid = g.gid ∧
         (∀ i, ts.length ≤ i → g'.lanes.get? i = none) ∧
         let uniform : Prop := ∀ e ∈ ts, ∀ e' ∈ ts, e.1 = e'.1
         (uniform → ∀ e ∈ ts, g'.rgkey = BitVec.ofNat 32 e.1) ∧ (¬uniform → g'.rgkey = 0xFFFF) ∧
         ∀ i e, ts[i]? = some e → ∃ w, g'.lanes.get? i = some w ∧ moves r.mask e.2 w ∧ (w.pred 7 = true ↔ uniform)) ∧
     (r.moving = true → r.home = false → r.arrived.Nodup → ∀ ks ts ps,
       ks = (r.arrived.filter fun k => (s.group (32 * core + k)).hasThread).mergeSort (· ≤ ·) →
       ts = (s.rdvThreads r).mergeSort keyOrder →
       ps = placesOf ks.length 0 ((ts.splitBy fun a b => a.1 = b.1).map List.length) → ts.length ≤ 32 * ks.length →
       ∃ t, exec (.relocationEnd tk core) s = .next t ∧ t.mem = s.mem ∧ ps.length = ts.length ∧
         ∀ q k, ks[q]? = some k → ∃ g', t.groups.get? (32 * core + k) = some g' ∧
           let mine := (ts.zip ps).filter fun e => e.2.1 = q
           let uniform : Prop := ∀ a ∈ mine, ∀ b ∈ mine, a.1.1 = b.1.1
           (mine = [] → g'.idle = true ∧ g'.lanes = []) ∧
           (mine ≠ [] → g'.idle = false ∧ (∀ l, (∀ e ∈ mine, e.2.2 ≠ l) → g'.lanes.get? l = none) ∧
             (uniform → ∀ e ∈ mine, g'.rgkey = BitVec.ofNat 32 e.1.1) ∧ (¬uniform → g'.rgkey = 0xFFFF) ∧
             ∀ e ∈ mine, ∃ w, g'.lanes.get? e.2.2 = some w ∧ moves r.mask e.1.2 w ∧ (w.pred 7 = true ↔ uniform))) ∧
     (r.moving = true → r.home = true → ((s.rdvThreads r).map fun e => e.2.tid).Nodup → s.groups.sorted = true →
       ∃ t, exec (.relocationEnd tk core) s = .next t ∧ t = { s with
           groups := t.groups, teams := t.teams, cores := t.cores, flights := t.flights, nextId := t.nextId } ∧
         ∀ e ∈ s.rdvThreads r, ∀ gk g, s.groups.get? gk = some g → g.team = tk → coreOf gk = core → g.isCont = false →
           g.gid.toNat = e.2.tid / 32 → ∃ g' w, t.groups.get? gk = some g' ∧ g'.gid = g.gid ∧
             g'.lanes.get? (e.2.tid % 32) = some w ∧ moves r.mask e.2 w ∧ w.preds = e.2.preds))

/-! ## Matrix unit and residencies (12_matrix, 13_residency) -/

/-- 12 R291, R293: `tmset` writes a tile map that passes the checks, and raises class 1 with the number of the first
check that fails; an accepted map has 1 to 64 rows and columns, an address and stride that are multiples of 16, and a
stride that covers a row. `tmget` reads the map back. 12 R297, R298, R303, R305, R306, R308: an instruction of the queue
that passes its checks, finds room in the queue of its core (a pair form in both) and in the footprint table, and is
held by neither a binding nor the slew limit nor an atomic of which it is open whether it writes a watched line (14
R356), puts one operation at the tail and every lane advances; the destinations of `mrow` wait. A failed check traps
every lane. `mwait` waits for the group's last operation, and advances where none of its operations is queued. Rests on
log 26 and 27. -/
def Obligations.MatrixInstructions : Prop :=
  (∀ (f : MatF) (s : State) (k : Cursor) (g : Group) (i : Nat), Issuing s k g →
     let v : QWord := BitVec.ofNat 128 (groupVal g .b32 4 f.a)
     (f.d = .tmap i → (guardG g f.h k = true → tmCheck v = none) → ∃ g', exec (.tmset f) s = .next (s.issued k g') ∧
       LanesBecome k (if guardG g f.h k then { g with tm := g.tm.write 0 i v } else g) g' fun _ t => { t.step with wait := .none }) ∧
     (∀ c, guardG g f.h k = true → tmCheck v = some c → exec (.tmset f) s =
       .next (s.finish k ((lanesOf k.active).map fun l => ⟨l, 1, detailWord k.word 9 (16 + c)⟩))) ∧
     (f.a = .tmap i → ScalarResult (.tmget f) f.h f.d 4 s k g fun x => x = (g.tm.read 0 i).toNat) ∧
     (tmCheck v = none → 1 ≤ tmRows v ∧ tmRows v ≤ 64 ∧ 1 ≤ tmCols v ∧ tmCols v ≤ 64 ∧ tmAddr v % 16 = 0 ∧
       tmStride v % 16 = 0 ∧ tmRowBytes v ≤ tmStride v ∧ tmOff v + tmStride v * (tmRows v - 1) + tmRowBytes v ≤ 0x60000)) ∧
  (∀ (f : MatF) (s : State) (k : Cursor) (g : Group) (tm : Team), Issuing s k g → s.teamOf g = some tm →
     let core := coreOf k.gk
     let rowKind : MatKind := .row f.rm f.ty ((groupVal g .b32 1 f.b + f.row) % 64)
       ((lanesOf k.active).map fun l => (l, (s.thread k.gk l).tid, (s.thread k.gk l).destEntry k.handler f.d))
     (∀ m : MatRow, m ∈ matRows f g ++ [⟨.mrow f, f.a, mapPlan [] none, rowKind⟩] →
       let cs := m.plan.cores core
       let needs := m.plan.aMaps ≠ [] ∨ m.plan.outMap ≠ none
       (guardG g f.h k = false → ∃ g', exec m.instr s = .next (s.issued k g') ∧
         LanesBecome k g g' fun _ t => { t.step with wait := .none }) ∧
       (guardG g f.h k = true →
         (∀ c d, s.matCheck k f m.plan = .error (c, d) → exec m.instr s =
           .next (s.finish k ((lanesOf k.active).map fun l => ⟨l, c, d⟩))) ∧
         (∀ r, s.matCheck k f m.plan = .ok r → (∀ c ∈ cs, (s.core c).mq.length < 16 ∧
             (m.plan.slew = true → s.slewHolds c = false)) → (needs → (s.core core).foots.length < 32) →
           s.bindHolds k.gk (m.plan.pair ≠ 0) = false → (r ≠ 0 → s.casHolds k.gk r f.blk = false) →
           ∃ (t : State) (g' : Group) (op : MatOp), exec m.instr s = .next t ∧
             t = { s with cur := none, groups := s.groups.put k.gk g', cores := t.cores, nextId := t.nextId,
                          residencies := t.residencies } ∧
             LanesBecome k { g with lastOp := op.id } g' (fun _ u =>
               { (match m.kind with
                   | .row .. => u.hold k.handler (mrowRegs f.ty) f.d
                   | _ => u).step with wait := .none }) ∧
             (∀ c ∈ cs, (t.core c).mq = (s.core c).mq ++ [op] ∧
               (t.core c).slewNow = (s.core c).slewNow + (if m.plan.slew then 1 else 0) ∧
               (t.core c).bind = if m.plan.pair ≠ 0 then some k.gk else (s.core c).bind) ∧
             (∀ c, c ∉ core :: cs → t.cores.get? c = s.cores.get? c) ∧
             op.kind = m.kind ∧ op.gk = k.gk ∧ op.team = g.team ∧ op.ty = f.ty ∧ op.tile = tm.tile core m.acc ∧ op.res = r ∧
             op.leader = core ∧ op.done = false ∧ op.pair = decide (m.plan.pair ≠ 0) ∧
             (needs → (t.core core).foots.get? op.foot =
               some ⟨g.team, m.plan.reads core, m.plan.writes core, false, false⟩)))) ∧
     (guardG g f.h k = false → ∃ g', exec (.mwait f) s = .next (s.issued k g') ∧
       LanesBecome k g g' fun _ t => { t.step with wait := .none }) ∧
     (guardG g f.h k = true →
       (s.hasOps k.gk g.lastOp = true → ∃ g', exec (.mwait f) s = .next (s.issued k g') ∧
         LanesBecome k g g' fun _ t => { t with wait := .mwait g.lastOp }) ∧
       (s.hasOps k.gk g.lastOp = false → ∃ t g', exec (.mwait f) s = .next t ∧
         t = { s with cur := none, groups := s.groups.put k.gk g', cores := t.cores } ∧
         LanesBecome k g g' (fun _ t => { t.step with wait := .none }) ∧ ∀ c, (t.core c).bind ≠ some k.gk)))

/-- 12 R289, R299 to R302, R305, R309: the queue runs. The next operation of a core executes once nothing it must wait
for stands before it: a multiply adds the four partials of each output to its accumulator element in order, in an N2
pair form on each core with its own columns, in a K2 pair form those of the leader and then those of the follower;
`mzero` zeroes its tile, `mld` loads the map's elements and `mst` stores the tile's, `mrow` delivers a row, poison in a
poisoned tile. It is then done, and retires from the head. With nothing to execute or to retire nothing changes. The
lanes at an `mwait` whose operations have retired advance. Rests on log 26 and 27. -/
def Obligations.MatrixQueueRuns : Prop :=
  (∀ (core : Nat) (s : State),
    (s.opReady core = none → exec (.matrixOpExecute core) s = .next s) ∧
    (s.opDone core = none → exec (.matrixOpRetire core) s = .next s) ∧
    (∀ o, s.opReady core = some o → o.tile < 16 → ∃ t, exec (.matrixOpExecute core) s = .next t ∧
      (∀ x ∈ (t.core core).mq, x.id = o.id → x.done = true) ∧ (t.core core).mq.length = (s.core core).mq.length ∧
      t.mem = s.mem ∧ t.flights = s.flights ∧
      let el (u : State) (i j : Nat) : Word := u.acc.read 0 (accAt core o.tile i j)
      (o.kind = .zero → ∀ i < 64, ∀ j < 64, el t i j = 0) ∧
      (∀ pr am am2 blk bm bm2, o.kind = .mul pr am am2 blk bm bm2 → pr < 3 →
        let a := s.aRows core am
        let a2 := s.aRows (core + 1) am2
        let b := s.bSource o core blk bm
        let b2 := s.bSource o (core + 1) blk bm2
        let add (a b : List (List (Option FVal))) (i n : Nat) (x : Word) : Word := match a[i]?, b[n]? with
          | some r, some c => BitVec.ofNat 32 (accumulate x.toNat (partials (decide (o.ty = .i8)) r c))
          | _, _ => x
        a.length ≤ 64 → a2.length ≤ 64 → b.length ≤ 64 → b2.length ≤ 64 → o.tile2 < 16 → ∀ i < 64, ∀ n < 64,
          (pr = 0 → el t i n = add a b i n (el s i n)) ∧
          (pr = 1 → el t i n = add a b i n (el s i n) ∧ t.acc.read 0 (accAt (core + 1) o.tile2 i n) =
            add a b2 i n (s.acc.read 0 (accAt (core + 1) o.tile2 i n))) ∧
          (pr = 2 → el t i n = add a2 b2 i n (add a b i n (el s i n)))) ∧
      (∀ rm m, o.kind = .ld rm m → tmRows m ≤ 64 → tmCols m ≤ 64 → ∀ i < 64, ∀ j < 64, el t i j =
        if i < tmRows m ∧ j < tmCols m then BitVec.ofNat 32 (mldValue rm o.ty ((s.tmRow (tmCore core m) m i).getD j 0))
        else el s i j) ∧
      (∀ rm m, o.kind = .st rm m → t.acc = s.acc ∧ (tmRowBytes m ≤ tmStride m → ∀ i < tmRows m,
        t.load .pad (2 ^ 19 * tmCore core m + tmOff m + tmStride m * i) (tmRowBytes m) =
          joinElems (tmWidth o.ty .none) ((List.range (tmCols m)).map fun j => mstValue rm o.ty (el s i j).toNat) %
            2 ^ (8 * tmRowBytes m))) ∧
      (∀ rm ty r dests l tid d gk lane g u, o.kind = .row rm ty r dests → (dests.map fun x => x.2.1).Nodup →
        (l, tid, d) ∈ dests → s.findThread o.team tid = some (gk, lane) → s.groups.get? gk = some g →
        g.lanes.get? lane = some u → s.groups.sorted = true → d < 96 → ∃ g' w, t.groups.get? gk = some g' ∧
          g'.lanes.get? lane = some w ∧ d ∉ w.pend ∧
          (16 * core + o.tile ∈ s.accPoison → w.poison.get? d = some 2) ∧
          (16 * core + o.tile ∉ s.accPoison →
            (ty = .f32 → w.stack.read 0 d = el s r l ∧ w.stack.read 0 ((d + 1) % 96) = el s r (l + 32)) ∧
            (ty ≠ .f32 → w.stack.read 0 d = BitVec.ofNat 32
              (mstValue rm ty (el s r l).toNat + 2 ^ 16 * mstValue rm ty (el s r (l + 32)).toNat))))) ∧
    (∀ o, s.opDone core = some o → ∃ t, exec (.matrixOpRetire core) s = .next t ∧ t = { s with cores := t.cores } ∧
      (∀ x ∈ (t.core core).mq, x.id ≠ o.id) ∧ (t.core core).foots.get? o.foot = none ∧
      ∀ x ∈ (s.core core).mq, x.id ≠ o.id → x ∈ (t.core core).mq)) ∧
  (∀ (gk l : Nat) (s : State) (g : Group) (u : Thread), s.groups.get? gk = some g → g.lanes.sorted = true →
    g.lanes.get? l = some u →
    ∃ t g', exec (.mwaitComplete gk) s = .next t ∧ t = { s with groups := t.groups, cores := t.cores } ∧
      t.groups.get? gk = some g' ∧
      (∀ n, u.wait = .mwait n → s.hasOps gk n = false → g'.lanes.get? l = some { u.step with wait := .none }) ∧
      ((∀ n, u.wait = .mwait n → s.hasOps gk n = true) → g'.lanes.get? l = some u))

/-- 06 R139; 13 R314 to R319, R321, R322, R328 to R330: the instructions of a residency. `ralloc` with its quota and a
run of free slots makes a residency with the core's next serial number and zeroed slots, and sends its handle with
status 0; where the run is free only without the residencies least recently used, it ends the fewest of them that make
room; without a quota it sends status 1, without a run status 2, and for a pair that the team does not hold status 3. A
handle that fails its checks raises class 14, but `rstat` sends 0; `rpin` and `runpin` set and clear the pin, `rrev`
ends the residency with the clock, `rstat` sends its state, `rquota` sends a function's quota and sets it. `rload`
checks its source and starts the fill of a block, whose status its destinations wait for; a watched one without watch
entries sends status 4. What is sent is held until it arrives. The size in the detail of a misaligned source is the
model's choice (log 27). 06 R139; 13 R318, R322, R323, R329, R333: what a residency instruction has sent arrives, oldest
first, at the scalar and the predicates that wait for it. A fill that nothing holds ends: its block is no longer
filling, its status reaches the scalar and the predicate that wait for it, and a failed one leaves the block stale with
cause 2; the weights of every row that was read, and the scales if all was read, stand in the slots of the block. The
refill of an absent residency that the next operation names begins, and then leaves it present with its identity and its
blocks filled from their sources. From the clock after an `rrev` no handle names the residency, and it is gone, with
zeroed slots, once nothing queued names it. Rests on log 27, 28 and 46. -/
def Obligations.ResidenciesAndFills : Prop :=
  (∀ (f : ResF) (s : State) (k : Cursor) (g : Group) (tm : Team) (gr : Grid), Issuing s k g → s.teamOf g = some tm →
     s.gridOf tm = some gr →
     let core := coreOf k.gk
     let h : Word := BitVec.ofNat 32 (groupVal g .b32 1 f.a)
     let runs := guardG g f.h k
     let skips (i : Instr) : Prop := ∃ g', exec i s = .next (s.issued k g') ∧
       LanesBecome k g g' fun _ t => { t.step with wait := .none }
     let done (i : Instr) (g1 : Group) (u : Thread → Thread) (good : State → Prop) : Prop := ∃ t g', exec i s = .next t ∧
       t = { s with cur := none, groups := s.groups.put k.gk g', residencies := t.residencies, cores := t.cores, fns := t.fns,
                    watches := t.watches, weights := t.weights, scales := t.scales, l2 := t.l2, nextId := t.nextId } ∧
       LanesBecome k g1 g' (fun _ t => { (u t).step with wait := .none }) ∧ good t
     let waits (t : Thread) : Thread := if f.pf = 0 then t else t.hold k.handler 1 (.pred f.pf)
     let sends (n pf v : Nat) (flag : Bool) : Group := { g.hold n f.d with
       replies := g.replies ++ [⟨(scalOf f.d).getD 384, n, v, pf, s.activeTids k, flag⟩] }
     let trap (i : Instr) (cls : Nat) (d : QWord) : Prop :=
       exec i s = .next (s.finish k ((lanesOf k.active).map fun l => ⟨l, cls, d⟩))
     (runs = false → ∀ i ∈ [Instr.ralloc f, .rloadMap f, .rloadGlobal f, .rpin f, .runpin f, .rrev f, .rstat f, .rquota f],
       skips i) ∧
     (runs = true →
       let cs := if f.pair then [core, core + 1] else [core]
       let paired : Prop := f.pair = true → core % 2 = 0 ∧ core + 1 ∈ tm.cores
       let quota : Prop := ∀ c ∈ cs, f.ns + 1 + s.heldSlots (gr.ck / 16) c ≤ (s.fn (gr.ck / 16)).quota
       let give (v st : Nat) : Group := sends 2 f.pf (v + 2 ^ 32 * st) (st ≠ 0)
       (¬paired → done (.ralloc f) (give 0 3) waits fun t => t.residencies = s.residencies) ∧
       (paired → ¬quota → done (.ralloc f) (give 0 1) waits fun t => t.residencies = s.residencies) ∧
       (paired → quota → (∀ n, s.freeRun g.team gr.pkt cs (f.ns + 1) ((s.reclaimable g.team cs).take n) = none) →
         done (.ralloc f) (give 0 2) waits fun t => t.residencies = s.residencies) ∧
       (paired → quota → ∀ n x, let v := s.reclaimable g.team cs
         n ≤ v.length → s.freeRun g.team gr.pkt cs (f.ns + 1) (v.take n) = some x →
         (∀ m < n, s.freeRun g.team gr.pkt cs (f.ns + 1) (v.take m) = none) →
         let serial := (s.core core).serial
         let handle : Word :=
           BitVec.ofNat 32 (serial * 2 ^ 20 + core % 64 * 2 ^ 14 + (if f.pair then 2 ^ 13 else 0) + x * 16 + f.ns)
         done (.ralloc f) (give handle.toNat 0) waits fun t => ∃ r, t.residencies.get? s.nextId = some r ∧
           r.team = g.team ∧ r.core = core ∧ r.pair = f.pair ∧ r.first = x ∧ r.ns = f.ns ∧ r.serial = serial ∧ r.ty = f.ty ∧
           r.et = f.et ∧ r.present = true ∧ r.pin = f.pin ∧
           (∀ rk ∈ v.take n, rk ≠ s.nextId → t.residencies.get? rk = none ∧ ∀ w ∈ t.watches, w.res ≠ rk) ∧ (t.core core).serial = (if serial = 4095 then 1 else serial + 1) ∧
           ∀ c ∈ cs, ∀ i < f.ns + 1, ∀ a < 4096, t.weights.read 0 ((16 * c + tm.wrun.read 0 c + x + i) * 4096 + a) = 0)) ∧
     (runs = true → ∀ c, s.handle k.gk h none 0 false = .bad c →
       (∀ i ∈ [Instr.rpin f, .runpin f, .rrev f], trap i 14 (detailHandle h c)) ∧
       done (.rstat f) (sends 2 0 0 false) (fun t => t) fun t => t.residencies = s.residencies) ∧
     (runs = true → ∀ rk r, s.handle k.gk h none 0 false = .ok rk → s.residencies.get? rk = some r →
       (s.resBusy r.cores rk = false →
         done (.rpin f) g (fun t => t) (fun t => t.residencies.get? rk = some { r with pin := true, used := s.clock }) ∧
         done (.runpin f) g (fun t => t) (fun t => t.residencies.get? rk = some { r with pin := false, used := s.clock }) ∧
         done (.rrev f) g (fun t => t) (fun t =>
           t.residencies.get? rk = some { r with revoked := some s.clock, used := s.clock })) ∧
       done (.rstat f) (sends 2 0 (s.resWord rk r + 2 ^ 32 * r.staleMask) false) (fun t => t)
         (fun t => t.residencies.get? rk = some { r with used := s.clock })) ∧
     (runs = true →
       let n := groupVal g .b32 1 f.a
       let q := groupVal g .b32 1 f.b
       let old := (s.fn n).quota
       let gives (v : Nat) (good : State → Prop) : Prop := done (.rquota f) (sends 1 0 v false) (fun t => t) good
       (16 < n → gives 0xFFFFFFFF fun t => t.fns = s.fns) ∧
       (n ≤ 16 → q = 0xFFFFFFFF → gives old fun t => t.fns = s.fns) ∧
       (n ≤ 16 → q ≤ 16 → gives old fun t => (t.fn n).quota = q) ∧
       (n ≤ 16 → 16 < q → q ≠ 0xFFFFFFFF → gives 0xFFFFFFFF fun t => t.fns = s.fns)) ∧
     (runs = true → ∀ c, s.handle k.gk h none f.blk f.half = .bad c →
       trap (.rloadMap f) 14 (detailHandle h c) ∧ trap (.rloadGlobal f) 14 (detailHandle h c)) ∧
     (runs = true → ∀ rk r, s.handle k.gk h none f.blk f.half = .ok rk → s.residencies.get? rk = some r → r.core = core →
       let half := if f.half then 1 else 0
       let on := core + half
       let starts (src : BlockSrc) (ws : List Watch) (t : State) : Prop :=
         (∃ id x, (t.core on).fills.get? id = some x ∧ x.res = rk ∧ x.src = src ∧ x.blk = f.blk ∧ x.half = half ∧
           x.d = scalOf f.d ∧ x.pf = f.pf ∧ x.watch = f.watch) ∧
         (∃ r', t.residencies.get? rk = some r' ∧ (r'.block (32 * half + f.blk)).filling = true ∧
           (r'.block (32 * half + f.blk)).stale = 0) ∧
         t.watches = (s.watches.filter fun w => !(w.res = rk && w.half = half && w.blk = f.blk)) ++ ws
       (∀ i, f.b = .tmap i →
         let m := g.tileMap i
         let fits : Prop := tmRows m = 64 ∧ tmCols m = 64 ∧ tmTy m = r.ty ∧ tmEt m = r.et
         (¬fits → trap (.rloadMap f) 1 (detailWord k.word 9 2)) ∧
         (∀ d, fits → mapOutside tm gr.pkt core m 64 = some d → trap (.rloadMap f) 6 d) ∧
         (fits → mapOutside tm gr.pkt core m 64 = none → s.rloadBusy on r rk = false → (s.core core).foots.length < 32 →
           done (.rloadMap f) (g.hold 1 f.d) waits (starts (.map m) []))) ∧
       (let a := groupVal g .b64 2 f.b
        let stride := groupVal g .b64 2 f.a / 2 ^ 32
        let src : BlockSrc := .global (BitVec.ofNat 64 a) (BitVec.ofNat 64 stride)
        let bytes := rowBytes r.ty r.et 64
        let even : Prop := a % 16 = 0 ∧ stride % 16 = 0
        let s1 := s.useRes rk
        let ls := s1.watchLines (s.ckOf g) r a stride
        let far := (sourceLines r a stride).any fun l => (s1.remoteOf (s.ckOf g) (128 * l)).isSome
        (¬even → trap (.rloadGlobal f) 5 (detailM a 0 1 bytes 0)) ∧
        (even → stride < bytes → trap (.rloadGlobal f) 1 (detailWord k.word 9 6)) ∧
        (even → bytes ≤ stride → s.rloadBusy on r rk = false →
         (f.watch = false → done (.rloadGlobal f) (g.hold 1 f.d) waits (starts src [])) ∧
         (f.watch = true → far = false → s1.watchRoom ls = true → done (.rloadGlobal f) (g.hold 1 f.d) waits
           (starts src (ls.map fun l => ⟨l.1, l.2, rk, half, f.blk⟩))) ∧
         (f.watch = true → far = true ∨ s1.watchRoom ls = false →
           done (.rloadGlobal f) (sends 1 f.pf 4 true) waits fun t => t.watches = s.watches))))) ∧
  (let filled (t : State) (r : Res) (half blk : Nat) (y : SourceRead) : Prop :=
     let c := r.core + half
     tmWidth r.ty r.et ∈ [4, 6, 8, 16] →
       (∀ i row, y.rows[i]? = some row → i < 64 → ∀ n < 64,
         t.weight c (t.resSlot r c) r.ty r.et blk i n = row.getD n 0 % 2 ^ tmWidth r.ty r.et) ∧
       ∀ b, y.scales = some b → t.scales.get? (scaleEntry c (t.resSlot r c) blk) = some b
   (∀ (gk : Nat) (s : State) (g : Group), s.groups.sorted = true → s.groups.get? gk = some g →
     (g.replies = [] → s.nextReply gk = s) ∧
     ∀ x rest, g.replies = x :: rest → ∃ g', (s.nextReply gk).groups.get? gk = some g' ∧ g'.replies = rest ∧
       (∀ j, x.d = j → j + x.n ≤ 384 → g'.scalars j x.n = x.v % 2 ^ (32 * x.n) ∧ ∀ i < x.n, j + i ∉ g'.spend) ∧
       ∀ tid hk l g0 u, x.pf ≠ 0 → x.pf < 8 → tid ∈ x.lanes → s.findThread g.team tid = some (hk, l) →
         s.groups.get? hk = some g0 → g0.lanes.get? l = some u → ∃ g1 w, (s.nextReply gk).groups.get? hk = some g1 ∧
           g1.lanes.get? l = some w ∧ w.pred x.pf = x.flag ∧ 96 + x.pf ∉ w.pend) ∧
   (∀ (core id : Nat) (s : State) (x : Fill) (r : Res) (g : Group), (s.core core).fills.get? id = some x →
     s.residencies.get? x.res = some r → s.groups.sorted = true → s.groups.get? x.gk = some g →
     (s.fillReady x = false → exec (.rloadFillComplete core id) s = .next s) ∧
     (s.fillReady x = true → x.blk < 32 → x.half < 2 →
       let ck := (((s.teams.get? x.team).bind s.gridOf).map (·.ck)).getD 0
       let st := (s.readSource ck r.core r x.src).status
       ∃ t r' g', exec (.rloadFillComplete core id) s = .next t ∧ t.residencies.get? x.res = some r' ∧
         (t.core core).fills.get? id = none ∧ t.groups.get? x.gk = some g' ∧ t.mem = s.mem ∧ t.scratch = s.scratch ∧
         let b := r'.block (32 * x.half + x.blk)
         b.filling = false ∧ b.watched = x.watch ∧ (st = 0 → b.src = x.src) ∧ (st ≠ 0 → b.stale = 2) ∧
         filled t r x.half x.blk (s.readSource ck r.core r x.src) ∧
         (∀ j, x.d = some j → j < 384 → g'.scalar j = BitVec.ofNat 32 st ∧ j ∉ g'.spend) ∧
         ∀ tid gk l g0 u, x.pf ≠ 0 → x.pf < 8 → tid ∈ x.lanes → s.findThread x.team tid = some (gk, l) →
           s.groups.get? gk = some g0 → g0.lanes.get? l = some u → ∃ g1 w, t.groups.get? gk = some g1 ∧
             g1.lanes.get? l = some w ∧ w.pred x.pf = decide (st ≠ 0) ∧ 96 + x.pf ∉ w.pend)) ∧
   (∀ (core rk : Nat) (s : State) (r : Res), s.residencies.get? rk = some r →
     (s.refillReady core rk = false → exec (.residencyRefill core rk) s = .next s) ∧
     (s.refillReady core rk = true → r.refilling = false → exec (.residencyRefill core rk) s =
       .next { s with residencies := s.residencies.put rk { r with refilling := true } }) ∧
     (s.refillReady core rk = true → r.refilling = true → ∃ t r', exec (.residencyRefill core rk) s = .next t ∧
       t.residencies.get? rk = some r' ∧ r'.present = true ∧ r'.refilling = false ∧ r'.team = r.team ∧ r'.core = r.core ∧
       r'.serial = r.serial ∧ r'.first = r.first ∧ r'.ns = r.ns ∧ t.mem = s.mem ∧ t.scratch = s.scratch ∧ t.groups = s.groups ∧
       ((∀ c, s.resSlot r c + r.ns < 16) → ∀ half < if r.pair then 2 else 1, ∀ blk < r.count,
         let b := r.block (32 * half + blk)
         b.filling = false → (∀ a stride, b.src ≠ .global a stride) → filled t r half blk (s.readSource 0 r.core r b.src)))) ∧
   (∀ (rk : Nat) (s : State) (r : Res) (c : Nat), s.residencies.sorted = true → s.residencies.get? rk = some r →
     r.revoked = some c →
     (c < s.clock → ∀ gk h form blk half, s.handle gk h form blk half ≠ .ok rk) ∧
     ((∀ e ∈ s.cores, (∀ o ∈ e.2.mq, o.res ≠ rk) ∧ ∀ f ∈ e.2.fills, f.2.res ≠ rk) →
       s.sweepRevoked.residencies.get? rk = none ∧ (∀ w ∈ s.sweepRevoked.watches, w.res ≠ rk) ∧
       ∀ k ∈ r.cores, ∀ x, s.wrunOf r.team k = some x → ∀ i ≤ r.ns, ∀ a < 4096,
         s.sweepRevoked.weights.read 0 ((16 * k + x + r.first + i) * 4096 + a) = 0)))

/-! ## Copy engines, sleeping, records (02_describing_work, 11_memory_ops) -/

/-- 11 R268, R278 to R280: `cpy` hands a valid card to the copy engines, with its promise in the destination and every
lane one instruction on; a job that fails validation gives the present time; a card or ring address that fails its
checks traps. `sleepu` waits while its time is in the future and only advances otherwise; `sleepu.chk` then empties the
L1 where every job of its card is complete, and raises class 15 otherwise. The lanes whose time has come go on, or trap.
Rests on log 29 and 30. -/
def Obligations.CopiesAreHandedOverAndLanesSleep : Prop :=
  (∀ (f : Op3) (s : State) (k : Cursor) (g : Group) (tm : Team) (p : Packet), Issuing s k g → s.teamOf g = some tm →
    s.pktOf g = some p →
    let core := coreOf k.gk
    let ck := s.ckOf g
    let now := (s.ctx ck).ctime
    let off := groupVal g .b32 1 f.a
    let steps (t : Thread) : Thread := { t.step with wait := .none }
    let skips (i : Instr) : Prop := ∃ g', exec i s = .next (s.issued k g') ∧ LanesBecome k g g' fun _ t => steps t
    (guardG g f.h k = false → skips (.cpy f) ∧ skips (.sleepu f) ∧ skips (.sleepuChk f)) ∧
    (∀ c d, guardG g f.h k = true → s.cardBusy k.gk off = false → s.cardTrap k.gk off = some (c, d) → exec (.cpy f) s =
      .next (s.finish k ((lanesOf k.active).map fun l => ⟨l, c, d⟩))) ∧
    (guardG g f.h k = true → s.cardBusy k.gk off = false → s.cardTrap k.gk off = none → (s.core core).foots.length < 32 →
      let b := s.bytes .pad (2 ^ 19 * core + off) 64
      (∀ rds wrs, s.validateCard core ck tm p (Card.of b) = .ok (rds, wrs) → ∃ t g' id j, exec (.cpy f) s = .next t ∧
        t = { s with cur := none, groups := s.groups.put k.gk g', jobs := s.jobs.put id j, cores := t.cores, nextId := t.nextId,
                     freeCount := t.freeCount } ∧
        LanesBecome k (g.write 2 f.d j.promise.toNat) g' (fun _ t => steps t) ∧ s.nextId ≤ id ∧ j.card = b ∧ j.core = core ∧
        j.team = g.team ∧ j.cardOff = off ∧ j.done = 0 ∧ j.status = none ∧ j.recorded = false ∧
        (t.core core).foots.get? j.foot = some ⟨g.team, rds, wrs, false, true⟩) ∧
      (∀ st, s.validateCard core ck tm p (Card.of b) = .error st → ∃ t g', exec (.cpy f) s = .next t ∧ t.cur = none ∧
        t.groups = s.groups.put k.gk g' ∧ LanesBecome k (g.write 2 f.d now.toNat) g' (fun _ t => steps t) ∧ t.mem = s.mem)) ∧
    (∀ l d, guardG g f.h k = true → sleepPoison g k f.a = some (l, d) →
      exec (.sleepu f) s = .next (s.finish k [⟨l, 16, d⟩]) ∧ exec (.sleepuChk f) s = .next (s.finish k [⟨l, 16, d⟩])) ∧
    (guardG g f.h k = true → sleepPoison g k f.a = none →
      let time : DWord := BitVec.ofNat 64 (sleepTime g k f.a)
      let jobOff := groupVal g .b32 1 f.b
      let open' := s.openJobs g.team core jobOff s.nextId
      (time.toNat ≤ now.toNat → skips (.sleepu f) ∧
        (open' = [] → ∃ t g', exec (.sleepuChk f) s = .next t ∧
          t = { s with cur := none, groups := s.groups.put k.gk g', cores := t.cores } ∧ (t.core core).l1 = [] ∧
          LanesBecome k g g' fun _ t => steps t) ∧
        (open' ≠ [] → ∃ x s', exec (.sleepuChk f) s = .next (State.finish s' k ((lanesOf k.active).map fun l =>
            ⟨l, 15, detailOf (bytesOf (now.toNat + 1 + x) 8 ++ bytesOf jobOff 4)⟩)) ∧
          s' = { s with freeCount := s'.freeCount })) ∧
      (now.toNat < time.toNat →
        (∃ g', exec (.sleepu f) s = .next (s.issued k g') ∧ LanesBecome k g g' fun _ t => { t with wait := .sleep time }) ∧
        (∃ g', exec (.sleepuChk f) s = .next (s.issued k g') ∧
          LanesBecome k g g' fun _ t => { t with wait := .sleepChk time jobOff s.nextId })))) ∧
  (∀ (gk l : Nat) (s : State) (g : Group) (u : Thread), s.groups.get? gk = some g → g.lanes.sorted = true →
    g.lanes.get? l = some u →
    let now := (s.ctx (s.ckOf g)).ctime.toNat
    (∃ g', exec (.sleepuWake gk) s = .next (s.setGroup gk g') ∧ g' = { g with lanes := g'.lanes } ∧
      (∀ t, u.wait = .sleep t → t.toNat ≤ now → g'.lanes.get? l = some { u.step with wait := .none }) ∧
      ((∀ t, u.wait = .sleep t → now < t.toNat) → g'.lanes.get? l = some u)) ∧
    (s.sleptChk gk = [] → exec (.sleepuChkWake gk) s = .next s) ∧
    (∀ off last, s.sleptChk gk ≠ [] → (∀ e ∈ s.sleptChk gk, e.2 = (off, last)) → s.openJobs g.team (coreOf gk) off last = [] →
      ∃ t g', exec (.sleepuChkWake gk) s = .next t ∧ t = { s.setGroup gk g' with cores := t.cores } ∧
        (t.core (coreOf gk)).l1 = [] ∧
        (∀ t', u.wait = .sleepChk t' off last → t'.toNat ≤ now → g'.lanes.get? l = some u.goOn) ∧
        ((∀ t' o n, u.wait ≠ .sleepChk t' o n) → g'.lanes.get? l = some u)) ∧
    (∀ off last, (∀ e ∈ s.sleptChk gk, e.2 = (off, last)) → s.sleptChk gk ≠ [] →
      s.openJobs g.team (coreOf gk) off last ≠ [] → ∃ x s' g', exec (.sleepuChkWake gk) s =
          .next (State.raiseIn s' gk ((s.sleptChk gk).map fun e =>
            ⟨e.1, 15, detailOf (bytesOf (now + 1 + x) 8 ++ bytesOf off 4)⟩)) ∧
        s' = { s.setGroup gk g' with freeCount := s'.freeCount } ∧ g' = { g with lanes := g'.lanes } ∧
        (∀ t' o n, u.wait = .sleepChk t' o n → t'.toNat ≤ now → g'.lanes.get? l = some { u with wait := .none }) ∧
        ((∀ t' o n, u.wait ≠ .sleepChk t' o n) → g'.lanes.get? l = some u)))

/-- 02 R50, R52, R53; 11 R269 to R272, R285: a job that nothing before it holds delivers elements in ascending order, at
most as many as the step takes. Element i is read at its source address and written at its destination, in each core
that the mask of a multicast names, and no other byte changes but the bytes that its barrier object still expects; a
gather and a scatter take the element's index from their list. A source that does not translate ends the job with status
7, a poisoned one with status 8, and an index outside the bound with status 0x0A; no byte of the source is one that 14
R347 leaves undefined. A job that has delivered all, or failed, is over once the record that it asks for, or that a
failure gives it, is written: from the next clock on it is gone, and so is its entry in the footprint table. 02 R53,
R54: a completion record goes to its ring. Of the records held for one ring the oldest is written once the ring is not
full: the 32 bytes, with the time of the writing and the phase of their turn, reach the slot of the write index, which
then rises by one; while the ring is full, or an earlier one is held, nothing changes. A record that left its ring for
the event ring, whose buffer held it, is complete once it is written there (03 R70). Rests on log 29 and 32. -/
def Obligations.JobsAndHeldRecordsEnd : Prop :=
  (∀ (id : Nat) (s : State) (j : Job), s.jobs.get? id = some j →
     let c := Card.of j.card
     let i := j.done
     let at' (base sy sz : Nat) : Nat :=
       (base + i % c.nx * c.e + i / c.nx % max c.ny 1 * sy + i / (c.nx * max c.ny 1) * sz) % 2 ^ 64
     let pad (x : Nat) : Nat := 2 ^ 19 * j.core + x
     let list := pad (c.aux + 4 * i)
     let idx := s.load .pad list 4
     let sa := if c.kind = 4 then (c.src + idx * c.e) % 2 ^ 64 else at' c.src c.ssy c.ssz
     let da := if c.kind = 5 then (c.dst + idx * c.e) % 2 ^ 64 else at' c.dst c.dsy c.dsz
     let listed : Prop := c.kind = 4 ∨ c.kind = 5 → s.poisoned .pad list 4 = false ∧ idx * c.e + c.e ≤ c.bound
     let ready : Prop := c.kind ≠ 7 ∧ j.status = none ∧ s.jobReady j = true ∧ j.done < c.total
     let fails (st det : Nat) : Prop := ∃ t, exec (.copyJobDelivery id 1) s = .next t ∧ t.groups = s.groups ∧
       t.jobs.get? id = some { j with counted := (if c.sb then i * c.e else 0), status := some st, detail := BitVec.ofNat 64 det } ∧
       ∀ q x, t.byte q x = s.byte q x
     let known (q : Place) (a : Nat) : Prop := ∀ x < c.e, s.hazyFor q (a + x) none = false
     (¬ready → ∀ n, exec (.copyJobDelivery id n) s = .next s) ∧
     (ready → ∀ n, ∃ t j', exec (.copyJobDelivery id n) s = .next t ∧ t.groups = s.groups ∧ t.jobs.get? id = some j' ∧
       j' = { j with done := j'.done, counted := j'.counted, status := j'.status, detail := j'.detail } ∧
       j'.counted = (if c.sb then j'.done * c.e else 0) ∧ j.done ≤ j'.done ∧ j'.done ≤ j.done + n ∧ j'.done ≤ c.total ∧
       (j'.status = none → j'.done = min (j.done + n) c.total)) ∧
     (ready → listed →
       ∀ b, (c.ssp = 0 ∧ (∃ pa leaf, s.xlatNow j.ck sa .read = .ok pa leaf ∧ s.poisoned .mem pa c.e = false ∧ known .mem pa ∧
             b = s.bytes .mem pa c.e)) ∨
           (c.ssp ≠ 0 ∧ (let x := jobPlace j.core c.ssp sa
             s.poisoned x.1 x.2 c.e = false ∧ known x.1 x.2 ∧ b = s.bytes x.1 x.2 c.e)) →
         ∀ ds : List (Place × Nat),
           (c.kind ≠ 6 ∧ c.dsp = 0 ∧ ∃ pa leaf, s.xlatNow j.ck da .write = .ok pa leaf ∧ ds = [(.mem, pa)]) ∨
           (c.kind ≠ 6 ∧ c.dsp ≠ 0 ∧ ds = [jobPlace j.core c.dsp da]) ∨
           (c.kind = 6 ∧ da + c.e ≤ 2 ^ 19 ∧
             ds = (c.targets j.core).map fun q => (.pad, 2 ^ 19 * q + da)) →
         let within (q : Place) (x : Nat) : Prop := ∃ d ∈ ds, q = d.1 ∧ d.2 ≤ x ∧ x < d.2 + c.e
         let object (q : Place) (x : Nat) : Prop := c.sb = true ∧ q = .pad ∧ ∃ n ∈ c.barCores j.core,
           2 ^ 19 * n + c.barOff ≤ x ∧ x < 2 ^ 19 * n + c.barOff + 8
         (∀ q x, within q x → ¬object q x) →
         ∃ t, exec (.copyJobDelivery id 1) s = .next t ∧
           t.jobs.get? id =
             some { j with done := i + 1, counted := (if c.sb then (i + 1) * c.e else 0), status := none, detail := 0 } ∧
           (∀ d ∈ ds, ∀ x < c.e, t.byte d.1 (d.2 + x) = b.getD x 0) ∧
           (∀ q x, ¬within q x → ¬object q x → t.byte q x = s.byte q x) ∧
           (c.sb = true → c.kind ≠ 6 →
             let o := s.barObj j.core c.barOff
             t.barObj j.core c.barOff = { o with bytes := (o.bytes + 2 ^ 38 - c.e % 2 ^ 38) % 2 ^ 38 })) ∧
     (ready → c.kind = 4 ∨ c.kind = 5 → s.poisoned .pad list 4 = true → fails 8 (c.aux + 4 * i)) ∧
     (ready → c.kind = 4 ∨ c.kind = 5 → s.poisoned .pad list 4 = false → c.bound < idx * c.e + c.e → fails 10 (c.aux + 4 * i)) ∧
     (ready → listed → c.ssp = 0 →
       (∀ cls cause, s.xlatNow j.ck sa .read = .fault cls cause → fails 7 sa) ∧
       (s.xlatNow j.ck sa .read = .poison → fails 8 sa) ∧
       (∀ pa leaf, s.xlatNow j.ck sa .read = .ok pa leaf → known .mem pa → s.poisoned .mem pa c.e = true → fails 8 sa)) ∧
     (ready → listed → c.ssp ≠ 0 → known (jobPlace j.core c.ssp sa).1 (jobPlace j.core c.ssp sa).2 →
       s.poisoned (jobPlace j.core c.ssp sa).1 (jobPlace j.core c.ssp sa).2 c.e = true → fails 8 sa) ∧
     (s.jobDone j = false → exec (.copyJobFinish id) s = .next s) ∧
     (s.jobDone j = true →
       let st := j.status.getD 0
       (c.cr = false → st = 0 → c.kind ≠ 7 ∨ c.sb = false → exec (.copyJobFinish id) s =
           .next { s with jobs := s.jobs.put id { j with recorded := true } }) ∧
       ∃ t j', exec (.copyJobFinish id) s = .next t ∧ t.groups = s.groups ∧ t.mem = s.mem ∧ t.jobs.get? id = some j' ∧
         j' = { j with waiting := j'.waiting, recorded := j'.recorded } ∧
         (j'.recorded = false → (c.cr = true ∨ st ≠ 0) ∧ j'.waiting = true ∧ ∃ h ∈ t.heldRecords, h.2.job = some id)) ∧
     (j.recorded = true → s.jobs.sorted = true → s.sweepJobs.jobs.get? id = none ∧
       (s.sweepJobs.core j.core).foots.get? j.foot = none)) ∧
  (∀ (id : Nat) (s : State) (h : HeldRecord), s.heldRecords.get? id = some h →
     (h.moved = false → s.mayWrite id h = false → exec (.completionRecordWrite id) s = .next s) ∧
     (h.moved = true → s.eventHeld h.ck id = true → exec (.completionRecordWrite id) s = .next s) ∧
     (h.moved = true → s.eventHeld h.ck id = false → exec (.completionRecordWrite id) s =
       .next (State.recordDone { s with heldRecords := s.heldRecords.del id } h)) ∧
     ∀ c, h.moved = false → s.heldRecords.sorted = true → s.mayWrite id h = true → h.inCore = some c → h.job = none → h.grid = none → h.bytes.length = 32 →
     let at' := 2 ^ 19 * c + h.ring
     let w := s.load .pad at' 4
     let r := s.load .pad (at' + 4) 4
     let ents := s.load .pad (at' + 8) 1
     let slot := at' + 32 + 32 * (w % 2 ^ ents)
     let bounds := s.ringBounds h.team
     s.poisoned .pad at' 32 = false → 1 ≤ ents → ents ≤ 12 → (∀ i < 23, s.byte .pad (at' + 9 + i) = 0) →
     bounds.1 ≤ h.ring + 32 + 32 * (w % 2 ^ ents) → h.ring + 32 + 32 * (w % 2 ^ ents) + 32 ≤ bounds.2 →
     ((w + 2 ^ 32 - r) % 2 ^ 32 = 2 ^ ents → exec (.completionRecordWrite id) s = .next s) ∧
     ((w + 2 ^ 32 - r) % 2 ^ 32 ≠ 2 ^ ents → ∃ t, exec (.completionRecordWrite id) s = .next t ∧
       t = { s with heldRecords := s.heldRecords.del id, scratch := t.scratch, scratchPoison := t.scratchPoison,
                    rels := t.rels } ∧
       t.load .pad at' 4 = (w + 1) % 2 ^ 32 ∧
       (∀ i < 32, t.byte .pad (slot + i) =
         if i = 2 then h.bytes.getD 2 0 ||| BitVec.ofNat 8 (1 - w / 2 ^ ents % 2)
         else if 8 ≤ i ∧ i < 16 then BitVec.ofNat 8 ((s.ctx h.ck).ctime.toNat / 256 ^ (i - 8)) else h.bytes.getD i 0) ∧
       ∀ a, ¬(at' ≤ a ∧ a < at' + 4) → ¬(slot ≤ a ∧ a < slot + 32) → t.byte .pad a = s.byte .pad a))

/-- 10 R247, R254, R255; 11 R271; 13 R325: a migration goes step by step. One that reads a poisoned table entry ends
with status 8 and one that fails its checks with status 2, and nothing else changes; otherwise its pages lose their
write permission, bit 3 of their leaves, and a shoot-down is asked for. It goes on once that has completed, copies its
pages one by one and switches their leaves, which then name the destination pages in order with the write permission
that was saved, and ends after a second shoot-down; a page that cannot be read, or a poisoned line of it, abandons it
with status 0x0E, and the leaves get their write permission back. The page tables form a tree: each leaf has its own
place, and no entry above a leaf is a leaf of the migration. Rests on log 31. -/
def Obligations.MigrationsGoStepByStep : Prop :=
  ∀ (id : Nat) (s : State) (j : Job), s.jobs.get? id = some j → (Card.of j.card).kind = 7 →
    let c := Card.of j.card
    let becomes (j' : Job) : Prop := exec (.pageMigration id) s = .next { s with jobs := s.jobs.put id j' }
    let asked (t : State) : Prop := ∃ x ∈ (t.ctx j.ck).shoots, x.key = id ∧ x.vpg = c.src / 65536 ∧ x.npg = c.nx
    let leaves := (List.range c.nx).map fun k => s.leafAt j.ck (c.src + 65536 * k)
    let va := c.src + 65536 * j.done
    let dest := c.dst + 65536 * j.done
    let page (k : Nat) : Nat := c.src + 65536 * k
    let above (k : Nat) : List Nat := s.walkReads (page k) ((s.ctx j.ck).ptbase.toNat / 65536 * 65536) [0, 1, 2]
    let tree : Prop := ∀ k < c.nx, (above k).length = 3 ∧ ∀ a, s.leafPlace j.ck (page k) = some a →
      ∀ k' < c.nx, a ∉ above k' ∧ (k' ≠ k → s.leafPlace j.ck (page k') ≠ some a)
    let apart : Prop := ∀ k < c.nx, ∀ a, a ∈ above k ∨ s.leafPlace j.ck (page k) = some a → a + 8 ≤ dest ∨ dest + 65536 ≤ a
    let becomesLeaf (t : State) (e : Nat → DWord → DWord) : Prop := tree → ∀ k < c.nx,
      (s.leafPlace j.ck (page k)).isSome = true → t.leafAt j.ck (page k) = e k (s.leafAt j.ck (page k))
    let abandons (a : Nat) : Prop := ∃ t, exec (.pageMigration id) s = .next t ∧ asked t ∧ t.jobs.get? id =
        some { j with stage := 4, status := some 14, detail := BitVec.ofNat 64 a } ∧
      (c.dst % 65536 = 0 → apart → becomesLeaf t fun k e => leafW e (j.savedW.getD k false))
    (s.jobReady j = false → exec (.pageMigration id) s = .next s) ∧
    (s.jobReady j = true →
      (∀ a, j.stage = 0 → s.migrationPoison j c = some a →
        becomes { j with stage := 5, status := some 8, detail := BitVec.ofNat 64 a }) ∧
      (j.stage = 0 → s.migrationPoison j c = none → s.migrationOk j c = false → becomes { j with stage := 5, status := some 2 }) ∧
      (j.stage = 0 → s.migrationPoison j c = none → s.migrationOk j c = true → ∃ t, exec (.pageMigration id) s = .next t ∧
        t.jobs.get? id = some { j with stage := 1, savedW := leaves.map fun e => bitOf e 3 } ∧ asked t ∧
        becomesLeaf t (fun _ e => leafW e false) ∧
        (tree → ∀ k < c.nx, bitOf (t.leafAt j.ck (page k)) 3 = false)) ∧
      (j.stage = 1 ∨ j.stage = 3 ∨ j.stage = 4 → (∃ x ∈ (s.ctx j.ck).shoots, x.key = id) → exec (.pageMigration id) s = .next s) ∧
      ((∀ x ∈ (s.ctx j.ck).shoots, x.key ≠ id) →
        (j.stage = 1 → becomes { j with stage := 2 }) ∧ (j.stage = 4 → becomes { j with stage := 5 }) ∧
        (j.stage = 3 → ∃ t, exec (.pageMigration id) s = .next t ∧
          t = { s with jobs := s.jobs.put id { j with stage := 5 }, residencies := t.residencies })) ∧
      (∀ pa leaf, j.stage = 2 → j.done < c.nx → s.xlatNow j.ck va .read = .ok pa leaf →
        (pa + 65536 ≤ dest ∨ dest + 65536 ≤ pa) →
        ((∀ i < 512, s.poisoned .mem (pa + 128 * i) 128 = false) → ∃ t, exec (.pageMigration id) s = .next t ∧
          t.jobs.get? id = some { j with done := j.done + 1 } ∧ (∀ a < 65536, t.byte .mem (dest + a) = s.byte .mem (pa + a)) ∧
          ∀ a, ¬(dest ≤ a ∧ a < dest + 65536) → t.byte .mem a = s.byte .mem a) ∧
        (∀ i < 512, (∀ i' < i, s.poisoned .mem (pa + 128 * i') 128 = false) → s.poisoned .mem (pa + 128 * i) 128 = true →
          abandons (va + 128 * i))) ∧
      (∀ cls cause, j.stage = 2 → j.done < c.nx → s.xlatNow j.ck va .read = .fault cls cause → abandons va) ∧
      (j.stage = 2 → c.nx ≤ j.done → ∃ t, exec (.pageMigration id) s = .next t ∧
        t.jobs.get? id = some { j with stage := 3, old := leaves.map leafPfn } ∧ asked t ∧
        (tree → ∀ k < c.nx, (s.leafPlace j.ck (page k)).isSome = true →
          let old := s.leafAt j.ck (page k)
          let new := t.leafAt j.ck (page k)
          leafPfn new = (c.dst / 2 ^ 16 + k) % 2 ^ 32 ∧ bitOf new 3 = j.savedW.getD k false ∧
          ∀ i < 64, i ≠ 3 → (i < 16 ∨ 48 ≤ i) → bitOf new i = bitOf old i)) ∧
      (∀ e : DWord, ∀ w, bitOf (leafW e w) 3 = w ∧ ∀ i, i ≠ 3 → bitOf (leafW e w) i = bitOf e i))

/-! ## Launching and placing (02_describing_work, 03_launching, 04_placing, 18_retiring) -/

/-- 02 R43, R46; 03 R60 to R66: from a queue to a released grid. A queue whose context and queue are enabled, with a
packet between its head and its tail and neither FLT nor OVR set, begins to read the packet at its head, and reads on
over its bytes; the last of them make a grid, which waits for its conditions or is ready, or ends where its packet fails
validation, and the head rises by one unless EN was set anew. A packet that cannot be read sets FLT, or UNC too, with
its address, and leaves the head. A wait condition is met when the value at its address is at least its own. A ready
grid that nothing earlier in its queue holds is released; one of a device queue ends where it fails the steps that its
launch left. Rests on log 33. -/
def Obligations.PacketsBecomeReleasedGrids : Prop :=
  (∀ (qk : Nat) (s : State),
    let q := s.queue qk
    let ck := qk / 64
    let va := q.base.toNat % 2 ^ 57 + 128 * (q.head.toNat % 2 ^ q.size)
    let open' := (s.ctx ck).en = true ∧ q.en = true ∧ q.head ≠ q.tail ∧ q.flt = false ∧ q.ovr = false ∧ s.baseDead = false
    (q.read = none → ¬open' → exec (.packetFetch qk) s = .next s) ∧
    (q.read = none → open' → exec (.packetFetch qk) s =
      .next { s with queues := s.queues.put qk { q with read := some ⟨q.head, va, [], false⟩ } }) ∧
    ∀ r, q.read = some r → r.bytes.length < 128 →
      ∃ n, 1 ≤ n ∧ r.bytes.length + n ≤ 128 ∧
        let at' := r.va + r.bytes.length
        let fails (st : Nat) : Prop := ∃ t, exec (.packetFetch qk) s = .next t ∧ t.grids = s.grids ∧ t.teams = s.teams ∧
          t.queue qk = { q with flt := true, unc := q.unc || st = 8, fault := BitVec.ofNat 64 r.va, read := none }
        (∀ pa leaf, s.xlatNow ck at' .read = .ok pa leaf → s.poisoned .mem pa n = false →
          let b := r.bytes ++ s.bytes .mem pa n
          (b.length < 128 → ∃ t, exec (.packetFetch qk) s = .next t ∧ t = { s with
            queues := s.queues.put qk { q with read := some { r with bytes := b } }
            l2 := t.l2
            freeCount := s.freeCount + 1 }) ∧
          (b.length = 128 → ∃ (u : State) (st : Nat), u = { s with
              queues := s.queues.put qk { q with read := none, head := if r.anew then q.head else q.head + 1 }
              l2 := u.l2
              freeCount := s.freeCount + 1 } ∧ st = u.validate (Packet.parse b) (ck / 16) ∧
            (st = 0 → exec (.packetFetch qk) s = .next { u with
              grids := u.grids.put u.nextId (newGrid (Packet.parse b) ck (qk % 64) false 1 none)
              nextId := u.nextId + 1 }) ∧
            (st ≠ 0 → ∃ t, exec (.packetFetch qk) s = .next t ∧ t.teams = u.teams ∧ t.queue qk = u.queue qk ∧
              ∀ g, t.grids.get? u.nextId = some g → g.stage = .ended))) ∧
        (∀ pa leaf, s.xlatNow ck at' .read = .ok pa leaf → s.poisoned .mem pa n = true → fails 8) ∧
        (s.xlatNow ck at' .read = .poison → fails 8) ∧
        (∀ cls cause, s.xlatNow ck at' .read = .fault cls cause → fails 7)) ∧
  (∀ (k : Nat) (s : State) (g : Grid), s.grids.get? k = some g →
    let ends (i : Instr) : Prop := ∃ t, exec i s = .next t ∧ t.teams = s.teams ∧
      ∀ g', t.grids.get? k = some g' → g'.stage = .ended
    (g.condition = none → exec (.waitConditionCheck k) s = .next s) ∧
    (∀ n va v, g.condition = some (n, va, v) →
      (∀ pa leaf, s.xlatNow g.ck va.toNat .read = .ok pa leaf → s.poisoned .mem pa 8 = false →
        ∃ t, exec (.waitConditionCheck k) s = .next t ∧
          (s.load .mem pa 8 < v.toNat → t = { s with l2 := t.l2 }) ∧
          (v.toNat ≤ s.load .mem pa 8 → t = { s with l2 := t.l2, grids := s.grids.put k (g.meetCondition n) }) ∧
          (g.pkt.w0v = true → g.pkt.w1v = false → n = 0 → (g.meetCondition n).stage = .met)) ∧
      (∀ cls cause, s.xlatNow g.ck va.toNat .read = .fault cls cause → ends (.waitConditionCheck k))) ∧
    (s.releasable k g = false → exec (.gridRelease k) s = .next s) ∧
    (s.releasable k g = true →
      let s' := s.modCtx g.ck fun c => { c with devq := dropFrom c.devq k }
      let good : Prop := g.dev = true → s'.validateFit g.pkt (g.ck / 16) = 0
      (good → exec (.gridRelease k) s = .next { s' with
        grids := s.grids.put k { g with stage := .released, order := s.nextId }
        nextId := s.nextId + 1 }) ∧
      (¬good → ends (.gridRelease k))))

/-- 03 R76 to R78; 06 R139: `launch` copies its packet and sends it on with its status, 9 where thread 0 of the team is
not in the group, 5 at depth 10, else that of the packet's first checks; its status scalar waits and every lane
advances. While the device queue has no room, the launch has no status yet and its lanes wait; once it has, the status
is fixed and they advance. A packet that is misaligned, out of bounds or poisoned traps. The oldest launch of a group
enters the device queue as a child of its grid, one deeper and at most of its priority, once the accesses before it are
performed; a rejected one ends at once; the scalar then holds the status. Rests on log 33. -/
def Obligations.ChildrenAreLaunched : Prop :=
  let status (g : Group) (gr : Grid) (b : List Byte) : Nat :=
    if ∀ e ∈ g.lanes, e.2.tid ≠ 0 ∨ e.2.exited = true then 9 else if gr.depth = 10 then 5 else (Packet.parse b).validate12
  (∀ (f : Op3) (s : State) (k : Cursor) (g : Group) (tm : Team) (gr : Grid), Issuing s k g → s.teamOf g = some tm →
    s.gridOf tm = some gr →
    let off := groupVal g .b32 1 f.a
    let at' := 2 ^ 19 * coreOf k.gk + off
    let b := s.bytes .pad at' 128
    let full : Prop := 256 ≤ (s.ctx gr.ck).devq.length + s.onTheWay gr.ck
    (guardG g f.h k = false → ∃ g', exec (.launch f) s = .next (s.issued k g') ∧
      LanesBecome k g g' fun _ t => { t.step with wait := .none }) ∧
    (guardG g f.h k = true → s.padBusy (coreOf k.gk) at' 128 = false →
      let inside : Prop := inScratch tm gr.pkt off 128 = true
      let traps (cls : Nat) : Prop := exec (.launch f) s =
        .next (s.finish k ((lanesOf k.active).map fun l => ⟨l, cls, detailM off 0 7 128 1⟩))
      (off % 128 ≠ 0 → traps 5) ∧ (off % 128 = 0 → ¬inside → traps 6) ∧
      (off % 128 = 0 → inside → s.poisoned .pad at' 128 = true → traps 16) ∧
      (off % 128 = 0 → inside → s.poisoned .pad at' 128 = false → ∃ t g' x, exec (.launch f) s = .next t ∧
        t = { s with cur := none, groups := s.groups.put k.gk g', cores := t.cores, nextId := s.nextId + 1 } ∧
        LanesBecome k { g.hold 1 f.d with launches := g.launches ++ [x] } g'
          (fun _ t => if full then { t with wait := .launch s.nextId } else { t.step with wait := .none }) ∧
        x = { id := s.nextId, pkt := b, d := scalarDest f.d, status := x.status, after := s.issuedBefore k.gk,
              seen := s.knownTo (s.lanesIn k.gk) } ∧
        (full → x.status = none) ∧ (¬full → x.status = some (status g gr b) ∧ t.cores = s.cores)))) ∧
  (∀ (gk : Nat) (s : State) (g : Group) (tm : Team) (gr : Grid), s.groups.get? gk = some g → s.teamOf g = some tm →
    s.gridOf tm = some gr →
    (g.launches = [] → exec (.deviceQueueEnqueue gk) s = .next s) ∧
    ∀ x rest, g.launches = x :: rest →
      let under : Prop := ∃ i ∈ x.after, (s.flights.get? i).isSome = true
      let full : Prop := 256 ≤ (s.ctx gr.ck).devq.length + s.onTheWay gr.ck
      (x.status = none → full → exec (.deviceQueueEnqueue gk) s = .next s) ∧
      (x.status = none → ¬full → ∃ t g', exec (.deviceQueueEnqueue gk) s = .next t ∧ t.groups.get? gk = some g' ∧
        t = { s with groups := t.groups, savedTeams := t.savedTeams } ∧
        g'.launches = { x with status := some (status g gr x.pkt) } :: rest ∧
        ∀ l, g'.lanes.get? l = (g.lanes.get? l).map fun u =>
          if u.wait = .launch x.id then { u with wait := .none, lpc := u.lpc + 1 } else u) ∧
      (∀ st, x.status = some st →
        (under → exec (.deviceQueueEnqueue gk) s = .next s) ∧
        (¬under → ∃ t, exec (.deviceQueueEnqueue gk) s = .next t ∧ t.teams = s.teams ∧
          (st = 0 → (t.ctx gr.ck).devq = (s.ctx gr.ck).devq ++ [s.nextId] ∧ t.grids = s.grids.put s.nextId
            { newGrid ((Packet.parse x.pkt).lowerPri gr.pkt.pri) gr.ck gr.q true (gr.depth + 1) (some g.team) with
              seen := x.seen }) ∧
          (st ≠ 0 → ∀ g', t.grids.get? s.nextId = some g' → g'.stage = .ended) ∧
          (g.hasThread = true → ∃ g', t.groups.get? gk = some g' ∧ g'.launches = rest ∧ g'.lanes = g.lanes ∧
            ∀ i, x.d = some i → i < 384 → g'.scalar i = BitVec.ofNat 32 st ∧ i ∉ g'.spend))))

/-- 03 R80; 04 R87 to R99: from a released grid to its placed teams. A dispatcher claims eight indices of its choice's
team counter at a time, none while it holds a team of the grid that has not started, and drops a grid whose counter is
at its end; it places its choice with a scratch base and the lowest barrier slots on the cores found for it, its grid's
timer starts again from 0, and it goes on in the same clock, until nothing more fits. A co-resident grid is placed with
all of its teams or not at all. A head whose timer has reached the limit bars the later grids until it no longer is one.
Rests on log 34, 58, 62, 63 and 64. -/
def Obligations.TeamsArePlaced : Prop :=
  (∀ (d k : Nat) (s : State) (g : Grid), s.grids.get? k = some g →
    (∀ i cs b, (s.turned d).choice = some (k, .claim i, cs, b) → exec (.teamClaim d k) s = .next { s with
      grids := s.grids.put k { g with
        counter := g.counter + 8
        dropped := if g.pkt.total ≤ g.counter then addTo g.dropped d else g.dropped
        held := g.held ++ (List.range (min (g.counter + 8) g.pkt.total - g.counter)).map fun i => (d, g.counter + i) } }) ∧
    ((∀ i cs b, (s.turned d).choice ≠ some (k, .claim i, cs, b)) → exec (.teamClaim d k) s = .next s) ∧
    (s.unstarted k d = true → ∀ i, s.nextTeam k g d ≠ some (.claim i)) ∧
    (s.placeWhole k g = none → exec (.coresidentPlacement k) s =
      .next { s with grids := s.grids.put k { g with triedAt := s.clock } }) ∧
    (∀ u, s.placeWhole k g = some u → ∃ t, exec (.coresidentPlacement k) s = .next t ∧ t.teams = u.teams ∧
      t.groups = u.groups ∧ t.barSlots = u.barSlots ∧ t.mem = u.mem ∧
      (g.placed = false → ∀ i < g.pkt.total, ∃ tk tm, t.teams.get? tk = some tm ∧ tm.grid = k ∧ tm.idx = i))) ∧
  (∀ (d : Nat) (s : State),
    (s.headAged d = none → exec (.ageingLimitReached d) s = .next { s with ageing := s.ageing.del d }) ∧
    (∀ k, s.headAged d = some k → exec (.ageingLimitReached d) s = .next { s with ageing := s.ageing.put d k }) ∧
    let s1 := s.stopTimers d
    let tr := s1.turned d
    let s2 := s1.startTimers d tr.misses
    (tr.choice = none → exec (.teamPlacement d) s = .next (s2.preemptOthers d tr.misses)) ∧
    ∀ k n cs b g, tr.choice = some (k, n, cs, b) → s2.grids.get? k = some g →
      (∀ i, n = .claim i → exec (.teamPlacement d) s = .next (s2.andThen [.teamClaim d k, .teamPlacement d])) ∧
      let placed (tk : Nat) (good : Team → Prop) : Prop := ∃ t tm g', exec (.teamPlacement d) s = .next t ∧
        t.teams.get? tk = some tm ∧ tm.d = d ∧ tm.b = b ∧ tm.started = false ∧ tm.placedAt = s.clock ∧
        tm.bars = s2.lowBars d g.pkt.bars ∧ (∀ c ∈ tm.cores, c ∈ cs) ∧ good tm ∧ t.mem = s.mem ∧
        t.grids.get? k = some g' ∧ g'.timers.get? d = some 0 ∧
        t.agenda = [.event (.ageingLimitReached d), .event (.teamPlacement d)] ++ s.agenda
      (∀ i, n = .held i → placed s2.nextId fun tm => tm.grid = k ∧ tm.idx = i) ∧
      (∀ tk t0, n = .saved tk t0 → placed tk fun tm => tm.grid = t0.grid ∧ tm.idx = t0.idx ∧ tm.saved = t0.cores))

/-- 03 R80; 04 R90, R92; 18 R418, R419: from a placed team to its grid's end. A team starts, in the order of its
dispatcher's teams of the grid, those it holds unplaced or saved among them, with its threads at counter 0, its scratch
zero and its L1s empty; a co-resident grid's teams start together. A team retires once its threads have exited and
nothing of it is in progress, and its grid once all of its teams have: the grid is gone, or only its record still waits.
Rests on log 34. -/
def Obligations.TeamsStartAndRetire : Prop :=
  (∀ (tk : Nat) (s : State) (tm : Team) (g : Grid), s.teams.get? tk = some tm → s.gridOf tm = some g →
    let waits : Prop := tm.started = true ∨ tm.yielding = true ∨ (s.savedTeams.get? tk).isSome = true ∨
      (∃ e ∈ s.teams, e.1 ≠ tk ∧ e.2.started = false ∧ e.2.grid = tm.grid ∧ e.2.d = tm.d ∧ e.2.idx < tm.idx) ∨
      (g.pkt.cres = false ∧ ∃ e ∈ g.held, e.1 = tm.d ∧ e.2 < tm.idx) ∨
      ∃ e ∈ s.savedTeams, e.1 ≠ tk ∧ e.2.team.grid = tm.grid ∧ e.2.team.d = tm.d ∧ e.2.team.idx < tm.idx
    (waits → exec (.teamStart tk) s = .next s) ∧
    (¬waits → g.pkt.cres = true → ∃ t, exec (.teamStart tk) s = .next t ∧ ∀ e ∈ s.teams, e.2.grid = tm.grid →
      e.2.started = false → s.savedTeams.get? e.1 = none → ∃ tm', t.teams.get? e.1 = some tm' ∧ tm'.started = true) ∧
    (¬waits → g.pkt.cres = false → bitOf (s.ctx g.ck).trcctl 31 = false →
      ∃ t tm', exec (.teamStart tk) s = .next t ∧ t.teams.get? tk = some tm' ∧ tm'.started = true ∧ tm'.startAt = s.clock ∧
        tm'.cores = tm.cores ∧ t.mem = s.mem ∧ (∀ c ∈ tm.cores, (t.core c).l1 = [] ∧
          ∀ a, 512 * tm.b ≤ a → a < 512 * tm.b + 512 * g.pkt.granules → t.scratch.read 0 (2 ^ 19 * c + a) = 0) ∧
        ∀ gk x, s.groups.get? gk = some x → x.team = tk → ∃ x', t.groups.get? gk = some x' ∧ x'.gid = x.gid ∧
          x'.tbase = g.pkt.tbase ∧ x'.scalars 0 2 = g.pkt.param.toNat ∧ x'.scalar 2 = BitVec.ofNat 32 (512 * tm.b) ∧
          x'.scalar 3 = BitVec.ofNat 32 x.j ∧ ∀ l, x'.lanes.get? l =
            if l < 32 ∧ 32 * x.gid.toNat + l < g.pkt.threads then
              some (Thread.sees (g.seen.join s.endedSeen) { tid := 32 * x.gid.toNat + l }) else none) ∧
    (s.teamDone tk tm = false → exec (.teamRetire tk) s = .next s) ∧
    (s.teamDone tk tm = true → ∃ t, exec (.teamRetire tk) s = .next t ∧
      t.teams.get? tk = none ∧ (∀ e ∈ t.groups, e.2.team ≠ tk) ∧ (∀ e ∈ t.residencies, e.2.team ≠ tk) ∧
      ∃ g', t.grids.get? tm.grid = some g' ∧ g'.retired = g.retired + 1)) ∧
  (∀ (k : Nat) (s : State) (g : Grid), s.grids.get? k = some g →
    ((g.stage ≠ .released ∨ g.retired ≠ g.pkt.total) → exec (.gridRetire k) s = .next s) ∧
    (g.stage = .released → g.retired = g.pkt.total → ∃ t, exec (.gridRetire k) s = .next t ∧ t.teams = s.teams ∧
      t.groups = s.groups ∧ (t.grids.get? k = none ∨
        (∃ h ∈ t.heldRecords, h.2.grid = some k) ∧ ∃ g', t.grids.get? k = some g' ∧ g'.stage = .ended)))

/-! ## Traps and special registers (17_interrupts) -/

/-- 17 R395, R397, R402; 18 R427: taking a trap. `trap` and `bkpt` park the guarded lanes of a main stream under a new
trap entry: each lane's detail and resume counter are kept, it goes to `sr.tbase` + 32 × class, and its fresh handler
window holds the detail, the class, the counter, PMASK and the depth, with no result of an earlier handler on its way to
it; its own window, depth and predicates stay. The other lanes advance. With a handler set, no trap entry standing and
no lane in a transaction; wherever they stand, the same lanes trap with the same details. 17 R397, R399, R403: the
return from a trap. `tret` of the handler stream puts its guarded lanes into DMASK, and what they still wait for in
their handler windows ceases to exist; the entry pops once every parked lane has returned or exited: each returned lane
goes on at its resume counter, one later after `tret.skip`, and no trap entry is left; a group without a live thread
leaves its slot. `tret` elsewhere raises class 10 with cause 9, and under a join entry of the handler with cause 10; the
lanes whose guard fails advance. Rests on log 68. -/
def Obligations.TrapsParkAndReturn : Prop :=
  ((∀ (f : Op3) (s : State) (k : Cursor) (g : Group), Issuing s k g →
     LanesTrap (.trap f) f.h s s k g 21 (fun _ _ => BitVec.ofNat 128 (f.imm.toNat % 256)) ∧
       LanesTrap (.bkpt f) f.h s s k g 19 fun _ u =>
         BitVec.ofNat 128 (u.lpc.toNat + 2 ^ 32 + 2 ^ 40 * (f.imm.toNat % 256))) ∧
   ∀ (f : Op3) (s : State) (k : Cursor) (g : Group), Issuing s k g → k.handler = false → g.tbase ≠ 0 → g.trapEntry = none →
     (∀ l t, g.lanes.get? l = some t → t.tx.act = false) →
     let inP (l : Nat) : Prop := l ∈ lanesOf k.active ∧ ∃ t, g.lanes.get? l = some t ∧ t.guard f.h = true
     (∃ l, inP l) →
     let parks (i : Instr) (c : Nat) (det : Thread → Nat) : Prop :=
       ∃ t g' pm, exec i s = .next t ∧ t.cur = none ∧ t.groups.get? k.gk = some g' ∧
         (∀ l < 32, bitOf pm l = true ↔ inP l) ∧ g'.joins = .trap c pm 0 0 :: g.joins ∧
         (∀ l u, inP l → g.lanes.get? l = some u → ∃ w, g'.lanes.get? l = some w ∧
           w.lpc = g.tbase + BitVec.ofNat 32 (32 * c) ∧ g'.rpc.read 0 l = u.lpc ∧
           g'.tdet.read 0 l = BitVec.ofNat 128 (det u) ∧ w.regs true 0 4 = det u ∧
           (w.reg true 4).toNat = c ∧ w.reg true 5 = u.lpc ∧ w.reg true 6 = pm ∧
           w.reg true 7 = BitVec.ofNat 32 (g.joins.length + 1) ∧ (∀ i, 8 ≤ i → i < 32 → w.reg true i = 0) ∧
           (∀ i < 32, w.reg false i = u.reg false i) ∧ w.wb = u.wb ∧ w.cd = u.cd ∧ w.preds = u.preds ∧
           w.exited = u.exited ∧ ∀ e ∈ w.pend, u.inHandlerWindow e = false) ∧
         (∀ l u, l ∈ lanesOf k.active → ¬inP l → g.lanes.get? l = some u → g'.lanes.get? l = some u.step) ∧
         g'.scal = g.scal ∧ (∀ gk', gk' ≠ k.gk → t.groups.get? gk' = s.groups.get? gk')
     parks (.trap f) 21 (fun _ => f.imm.toNat % 256) ∧
       parks (.bkpt f) 19 (fun u => u.lpc.toNat + 2 ^ 32 + 2 ^ 40 * (f.imm.toNat % 256))) ∧
  ((∀ (f : Op3) (s : State) (k : Cursor) (g : Group), Issuing s k g →
     let traps (cause : Nat) : Prop := LanesTrap (.tret f) f.h s s k g 10 fun _ _ =>
       BitVec.ofNat 128 (cause + 2 ^ 32 * g.joins.length)
     (∀ c p d q rest, k.handler = true → g.joins = .trap c p d q :: rest →
       ∃ t g' d', exec (.tret f) s = .next t ∧ t = { s.issued k g' with flights := t.flights, cores := t.cores } ∧
         (∀ l u, InC k g f.h l → g.lanes.get? l = some u → (∃ e ∈ u.pend, u.inHandlerWindow e = true) →
           ∀ id x d n z b rd, t.flights.get? id = some x → x.kind = .load d n z b rd → x.team = g.team → x.tid = u.tid →
             u.inHandlerWindow d = false) ∧
         ((∀ e ∈ rest, ∃ c m t a, e = .join c m t a) →
           g' = { g with joins := .trap c p d' q :: rest, skips := g'.skips, lanes := g'.lanes }) ∧
         g'.joins.head? = some (.trap c p d' q) ∧ g'.joins.length = g.joins.length ∧
         (∀ l < 32, bitOf d' l = true ↔ bitOf d l = true ∨ InC k g f.h l) ∧
         (∀ l < 32, bitOf g'.skips l = true ↔ bitOf g.skips l = true ∨ (InC k g f.h l ∧ bitOf f.imm 0 = true)) ∧
         (∀ l, l ∉ lanesOf k.active → g'.lanes.get? l = g.lanes.get? l) ∧
         ∀ l t, l ∈ lanesOf k.active → g.lanes.get? l = some t →
           g'.lanes.get? l = some (if t.guard f.h then { t with pend := t.pend.filter fun e => !t.inHandlerWindow e }
             else t.goOn)) ∧
     (g.joins.length ≤ 16 → k.handler = false → traps 9) ∧
     (g.joins.length ≤ 16 → k.handler = true → (∃ c m t a r, g.joins = .join c m t a :: r) → traps 10)) ∧
   (∀ (gk : Nat) (s : State) (g : Group), s.groups.get? gk = some g →
     (g.trapEntry = none → exec (.trapEntryPop gk) s = .next s) ∧
     ∀ c p d q, g.trapEntry = some (c, p, d, q) →
       let done := ∀ l ∈ lanesOf p, bitOf d l = true ∨ g.live l = false
       (¬done → exec (.trapEntryPop gk) s = .next s) ∧
       (done → (∃ l t, g.lanes.get? l = some t ∧ t.exited = false) →
         ∃ g', exec (.trapEntryPop gk) s = .next { s with groups := s.groups.put gk g' } ∧
           g' = { g with joins := g'.joins, skips := 0, lanes := g'.lanes } ∧ g'.trapEntry = none ∧
           (∀ pre rest, (∀ e ∈ pre ++ rest, ∃ c m t a, e = .join c m t a) → g.joins = pre ++ .trap c p d q :: rest →
             g'.joins = pre ++ rest) ∧
           ∀ l, (∀ t, g.lanes.get? l = some t → l ∈ lanesOf d → g'.lanes.get? l = some (if bitOf g.skips l then
               { t with lpc := g.rpc.read 0 l + 1, wpSkip := false, bkSkip := false }
               else { t with lpc := g.rpc.read 0 l })) ∧
             (l ∉ lanesOf d → g'.lanes.get? l = g.lanes.get? l)) ∧
       (done → (g.lanes.any fun e => !e.2.exited) = false → g.idle = false → g.launches = [] → s.hasConts gk = false →
         ∃ t, exec (.trapEntryPop gk) s = .next t ∧ t.groups.get? gk = none ∧ t.mem = s.mem ∧ t.scratch = s.scratch)))

/-- 17 R391, R395, R400: where a trap leads. Of the lanes that trap together in the main stream the smallest class is
parked and the others are queued behind it; while a trap entry stands, all are queued and the entry keeps its parked
lanes; with `sr.tbase` 0 it is a context fault, and from the handler stream a double fault. A context fault aborts the
grid: its teams are gone, an error-detail record with status 0x0D and the class and detail of the lowest lane goes to
its ring, and its own record with status 0x0C right behind it. A double fault clears CCTL:EN first, aborts the grid in
the same way and then the others of the context, and ends with an event record of KIND 0x14. Rests on log 11. -/
def Obligations.TrapsLeadWhereTheStreamSays : Prop :=
  (∀ (s : State) (gk : Nat) (g : Group) (ts : List Trap) (tm : Team) (gr : Grid) (x : Trap), s.groups.get? gk = some g →
    s.teams.get? g.team = some tm → s.grids.get? tm.grid = some gr → gr.stage ≠ .ended → s.gridDone tm.grid gr = false →
    x ∈ ts → (ts.map (·.lane)).Nodup → (∀ y ∈ ts, x.lane ≤ y.lane) →
    let err := recordBytes 4 0x0D x.cls gr.recId (s.ctx gr.ck).ctime tm.idx (x.det.toNat % 2 ^ 64)
    let aborted (t : State) : Prop := ∃ u h kids, t =
        (State.gridRecord u h err none kids).endGrid tm.grid 0x0C gr.pkt.corrid.toNat kids ∧
      h.pkt = gr.pkt ∧ h.ck = gr.ck ∧ h.recId = gr.recId ∧ (∀ e ∈ u.teams, e.2.grid ≠ tm.grid) ∧
      ∀ e ∈ u.groups, e.2.team ≠ g.team
    aborted (s.contextFault gk ts) ∧ ((s.contextFault gk ts).ctx gr.ck).en = (s.ctx gr.ck).en ∧
      ∃ u, aborted u ∧ s.doubleFault gk ts =
          (u.disableCtx gr.ck).event gr.ck 0x14 0x0D x.cls gr.recId tm.idx gr.pkt.corrid.toNat ∧
        (u.ctx gr.ck).en = false) ∧
  ∀ (s : State) (gk lead : Nat) (g : Group) (ts : List Trap), s.groups.get? gk = some g → ts ≠ [] →
    (∀ t ∈ ts, t.lane < 32 ∧ t.cls < 23 ∧ ∃ u, g.lanes.get? t.lane = some u ∧ u.tx.act = false) →
    (ts.map (·.lane)).Nodup →
    s.raise gk lead true ts = (s.endRun gk).doubleFault gk ts ∧
      (g.tbase = 0 → s.raise gk lead false ts = (s.endRun gk).contextFault gk ts) ∧
      (g.tbase ≠ 0 → ∀ c p d q, g.trapEntry = some (c, p, d, q) →
        ∃ t g', s.raise gk lead false ts = t ∧ t.groups.get? gk = some g' ∧ g'.joins.length = g.joins.length ∧
          ∃ q', g'.trapEntry = some (c, p, d, q') ∧
            (∀ l < 32, bitOf q' l = true ↔ bitOf q l = true ∨ ∃ x ∈ ts, x.lane = l) ∧ g'.tdet = g.tdet ∧ g'.rpc = g.rpc) ∧
      (g.tbase ≠ 0 → g.trapEntry = none →
        ∃ t g' c p q, s.raise gk lead false ts = t ∧ t.groups.get? gk = some g' ∧ g'.joins = .trap c p 0 q :: g.joins ∧
          (∃ x ∈ ts, x.cls = c) ∧ (∀ x ∈ ts, c ≤ x.cls) ∧
          ∀ l < 32, (bitOf p l = true ↔ ∃ x ∈ ts, x.lane = l ∧ x.cls = c) ∧
            (bitOf q l = true ↔ ∃ x ∈ ts, x.lane = l ∧ x.cls ≠ c))

/-- 05 R116, R117; 17 R404, R405: reading and writing special registers. A window D takes each guarded lane's own value, a
scalar D that of the lowest guarded lane; a per-thread register takes each guarded lane's value, a per-group register the
highest guarded lane's, and a W1C register loses the bits written as 1: `sr.thrstat` those of any lane, with no bit of it set
by the device in the same clock. Where no guard holds the lanes only advance. -/
def Obligations.SpecialRegisters : Prop :=
  ∀ (f : Op3) (s : State) (k : Cursor) (g : Group) (tm : Team) (gr : Grid), Issuing s k g → s.teamOf g = some tm →
    s.gridOf tm = some gr →
    let ck := gr.ck
    let value (idx l : Nat) (t : Thread) (v : Nat) : Prop :=
      (idx = 0x000 → v = t.tid) ∧ (idx = 0x001 → v = l) ∧ (idx = 0x002 → v = g.gid.toNat) ∧
      (idx = 0x003 → v = tm.idx % gr.pkt.gridx) ∧ (idx = 0x004 → v = tm.idx / gr.pkt.gridx % gr.pkt.gridy) ∧
      (idx = 0x005 → v = tm.idx / gr.pkt.gridx / gr.pkt.gridy) ∧ (idx = 0x006 → v = gr.pkt.gridx) ∧
      (idx = 0x007 → v = gr.pkt.gridy) ∧ (idx = 0x008 → v = gr.pkt.gridz) ∧ (idx = 0x009 → v = gr.pkt.teamx) ∧
      (idx = 0x00A → v = gr.pkt.teamy) ∧ (idx = 0x00B → v = gr.pkt.teamz) ∧
      (idx = 0x00C → v = tm.idx % 2 ^ 32) ∧ (idx = 0x00D → v = coreOf k.gk) ∧
      (idx = 0x00E → v = coreOf k.gk / 64) ∧ (idx = 0x00F → v = coreOf k.gk / 128) ∧
      (idx = 0x010 → v = (s.ctx ck).ctime.toNat) ∧ (idx = 0x011 → v = gr.pkt.code.toNat) ∧
      (idx = 0x012 → v = g.tbase.toNat) ∧ (idx = 0x013 → v = g.spillb.toNat) ∧ (idx = 0x014 → v = g.spilll.toNat) ∧
      (idx = 0x015 → v = g.joins.length) ∧ (idx = 0x016 → v = g.rgkey.toNat) ∧ (idx = 0x017 → v = g.rgtmo.toNat) ∧
      (idx = 0x018 → v = s.passesOf k.gk) ∧ (idx = 0x019 → v = (s.ctx ck).thrstat.toNat) ∧
      (idx = 0x01A → v = t.fpstat.toNat) ∧ (idx = 0x01B → v = g.fpen.toNat) ∧ (idx = 0x01C → v = gr.depth) ∧
      (idx = 0x01D → v = ck) ∧ (idx = 0x01E → v = if ck / 16 = 0 then 1 else 0) ∧
      (idx = 0x01F → v = tm.idx / 2 ^ 32 % 2 ^ 32) ∧
      (∀ j < 4, idx = 0x020 + j → v = (g.tdet.read 0 l).toNat / 2 ^ (32 * j) % 2 ^ 32) ∧
      (idx = 0x024 → v = t.lpc.toNat)
    let inC (l : Nat) : Prop := InC k g f.h l
    let w (n l : Nat) : Nat := msrValue g k f n l
    let setsGroup (idx n : Nat) (upd : Nat → Group) : Prop := f.d = .special idx →
      ∀ l, inC l → (∀ j, inC j → j ≤ l) →
      ∃ g', exec (.msr f) s = .next (s.issued k g') ∧ LanesBecome k (upd (w n l)) g' fun _ t => t.goOn
    (∀ i idx, f.d = .win i → f.a = .special idx →
      VectorResult (.mrs f) f.h f.d (specialRegs idx) s k g (fun l t v => value idx l t v)) ∧
    (∀ i idx l t, f.d = .scal i → f.a = .special idx → inC l → (∀ j, inC j → l ≤ j) → g.lanes.get? l = some t →
      ∃ g' v, exec (.mrs f) s = .next (s.issued k g') ∧ value idx l t v ∧
        LanesBecome k (g.write (specialRegs idx) f.d v) g' fun _ t => t.goOn) ∧
    ((∀ l, ¬inC l) → ∀ i ∈ [Instr.mrs f, .msr f], (i = .msr f → f.d ≠ .special 0x019) →
      (i = .mrs f → ∃ j, f.d = .scal j) →
      ∃ g', exec i s = .next (s.issued k g') ∧ LanesBecome k g g' fun _ t => t.goOn) ∧
    setsGroup 0x012 1 (fun v => { g with tbase := BitVec.ofNat 32 v }) ∧
    setsGroup 0x013 2 (fun v => { g with spillb := BitVec.ofNat 64 v }) ∧
    setsGroup 0x014 2 (fun v => { g with spilll := BitVec.ofNat 64 v }) ∧
    setsGroup 0x017 1 (fun v => { g with rgtmo := BitVec.ofNat 32 v }) ∧
    setsGroup 0x01B 1 (fun v => { g with fpen := BitVec.ofNat 32 v &&& 0x3F }) ∧
    (f.d = .special 0x01A → ∃ g', exec (.msr f) s = .next (s.issued k g') ∧ LanesBecome k g g' fun l t =>
      (if t.guard f.h then { t with fpstat := t.fpstat &&& ~~~(BitVec.ofNat 32 (w 1 l)) } else t).goOn) ∧
    (f.d = .special 0x019 → (s.ctx ck).thrNew = 0 →
      ∃ t g', exec (.msr f) s = .next t ∧ t.cur = none ∧ t.groups = s.groups.put k.gk g' ∧
        LanesBecome k g g' (fun _ t => t.goOn) ∧ t.mem = s.mem ∧
        ∀ b < 32, bitOf (t.ctx ck).thrstat b = true ↔ bitOf (s.ctx ck).thrstat b = true ∧
          ¬∃ l, inC l ∧ (w 1 l).testBit b = true)

/-- 17 R406, R407; 10 R249, R250: halting the context, and the shoot-down of `tlbinv` and of SDCTL. With none running it
begins at once: ISC rises by one and no entry of the range is left in any TLB; with one running it waits for it. The
lanes of `tlbinv` wait, and go on when every access counted has been performed: those that an entry removed had
translated, the buffered stores of transactions among them. Rests on log 19. -/
def Obligations.HaltAndShootDown : Prop :=
  (∀ (f : Op3) (s : State) (k : Cursor) (g : Group) (tm : Team) (gr : Grid), Issuing s k g → s.teamOf g = some tm →
    s.gridOf tm = some gr →
    (guardG g f.h k = false → ∀ i ∈ [Instr.halt f, .tlbinv f],
      ∃ g', exec i s = .next (s.issued k g') ∧ LanesBecome k g g' fun _ t => t.goOn) ∧
    (guardG g f.h k = true →
    (∃ g', exec (.halt f) s = .next (((s.modCtx gr.ck fun c => { c with halt := true }).event gr.ck 0x16 0 0 gr.recId
        tm.idx gr.pkt.corrid.toNat).issued k g') ∧ LanesBecome k g g' fun _ t => t.goOn) ∧
      let a := groupVal g .b64 2 f.a
      let b := groupVal g .b32 1 f.b
      let asked (x : Shoot) : Prop := x.key = s.nextId ∧ x.vpg = a / 2 ^ 16 % 2 ^ 41 ∧ x.npg = b / 2 % 512 + 1 ∧
        x.all = decide (b % 2 = 1)
      let waits (g' : Group) : Prop := g' = { g with lanes := g'.lanes } ∧ ∀ l, ∃ sh, g'.lanes.get? l =
          ((g.lanes.get? l).map fun t => (if l ∈ lanesOf k.active then { t with wait := .tlbinv s.nextId } else t)).map
            (fun t => { t with tx := { t.tx with shot := sh } }) ∧
        ∀ t, g.lanes.get? l = some t → t.tx.act = false → sh = t.tx.shot
      ((s.ctx gr.ck).shoots = [] →
        ∃ t g' x, exec (.tlbinv f) s = .next t ∧ t.cur = none ∧ t.groups.get? k.gk = some g' ∧ waits g' ∧ asked x ∧
          (t.ctx gr.ck).isc = (s.ctx gr.ck).isc + 1 ∧ (t.ctx gr.ck).shoots = [x] ∧ x.begun = true ∧
          (∀ c e, e ∈ (t.core c).tlb → x.hits gr.ck e = false) ∧ (∀ d e, e ∈ t.tlb2Of d → x.hits gr.ck e = false) ∧
          t.mem = s.mem ∧ t.flights = s.flights) ∧
      (∀ y r, (s.ctx gr.ck).shoots = y :: r → y.begun = true →
        ∃ t g' x, exec (.tlbinv f) s = .next t ∧ t.cur = none ∧ t.groups.get? k.gk = some g' ∧ waits g' ∧ asked x ∧
          (t.ctx gr.ck).shoots = y :: r ++ [x] ∧ x.begun = false ∧ (t.ctx gr.ck).isc = (s.ctx gr.ck).isc ∧
          t.cores = s.cores ∧ t.tlb2 = s.tlb2))) ∧
  (∀ (ck : Nat) (v : Word) (s : State), (s.ctx ck).shoots = [] →
    (bitOf v 31 = false → exec (.shootDownStart ck v) s =
      .next (s.modCtx ck fun c => { c with sdnpg := v.toNat / 2 % 512, sdall := bitOf v 0 })) ∧
    (bitOf v 31 = true →
      ∃ t x, exec (.shootDownStart ck v) s = .next t ∧ (t.ctx ck).shoots = [x] ∧ x.key = 0 ∧ x.begun = true ∧
        x.all = bitOf v 0 ∧ x.npg = v.toNat / 2 % 512 + 1 ∧ x.vpg = (s.ctx ck).sdaddr ∧
        (t.ctx ck).isc = (s.ctx ck).isc + 1 ∧ (∀ id f e, s.flights.get? id = some f → f.ck = ck → f.space = .gl →
          f.remote = none → (e ∈ (s.core f.core).tlb ∨ e ∈ s.tlb2Of (dieOf f.core)) → x.hits ck e = true →
          f.run = (e.first, e.len) → id ∈ x.waitFor) ∧
        ∀ gk g l u r e, s.groups.get? gk = some g → s.ckOf g = ck → g.lanes.get? l = some u → u.tx.act = true → r ∈ u.tx.runs →
          (e ∈ (s.core (coreOf gk)).tlb ∨ e ∈ s.tlb2Of (dieOf (coreOf gk))) → x.hits ck e = true → r.2 = (e.first, e.len) →
          ∃ g' w, t.groups.get? gk = some g' ∧ g'.lanes.get? l = some w ∧ w.tx.shot = true)) ∧
  (∀ (ck : Nat) (s : State) (x : Shoot), (s.ctx ck).shoots = [x] → x.begun = true →
    let buffered : Prop := ∃ e ∈ s.groups, s.ckOf e.2 = ck ∧ ∃ l ∈ e.2.lanes, l.2.tx.act = true ∧ l.2.tx.shot = true ∧
      l.2.exited = false
    ((∃ id ∈ x.waitFor, (s.flights.get? id).isSome = true) ∨ buffered → exec (.shootDownComplete ck) s = .next s) ∧
    ((∀ id ∈ x.waitFor, s.flights.get? id = none) → ¬buffered → ∃ t, exec (.shootDownComplete ck) s = .next t ∧
      (t.ctx ck).shoots = [] ∧ t.mem = s.mem ∧ ∀ gk g l u, s.groups.get? gk = some g → g.lanes.get? l = some u →
        ∃ g', t.groups.get? gk = some g' ∧
          g'.lanes.get? l = some (if x.key ≠ 0 ∧ u.wait = .tlbinv x.key then u.goOn else u)))

/-- 17 R409; 18 R425 to R427: a save point, the counters, the trace and the watchpoint. `yieldl` stops the group with
its hint where a pre-emption is pending and every live lane executes it, and is a `nop` otherwise. A trace record that
the context does not enable is not written, and one whose address has no translation is counted and lost. Rests on log
12. -/
def Obligations.SavePointsCountersAndTrace : Prop :=
  ∀ (f : Op3) (s : State) (k : Cursor) (g : Group) (tm : Team), Issuing s k g → s.teamOf g = some tm →
    let runs := guardG g f.h k
    let all := ∀ l < 32, g.live l = true → l ∈ lanesOf k.active
    ((tm.pending = none ∨ g.trapEntry ≠ none ∨ ¬all ∨ runs = false) → ∃ g', exec (.yieldl f) s = .next (s.issued k g') ∧
      LanesBecome k g g' fun _ t => t.goOn) ∧
    (tm.pending ≠ none → g.trapEntry = none → all → runs = true → ∃ t g' h, exec (.yieldl f) s = .next t ∧ t.cur = none ∧
      t.groups.get? k.gk = some g' ∧ LanesBecome k { g with stop := some h } g' (fun _ t => t.goOn) ∧
      (h = (s.hintRanges k.gk f.b).map fun rs =>
        { windows := f.imm, tiles := BitVec.ofNat 16 (groupVal g .b32 1 f.a),
          preds := BitVec.ofNat 8 (groupVal g .b32 1 f.a / 2 ^ 16 % 2 ^ 8 / 2 * 2), ranges := rs }) ∧
      (f.b = .zero → ∃ x, h = some x ∧ x.ranges = []) ∧
      (∀ gk', gk' ≠ k.gk → t.groups.get? gk' = s.groups.get? gk') ∧ t.mem = s.mem) ∧
    ScalarResult (.pcnt f) f.h f.d 2 s k g (fun v =>
      let sel := f.imm.toNat % 256
      (sel ≠ 0x11 → v = tm.pc.read 0 (64 * coreOf k.gk + sel)) ∧
      (sel = 0x11 → v = ((List.range 17).map fun c => tm.pc.read 0 (64 * coreOf k.gk + c)).sum)) ∧
    (∃ g', exec (.wpt f) s = .next (s.issued k g') ∧ LanesBecome k g g' fun _ t =>
      if t.guard f.h then
        { t.step with
          wpAddr := BitVec.ofNat 64 (k.val g t .b64 2 f.a),
          wpLen := k.val g t .b32 1 f.b % 2 ^ 16,
          wpKind := BitVec.ofNat 2 (k.val g t .b32 1 f.b / 2 ^ 30) }
      else t.step) ∧
    (bitOf (s.ctx (s.ckOf g)).trcctl 31 = false ∨ bitOf (s.ctx (s.ckOf g)).trcctl 1 = false ∨ runs = false ∨
        ¬(1 ≤ (s.ctx (s.ckOf g)).trcctl.toNat / 256 % 32 ∧ (s.ctx (s.ckOf g)).trcctl.toNat / 256 % 32 ≤ 24) →
      ∃ g', exec (.trc f) s = .next (s.issued k g') ∧ LanesBecome k g g' fun _ t => t.goOn) ∧
    (runs = true →
      let c := s.ctx (s.ckOf g)
      let size := c.trcctl.toNat / 256 % 32
      let n := c.trcn.toNat
      let x := s.xlatNow (s.ckOf g) (c.trcbase.toNat / 32 * 32 + 32 * (n % 2 ^ size)) .write
      bitOf c.trcctl 31 = true → bitOf c.trcctl 1 = true → 1 ≤ size → size ≤ 24 →
      ((x = .poison ∨ ∃ cls cause, x = .fault cls cause) → ∃ t g', exec (.trc f) s = .next t ∧ t.cur = none ∧
        t.groups.get? k.gk = some g' ∧ LanesBecome k g g' (fun _ t => t.goOn) ∧
        (t.ctx (s.ckOf g)).trcn = c.trcn + 1 ∧ t.mem = s.mem) ∧
      ∀ pa leaf, x = .ok pa leaf → ∃ t, exec (.trc f) s = .next t ∧ t.cur = none ∧ (t.ctx (s.ckOf g)).trcn = c.trcn + 1 ∧
        t.load .mem pa 8 = c.ctime.toNat ∧ t.load .mem (pa + 12) 4 = k.pc.toNat ∧
        t.load .mem (pa + 24) 8 = n ∧ t.load .mem (pa + 16) 8 = groupVal g .b32 1 f.a % 2 ^ 64 ∧
        t.load .mem (pa + 8) 1 = f.imm.toNat % 256 ∧
        ∀ a, (a < pa ∨ pa + 32 ≤ a) → t.mem.read 0 a = s.mem.read 0 a)

/-! ## Pre-emption (03_launching R73, R74; 17_interrupts R408 to R415) -/

/-- 03 R74; 17 R408, R412: a slice ends and its function's team is asked to leave. While no slice is due nothing
changes; with no other function to take the device the slice renews; else the next entry holds the device from clock 0,
and a running team of the function that held it has the lowest free range of its save area for a full save, or keeps
running where there is none; one that has not started is to give its place up. The range lies below LIMIT, clear of the
ranges that other saved teams hold, and USED counts it. Rests on log 35. -/
def Obligations.SlicesEndAndTeamsAreAskedToLeave : Prop :=
  ∀ (s : State),
    (s.sliceDue = false → exec .sliceExpiry s = .next s) ∧
    (s.sliceDue = true → s.nextSlice = none →
      exec .sliceExpiry s = .next { s with sliceNow := s.sliceNow.filter fun i => (s.slice i).isSome, sliceClock := 0 }) ∧
    (∀ i, s.sliceDue = true → s.nextSlice = some i →
      (∃ len f, s.slice i = some (f, len) ∧ s.fnClaims f = true) ∧
      (s.sliceFn = none → exec .sliceExpiry s = .next { s with sliceNow := some i, sliceClock := 0 }) ∧
      (∃ t, exec .sliceExpiry s = .next t ∧ t.sliceNow = some i ∧ t.sliceClock = 0) ∧
      (∀ f tk tm gr, s.sliceFn = some f → (∀ len, s.slice i ≠ some (f, len)) → s.teams.sorted = true →
        s.teams.get? tk = some tm → s.gridOf tm = some gr → gr.ck / 16 = f →
        (∀ tk' tm' gr', s.teams.get? tk' = some tm' → s.gridOf tm' = some gr' → gr'.ck / 16 = f → tk' = tk) →
        tm.pending = none →
        (tm.started = false → gr.pkt.cres = false → exec .sliceExpiry s = .next { s with
          sliceNow := some i
          sliceClock := 0
          teams := s.teams.put tk { tm with yielding := true } }) ∧ (tm.started = true →
        let n := s.fullSize tk tm gr.pkt
        let h := (s.ctx gr.ck).saveAt
        ∃ t, exec .sliceExpiry s = .next t ∧ t.sliceNow = some i ∧ t.sliceClock = 0 ∧ t.groups = s.groups ∧
          (∀ off, s.freeSave gr.ck n = some off → t.teams.get? tk = some { tm with pending := some ⟨0, off, n⟩ } ∧
            (t.ctx gr.ck).ranges.get? off = some n ∧
            t.load .mem (h + 8) 8 = (s.load .mem (h + 8) 8 + n) % 2 ^ 64 ∧
            ∀ a, ¬(h + 8 ≤ a ∧ a < h + 16) → ¬(h + 24 ≤ a ∧ a < h + 32) → t.mem.read 0 a = s.mem.read 0 a) ∧
          (s.freeSave gr.ck n = none → t.teams = s.teams ∧ t.mem = s.mem)))) ∧
    (∀ ck n off, s.freeSave ck n = some off → (∀ r ∈ (s.ctx ck).ranges, 64 ≤ r.1) →
      let h := (s.ctx ck).saveAt
      let fits (a : Nat) : Prop := 64 ≤ a ∧ a + n ≤ s.load .mem h 8 ∧ h + a + n < 2 ^ 39 ∧
        ∀ r ∈ (s.ctx ck).ranges, a + n ≤ r.1 ∨ r.1 + r.2 ≤ a
      fits off ∧ ∀ a, fits a → off ≤ a)

/-- 17 R408, R410 to R412: stopping and saving. A group of a team that is asked to leave stops when each of its eligible
lanes waits at a save point, or at a `join` that a standing trap entry holds, its run ending with its last issue, and
every group that has not stopped does once PGRACE clocks have passed. When all have stopped and nothing of the team is
in progress it is saved: its groups, as their hints keep them, are held with the range of the save area, COUNT rises by
one, and the team leaves its cores. One that has not started only gives its place up. 17 R413, R414: the resume of a
saved team that stands placed again. Its record's range is freed, its groups take their new slots with their scalars,
join stacks, windows, predicates and counters as they were saved, and it takes part in arbitration; the teams of a
co-resident grid resume together. Rests on log 36. -/
def Obligations.TeamsAreSavedAndResume : Prop :=
  ((∀ (gk : Nat) (s : State) (g : Group) (tm : Team), s.groups.get? gk = some g → s.teams.get? g.team = some tm →
     let now := tm.pending ≠ none ∧ (∀ r ∈ tm.rdvs, r.moving = false) ∧ g.stop = none ∧
       ∀ l ∈ g.handlerLanes ++ g.mainLanes, (s.thread gk l).wait.savePoint = true ∨ (g.setAside l = false ∧ g.trapEntry ≠ none ∧
         (s.thread gk l).wait = .none ∧ ∃ w, s.fetchWord gk (g.lpcOf l) = .word w ∧ (Raw.ofWord w).key = 0x307)
     (¬now → exec (.groupSave gk) s = .next s) ∧
     (now → ∃ t, exec (.groupSave gk) s = .next t ∧ t.groups.get? gk = some { g with stop := some none } ∧
       (∀ gk', gk' ≠ gk → t.groups.get? gk' = s.groups.get? gk') ∧ t.teams = s.teams ∧
       ∀ r, (t.core (coreOf gk)).run0 = some r ∨ (t.core (coreOf gk)).run1 = some r → r.gk = gk → r.busy ≠ 0 ∧ r.ends = true)) ∧
   (∀ (tk : Nat) (s : State) (tm : Team), s.teams.get? tk = some tm →
     let ended := (∀ r ∈ tm.rdvs, r.moving = false) ∧ ∃ p, tm.pending = some p ∧ s.pgrace.toNat ≤ p.clocks
     (¬ended → exec (.preemptGraceExpiry tk) s = .next s) ∧
     (s.groups.sorted = true → ended → ∃ t, exec (.preemptGraceExpiry tk) s = .next t ∧ t.teams = s.teams ∧
       ∀ gk g, s.groups.get? gk = some g →
       t.groups.get? gk = some (if g.team = tk ∧ g.stop = none then { g with stop := some none } else g))) ∧
   (∀ (tk : Nat) (s : State) (tm : Team) (gr : Grid), s.teams.get? tk = some tm → s.gridOf tm = some gr →
     (tm.yielding = true → tm.started = false → ∃ t, exec (.teamSave tk) s = .next t ∧ t.teams.get? tk = none ∧
       (∀ e ∈ t.groups, e.2.team ≠ tk) ∧ t.savedTeams = s.savedTeams ∧
       (s.savedTeams.get? tk = none → ∃ gr', t.grids.get? tm.grid = some gr' ∧ (tm.d, tm.idx) ∈ gr'.held)) ∧
     (tm.yielding = false ∨ tm.started = true → (tm.pending = none ∨ s.saveReady tk tm = false) →
       exec (.teamSave tk) s = .next s) ∧
     (∀ r, tm.pending = some r → s.saveReady tk tm = true → s.groups.sorted = true →
       (∀ gk g l u, s.groups.get? gk = some g → g.team = tk → g.lanes.get? l = some u → u.tx.act = false) →
       (∀ gk g, s.groups.get? gk = some g → g.team = tk → g.lanes.sorted = true) →
       64 ≤ r.off → bitOf (s.ctx gr.ck).trcctl 31 = false → bitOf (s.ctx gr.ck).thrstat 0 = true →
       let h := (s.ctx gr.ck).saveAt
       ∃ t v, exec (.teamSave tk) s = .next t ∧ t.teams.get? tk = none ∧ (∀ e ∈ t.groups, e.2.team ≠ tk) ∧
         t.savedTeams.get? tk = some v ∧ v.off = r.off ∧ v.size = r.size ∧ v.team.cores = tm.cores ∧
         v.team.pending = none ∧ v.team.started = false ∧
         t.load .mem (h + 16) 4 = (s.load .mem (h + 16) 4 + 1) % 2 ^ 32 ∧
         (∀ gk g, s.groups.get? gk = some g → g.team = tk → (tm.coreIndex (coreOf gk), slotOf gk, g.save) ∈ v.groups ∧
           g.save.scal = g.scal ∧ g.save.joins = g.joins ∧ ∀ l u, g.lanes.get? l = some u →
             u.wb < 96 → ∃ w, g.save.lanes.get? l = some w ∧ w.lpc = u.lpc ∧ w.wait = u.wait ∧ w.cd = u.cd ∧
               (g.stop = some none → w.preds = u.preds ∧ ∀ i < 32, w.reg false i = u.reg false i) ∧
               ∀ hint, g.stop = some (some hint) → w.preds = u.preds &&& hint.preds ∧
                 ∀ i < 32, bitOf hint.windows i = true → w.reg false i = u.reg false i) ∧
         ∀ a, ¬(h + r.off ≤ a ∧ a < h + r.off + r.size) → ¬(h + 16 ≤ a ∧ a < h + 20) → t.mem.read 0 a = s.mem.read 0 a))) ∧
  (∀ (tk : Nat) (s : State) (tm : Team) (gr : Grid), s.teams.get? tk = some tm → s.gridOf tm = some gr →
     ((tm.started = true ∨ tm.yielding = true ∨ s.savedTeams.get? tk = none) → exec (.teamResume tk) s = .next s) ∧
     (tm.started = false → tm.yielding = false → (s.savedTeams.get? tk).isSome = true → gr.pkt.cres = true →
       ∃ t, exec (.teamResume tk) s = .next t ∧ ∀ e ∈ s.teams, e.2.grid = tm.grid → e.2.started = false →
         (s.savedTeams.get? e.1).isSome = true → t.savedTeams.get? e.1 = none ∧
           ∃ tm', t.teams.get? e.1 = some tm' ∧ tm'.started = true) ∧
     (∀ v, tm.started = false → tm.yielding = false → s.savedTeams.get? tk = some v → gr.pkt.cres = false → s.groups.sorted = true →
       tm.cores.Nodup →
       ∃ t tm', exec (.teamResume tk) s = .next t ∧ t.teams.get? tk = some tm' ∧ tm'.started = true ∧ tm'.cores = tm.cores ∧
         t.savedTeams.get? tk = none ∧ (t.ctx gr.ck).ranges.get? v.off = none ∧ (∀ c ∈ tm.cores, (t.core c).l1 = []) ∧
         ∀ (j i old gk : Nat) (x : Group), j < tm.cores.length → (v.groups.filter fun e => e.1 = j)[i]? = some (j, old, x) →
           ((s.teamGroups tk (tm.cores.getD j 0)).map (·.1))[i]? = some gk →
           ∃ x' : Group, t.groups.get? gk = some x' ∧
             x' = { x with stop := none, blockedMain := false, blockedHandler := false, lanes := x'.lanes } ∧
             ∀ l u, x.lanes.get? l = some u → ∃ w, x'.lanes.get? l = some w ∧
               w = { u with wait := w.wait, home := w.home }))

/-! ## Registers of functions and contexts (03_launching, 10_memory, 14_ordering, 22_package) -/

/-- 03 R60, R61, R65: the registers of a queue block. A write of QTAIL sets OVR where the ring overflows, and OVR
cleared while it still does stays set; SIZE is written while EN is 0 and EN is set with a legal SIZE and an aligned base
alone, which makes QHEAD equal to QTAIL and clears QSTAT, a read of a packet that began before it going on; FLT is
cleared by writing it. What becomes of a read that fails after that is the model's choice (log 61). 00 R8; 02 R54; 03
R57, R58, R67, R70, R71: the mailbox and the event ring of a function, and the virtual functions. MBIN of an enabled
function takes its word and raises a mailbox event; a posted reply sends vector 0, the data of its entry to the entry's
address, which is pending while the MSI-X table masks it; ERSTAT's write clears LOST; setting EN of ERCTL makes ERRIDX
equal to ERWIDX; the oldest held record enters the ring once there is room, with its phase and the time at which it is
written, and a `pgreq` whose last record it is completes. The sixteen virtual functions are enabled in one block once
STATE has reached 0x3. The layout of the MSI-X table is the model's (log 49), and so is that EN of ERCTL is stored with
any SIZE (log 50). Rests on log 39, 49, 50 and 61. -/
def Obligations.QueueAndFunctionRegisters : Prop :=
  (∀ (qk : Nat) (v : Word) (s : State),
     let q := s.queue qk
     let size := v.toNat % 32
     let legal := 1 ≤ size ∧ size ≤ 16 ∧ q.base.toNat % min (128 * 2 ^ size) 65536 = 0
     let becomes (i : Instr) (q' : Queue) : Prop := exec i s = .next { s with queues := s.queues.put qk q' }
     becomes (.qtailWrite qk v) { q with tail := v, ovr := q.ovr || decide (2 ^ q.size < (v - q.head).toNat) } ∧
     becomes (.qstatFltClear qk) { q with flt := false } ∧
     becomes (.qstatOvrClear qk) { q with ovr := decide (2 ^ q.size < (q.tail - q.head).toNat) } ∧
     (q.en = true → becomes (.queueEnable qk v) q ∧ becomes (.queueDisable qk v) { q with en := false }) ∧
     (q.en = false → becomes (.queueDisable qk v) { q with size := size } ∧
       (legal → becomes (.queueEnable qk v)
         { q with size := size, en := true, head := q.tail, ovr := false, flt := false, unc := false
                  read := q.read.map fun r => { r with anew := true } }) ∧
       (¬legal → becomes (.queueEnable qk v) { q with size := size }))) ∧
  ((∀ (fn : Nat) (v : Word) (s : State),
     let f := s.fn fn
     let becomes (i : Instr) (f' : Fn) : Prop := exec i s = .next { s with fns := s.fns.put fn f' }
     let sends := f.msixEn = true ∧ f.msixMask = false ∧ bitOf f.vecMask 0 = false
     (f.enabled = true → becomes (.mbinWrite fn v) { f with mbin := v, mbEvent := true }) ∧
     (f.enabled = false → exec (.mbinWrite fn v) s = .next s) ∧
     (sends → exec (.mboutPost fn) s = .next { s with
       fns := s.fns.put fn { f with mbout := true }
       sent := .msix fn 0 (f.vecAddr.read 0 0) (f.vecData.read 0 0) :: s.sent }) ∧
     (¬sends → ∃ t, exec (.mboutPost fn) s = .next t ∧ t = { s with fns := t.fns } ∧
       t.fn fn = { f with mbout := true, vecPend := f.vecPend ||| 1#64 }) ∧
     becomes (.erstatWrite fn) { f with lost := 0 } ∧
     (f.eren = true → becomes (.eventRingEnable fn v) f) ∧
     (f.eren = false → becomes (.eventRingEnable fn v) { f with ersize := v.toNat % 32, eren := true, err := f.erw }) ∧
     (f.held = [] ∨ f.ringOpen fn = false → exec (.eventRingDrain fn) s = .next s) ∧
     (∀ r rest, f.held = r :: rest → f.ringOpen fn = true → r.bytes.length = 32 →
       ∃ (t : State) (f' : Fn), exec (.eventRingDrain fn) s = .next t ∧ t.fn fn = f' ∧
       f' = { f with held := rest, priv := f'.priv, erw := f.erw + 1, erEvent := true, vecPend := f'.vecPend } ∧
       (let at' := f.erbase.toNat / 32 * 32 + 32 * (f.erw.toNat % 2 ^ f.ersize)
        (∀ i < 32, f'.priv.read 0 (at' + i) =
          if i = 2 then r.bytes.getD 2 0 ||| BitVec.ofNat 8 (1 - f.erw.toNat / 2 ^ f.ersize % 2)
          else match r.time with
            | some ck => if 8 ≤ i ∧ i < 16 then BitVec.ofNat 8 ((s.ctx ck).ctime.toNat / 256 ^ (i - 8)) else r.bytes.getD i 0
            | none => r.bytes.getD i 0) ∧
        ∀ a, (a < at' ∨ at' + 32 ≤ a) → f'.priv.read 0 a = f.priv.read 0 a) ∧
       (r.queue = none → f'.vecPend = f.vecPend ∧ t.sent = s.sent) ∧ (r.tag = 0 → t.groups = s.groups) ∧
       (r.tag ≠ 0 → (∀ r' ∈ rest, r'.tag ≠ r.tag) → ∀ gk l, (s.thread gk l).wait = .pgreq r.tag →
         t.thread gk l = (s.thread gk l).goOn))) ∧
   (∀ (s : State),
     (s.bstate < 3 → exec .vfEnable s = .next s) ∧
     (3 ≤ s.bstate → ∃ t, exec .vfEnable s = .next t ∧ t = { s with fns := t.fns } ∧
       ∀ n, t.fn n = if 1 ≤ n ∧ n ≤ 16 then { s.fn n with enabled := true } else s.fn n)))

/-- 03 R72, R78; 10 R231; 14 R348; 18 R431 to R433; 22 R465: the registers of a context. A change of OVCHK drops the
context's records; the link map keeps EN only where LO does not exceed HI; a grant that reaches past 16 MiB is
discarded. Clearing CCTL:EN stops the reading of packets and aborts the host grids of the context with all their
descendants: each is gone or ended, with no team; a grid whose last teams have finished keeps them, and retires. A
halted context issues nothing, and is stopped once nothing of it is in flight. Its dump writes as many bytes as the
records of its teams take into the save area from HWM on, which is at least 64; an event record of KIND 0x15 tells where
it could not. What the bytes of a record are is the device's own, and free. Rests on log 37. -/
def Obligations.ContextRegisters : Prop :=
  (∀ (ck i d : Nat) (v : Word) (w : DWord) (s : State),
    let c := s.ctx ck
    let becomes (i : Instr) (c' : Ctx) : Prop := exec i s = .next { s with ctxs := s.ctxs.put ck c' }
    (c.ovchk = bitOf v 0 → exec (.ovchkWrite ck v) s = .next s) ∧
    (c.ovchk ≠ bitOf v 0 → exec (.ovchkWrite ck v) s = .next { s with
      ctxs := s.ctxs.put ck { c with ovchk := bitOf v 0 }
      overlaps := s.overlaps.filter fun e => e.1 % 512 ≠ ck }) ∧
    (∃ x, becomes (.lmapWrite ck i w) { c with lmap := c.lmap.write 0 i x } ∧
      (∀ b < 63, bitOf x b = (bitOf w b && (decide (b < 22) || decide (39 ≤ b) && decide (b < 56)))) ∧
      bitOf x 63 = (bitOf w 63 && decide (w.toNat / 2 ^ 11 % 2 ^ 11 ≤ w.toNat % 2 ^ 11))) ∧
    (256 < v.toNat % 256 + v.toNat / 256 % 512 → exec (.xsGrantWrite ck d v) s = .next s) ∧
    (v.toNat % 256 + v.toNat / 256 % 512 ≤ 256 →
      becomes (.xsGrantWrite ck d v) { c with grants := c.grants.write 0 d (BitVec.ofNat 32 (v.toNat % 2 ^ 17)) }) ∧
    becomes (.chaltHalt ck) { c with halt := true } ∧ becomes (.chaltRelease ck) { c with halt := false, stopped := false } ∧
    (c.halt = false ∨ s.quiet ck = false → exec (.contextStopped ck) s = .next s) ∧
    (c.halt = true → s.quiet ck = true → becomes (.contextStopped ck) { c with stopped := true })) ∧
  (∀ (ck : Nat) (s : State), s.teams.sorted = true → ∃ t, exec (.contextDisable ck) s = .next t ∧ (t.ctx ck).en = false ∧
    ∀ k g, s.grids.get? k = some g → g.ck = ck → g.depth = 1 → g.stage ≠ .ended →
      (g.stage ≠ .released ∨ g.retired + (s.teams.filter fun e => e.2.grid = k).length ≠ g.pkt.total ∨
        ∃ e ∈ s.teams, e.2.grid = k ∧ (e.2.started = false ∨
          ∃ h ∈ s.groups, h.2.team = e.1 ∧ ∃ l ∈ h.2.lanes, l.2.exited = false)) →
      (∀ g', t.grids.get? k = some g' → g'.stage = .ended) ∧ ∀ e ∈ t.teams, e.2.grid ≠ k) ∧
  (∀ (ck : Nat) (s : State), s.teams.sorted = true → s.grids.sorted = true →
    let ends := (s.abortTree false 11 (s.hostGrids ck)).map (·.1)
    ∃ t, exec (.contextDisable ck) s = .next t ∧ (∀ qk, qk / 64 = ck → (t.queue qk).read = none) ∧
      (∀ k ∈ ends, (∀ g', t.grids.get? k = some g' → g'.stage = .ended) ∧ ∀ e ∈ t.teams, e.2.grid ≠ k) ∧
      ∀ k g, s.grids.get? k = some g → s.gridDone k g = true → (∃ g', t.grids.get? k = some g' ∧ g'.stage = .released) ∧
        ∀ e ∈ s.teams, e.2.grid = k → t.teams.get? e.1 = some e.2) ∧
  (∀ (s : State) (fuel k : Nat) (ks : List Nat) (g : Grid), s.grids.get? k = some g → g.stage ≠ .ended → s.gridDone k g = false →
    (k ∈ ks → k ∈ (s.abortTree false (fuel + 1) ks).map (·.1)) ∧
    ∀ p ∈ (s.abortTree false fuel ks).map (·.1), k ∈ s.childGrids p → k ∈ (s.abortTree false (fuel + 1) ks).map (·.1)) ∧
  (∀ (gk : Nat) (s : State) (g : Group), s.groups.get? gk = some g → (s.ctx (s.ckOf g)).halt = true →
    s.mayIssue gk = false) ∧
  (∀ (ck : Nat) (s : State),
    let h := (s.ctx ck).saveAt
    let hwm := max 64 (s.load .mem (h + 24) 8)
    let n := s.dumpSize ck
    let may := (s.ctx ck).stopped = true ∧ h < 2 ^ 39 - 64 ∧ s.poisoned .mem h 64 = false ∧ hwm + n ≤ s.load .mem h 8 ∧
      h + hwm + n < 2 ^ 39
    (may → ∃ t i, exec (.chaltDump ck) s = .next t ∧ t.fns = s.fns ∧ t.groups = s.groups ∧ t.teams = s.teams ∧
      (t.ctx ck).dump = false ∧ t.bytes .mem (h + hwm) n = freeRecord i n ∧ ∀ a, ¬(h + hwm ≤ a ∧ a < h + hwm + n) → t.mem.read 0 a = s.mem.read 0 a) ∧
    (¬may → exec (.chaltDump ck) s =
      .next ((s.modCtx ck fun c => { c with dump := false }).event ck 0x15 0 0 (recordId ck 0 false) 0 n)))

/-- 03 R56, R60, R69, R72; 22 R468; 23 R475, R483: a write to a register takes effect by its own rule. Each offset of
BAR0, of BAR2, of the function register block and of the dispatcher register block that names a register with an
operation of its own does what that operation does, a dump as the very next turn, until which DUMP reads 1; a function
that is not enabled, an offset past the 128 KiB of BAR0 and a reserved offset discard the write. 03 R56, R57, R60, R69,
R70, R72; 04 R84, R85; 23 R475: what a read of a register gives. FID reads as the number of the function; the registers
of a queue, a context, the event ring and the placement read as they stand, IDENT and RECORD as the device's records; a
reserved offset reads as zero. Reads change nothing: they are a value of the state, and no step. Rests on log 39 and 45.
-/
def Obligations.RegistersAreWrittenAndRead : Prop :=
  (∀ (s : State) (v : DWord),
     let w : Word := v.setWidth 32
     let same (sp : RegSpace) (off : Nat) (i : Instr) : Prop := exec (.registerWrite sp off v) s = exec i s
     let gone (sp : RegSpace) (off : Nat) : Prop := exec (.registerWrite sp off v) s = .next s
     (∀ fn off, (s.fn fn).enabled = false ∨ 0x20000 ≤ off → gone (.bar0 fn) off) ∧
     (∀ fn c q, (s.fn fn).enabled = true → c < 16 → q < 64 →
       let qk := 64 * (16 * fn + c) + q
       let base := 0x10000 + 0x1000 * c + 64 * q
       same (.bar0 fn) (base + 0x0C) (.qtailWrite qk w) ∧ gone (.bar0 fn) (base + 0x10) ∧
       (bitOf w 7 = true → same (.bar0 fn) (base + 0x08) (.queueEnable qk w)) ∧
       (bitOf w 7 = false → same (.bar0 fn) (base + 0x08) (.queueDisable qk w)) ∧
       (v = 1 → same (.bar0 fn) (base + 0x14) (.qstatFltClear qk)) ∧
       (v = 2 → same (.bar0 fn) (base + 0x14) (.qstatOvrClear qk)) ∧ same (.bar0 fn) 0x008 (.mbinWrite fn w)) ∧
     (∀ fn c, c < 16 →
       let ck := 16 * fn + c
       (bitOf v 0 = false → (s.ctx ck).en = true → same (.fnBlock fn) (32 * c + 0x18) (.contextDisable ck)) ∧
       (∀ d < 8, same (.fnBlock fn) (0x400 + 32 * c + 4 * d) (.xsGrantWrite ck d w)) ∧
       (∀ i < 4, same (.fnBlock fn) (0xE00 + 32 * c + 8 * i) (.lmapWrite ck i v)) ∧
       same (.fnBlock fn) (0x800 + 16 * c + 8) (.shootDownStart ck w) ∧ same (.fnBlock fn) (0x900 + 4 * c) (.ovchkWrite ck w) ∧
       (v = 1 → same (.fnBlock fn) (0xC00 + 4 * c) (.chaltHalt ck)) ∧
       (v = 0 → same (.fnBlock fn) (0xC00 + 4 * c) (.chaltRelease ck)) ∧
       (v = 5 → ∃ t, exec (.chaltHalt ck) s = .next t ∧
         exec (.registerWrite (.fnBlock fn) (0xC00 + 4 * c) v) s =
           .next { t.modCtx ck fun c => { c with dump := true } with agenda := .event (.contextDump ck) :: t.agenda }) ∧
       State.perform s (.contextDump ck) = exec (.chaltDump ck) s ∧
       s.readReg (.fnBlock fn) (0xC00 + 4 * c) / 4 % 2 = (if (s.ctx ck).dump then 1 else 0) ∧
       same (.fnBlock fn) 0x210 (.erstatWrite fn) ∧
       (bitOf w 31 = true → same (.fnBlock fn) 0x204 (.eventRingEnable fn w)) ∧
       exec (.registerWrite (.fnBlock fn) (32 * c) v) s = .next { s with
         ctxs := s.ctxs.put ck { s.ctx ck with ptbase := v } }) ∧
     (∀ k < 16, same .dispatcher (0x300 + 16 * k) (.passWrite k w) ∧ same .dispatcher (0x304 + 16 * k) (.swalWrite k w) ∧
       same .dispatcher (0x308 + 16 * k) (.slewWrite k w) ∧ gone .dispatcher (0x30C + 16 * k)) ∧
     (∀ p < 8, same .dispatcher (0x400 + 4 * p) (.dopWrite p w) ∧
       (v = 1 → same .dispatcher (0x80 + 4 * p) (.dieReset p)) ∧ (v = 2 → same .dispatcher (0x80 + 4 * p) (.dieFence p)) ∧
       (v = 4 → same .dispatcher (0x80 + 4 * p) (.dieDrop p)) ∧
       (v = 0 → same .dispatcher (0x80 + 4 * p) (.dieFenceRelease p))) ∧
     exec (.registerWrite .dispatcher 0x40 v) s = .next { s with pgrace := w } ∧
     (v = 1 → same .bar2 0x014 .bctlGo) ∧ (bitOf v 1 = true → same .bar2 0x014 .bctlLrst)) ∧
  (∀ (s : State),
     (∀ fn, s.readReg (.bar0 fn) 0x000 = BitVec.ofNat 64 (fn % 2 ^ 32) ∧ s.readReg (.bar0 fn) 0x004 = 0 ∧
       s.readReg (.bar0 fn) 0x00C = (if (s.fn fn).mbout then 1 else 0) ∧
       (∀ c < 16, s.readReg (.bar0 fn) (0x100 + 8 * c) = (s.fn fn).hwin.read 0 c) ∧
       (∀ off, 0x20000 ≤ off → s.readReg (.bar0 fn) off = 0) ∧
       (∀ c q, c < 16 → q < 64 →
         let b := 0x10000 + 0x1000 * c + 64 * q
         let u := s.queue (64 * (16 * fn + c) + q)
         s.readReg (.bar0 fn) b = u.base ∧ s.readReg (.bar0 fn) (b + 0x0C) = u.tail.setWidth 64 ∧
         s.readReg (.bar0 fn) (b + 0x10) = u.head.setWidth 64 ∧ s.readReg (.bar0 fn) (b + 0x18) = u.fault ∧
         (∀ o, 0x20 ≤ o → o < 0x40 → s.readReg (.bar0 fn) (b + o) = 0))) ∧
     (∀ fn, (∀ c < 16, s.readReg (.fnBlock fn) (32 * c) = (s.ctx (16 * fn + c)).ptbase ∧
         s.readReg (.fnBlock fn) (32 * c + 0x18) = (if (s.ctx (16 * fn + c)).en then 1 else 0) ∧
         (∀ i < 4, s.readReg (.fnBlock fn) (0xE00 + 32 * c + 8 * i) = (s.ctx (16 * fn + c)).lmap.read 0 i)) ∧
       s.readReg (.fnBlock fn) 0x208 = (s.fn fn).erw.setWidth 64 ∧ s.readReg (.fnBlock fn) 0x20C = (s.fn fn).err.setWidth 64 ∧
       s.readReg (.fnBlock fn) 0x214 = 0) ∧
     (∀ d < 8, s.readReg .dispatcher (4 * d) = (s.dage.read 0x186A0 d).setWidth 64) ∧
     (∀ n < 128, s.readReg .dispatcher (0x100 + 4 * n) = (s.octets.read 0x8001FFFF n).setWidth 64) ∧
     s.readReg .dispatcher 0x40 = s.pgrace.setWidth 64 ∧ s.readReg .dispatcher 0x44 = 0 ∧
     s.readReg .bar2 0x008 = s.bimg ∧
     (s.recordNow.length = 352 → ∀ i < 44,
       s.readReg .bar2 (0x040 + 8 * i) = BitVec.ofNat 64 (ofBytes ((s.recordNow.drop (8 * i)).take 8))) ∧
     s.readReg .bar2 0x200 % 2 ^ 32 = (if Config.formIsModule then 2 else 1) ∧
     (s.readReg .bar2 0x200).toNat / 2 ^ 32 % 256 = 0x04 ∧ s.readReg .bar2 0x018 = 0)

/-- 03 R59, R62, R489: what the host reaches through its windows, and Function Level Reset. The enabled bytes of a
request are written, and those of a read are sent, at the address that the context's table gives; where the context is
not enabled, translation fails or the data is poisoned, the request is aborted and memory stays. (Strong accesses of
other agents to the lines, which 14 R347 and R348 order against a request, have none noted here, and leave no byte of it
undefined.) A reset gives the function its registers back and leaves no queue, grid, team, saved team or group of it.
That a Completer Abort stands in bit 15 of the error status is the model's (log 49). Rests on log 38 and 49. -/
def Obligations.HostWindowsAndFunctionReset : Prop :=
  (∀ (fn off n : Nat) (data : List (Option Byte)) (s : State),
    let c := off / 2 ^ 28 % 16
    let ck := 16 * fn + c
    let va := (((s.fn fn).hwin.read 0 c).toNat + off % 2 ^ 28) % 2 ^ 57
    let rd := exec (.hostWindowRead fn off n) s
    let wr := exec (.hostWindowWrite fn off data) s
    let refused (a : Answer) : Prop := ∃ t, a = .next t ∧ t = { s with
      sent := .completerAbort fn :: s.sent, fns := t.fns, l2 := t.l2, freeCount := s.freeCount + 1 } ∧ bitOf (t.fn fn).aer 15 = true
    ((s.fn fn).enabled = false → rd = .next s ∧ wr = .next s) ∧
    ((s.fn fn).enabled = true →
      ((s.ctx ck).en = false → refused rd ∧ refused wr) ∧
      ((∀ pa leaf, s.xlatNow ck va .read ≠ .ok pa leaf) → refused rd) ∧
      ((∀ pa leaf, s.xlatNow ck va .write ≠ .ok pa leaf) → refused wr) ∧
      (∀ pa leaf, (s.ctx ck).en = true → s.xlatNow ck va .read = .ok pa leaf →
        (s.poisoned .mem pa n = true → refused rd) ∧
        (s.poisoned .mem pa n = false → (∀ i < n, s.hazyFor .mem (pa + i) none = false) → ∃ t, rd = .next t ∧ t.sent = .hostData fn (s.bytes .mem pa n) :: s.sent ∧
          t.mem = s.mem ∧ t.groups = s.groups)) ∧
      (∀ pa leaf, (s.ctx ck).en = true → s.xlatNow ck va .write = .ok pa leaf → (s.ctx ck).ovUsed = false →
        (∀ l, pa / 128 ≤ l → l ≤ (pa + data.length) / 128 → s.strongs.get? (4 * l) = none ∧
          ∀ e ∈ s.flights, e.2.strong = true → e.2.loc / 128 ≠ l) →
        (∀ i < data.length, s.hazyFor .mem (pa + i) none = false) → ∃ t, wr = .next t ∧ t.sent = s.sent ∧
        t.groups = s.groups ∧ ∀ a, t.mem.read 0 a =
          if pa ≤ a ∧ a < pa + data.length then (data.getD (a - pa) none).getD (s.mem.read 0 a) else s.mem.read 0 a))) ∧
  (∀ (fn : Nat) (s : State),
    let fresh (t : State) (n : Nat) : Prop :=
      (t.fn n).mbin = 0 ∧ (t.fn n).eren = false ∧ (t.fn n).held = [] ∧ (t.fn n).hwin = [] ∧ (t.fn n).qvec = [] ∧
      (∀ qk, qk / 1024 = n → t.queue qk = {}) ∧ (∀ ck, ck / 16 = n → ∃ c : Ctx, t.ctx ck = c.reset) ∧
      (∀ e ∈ t.grids, e.2.ck / 16 ≠ n) ∧ (∀ e ∈ t.tlb2, ∀ x ∈ e.2, x.ck / 16 ≠ n) ∧
      ∀ k g, s.grids.get? k = some g → g.ck / 16 = n → (∀ e ∈ t.teams, e.2.grid ≠ k) ∧
        (∀ e ∈ t.savedTeams, e.2.team.grid ≠ k) ∧
        ∀ tk tm, s.teams.get? tk = some tm → tm.grid = k → ∀ e ∈ t.groups, e.2.team ≠ tk
    (s.bstate < 3 ∨ 16 < fn → exec (.functionLevelReset fn) s = .next s) ∧
    (3 ≤ s.bstate → fn ≤ 16 → ∃ t, exec (.functionLevelReset fn) s = .next t ∧ fresh t fn ∧
      (fn ≠ 0 → (t.fn fn).enabled = (s.fn fn).enabled ∧ t.dage = s.dage ∧ t.slices = s.slices) ∧
      (fn = 0 → (∀ n, n ≤ 16 → fresh t n) ∧ (∀ n, 1 ≤ n → n ≤ 16 → (t.fn n).enabled = false) ∧
        t.dage = [] ∧ t.octets = [] ∧ t.slices = [] ∧ t.pgrace = 0xAFC8)))

/-! ## Dies and links (01_machine, 22_package) -/

/-- 01 R29, R31, R32; 22 R468, R469; 23 R486: compute dies. A reset, a fence or a drop of a die that runs destroys its
scratchpads and every core's state but the serial counter, the top-down counters and LLCTL, loses the cells of its
ports, and aborts the grids that have teams there, but for one whose last teams have finished; a job goes on unless it
names the die's scratchpads; the other dies keep their stage. A die in reset loses nothing more. A dropped die stays
dropped; a fenced one is released into reset, but not in the clock in which heat fenced it; a self-test ends in running
or fenced. A fatal error fences its die, with an event record of KIND 0x18; one in the base stops every context. Rests
on log 40, 57, 65 and 66. -/
def Obligations.DiesAreLostAndReturn : Prop :=
  ∀ (p : Nat) (s : State),
    let st := (s.die p).stage
    let d := (s.die p).log
    let put (t : State) (x : DieStage) : State := { t with dies := t.dies.put p { t.die p with stage := x } }
    let ports (t : State) : State := { t with links := t.links.dropRange (12 + 16 * p) (28 + 16 * p) }
    let becomes (i : Instr) (x : DieStage) : Prop := exec i s = .next (put s x)
    let empties (i : Instr) (x : DieStage) : Prop := exec i s = .next (put (ports s) x)
    let keeps (i : Instr) : Prop := exec i s = .next s
    let lost (i : Instr) (x : DieStage) : Prop :=
      ∃ t, exec i s = .next t ∧ (t.die p).stage = x ∧ (t.die p).log = d ∧ (∀ p', p' ≠ p → t.die p' = s.die p') ∧
        (s.links.sorted = true → (∀ q < 16, t.link (12 + 16 * p + q) = {}) ∧
          ∀ k, (k < 12 + 16 * p ∨ 28 + 16 * p ≤ k) → t.link k = s.link k) ∧
        (d < 8 → s.teams.sorted = true →
          (∀ c, dieOf c = d → t.core c = (s.core c).lost) ∧
          (∀ a, 2 ^ 26 * d ≤ a → a < 2 ^ 26 * (d + 1) → t.byte .pad a = 0) ∧
          (s.jobs.sorted = true → ∀ k j, s.jobs.get? k = some j → j.recorded = false →
            (dieOf j.core ≠ d → t.jobs.get? k = some j) ∧
            (dieOf j.core = d → j.inside = false →
              t.jobs.get? k = if (Card.of j.card).namesPads then none else some j)) ∧
          ∀ k g, s.grids.get? k = some g → g.stage ≠ .ended →
            (g.stage ≠ .released ∨ g.retired + (s.teams.filter fun e => e.2.grid = k).length ≠ g.pkt.total ∨
              ∃ e ∈ s.teams, e.2.grid = k ∧ (e.2.started = false ∨
                ∃ h ∈ s.groups, h.2.team = e.1 ∧ ∃ l ∈ h.2.lanes, l.2.exited = false)) →
            (∃ e ∈ s.teams, e.2.grid = k ∧ ∃ c ∈ e.2.cores, dieOf c = d) →
            (∀ g', t.grids.get? k = some g' → g'.stage = .ended) ∧ ∀ e ∈ t.teams, e.2.grid ≠ k)
    (st = .dropped → keeps (.dieReset p) ∧ keeps (.dieFence p) ∧ keeps (.dieDrop p) ∧ keeps (.dieFatalError p)) ∧
    (s.heatFenced p = true → keeps (.dieReset p) ∧ keeps (.dieDrop p) ∧ keeps (.dieFenceRelease p)) ∧
    (st = .fenced → (s.heatFenced p = false → becomes (.dieReset p) .inReset ∧ becomes (.dieFenceRelease p) .inReset ∧
      becomes (.dieDrop p) .dropped) ∧ keeps (.dieFence p) ∧ keeps (.dieFatalError p)) ∧
    (st ≠ .fenced → keeps (.dieFenceRelease p)) ∧
    (st = .running → (s.heatFenced p = false → lost (.dieReset p) .inReset ∧ lost (.dieDrop p) .dropped) ∧
      lost (.dieFence p) .fenced ∧ lost (.dieFatalError p) .fenced) ∧
    (st = .inReset → (s.heatFenced p = false → empties (.dieReset p) .inReset ∧ empties (.dieDrop p) .dropped) ∧
      empties (.dieFence p) .fenced ∧
      exec (.dieFatalError p) s = .next ((put (ports s) .fenced).event 0 0x18 0 0 0 p (if d < 8 then d else 0xF))) ∧
    (st ≠ .inReset → ∀ pass, keeps (.dieSelfTestEnd p pass)) ∧
    (st = .inReset → becomes (.dieSelfTestEnd p true) .running ∧ becomes (.dieSelfTestEnd p false) .fenced) ∧
    exec .baseFatalError s = .next { s with baseDead := true } ∧ (s.baseDead = true → ∀ gk, s.mayIssue gk = false)

/-- 22 R459 to R464, R472; 23 R477, R482: cells and lanes. A cell is a header, 48 bytes of payload, an acknowledgement
word and the CRC-32C of the 60 bytes before it; a line travels as 48, 48 and 32 bytes. A cell goes out with the next SEQ
where its channel has a credit, which it takes, and waits where it has none. A cell with a good CRC and the next SEQ is
accepted: its payload is taken, its credits are added, an earlier negative acknowledgement is withdrawn and its buffer
is returned by a cell of credits; any other is discarded with a negative acknowledgement that names the last accepted
cell, and at the sixteenth for one SEQ the lanes retrain, and then the link goes down. A negative acknowledgement sends
again, in order, every cell after the one it names. A link trains on 8, 4 or 2 of the lanes that self-test found to
work, with the advertised credits, and with fewer than two it is down: its cells that were not acknowledged go to
another member of its group. The cells of one line take one link. The limits on unacknowledged cells and cells of
credits are the model's reading (log 41). 22 R465, R466, R471; 14 R352; 23 R477: an access of a peer. Nothing is
answered before STATE has reached 3. It is answered with cause 6 where no enabled entry of the context names the peer,
and with the cause of its fault where translation fails; a read answers the bytes at its home, a write stores its bytes,
poisoned where they came so, and an atomic performs its lanes' operation and answers the old values. A release waits
until the writes that its marker counts have been performed. The form of a request and the count of writes are the
model's choice (log 17). Rests on log 17 and 41. -/
def Obligations.LinksAndPeers : Prop :=
  (let goes (p q : Port) (c : Cell) (nk : Bool) : Prop :=
     ∃ b, q.out = p.out ++ [b] ∧ q.replay = (b :: p.replay).take 256 ∧ q.txSeq = p.txSeq + 1 ∧ cellGood b = true ∧
       (CellHead.of b).seq = p.txSeq + 1 ∧ Cell.of b = c ∧ cellAck b = BitVec.ofNat 32 (ackWord nk p.rxSeq) ∧
       q.accepted = p.accepted ∧ q.rxSeq = p.rxSeq ∧ q.want = p.want ∧
       ∀ v < 4, q.credits.getD v 0 = p.credits.getD v 0 - if v = c.vc ∧ c.type ≠ 8 then 1 else 0
   (∀ (h : CellHead) (data : List Byte) (ack : Nat), h.vc < 4 → h.type < 64 → h.cret < 256 → h.cvc < 4 → h.len ≤ 48 →
     h.dest < 2 ^ 11 → h.tag < 2 ^ 16 → data.length = h.len → ack < 2 ^ 32 →
     let b := cellBytes h data ack
     b.length = 64 ∧ cellGood b = true ∧ CellHead.of b = h ∧ (b.drop 8).take h.len = data ∧
     cellAck b = BitVec.ofNat 32 ack ∧ ofBytes (b.take 8) = h.seq.toNat * 2 ^ 52 + h.vc * 2 ^ 50 +
       (if h.poi then 2 ^ 49 else 0) + h.type * 2 ^ 43 + h.cret * 2 ^ 35 + h.cvc * 2 ^ 33 + h.len * 2 ^ 27 + h.dest * 2 ^ 16 +
       h.tag) ∧
   (∀ l : List Byte, l.length = 128 → (cellParts l).map List.length = [48, 48, 32] ∧ (cellParts l).flatten = l) ∧
   (∀ (p : Port) (c : Cell), p.up = true → p.want = [] → c.vc < 4 → c.type < 64 → c.dest < 2 ^ 11 → c.tag < 2 ^ 16 →
     c.data.length ≤ 48 →
     (p.unacked < 256 → (c.type = 8 ∨ p.credits.getD c.vc 0 ≠ 0) → goes p (p.queue [c]) c false) ∧
     (c.type ≠ 8 → p.credits.getD c.vc 0 = 0 → p.queue [c] = { p with want := [c] })) ∧
   (∀ (port : Nat) (cell : List Byte) (s : State),
     let p := s.link port
     let h := CellHead.of cell
     let good := cell.length = 64 ∧ (crc32c (cell.take 60)).toNat = ofBytes (cell.drop 60) ∧ h.seq = p.rxSeq + 1
     let ex := exec (.cellReceive port cell) s
     let puts (q : Port) : Prop := ex = .next { s with links := s.links.put port q }
     (p.up = false → p.naks < 16 → p.gotNaks < 16 → puts p) ∧
     (p.up = true → good → p.want = [] → p.owed.all (· = 0) = true → p.gotNaks < 16 → bitOf (cellAck cell) 31 = false →
       ∃ q q' : Port, puts q' ∧ q = { p with
           rxSeq := p.rxSeq + 1, nak := none, naks := 0, accepted := Cell.of cell :: p.accepted, credits := q.credits
           owed := q.owed } ∧
         (∀ v < 4, q.credits.getD v 0 = p.credits.getD v 0 + if v = h.cvc then h.cret else 0) ∧
         (h.type = 8 → q' = q) ∧
         (h.type ≠ 8 → goes q q' creditCell false ∧ ∃ b, q'.out = p.out ++ [b] ∧ (CellHead.of b).cret = 1 ∧
           (CellHead.of b).cvc = h.vc ∧ ∀ v < 4, q'.owed.getD v 0 = 0)) ∧
     (p.up = true → ¬good → p.gotNaks < 16 → ∀ n, n = (if p.nakSeq = p.rxSeq + 1 then p.naks + 1 else 1) →
       ∃ q : Port, goes p q creditCell true ∧ q.nak = some p.rxSeq ∧ q.nakSeq = p.rxSeq + 1 ∧ q.naks = n ∧ q.up = true ∧
         (n < 16 → puts q) ∧
         (16 ≤ n → p.strained = false → puts { q with naks := 0, gotNaks := 0, strained := true }) ∧
         (16 ≤ n → p.strained = true → ∃ t, ex = .next t ∧ (t.link port).up = false)) ∧
     (∀ aseq newer c older, p.replay = newer ++ c :: older → (CellHead.of c).seq = aseq →
       (∀ x ∈ newer, (CellHead.of x).seq ≠ aseq) → ∀ n, n = (if p.gotSeq = aseq then p.gotNaks + 1 else 1) → n < 16 →
       p.naks < 16 → exec (.cellNakReceive port aseq) s = .next { s with links := s.links.put port { p with
         out := newer.reverse ++ p.out, acked := aseq, gotNaks := n, gotSeq := aseq } })) ∧
   (∀ (link lanes : Nat) (s : State),
     let p := s.link link
     let falls (k : Nat) (t : State) : Prop :=
       let p := s.link k
       (t.link k).up = false ∧ (t.link k).lanes = 0 ∧ (t.link k).accepted = p.accepted ∧
       (s.groupMember k = none → ∀ j, j ≠ k → t.link j = s.link j) ∧
       ∀ m, s.groupMember k = some m → m ≠ k ∧ (s.link m).up = true ∧
         (k < 12 → m < 12 ∧ Config.linkPeer m = Config.linkPeer k) ∧ (12 ≤ k → 12 ≤ m ∧ (m - 12) / 16 = (k - 12) / 16) ∧
         t.link m = Port.pump { s.link m with
           want := ((p.replay.take p.unacked).reverse.map Cell.of).filter (·.type ≠ 8) ++ p.want ++ (s.link m).want } ∧
         ∀ j, j ≠ k → j ≠ m → t.link j = s.link j
     (2 ≤ lanes → ∃ n, exec (.linkRetrain link lanes) s =
         .next { s with links := s.links.put link { p with lanes := n, naks := 0 } } ∧ n ≤ lanes ∧
       (n = 2 ∨ n = 4 ∨ n = 8) ∧ (4 ≤ lanes → 4 ≤ n) ∧ (8 ≤ lanes → n = 8)) ∧
     (lanes < 2 → ∃ t, exec (.linkRetrain link lanes) s = .next t ∧ t = { s with links := t.links } ∧ falls link t) ∧
     (∀ m, m = min lanes (s.workingLanes link) →
       ((m < 2 ∨ s.bstate < 3 ∨ link < 12 ∧ s.lock.linkmax = 0) → exec (.linkTraining link lanes) s = .next s) ∧
       (2 ≤ m → 3 ≤ s.bstate → ¬(link < 12 ∧ s.lock.linkmax = 0) → ∃ n, exec (.linkTraining link lanes) s =
           .next { s with links := s.links.put link { up := true, lanes := n, credits := [64, 64, 32, 128] } } ∧ n ≤ m ∧
         (n = 2 ∨ n = 4 ∨ n = 8) ∧ (4 ≤ m → 4 ≤ n) ∧ (8 ≤ m → n = 8))) ∧
     (∃ t, exec (.diePortDown link lanes) s = .next t ∧ t = { s with dies := t.dies, links := t.links } ∧
       falls (12 + 16 * link + lanes % 16) t ∧
       (∀ q, q ∈ (t.die link).downPorts ↔ q = lanes ∨ q ∈ (s.die link).downPorts) ∧ ∀ k, k ≠ link → t.die k = s.die k) ∧
     ∀ (peer line : Nat) (cs : List Cell),
       (s.linksTo peer = [] → s.linkSend peer line cs = s) ∧
       (s.linksTo peer ≠ [] → ∃ k ∈ s.linksTo peer, k < 12 ∧ Config.linkPeer k = peer ∧
         s.linkSend peer line cs = { s with links := s.links.put k ((s.link k).queue cs) }))) ∧
  (∀ (peer : Nat) (r : RemoteReq) (s : State),
     let ck := 16 * r.fn + r.ctx
     let ex := exec (.remoteAccessReceive peer r) s
     let count := s.peerDone.read 0 (256 * r.core + peer)
     let named := ∃ i < 4, bitOf ((s.ctx ck).lmap.read 0 i) 63 = true ∧
       ((s.ctx ck).lmap.read 0 i).toNat / 2 ^ 48 % 256 = peer
     let answers (cause : Nat) (data : List Byte) (t : State) : Prop :=
       ex = .next t ∧ t.sent = .remoteReply peer cause data :: s.sent ∧ t.groups = s.groups ∧
       t.peerDone.read 0 (256 * r.core + peer) = count + if r.kind = 0 then 0 else 1
     (s.bstate < 3 → ex = .next s) ∧
     (3 ≤ s.bstate → ∀ m, r.marker = some m → count < m → ex = .next { s with peerHeld := s.peerHeld ++ [(peer, r)] }) ∧
     (3 ≤ s.bstate → s.peerHeld = [] → (∀ m, r.marker = some m → m ≤ count) →
       (¬named → ∃ t, answers 6 [] t ∧ t.mem = s.mem) ∧
       (named → ∀ need, need = (if r.kind = 0 then .read else if r.kind = 1 then .write else .both) →
         (∀ cls cause, s.xlatNow ck r.va.toNat need = .fault cls cause → ∃ t, answers cause [] t ∧ t.mem = s.mem) ∧
         (∀ pa leaf, s.xlatNow ck r.va.toNat need = .ok pa leaf →
           (r.kind = 1 → ∃ t, answers 0 [] t ∧ (∀ a, t.mem.read 0 a =
               if pa ≤ a ∧ a < pa + r.data.length then r.data.getD (a - pa) 0 else s.mem.read 0 a) ∧
             (r.poi = true → r.data ≠ [] → t.poisoned .mem pa r.data.length = true)) ∧
           (r.kind = 0 → s.poisoned .mem pa r.size = false → ∃ t, answers 0 (s.bytes .mem pa r.size) t ∧ t.mem = s.mem) ∧
           (2 ≤ r.kind → s.poisoned .mem pa r.size = false → ∀ x, x = remoteAtomic r (s.load .mem pa r.size) →
             ∃ t, answers 0 (x.1.flatMap fun v => bytesOf v r.size) t ∧
               t.load .mem pa r.size = x.2.1 % 2 ^ (8 * r.size) ∧
               ∀ a, (a < pa ∨ pa + r.size ≤ a) → t.mem.read 0 a = s.mem.read 0 a)))) ∧
     (∀ old v v2, r.ops = [(v, v2)] → r.ecl = .natural → ∀ x, x = remoteAtomic r old → x.1 = [old] ∧
       (r.op = 0 → x.2.1 = (old + v) % 2 ^ (8 * r.size)) ∧ (r.op = 1 → x.2.1 = min old v) ∧ (r.op = 2 → x.2.1 = max old v) ∧
       (r.op = 3 → x.2.1 = Nat.land old v) ∧ (r.op = 4 → x.2.1 = Nat.lor old v) ∧ (r.op = 5 → x.2.1 = Nat.xor old v) ∧
       (r.op = 6 → x.2.1 = v) ∧ (7 ≤ r.op → x.2.1 = if old = v then v2 else old)))

/-! ## Power and heat (06_issue, 23_platform) -/

/-- 06 R148; 23 R483 to R486, R488: throttling. A change of operating point stops the die's cores until its clock has
relocked; the reserved pass code, and a pattern of more than 12 bits, are discarded; a slew step of 0 or above STEPMAX
is stored as STEPMAX where there is one. The effective pass count is the greatest that PASS, the controller and a leak
ask for, and every one of their swallow bits swallows its pulse; a run keeps the pattern that it began with. The
controller adds swallow bits only with a raised pass count. At 105 °C a die is fenced, before any write of that clock;
from its limit on its two clusters are throttled with PSTAT's bit 16, until it is more than 5 °C below. Rests on log 42.
-/
def Obligations.PowerAndHeatThrottle : Prop :=
  (∀ (k p pass : Nat) (v : Word) (bits : BitVec 16) (s : State),
    let c := s.cluster k
    let becomes (i : Instr) (c' : Cluster) : Prop := exec i s = .next { s with clusters := s.clusters.put k c' }
    let die (i : Instr) (d' : Die) : Prop := exec i s = .next { s with dies := s.dies.put p d' }
    let m := s.lock.stepmax
    let n := v.toNat % 256
    ((s.die p).dop = v.toNat % 8 → exec (.dopWrite p v) s = .next s) ∧
    ((s.die p).dop ≠ v.toNat % 8 → die (.dopWrite p v) { s.die p with dop := v.toNat % 8, relock := true }) ∧
    die (.clockRelockComplete p) { s.die p with relock := false } ∧
    (v.toNat % 4 = 3 → exec (.passWrite k v) s = .next s) ∧
    (v.toNat % 4 ≠ 3 → becomes (.passWrite k v) { c with pass := v.toNat % 4 }) ∧
    (12 < ((List.range 16).filter fun i => v.toNat.testBit i).length → exec (.swalWrite k v) s = .next s) ∧
    (((List.range 16).filter fun i => v.toNat.testBit i).length ≤ 12 →
      becomes (.swalWrite k v) { c with swal := BitVec.ofNat 16 v.toNat }) ∧
    (m = 0 ∨ (n ≠ 0 ∧ n ≤ m) → becomes (.slewWrite k v) { c with step := n }) ∧
    (m ≠ 0 → n = 0 ∨ m < n → becomes (.slewWrite k v) { c with step := m }) ∧
    (pass = 1 ∧ bits = 0 ∨ pass = 2 ∨ pass = 4 → becomes (.powerCapControl k pass bits)
      { c with capPass := pass, capBits := bits, current := pass ≠ 1 || bits ≠ 0 }) ∧
    (¬(pass = 1 ∧ bits = 0 ∨ pass = 2 ∨ pass = 4) → exec (.powerCapControl k pass bits) s = .next s) ∧
    exec .leakDetected s = .next { s with leak := true } ∧ exec .leakCleared s = .next { s with leak := false } ∧
    exec .mainEnHigh s = .next { s with mainEn := true }) ∧
  (∀ (k : Nat) (s : State),
    let c := s.cluster k
    2 ^ c.pass ≤ s.passes k ∧ c.capPass ≤ s.passes k ∧ c.hotPass ≤ s.passes k ∧ (s.leak = true → 4 ≤ s.passes k) ∧
    (s.leak = false → s.passes k = 2 ^ c.pass ∨ s.passes k = c.capPass ∨ s.passes k = c.hotPass) ∧
    (∀ i < 16, (bitOf c.swal i = true ∨ bitOf c.capBits i = true ∨ bitOf c.hotBits i = true) → bitOf (s.pattern k) i = true) ∧
    (bitOf (s.pattern k) (s.clock % 16) = true → s.swallowed k = true) ∧
    (∀ p d, s.dies.get? p = some d → d.log = k / 2 → d.relock = true → s.swallowed k = true) ∧
    (bitOf (s.pattern k) (s.clock % 16) = false → (∀ e ∈ s.dies, e.2.log = k / 2 → e.2.relock = false) →
      s.swallowed k = false) ∧
    (∀ core slot, clusterOf core = k → (s.dies.any fun e => e.2.log = dieOf core && e.2.relock) = false →
      ((s.slotRun core slot).bind (·.pat) = none → s.slotSwallowed core slot = bitOf (s.pattern k) (s.clock % 16)) ∧
      ∀ r m, s.slotRun core slot = some r → r.pat = some m → s.slotSwallowed core slot = bitOf m (s.clock % 16)) ∧
    (bitOf (s.pstat k) 16 = true ↔ c.thermal = true ∨ s.leak = true) ∧ (bitOf (s.pstat k) 17 = true ↔ c.current = true) ∧
    ∀ i < 16, bitOf (s.pstat k) i = bitOf (s.pattern k) i) ∧
  (∀ (p temp : Nat) (s : State),
    let d := (s.die p).log
    let limit := min s.lock.tcap 100
    ∃ t, exec (.thermalThreshold p temp) s = .next t ∧ (t.die p).temp = temp ∧
      (105 ≤ temp → t.heatFenced p = true ∧ ((s.die p).stage ≠ .dropped → (t.die p).stage = .fenced)) ∧
      (temp < 105 → (t.die p).stage = (s.die p).stage ∧ t.groups = s.groups ∧
        (limit ≤ temp → d < 8 → ∀ k, k / 2 = d → (t.cluster k).thermal = true ∧ ((s.cluster k).thermal = false →
          ((t.cluster k).hotPass = 2 ∨ (t.cluster k).hotPass = 4) ∧ (t.cluster k).hotBits ≠ 0)) ∧
        (temp + 5 < limit → d < 8 → ∀ k, k / 2 = d →
          (t.cluster k).thermal = false ∧ (t.cluster k).hotPass = 1 ∧ (t.cluster k).hotBits = 0) ∧
        (temp < limit → limit ≤ temp + 5 → t.clusters = s.clusters) ∧
        ∀ k, k / 2 ≠ d → t.cluster k = s.cluster k))

/-! ## Resets and the boot stage (23_platform) -/

/-- 23 R474, R477, R487: the resets. A cold reset, which the rails' regulation starts as well, gives the machine its
reset state but for what was sent, the pins and sensors, and draws BOOTID; each of the three lease resets discards all
work, counts in LCOUNT, keeps NONCE, RECORD, the storage that the scrub will clear and the resets that the same clock
still brings, and starts the boot stage. A dropout of the main input takes what the compute dies held. Rests on log 1
and 43. -/
def Obligations.ResetsDiscardWork : Prop :=
  ∀ (s : State),
    let cold : State := { State.reset with
      bootId := Config.bootId s.freeCount, freeCount := s.freeCount + 1, sent := s.sent, nextId := s.nextId, leak := s.leak,
      mainEn := s.mainEn, mainOk := s.mainOk,
      dies := s.dies.map fun (e : Nat × Die) => (e.1, { temp := e.2.temp }) }
    let lease (i : Instr) : Prop := ∃ t, exec i s = .next t ∧ t.bstate = (if s.bstate = 2 then 2 else 1) ∧
      t.lcount = s.lcount + 1 ∧ t.bootId = s.bootId ∧ t.nonce = s.nonce ∧ t.record = s.record ∧ t.sent = s.sent ∧
      t.pendingLimits = s.pendingLimits ∧ t.groups = [] ∧ t.teams = [] ∧ t.savedTeams = [] ∧ t.grids = [] ∧ t.queues = [] ∧
      t.ctxs = [] ∧ t.jobs = [] ∧ t.flights = [] ∧ t.cores = [] ∧ t.agenda = s.agenda.filter (·.outlives) ∧ t.fns = State.reset.fns ∧ t.mem = s.mem ∧
      t.scratch = s.scratch ∧ t.chip = s.chip
    Turn.outlives (.input .coldReset) = true ∧ (∀ c n, Turn.outlives (.issue c n) = false) ∧
      exec .coldReset s = .next cold ∧ exec .railsInRegulation s = .next { cold with mainOk := true } ∧
      lease .leaseNAssert ∧ lease .bctlLrst ∧ lease .smbusLeaseReset ∧
      ∃ t, exec .mainInputDropout s = .next t ∧ t.mainOk = false ∧ t.groups = [] ∧ t.teams = [] ∧ t.grids = [] ∧
        t.scratch = [] ∧ t.flights = [] ∧ t.mem = s.mem ∧ ∀ p d, t.dies.get? p = some d → d.log = 15

/-- 22 R470; 23 R474 to R482: the boot stage. After self-test the present dies are numbered 0 upward in physical order;
the scrub clears every storage, signs a record of KIND 1 of 352 bytes and locks the pending limits; GO starts the
measurement; an image of a legal length whose header is in order starts the firmware, any other ends in state 0xF with
its error, and a record of KIND 2 is signed either way, with the SHA-512 of the bytes that were read. Self-test narrows
the links whose lanes it finds dead. Over SMBus the limits are written where each is in range, and the record, the
limits and the coolant bytes are read. Rests on log 7 and 43. -/
def Obligations.BootStage : Prop :=
  (∀ (map : UnitMap) (s : State),
    ((s.bstate ≠ 1 ∨ s.mainOk = false) → exec (.bootSelfTestComplete map) s = .next s) ∧
    (s.bstate = 1 → s.mainOk = true → ∃ t, exec (.bootSelfTestComplete map) s = .next t ∧ t.bstate = 2 ∧ t.unitMap = map ∧
      ∀ p < 8, (p ∈ map.absentDies → t.die p = s.die p) ∧
        (p ∉ map.absentDies →
          (t.die p).log = ((List.range p).filter fun q => !map.absentDies.contains q).length ∧
            (t.die p).stage = (s.die p).stage)) ∧
    (s.bstate = 1 → s.mainOk = true → ∀ k n, map.narrowed = [(k, n)] → ∃ t, exec (.bootSelfTestComplete map) s = .next t ∧
      (t.link k).lanes = trainedLanes (min (s.link k).lanes n) ∧ ∀ j, j ≠ k → t.link j = s.link j) ∧
    trainedLanes 8 = 8 ∧ trainedLanes 7 = 4 ∧ trainedLanes 3 = 2 ∧ trainedLanes 1 = 0) ∧
  (∀ (image : Option (List Byte)) (s : State),
    let kind (t : State) (k : Nat) : Prop := t.record.length = 352 ∧ ofBytes (t.record.take 4) = 0x44524356 ∧
      ofBytes ((t.record.drop 4).take 2) = k ∧ ofBytes ((t.record.drop 8).take 8) = s.lcount.toNat ∧
      ofBytes ((t.record.drop 6).take 2) = (if Config.formIsModule then 2 else 1) ∧
      ofBytes ((t.record.drop 16).take 16) = s.bootId.toNat ∧
      (∀ i < 32, (t.record.drop 32).getD i 0 = s.nonce.read 0 i) ∧
      (t.record.drop 64).take 64 = bytesBE (if k = 1 then 0 else t.imgHash.toNat) 64 ∧
      ofBytes ((t.record.drop 192).take 4) = (if k = 1 then 0 else t.berr) ∧
      t.record.drop 208 = signatureOf (t.record.take 208) ++ List.replicate 12 0
    let ends (err : Nat) : Prop := ∃ t, exec (.imageMeasured image) s = .next t ∧ t.berr = err ∧
      t.bstate = (if err = 0 then 5 else 0xF) ∧ kind t 2 ∧ (err ≠ 0 → t.fns = s.fns)
    let good (b : List Byte) : Prop := b.length = s.blen.toNat ∧ 64 ≤ s.blen.toNat ∧ s.blen.toNat ≤ 2 ^ 24
    (s.bstate ≠ 2 → exec .scrubComplete s = .next s) ∧
    (s.bstate = 2 → ∃ t, exec .scrubComplete s = .next t ∧ t.bstate = 3 ∧ t.lock = s.pendingLimits ∧ t.mem = [] ∧
      t.scratch = [] ∧ t.chip = [] ∧ t.acc = [] ∧ t.weights = [] ∧ t.scales = [] ∧ t.memPoison = [] ∧
      t.fns = State.reset.fns ∧ t.queues = [] ∧ t.ctxs = [] ∧ t.links = s.links ∧ kind t 1 ∧
      (s.pendingLimits.stepmax ≠ 0 → ∀ k < 16, (t.cluster k).step = s.pendingLimits.stepmax)) ∧
    (s.bstate = 3 → exec .bctlGo s = .next { s with bstate := 4 }) ∧ (s.bstate ≠ 3 → exec .bctlGo s = .next s) ∧
    (s.bstate ≠ 4 → exec (.imageMeasured image) s = .next s) ∧
    (s.bstate = 4 → (s.blen.toNat < 64 ∨ 2 ^ 24 < s.blen.toNat → ends 2) ∧
      (64 ≤ s.blen.toNat → s.blen.toNat ≤ 2 ^ 24 → image = none → ends 3) ∧
      (∀ b, image = some b → b.length = s.blen.toNat → ∃ t, exec (.imageMeasured image) s = .next t ∧ t.imgHash = sha512 b) ∧
      ∀ b, image = some b → good b → (imageErr b ≠ 0 → ends (imageErr b)) ∧
        (imageErr b = 0 → ends 0 ∧ ∃ t, exec (.imageMeasured image) s = .next t ∧ t.imgHash = sha512 b ∧
          t.rootCode = (b.drop (Image.of b).rootOff).take (Image.of b).rootSz ∧
          ∀ n ≤ 16, (t.fn n).running = true ∧ (t.fn n).entry = (if n = 0 then (Image.of b).rootEnt else (Image.of b).fnEnt)))) ∧
  (∀ (b : List Byte) (s : State),
    let f (i n : Nat) : Nat := ofBytes ((b.drop i).take n)
    let good := b.length = 8 ∧ f 0 2 ≤ 2400 ∧ f 5 1 ≤ 2 ∧ f 6 1 ≤ 100
    (good → exec (.smbusWriteLimits b) s = .next { s with
      pendingLimits := { pcap := f 0 2, icap := f 2 2, stepmax := f 4 1, linkmax := f 5 1, tcap := f 6 1 } }) ∧
    (¬good → exec (.smbusWriteLimits b) s = .next s) ∧
    (s.record ≠ [] → exec .smbusReadRecord s = .next { s with sent := .smbus s.record :: s.sent }) ∧
    exec .smbusReadLimits s = .next { s with sent := .smbus (s.lock.bytes ++ s.pendingLimits.bytes) :: s.sent } ∧
    ∃ t l, exec .smbusReadCoolant s = .next t ∧ t = { s with sent := .smbus l :: s.sent, freeCount := s.freeCount + 1 } ∧
      l.length = 8 ∧ (Config.formIsModule = false → l = List.replicate 8 0) ∧
      (Config.formIsModule = true → bitOf (l.getD 4 0) 0 = s.leak))

/-! ## Issue slots by the clock (06_issue, 12_matrix, 18_retiring) -/

/-- 06 R142, R144, R145, R147; 12 R308; 18 R421: what the clock does on a core. A free issue slot takes the group whose
run just ended on it where that is ready, else the oldest ready group of its core, and its run keeps the pass count and
the swallow pattern in force then; a slot with a run is left. At the end of a window of 1,024 clocks the load cap
halves, doubles or stays by the events counted; the slew limit's window is 64 clocks. Each slot of a core on which
groups stand is charged to at most one leaf a clock: leaf 0x0D where the pulse is swallowed, else 0x00 where it issued,
0x02 where it arbitrated and 0x0C where a pass count above 1 held it; the team of the group is charged with it, though
the group have ended in that clock. Rests on log 1, 42 and 44. -/
def Obligations.SlotsAndWindows : Prop :=
  (∀ (core slot : Nat) (s : State),
    let last := if slot = 0 then (s.core core).last0 else (s.core core).last1
    ((s.slotRun core slot).isSome = true → exec (.slotArbitration core slot) s = .next s) ∧
    (s.slotRun core slot = none → ∃ t, exec (.slotArbitration core slot) s = .next t ∧
      t = { s with cores := t.cores } ∧
      (∀ r, t.slotRun core slot = some r → ∃ gk,
        r = { gk := gk, n := 0, p := s.passes (clusterOf core), pat := some (s.pattern (clusterOf core)) } ∧ s.ready gk = true ∧
        (last = some gk ∨ ((∀ p, last = some p → s.ready p = false) ∧ gk ∈ s.groupsOn core ∧
          ∀ h ∈ s.groupsOn core, s.ready h = true → older (s.ageKey h) (s.ageKey gk) = false))) ∧
      ((∃ h ∈ s.groupsOn core, s.ready h = true) → (t.slotRun core slot).isSome = true) ∧
      ((∀ h, s.ready h = false) → t.slotRun core slot = none))) ∧
  (∀ (core : Nat) (s : State),
    let c := s.core core
    let ctl := c.llctlUsed.toNat
    (∃ c', exec (.llWindowEnd core) s = .next { s with cores := s.cores.put core c' } ∧
      (c.llClock < 1024 → c' = c) ∧
      (1024 ≤ c.llClock →
        c' = { c with cap := c'.cap, llLast := c.llCount, llCount := 0, llClock := 0, llctlUsed := c.llctl } ∧
        (ctl.testBit 31 = false → c'.cap = 32) ∧
        (ctl.testBit 31 = true → (ctl / 2 ^ 10 % 2 ^ 10 < c.llCount → c'.cap = max 2 (c.cap / 2)) ∧
          (c.llCount ≤ ctl / 2 ^ 10 % 2 ^ 10 → c.llCount < ctl % 2 ^ 10 → c'.cap = min 32 (2 * c.cap)) ∧
          (c.llCount ≤ ctl / 2 ^ 10 % 2 ^ 10 → ctl % 2 ^ 10 ≤ c.llCount → c'.cap = c.cap)))) ∧
    ∃ c', exec (.slewWindowEnd core) s = .next { s with cores := s.cores.put core c' } ∧
      (c.slewClock < 64 → c' = c) ∧
      (64 ≤ c.slewClock → c' = { c with slewPrev := c.slewNow, slewNow := 0, slewClock := 0 })) ∧
  (∀ (s : State),
    let one (c n leaf : Nat) : Nat := if (s.classify c n).map (·.1) = some leaf then 1 else 0
    let ofTeam (tk c n leaf : Nat) : Nat :=
      if (s.classify c n).any (fun x => x.1 = leaf && s.chargedTeam c n x.2 = some tk) then 1 else 0
    (∃ t, exec .issueSlotCharge s = .next t ∧ t = { s with cores := t.cores, teams := t.teams } ∧
      (∀ c leaf, (∃ e ∈ s.groups, coreOf e.1 = c) →
        (t.core c).leaves.read 0 leaf = (s.core c).leaves.read 0 leaf + one c 0 leaf + one c 1 leaf ∧
        (t.core c).did0 = 0 ∧ (t.core c).did1 = 0) ∧
      ∀ tk a, s.teams.get? tk = some a → ∃ b, t.teams.get? tk = some b ∧ ∀ c leaf, leaf < 64 →
        (∃ e ∈ s.groups, coreOf e.1 = c) →
        b.pc.read 0 (64 * c + leaf) = a.pc.read 0 (64 * c + leaf) + ofTeam tk c 0 leaf + ofTeam tk c 1 leaf) ∧
    ∀ c, (∀ n, s.slotSwallowed c n = true → (s.classify c n).map (·.1) = some 0x0D) ∧
      ∀ g, ∀ e ∈ [(1, 0), (2, 2), (3, 0x0C)],
        (s.slotSwallowed c 0 = false → (s.core c).did0 = e.1 → (s.core c).didg0 = some g →
          s.classify c 0 = some (e.2, some g)) ∧
        (s.slotSwallowed c 1 = false → (s.core c).did1 = e.1 → (s.core c).didg1 = some g →
          s.classify c 1 = some (e.2, some g)))

/-! ## Encoding (05_encoding) -/

/-- 05 R104 to R121, R118: decode and encode agree. The word that encodes a well-formed instruction, of every family and with
every operand at each value that the encoding admits, decodes to it, in a context of its privilege and a team with its tiles.
-/
def Obligations.DecodeOfEncode : Prop :=
  ∀ (tiles : Nat) (priv : Bool) (i : Instr) (w : InsnWord), tiles ≤ 16 → i.wellFormed tiles priv = true →
    encode i = some w → decodeWord tiles priv w = .ok i

/-- 05 R118: every word that decodes is the encoding of the well-formed instruction that it decodes to, so that no two words
stand for one instruction and no bit of a word goes unread; one that fails a check is rejected with class 0 up to step 2 and
class 1 after it. -/
def Obligations.EncodeOfDecode : Prop :=
  ∀ (tiles : Nat) (priv : Bool) (w : InsnWord), tiles ≤ 16 →
    (∀ i, decodeWord tiles priv w = .ok i → i.wellFormed tiles priv = true ∧ encode i = some w) ∧
    ∀ e, decodeWord tiles priv w = .error e → e.cls = if e.step ≤ 2 then 0 else 1

/-- 05, 07, 09, 11 to 13, 15 to 18, 20: words that the spec works out, bit by bit, decode to the instructions that they stand
for. -/
def Obligations.WorkedEncodingsDecode : Prop :=
  let h : Head := ⟨false, 0, false⟩
  let z := Operand.zero
  decodeTableWord 96 0x4092200400221100000E0000 = some (.vadd ⟨⟨false, 2, false⟩, .f32, .rn, 0, .none, .win 4, .win 2, .scal 17, z⟩) ∧
  decodeTableWord 96 0x481200030010020002000300 = some (.vfma ⟨h, .f32, .rz, 0, .none, .win 3, .win 1, .win 2, .win 3⟩) ∧
  decodeTableWord 96 0x03C70214214C000000000800 = some (.subs ⟨h, .n32, .rn, 0, .none, .scal 20, .scal 20, .imm 8, z⟩) ∧
  decodeTableWord 96 0x60029006008E00000040002B =
    some (.ldVector ⟨⟨true, 1, false⟩, .gl, .s32, .plain, .none, .natural, 0x40, .win 6, .win 8, z, 2, some 3⟩) ∧
  decodeTableWord 96 0x60826E002060080000006800 =
    some (.stVector ⟨⟨false, 6, false⟩, .gl, .s32, .rel, .core, .natural, 0, z, .scal 6, .win 8, 0, none⟩) ∧
  decodeTableWord 96 0x6402000D00600A0000007400 =
    some (.atomAdd ⟨h, .gl, .s32, .rel, .device, .natural, 0, .win 13, .win 6, .win 10, 0, none⟩) ∧
  decodeTableWord 96 0x801408026012280000000080 =
    some (.mma ⟨⟨false, 0, true⟩, .e4m3, .none, .rn, 0, 0, .acc 2, .tmap 1, .scal 40⟩) ∧
  decodeTableWord 96 0x825200088022050000180000 =
    some (.mrow ⟨h, .f32, .none, .rn, 3, 0, .win 8, .acc 2, .scal 5⟩) ∧
  decodeTableWord 96 0x8840023222A23C0008004000 =
    some (.rloadGlobal ⟨h, .none, .none, false, false, true, false, 0, 0, 1, .scal 50, .scal 42, .scal 60⟩) ∧
  decodeTableWord 96 0xC3800205E00E000000000C80 = some (.loop ⟨⟨false, 0, true⟩, .scal 5, z, z, 12, 0⟩) ∧
  decodeTableWord 96 0x91400E00C002070040000200 = some (.barc ⟨h, z, .imm 0x00400002, .scal 7, 0, 0⟩) ∧
  decodeTableWord 96 0xD8800E0020C21400000F3C80 = some (.yieldl ⟨⟨false, 0, true⟩, z, .scal 12, .scal 20, 0xF3C, 0⟩) ∧
  decodeTableWord 96 0xCC000E00002E00000003F000 = some (.regroup ⟨h, z, .win 2, z, 0x3F0, 0⟩) ∧
  decodeTableWord 96 0 = none

/-! ## The step -/

/-- 05 R100 to R102, R118 to R120; 06 R133, R138: a step runs the decoded instruction. At the turn of an issue slot
whose group issues from the counter m, where the instruction cache holds the twelve bytes at CODE + 12 m and they decode
to i, and nothing of breakpoints, poison or transactions comes first, the step is exec of i for the lanes at m, and then
the end of the issue, which counts it towards the run; the slot is occupied for the clocks of R146. Bytes that do not
decode raise their class in every lane. A turn without a run changes nothing, a turn of another agent runs its own step,
and an empty agenda ends the clock or, where it has ended, lets the next one pass. Rests on log 1, 9 and 44. -/
def Obligations.StepRunsTheDecodedInstruction : Prop :=
  (∀ (s : State) (c n : Nat) (r : List Turn) (run : Run) (hd : Bool) (m : Word) (ls : List Nat) (w : InsnWord),
    s.agenda = .issue c n :: r →
    let s0 : State := { s with agenda := r }
    let g := s0.group run.gk
    let priv := decide (s0.ckOf g / 16 = 0)
    let tiles := ((s0.pktOf g).map (·.tiles)).getD 0
    s0.slotRun c n = some run → run.busy = 0 → s0.mayIssue run.gk = true → s0.choose run.gk = (hd, .ready m ls w) → ls ≠ [] →
    (∀ l ∈ ls, l < 32 ∧ ∃ t, g.lanes.get? l = some t ∧ t.wait = .none ∧ t.tx.act = false ∧ t.late = none ∧ t.poison = []) →
    g.spoison = [] → (∀ i < 4, bitOf ((s0.ctx (s0.ckOf g)).bkpt.read 0 i) 63 = false) →
    (∀ i, decodeWord tiles priv w = .ok i →
      ∃ k s1, k = { gk := run.gk, full := maskOf ls, active := maskOf ls, handler := hd, word := w, pc := m, traps := [] } ∧
        s1 = { s0.occupy c n run w with cur := some k } ∧
        s1.slotRun c n = some { run with busy := (Raw.ofWord w).clocks run.p - 1, added := !(Raw.ofWord w).wide64 } ∧
        (∀ c', c' ≠ c → s1.core c' = s0.core c') ∧ s1 = { s0 with cur := some k, cores := s1.cores } ∧
        (∀ t, exec i s1 = .next t → step s = .next (t.issueEnd c n k)) ∧
        (∀ f, exec i s1 = .fault f → step s = .fault f) ∧ ∀ f, exec i s1 = .refused f → step s = .refused f) ∧
    (∀ e, decodeWord tiles priv w = .error e → ∃ (k : Cursor) (t : State),
      t = (s0.occupy c n run w).finish k (ls.map fun l => ⟨l, e.cls, detailWord w e.step e.field⟩) ∧
        step s = .next (if (t.ctx (s0.ckOf g)).halt then t.cutRun c n run.gk else t.issueEnd c n { k with active := 0 }) ∧
        k = { gk := run.gk, full := maskOf ls, active := maskOf ls, handler := hd, word := w, pc := m, traps := [] })) ∧
  (∀ (s : State) (gk : Nat) (m : Word) (x : ICacheLine),
    let a := s.insnAddr gk m
    a % 64 ≤ 52 → s.iline (coreOf gk / 2) (s.ckOf (s.group gk)) (a / 64 * 64) = some x → x.cls = 0 → x.bytes.length = 64 →
    s.fetchWord gk m = .word (wordOfBytes ((x.bytes.drop (a % 64)).take 12))) ∧
  (∀ (s : State) (c n : Nat) (r : List Turn), s.agenda = .issue c n :: r ∨ s.agenda = .probe c n :: r → s.slotRun c n = none →
    step s = .next { s with agenda := r }) ∧
  (∀ (s : State) (i : Instr) (r : List Turn), s.agenda = .input i :: r → step s = exec i { s with agenda := r }) ∧
  (∀ (s : State) (e : Event) (r : List Turn), s.agenda = .event e :: r → step s = { s with agenda := r }.perform e) ∧
  (∀ (s : State), s.agenda = [] → s.closing = false → ∃ (t : State) (r : List Turn), step s = .next t ∧
    t = { s with closing := true, agenda := .event .issueSlotCharge :: r }) ∧
  (∀ (s : State), s.agenda = [] → s.closing = true → ∃ t, step s = .next t ∧ t.clock = s.clock + 1 ∧ t.closing = false ∧
    t.scratch = s.scratch ∧ ∀ ck x, s.ctxs.get? ck = some x →
      (t.ctx ck).ctime = if x.halt = true ∨ s.baseDead = true then x.ctime else x.ctime + 1) ∧
  (∀ (s : State) (c n : Nat) (k : Cursor) (run : Run), s.cur = none → coreOf k.gk = c → s.slotRun c n = some run →
    run.gk = k.gk →
    ((Raw.ofWord k.word).e = 1 ∨ 24 ≤ run.n + 1 → (s.issueEnd c n k).slotRun c n =
      if run.busy = 0 then none else some { run with ends := true }) ∧
    ((Raw.ofWord k.word).e = 0 → run.n + 1 < 24 → (s.group k.gk).mainLanes ≠ [] →
      (s.issueEnd c n k).slotRun c n = some { run with n := run.n + 1 }))

/-- 23 R474; 03 R57, R60, R69, R72: the machine right after reset, in the values that the spec gives: the boot stage is
in step 0x1, function 0 alone is enabled, queues and contexts are disabled with zero registers, the dispatcher's
registers hold their reset values, no work stands, the pending limits are 2400 W, 250 A, 0, 2 and 95 °C, and the two
invariants below hold. Rests on log 2 and 3. -/
def Obligations.ResetState : Prop :=
  let s := State.reset
  s.bstate = 1 ∧ s.berr = 0 ∧ s.bimg = 0 ∧ s.blen = 0 ∧ (∀ n, (s.fn n).enabled = decide (n = 0)) ∧ (∀ qk, s.queue qk = {}) ∧
    (∀ ck, s.ctx ck = {}) ∧ s.pgrace = 0x0000AFC8 ∧ (∀ d, s.dage.read 0x000186A0 d = 0x000186A0) ∧
    (∀ i, s.slices.read 0 i = 0) ∧ (∀ n, s.octets.read 0x8001FFFF n = 0x8001FFFF) ∧ s.grids = [] ∧ s.teams = [] ∧
    s.groups = [] ∧ s.flights = [] ∧ s.jobs = [] ∧ s.residencies = [] ∧ s.barSlots = [] ∧
    (∀ c, (s.core c).serial = 1 ∧ (s.core c).cap = 32 ∧ (s.core c).llctl = 0x80010010) ∧
    s.pendingLimits = { pcap := 2400, icap := 250, stepmax := 0, linkmax := 2, tcap := 95 } ∧ s.memoriesWf ∧ s.tablesKept

/-- The memories keep their canonical form: from every state in which global memory, the scratchpads and the chip
scratchpad list strictly rising addresses and no byte equal to what an unlisted address reads as, every step that
answers a next state leads to such a state. Rests on log 2. -/
def Obligations.MemoriesStayCanonical : Prop :=
  ∀ s t : State, s.memoriesWf → step s = .next t → t.memoriesWf

/-- 01 R21; 04 R86; 07 R155: every unit stands once in the model's tables, and a window base stays one of four. From every
state in which groups, teams, grids, accesses in flight and their bytes, jobs, held records, residencies, links, the notes
of ordering and the lanes of groups, saved ones too, are listed in order with each key once, and every thread's window base is 0, 24, 48 or 72, every step that answers a next state leads to such a state. These
are the premises on lists and window bases that other statements have. -/
def Obligations.TablesStayInOrder : Prop :=
  ∀ s t : State, s.tablesKept → step s = .next t → t.tablesKept
end

