-- ==== Sys2Proof/Laws/Elements.lean ====
section
/-! SUPPORT. Elements of a packed value: joining and reading them back. -/

namespace Sys2Proof.Machine

theorem joinElems_lt (w : Nat) (l : List Nat) : joinElems w l < 2 ^ (w * l.length) := by
  induction l with
  | nil => simp [joinElems]
  | cons x t ih =>
    have h1 : x % 2 ^ w < 2 ^ w := Nat.mod_lt _ (by positivity)
    have h2 : 2 ^ (w * (t.length + 1)) = 2 ^ w * 2 ^ (w * t.length) := by rw [Nat.mul_succ, pow_add, Nat.mul_comm]
    simp only [joinElems, List.length_cons, h2]
    have h3 := Nat.mul_le_mul_left (2 ^ w) (Nat.succ_le_of_lt ih)
    rw [Nat.mul_succ] at h3
    omega

/-- An element of joined elements, at its width. -/
theorem elem_joinElems (w : Nat) (l : List Nat) (i : Nat) (hi : i < l.length) :
    elem w i (joinElems w l) = l[i] % 2 ^ w := by
  induction l generalizing i with
  | nil => cases hi
  | cons x t ih =>
    have hx : x % 2 ^ w < 2 ^ w := Nat.mod_lt _ (by positivity)
    cases i with
    | zero => simp [elem, joinElems]
    | succ i =>
      have : elem w (i + 1) (joinElems w (x :: t)) = elem w i (joinElems w t) := by
        show (x % 2 ^ w + 2 ^ w * joinElems w t) / 2 ^ (w * (i + 1)) % 2 ^ w = _
        unfold elem
        rw [Nat.mul_succ, Nat.add_comm (w * i) w, pow_add, ← Nat.div_div_eq_div_mul, Nat.add_mul_div_left _ _ (by positivity),
          Nat.div_eq_of_lt hx, Nat.zero_add]
      rw [this, ih i (by simpa using hi)]
      rfl

theorem truncI_lt (w : Nat) (i : Int) : truncI w i < 2 ^ w := by
  unfold truncI
  have : (0 : Int) < ((2 ^ w : Nat) : Int) := by positivity
  have h1 := Int.emod_nonneg i (ne_of_gt this)
  have h2 := Int.emod_lt_of_pos i this
  omega

@[simp] theorem truncI_mod (w : Nat) (i : Int) : truncI w i % 2 ^ w = truncI w i := Nat.mod_eq_of_lt (truncI_lt w i)

/-- Each element of an integer result. -/
theorem elem_intMap (t : Ty) (op : Int → Int → Int → Int) (x : Src) (i : Nat) (hi : i < t.elems) :
    elem t.slot i (intMap t op x).1 =
      truncI t.slot (op (intVal t (elem t.slot i x.a)) (intVal t (elem t.slot i x.b)) (intVal t (elem t.slot i x.c))) := by
  unfold intMap
  rw [elem_joinElems _ _ _ (by simpa using hi)]
  simp

/-- Each element of a result on bits. -/
theorem elem_bitMap (t : Ty) (op : Nat → Nat → Nat → Nat) (x : Src) (i : Nat) (hi : i < t.elems) :
    elem t.slot i (bitMap t op x).1 = op t.slot (elem t.slot i x.a) (elem t.slot i x.b) % 2 ^ t.slot := by
  unfold bitMap
  rw [elem_joinElems _ _ _ (by simpa using hi)]
  simp

@[simp] theorem intMap_flags (t : Ty) (op : Int → Int → Int → Int) (x : Src) : (intMap t op x).2 = 0 := rfl
@[simp] theorem bitMap_flags (t : Ty) (op : Nat → Nat → Nat → Nat) (x : Src) : (bitMap t op x).2 = 0 := rfl

end Sys2Proof.Machine
end

