-- ==== Sys2Proof/Laws/Exec.lean ====
section
/-! SUPPORT. Dispatch: each constructor runs its own meaning. -/

namespace Sys2Proof.Machine

@[simp] theorem exec_mov (f : Arith) (z : State) : exec (.mov f) z = execMov f z := rfl
@[simp] theorem exec_vmov (f : Arith) (z : State) : exec (.vmov f) z = execVmov f z := rfl
@[simp] theorem exec_add (f : Arith) (z : State) : exec (.add f) z = execAdd f z := rfl
@[simp] theorem exec_vadd (f : Arith) (z : State) : exec (.vadd f) z = execVadd f z := rfl
@[simp] theorem exec_sub (f : Arith) (z : State) : exec (.sub f) z = execSub f z := rfl
@[simp] theorem exec_vsub (f : Arith) (z : State) : exec (.vsub f) z = execVsub f z := rfl
@[simp] theorem exec_mul (f : Arith) (z : State) : exec (.mul f) z = execMul f z := rfl
@[simp] theorem exec_vmul (f : Arith) (z : State) : exec (.vmul f) z = execVmul f z := rfl
@[simp] theorem exec_mulhi (f : Arith) (z : State) : exec (.mulhi f) z = execMulhi f z := rfl
@[simp] theorem exec_vmulhi (f : Arith) (z : State) : exec (.vmulhi f) z = execVmulhi f z := rfl
@[simp] theorem exec_mad (f : Arith) (z : State) : exec (.mad f) z = execMad f z := rfl
@[simp] theorem exec_vmad (f : Arith) (z : State) : exec (.vmad f) z = execVmad f z := rfl
@[simp] theorem exec_madhi (f : Arith) (z : State) : exec (.madhi f) z = execMadhi f z := rfl
@[simp] theorem exec_vmadhi (f : Arith) (z : State) : exec (.vmadhi f) z = execVmadhi f z := rfl
@[simp] theorem exec_div (f : Arith) (z : State) : exec (.div f) z = execDiv f z := rfl
@[simp] theorem exec_vdiv (f : Arith) (z : State) : exec (.vdiv f) z = execVdiv f z := rfl
@[simp] theorem exec_rem (f : Arith) (z : State) : exec (.rem f) z = execRem f z := rfl
@[simp] theorem exec_vrem (f : Arith) (z : State) : exec (.vrem f) z = execVrem f z := rfl
@[simp] theorem exec_min (f : Arith) (z : State) : exec (.min f) z = execMin f z := rfl
@[simp] theorem exec_vmin (f : Arith) (z : State) : exec (.vmin f) z = execVmin f z := rfl
@[simp] theorem exec_max (f : Arith) (z : State) : exec (.max f) z = execMax f z := rfl
@[simp] theorem exec_vmax (f : Arith) (z : State) : exec (.vmax f) z = execVmax f z := rfl
@[simp] theorem exec_abs (f : Arith) (z : State) : exec (.abs f) z = execAbs f z := rfl
@[simp] theorem exec_vabs (f : Arith) (z : State) : exec (.vabs f) z = execVabs f z := rfl
@[simp] theorem exec_neg (f : Arith) (z : State) : exec (.neg f) z = execNeg f z := rfl
@[simp] theorem exec_vneg (f : Arith) (z : State) : exec (.vneg f) z = execVneg f z := rfl
@[simp] theorem exec_adds (f : Arith) (z : State) : exec (.adds f) z = execAdds f z := rfl
@[simp] theorem exec_vadds (f : Arith) (z : State) : exec (.vadds f) z = execVadds f z := rfl
@[simp] theorem exec_subs (f : Arith) (z : State) : exec (.subs f) z = execSubs f z := rfl
@[simp] theorem exec_vsubs (f : Arith) (z : State) : exec (.vsubs f) z = execVsubs f z := rfl
@[simp] theorem exec_and (f : Arith) (z : State) : exec (.and f) z = execAnd f z := rfl
@[simp] theorem exec_vand (f : Arith) (z : State) : exec (.vand f) z = execVand f z := rfl
@[simp] theorem exec_or (f : Arith) (z : State) : exec (.or f) z = execOr f z := rfl
@[simp] theorem exec_vor (f : Arith) (z : State) : exec (.vor f) z = execVor f z := rfl
@[simp] theorem exec_xor (f : Arith) (z : State) : exec (.xor f) z = execXor f z := rfl
@[simp] theorem exec_vxor (f : Arith) (z : State) : exec (.vxor f) z = execVxor f z := rfl
@[simp] theorem exec_not (f : Arith) (z : State) : exec (.not f) z = execNot f z := rfl
@[simp] theorem exec_vnot (f : Arith) (z : State) : exec (.vnot f) z = execVnot f z := rfl
@[simp] theorem exec_shl (f : Arith) (z : State) : exec (.shl f) z = execShl f z := rfl
@[simp] theorem exec_vshl (f : Arith) (z : State) : exec (.vshl f) z = execVshl f z := rfl
@[simp] theorem exec_shr (f : Arith) (z : State) : exec (.shr f) z = execShr f z := rfl
@[simp] theorem exec_vshr (f : Arith) (z : State) : exec (.vshr f) z = execVshr f z := rfl
@[simp] theorem exec_sar (f : Arith) (z : State) : exec (.sar f) z = execSar f z := rfl
@[simp] theorem exec_vsar (f : Arith) (z : State) : exec (.vsar f) z = execVsar f z := rfl
@[simp] theorem exec_rot (f : Arith) (z : State) : exec (.rot f) z = execRot f z := rfl
@[simp] theorem exec_vrot (f : Arith) (z : State) : exec (.vrot f) z = execVrot f z := rfl
@[simp] theorem exec_bfx (f : Arith) (z : State) : exec (.bfx f) z = execBfx f z := rfl
@[simp] theorem exec_vbfx (f : Arith) (z : State) : exec (.vbfx f) z = execVbfx f z := rfl
@[simp] theorem exec_bfi (f : Arith) (z : State) : exec (.bfi f) z = execBfi f z := rfl
@[simp] theorem exec_vbfi (f : Arith) (z : State) : exec (.vbfi f) z = execVbfi f z := rfl
@[simp] theorem exec_popc (f : Arith) (z : State) : exec (.popc f) z = execPopc f z := rfl
@[simp] theorem exec_vpopc (f : Arith) (z : State) : exec (.vpopc f) z = execVpopc f z := rfl
@[simp] theorem exec_clz (f : Arith) (z : State) : exec (.clz f) z = execClz f z := rfl
@[simp] theorem exec_vclz (f : Arith) (z : State) : exec (.vclz f) z = execVclz f z := rfl
@[simp] theorem exec_ctz (f : Arith) (z : State) : exec (.ctz f) z = execCtz f z := rfl
@[simp] theorem exec_vctz (f : Arith) (z : State) : exec (.vctz f) z = execVctz f z := rfl
@[simp] theorem exec_brev (f : Arith) (z : State) : exec (.brev f) z = execBrev f z := rfl
@[simp] theorem exec_vbrev (f : Arith) (z : State) : exec (.vbrev f) z = execVbrev f z := rfl
@[simp] theorem exec_bswp (f : Arith) (z : State) : exec (.bswp f) z = execBswp f z := rfl
@[simp] theorem exec_vbswp (f : Arith) (z : State) : exec (.vbswp f) z = execVbswp f z := rfl
@[simp] theorem exec_lea (f : Arith) (z : State) : exec (.lea f) z = execLea f z := rfl
@[simp] theorem exec_vlea (f : Arith) (z : State) : exec (.vlea f) z = execVlea f z := rfl
@[simp] theorem exec_fma (f : Arith) (z : State) : exec (.fma f) z = execFma f z := rfl
@[simp] theorem exec_vfma (f : Arith) (z : State) : exec (.vfma f) z = execVfma f z := rfl
@[simp] theorem exec_rcp (f : Arith) (z : State) : exec (.rcp f) z = execRcp f z := rfl
@[simp] theorem exec_vrcp (f : Arith) (z : State) : exec (.vrcp f) z = execVrcp f z := rfl
@[simp] theorem exec_rsq (f : Arith) (z : State) : exec (.rsq f) z = execRsq f z := rfl
@[simp] theorem exec_vrsq (f : Arith) (z : State) : exec (.vrsq f) z = execVrsq f z := rfl
@[simp] theorem exec_sqrt (f : Arith) (z : State) : exec (.sqrt f) z = execSqrt f z := rfl
@[simp] theorem exec_vsqrt (f : Arith) (z : State) : exec (.vsqrt f) z = execVsqrt f z := rfl
@[simp] theorem exec_exp2 (f : Arith) (z : State) : exec (.exp2 f) z = execExp2 f z := rfl
@[simp] theorem exec_vexp2 (f : Arith) (z : State) : exec (.vexp2 f) z = execVexp2 f z := rfl
@[simp] theorem exec_log2 (f : Arith) (z : State) : exec (.log2 f) z = execLog2 f z := rfl
@[simp] theorem exec_vlog2 (f : Arith) (z : State) : exec (.vlog2 f) z = execVlog2 f z := rfl
@[simp] theorem exec_sin (f : Arith) (z : State) : exec (.sin f) z = execSin f z := rfl
@[simp] theorem exec_vsin (f : Arith) (z : State) : exec (.vsin f) z = execVsin f z := rfl
@[simp] theorem exec_cos (f : Arith) (z : State) : exec (.cos f) z = execCos f z := rfl
@[simp] theorem exec_vcos (f : Arith) (z : State) : exec (.vcos f) z = execVcos f z := rfl
@[simp] theorem exec_tanh (f : Arith) (z : State) : exec (.tanh f) z = execTanh f z := rfl
@[simp] theorem exec_vtanh (f : Arith) (z : State) : exec (.vtanh f) z = execVtanh f z := rfl
@[simp] theorem exec_frnd (f : Arith) (z : State) : exec (.frnd f) z = execFrnd f z := rfl
@[simp] theorem exec_vfrnd (f : Arith) (z : State) : exec (.vfrnd f) z = execVfrnd f z := rfl
@[simp] theorem exec_fcls (f : Arith) (z : State) : exec (.fcls f) z = execFcls f z := rfl
@[simp] theorem exec_vfcls (f : Arith) (z : State) : exec (.vfcls f) z = execVfcls f z := rfl
@[simp] theorem exec_csgn (f : Arith) (z : State) : exec (.csgn f) z = execCsgn f z := rfl
@[simp] theorem exec_vcsgn (f : Arith) (z : State) : exec (.vcsgn f) z = execVcsgn f z := rfl
@[simp] theorem exec_scl (f : Arith) (z : State) : exec (.scl f) z = execScl f z := rfl
@[simp] theorem exec_vscl (f : Arith) (z : State) : exec (.vscl f) z = execVscl f z := rfl
@[simp] theorem exec_dp2 (f : Arith) (z : State) : exec (.dp2 f) z = execDp2 f z := rfl
@[simp] theorem exec_vdp2 (f : Arith) (z : State) : exec (.vdp2 f) z = execVdp2 f z := rfl
@[simp] theorem exec_cmpEq (f : Arith) (z : State) : exec (.cmpEq f) z = execCmpEq f z := rfl
@[simp] theorem exec_vcmpEq (f : Arith) (z : State) : exec (.vcmpEq f) z = execVcmpEq f z := rfl
@[simp] theorem exec_cmpNe (f : Arith) (z : State) : exec (.cmpNe f) z = execCmpNe f z := rfl
@[simp] theorem exec_vcmpNe (f : Arith) (z : State) : exec (.vcmpNe f) z = execVcmpNe f z := rfl
@[simp] theorem exec_cmpLt (f : Arith) (z : State) : exec (.cmpLt f) z = execCmpLt f z := rfl
@[simp] theorem exec_vcmpLt (f : Arith) (z : State) : exec (.vcmpLt f) z = execVcmpLt f z := rfl
@[simp] theorem exec_cmpLe (f : Arith) (z : State) : exec (.cmpLe f) z = execCmpLe f z := rfl
@[simp] theorem exec_vcmpLe (f : Arith) (z : State) : exec (.vcmpLe f) z = execVcmpLe f z := rfl
@[simp] theorem exec_cmpGt (f : Arith) (z : State) : exec (.cmpGt f) z = execCmpGt f z := rfl
@[simp] theorem exec_vcmpGt (f : Arith) (z : State) : exec (.vcmpGt f) z = execVcmpGt f z := rfl
@[simp] theorem exec_cmpGe (f : Arith) (z : State) : exec (.cmpGe f) z = execCmpGe f z := rfl
@[simp] theorem exec_vcmpGe (f : Arith) (z : State) : exec (.vcmpGe f) z = execVcmpGe f z := rfl
@[simp] theorem exec_cmpNum (f : Arith) (z : State) : exec (.cmpNum f) z = execCmpNum f z := rfl
@[simp] theorem exec_vcmpNum (f : Arith) (z : State) : exec (.vcmpNum f) z = execVcmpNum f z := rfl
@[simp] theorem exec_cmpNan (f : Arith) (z : State) : exec (.cmpNan f) z = execCmpNan f z := rfl
@[simp] theorem exec_vcmpNan (f : Arith) (z : State) : exec (.vcmpNan f) z = execVcmpNan f z := rfl
@[simp] theorem exec_sel (f : Arith) (z : State) : exec (.sel f) z = execSel f z := rfl
@[simp] theorem exec_vsel (f : Arith) (z : State) : exec (.vsel f) z = execVsel f z := rfl
@[simp] theorem exec_cvt (f : Arith) (z : State) : exec (.cvt f) z = execCvt f z := rfl
@[simp] theorem exec_vcvt (f : Arith) (z : State) : exec (.vcvt f) z = execVcvt f z := rfl
@[simp] theorem exec_pack (f : Arith) (z : State) : exec (.pack f) z = execPack f z := rfl
@[simp] theorem exec_vpack (f : Arith) (z : State) : exec (.vpack f) z = execVpack f z := rfl
@[simp] theorem exec_unpk (f : Arith) (z : State) : exec (.unpk f) z = execUnpk f z := rfl
@[simp] theorem exec_vunpk (f : Arith) (z : State) : exec (.vunpk f) z = execVunpk f z := rfl
@[simp] theorem exec_pand (f : Arith) (z : State) : exec (.pand f) z = execPand f z := rfl
@[simp] theorem exec_por (f : Arith) (z : State) : exec (.por f) z = execPor f z := rfl
@[simp] theorem exec_pxor (f : Arith) (z : State) : exec (.pxor f) z = execPxor f z := rfl
@[simp] theorem exec_pnot (f : Arith) (z : State) : exec (.pnot f) z = execPnot f z := rfl
@[simp] theorem exec_vtos (f : Arith) (z : State) : exec (.vtos f) z = execVtos f z := rfl
@[simp] theorem exec_stov (f : Arith) (z : State) : exec (.stov f) z = execStov f z := rfl
@[simp] theorem exec_vshfl (f : Arith) (z : State) : exec (.vshfl f) z = execVshfl f z := rfl
@[simp] theorem exec_vbfly (f : Arith) (z : State) : exec (.vbfly f) z = execVbfly f z := rfl
@[simp] theorem exec_vbcast (f : Arith) (z : State) : exec (.vbcast f) z = execVbcast f z := rfl
@[simp] theorem exec_vballot (f : Arith) (z : State) : exec (.vballot f) z = execVballot f z := rfl
@[simp] theorem exec_vmatch (f : Arith) (z : State) : exec (.vmatch f) z = execVmatch f z := rfl
@[simp] theorem exec_vredAdd (f : Arith) (z : State) : exec (.vredAdd f) z = execVredAdd f z := rfl
@[simp] theorem exec_vredMin (f : Arith) (z : State) : exec (.vredMin f) z = execVredMin f z := rfl
@[simp] theorem exec_vredMax (f : Arith) (z : State) : exec (.vredMax f) z = execVredMax f z := rfl
@[simp] theorem exec_vredAnd (f : Arith) (z : State) : exec (.vredAnd f) z = execVredAnd f z := rfl
@[simp] theorem exec_vredOr (f : Arith) (z : State) : exec (.vredOr f) z = execVredOr f z := rfl
@[simp] theorem exec_vredXor (f : Arith) (z : State) : exec (.vredXor f) z = execVredXor f z := rfl
@[simp] theorem exec_vscanAdd (f : Arith) (z : State) : exec (.vscanAdd f) z = execVscanAdd f z := rfl
@[simp] theorem exec_vscanMin (f : Arith) (z : State) : exec (.vscanMin f) z = execVscanMin f z := rfl
@[simp] theorem exec_vscanMax (f : Arith) (z : State) : exec (.vscanMax f) z = execVscanMax f z := rfl
@[simp] theorem exec_ldScalar (f : MemF) (z : State) : exec (.ldScalar f) z = execLdScalar f z := rfl
@[simp] theorem exec_ldVector (f : MemF) (z : State) : exec (.ldVector f) z = execLdVector f z := rfl
@[simp] theorem exec_ldNr (f : MemF) (z : State) : exec (.ldNr f) z = execLdNr f z := rfl
@[simp] theorem exec_stScalar (f : MemF) (z : State) : exec (.stScalar f) z = execStScalar f z := rfl
@[simp] theorem exec_stVector (f : MemF) (z : State) : exec (.stVector f) z = execStVector f z := rfl
@[simp] theorem exec_pfScalar (f : MemF) (z : State) : exec (.pfScalar f) z = execPfScalar f z := rfl
@[simp] theorem exec_pfVector (f : MemF) (z : State) : exec (.pfVector f) z = execPfVector f z := rfl
@[simp] theorem exec_pgreqScalar (f : MemF) (z : State) : exec (.pgreqScalar f) z = execPgreqScalar f z := rfl
@[simp] theorem exec_pgreqVector (f : MemF) (z : State) : exec (.pgreqVector f) z = execPgreqVector f z := rfl
@[simp] theorem exec_cinv (f : MemF) (z : State) : exec (.cinv f) z = execCinv f z := rfl
@[simp] theorem exec_cdem (f : MemF) (z : State) : exec (.cdem f) z = execCdem f z := rfl
@[simp] theorem exec_atomAdd (f : MemF) (z : State) : exec (.atomAdd f) z = execAtomAdd f z := rfl
@[simp] theorem exec_atomMin (f : MemF) (z : State) : exec (.atomMin f) z = execAtomMin f z := rfl
@[simp] theorem exec_atomMax (f : MemF) (z : State) : exec (.atomMax f) z = execAtomMax f z := rfl
@[simp] theorem exec_atomAnd (f : MemF) (z : State) : exec (.atomAnd f) z = execAtomAnd f z := rfl
@[simp] theorem exec_atomOr (f : MemF) (z : State) : exec (.atomOr f) z = execAtomOr f z := rfl
@[simp] theorem exec_atomXor (f : MemF) (z : State) : exec (.atomXor f) z = execAtomXor f z := rfl
@[simp] theorem exec_atomExch (f : MemF) (z : State) : exec (.atomExch f) z = execAtomExch f z := rfl
@[simp] theorem exec_atomCas (f : MemF) (z : State) : exec (.atomCas f) z = execAtomCas f z := rfl
@[simp] theorem exec_aredAdd (f : MemF) (z : State) : exec (.aredAdd f) z = execAredAdd f z := rfl
@[simp] theorem exec_aredMin (f : MemF) (z : State) : exec (.aredMin f) z = execAredMin f z := rfl
@[simp] theorem exec_aredMax (f : MemF) (z : State) : exec (.aredMax f) z = execAredMax f z := rfl
@[simp] theorem exec_aredAnd (f : MemF) (z : State) : exec (.aredAnd f) z = execAredAnd f z := rfl
@[simp] theorem exec_aredOr (f : MemF) (z : State) : exec (.aredOr f) z = execAredOr f z := rfl
@[simp] theorem exec_aredXor (f : MemF) (z : State) : exec (.aredXor f) z = execAredXor f z := rfl
@[simp] theorem exec_xbegin (f : Op3) (z : State) : exec (.xbegin f) z = execXbegin f z := rfl
@[simp] theorem exec_xend (f : Op3) (z : State) : exec (.xend f) z = execXend f z := rfl
@[simp] theorem exec_xabort (f : Op3) (z : State) : exec (.xabort f) z = execXabort f z := rfl
@[simp] theorem exec_xstat (f : Op3) (z : State) : exec (.xstat f) z = execXstat f z := rfl
@[simp] theorem exec_mma (f : MatF) (z : State) : exec (.mma f) z = execMma f z := rfl
@[simp] theorem exec_mmaN2 (f : MatF) (z : State) : exec (.mmaN2 f) z = execMmaN2 f z := rfl
@[simp] theorem exec_mmaK2 (f : MatF) (z : State) : exec (.mmaK2 f) z = execMmaK2 f z := rfl
@[simp] theorem exec_mmt (f : MatF) (z : State) : exec (.mmt f) z = execMmt f z := rfl
@[simp] theorem exec_mmtN2 (f : MatF) (z : State) : exec (.mmtN2 f) z = execMmtN2 f z := rfl
@[simp] theorem exec_mmtK2 (f : MatF) (z : State) : exec (.mmtK2 f) z = execMmtK2 f z := rfl
@[simp] theorem exec_mzero (f : MatF) (z : State) : exec (.mzero f) z = execMzero f z := rfl
@[simp] theorem exec_mld (f : MatF) (z : State) : exec (.mld f) z = execMld f z := rfl
@[simp] theorem exec_mst (f : MatF) (z : State) : exec (.mst f) z = execMst f z := rfl
@[simp] theorem exec_mrow (f : MatF) (z : State) : exec (.mrow f) z = execMrow f z := rfl
@[simp] theorem exec_mwait (f : MatF) (z : State) : exec (.mwait f) z = execMwait f z := rfl
@[simp] theorem exec_tmset (f : MatF) (z : State) : exec (.tmset f) z = execTmset f z := rfl
@[simp] theorem exec_tmget (f : MatF) (z : State) : exec (.tmget f) z = execTmget f z := rfl
@[simp] theorem exec_ralloc (f : ResF) (z : State) : exec (.ralloc f) z = execRalloc f z := rfl
@[simp] theorem exec_rloadMap (f : ResF) (z : State) : exec (.rloadMap f) z = execRloadMap f z := rfl
@[simp] theorem exec_rloadGlobal (f : ResF) (z : State) : exec (.rloadGlobal f) z = execRloadGlobal f z := rfl
@[simp] theorem exec_rpin (f : ResF) (z : State) : exec (.rpin f) z = execRpin f z := rfl
@[simp] theorem exec_runpin (f : ResF) (z : State) : exec (.runpin f) z = execRunpin f z := rfl
@[simp] theorem exec_rrev (f : ResF) (z : State) : exec (.rrev f) z = execRrev f z := rfl
@[simp] theorem exec_rstat (f : ResF) (z : State) : exec (.rstat f) z = execRstat f z := rfl
@[simp] theorem exec_rquota (f : ResF) (z : State) : exec (.rquota f) z = execRquota f z := rfl
@[simp] theorem exec_cpy (f : Op3) (z : State) : exec (.cpy f) z = execCpy f z := rfl
@[simp] theorem exec_sleepu (f : Op3) (z : State) : exec (.sleepu f) z = execSleepu f z := rfl
@[simp] theorem exec_sleepuChk (f : Op3) (z : State) : exec (.sleepuChk f) z = execSleepuChk f z := rfl
@[simp] theorem exec_barx (f : Op3) (z : State) : exec (.barx f) z = execBarx f z := rfl
@[simp] theorem exec_bar (f : Op3) (z : State) : exec (.bar f) z = execBar f z := rfl
@[simp] theorem exec_barc (f : Op3) (z : State) : exec (.barc f) z = execBarc f z := rfl
@[simp] theorem exec_bart (f : Op3) (z : State) : exec (.bart f) z = execBart f z := rfl
@[simp] theorem exec_barg (f : Op3) (z : State) : exec (.barg f) z = execBarg f z := rfl
@[simp] theorem exec_nop (f : Op3) (z : State) : exec (.nop f) z = execNop f z := rfl
@[simp] theorem exec_bra (f : Op3) (z : State) : exec (.bra f) z = execBra f z := rfl
@[simp] theorem exec_brx (f : Op3) (z : State) : exec (.brx f) z = execBrx f z := rfl
@[simp] theorem exec_call (f : Op3) (z : State) : exec (.call f) z = execCall f z := rfl
@[simp] theorem exec_callx (f : Op3) (z : State) : exec (.callx f) z = execCallx f z := rfl
@[simp] theorem exec_ret (f : Op3) (z : State) : exec (.ret f) z = execRet f z := rfl
@[simp] theorem exec_jopen (f : Op3) (z : State) : exec (.jopen f) z = execJopen f z := rfl
@[simp] theorem exec_join (f : Op3) (z : State) : exec (.join f) z = execJoin f z := rfl
@[simp] theorem exec_eject (f : Op3) (z : State) : exec (.eject f) z = execEject f z := rfl
@[simp] theorem exec_rejoin (f : Op3) (z : State) : exec (.rejoin f) z = execRejoin f z := rfl
@[simp] theorem exec_enrol (f : Op3) (z : State) : exec (.enrol f) z = execEnrol f z := rfl
@[simp] theorem exec_bwaitm (f : Op3) (z : State) : exec (.bwaitm f) z = execBwaitm f z := rfl
@[simp] theorem exec_bsz (f : Op3) (z : State) : exec (.bsz f) z = execBsz f z := rfl
@[simp] theorem exec_bsnz (f : Op3) (z : State) : exec (.bsnz f) z = execBsnz f z := rfl
@[simp] theorem exec_loop (f : Op3) (z : State) : exec (.loop f) z = execLoop f z := rfl
@[simp] theorem exec_exit (f : Op3) (z : State) : exec (.exit f) z = execExit f z := rfl
@[simp] theorem exec_launch (f : Op3) (z : State) : exec (.launch f) z = execLaunch f z := rfl
@[simp] theorem exec_fence (f : Op3) (z : State) : exec (.fence f) z = execFence f z := rfl
@[simp] theorem exec_regroup (f : Op3) (z : State) : exec (.regroup f) z = execRegroup f z := rfl
@[simp] theorem exec_regroupHome (f : Op3) (z : State) : exec (.regroupHome f) z = execRegroupHome f z := rfl
@[simp] theorem exec_cqstat (f : Op3) (z : State) : exec (.cqstat f) z = execCqstat f z := rfl
@[simp] theorem exec_trap (f : Op3) (z : State) : exec (.trap f) z = execTrap f z := rfl
@[simp] theorem exec_tret (f : Op3) (z : State) : exec (.tret f) z = execTret f z := rfl
@[simp] theorem exec_yieldl (f : Op3) (z : State) : exec (.yieldl f) z = execYieldl f z := rfl
@[simp] theorem exec_mrs (f : Op3) (z : State) : exec (.mrs f) z = execMrs f z := rfl
@[simp] theorem exec_msr (f : Op3) (z : State) : exec (.msr f) z = execMsr f z := rfl
@[simp] theorem exec_bkpt (f : Op3) (z : State) : exec (.bkpt f) z = execBkpt f z := rfl
@[simp] theorem exec_wpt (f : Op3) (z : State) : exec (.wpt f) z = execWpt f z := rfl
@[simp] theorem exec_pcnt (f : Op3) (z : State) : exec (.pcnt f) z = execPcnt f z := rfl
@[simp] theorem exec_trc (f : Op3) (z : State) : exec (.trc f) z = execTrc f z := rfl
@[simp] theorem exec_halt (f : Op3) (z : State) : exec (.halt f) z = execHalt f z := rfl
@[simp] theorem exec_tlbinv (f : Op3) (z : State) : exec (.tlbinv f) z = execTlbinv f z := rfl
@[simp] theorem exec_trapEntryPop (gk : Nat) (z : State) : exec (.trapEntryPop gk) z = execTrapEntryPop gk z := rfl
@[simp] theorem exec_joinCompletion (gk : Nat) (z : State) : exec (.joinCompletion gk) z = execJoinCompletion gk z := rfl
@[simp] theorem exec_bwaitmRelease (gk n : Nat) (z : State) : exec (.bwaitmRelease gk n) z = execBwaitmRelease gk n z := rfl
@[simp] theorem exec_continuationGroupForm (core : Nat) (z : State) : exec (.continuationGroupForm core) z = execContinuationGroupForm core z := rfl
@[simp] theorem exec_regroupCompletion (team core : Nat) (z : State) : exec (.regroupCompletion team core) z = execRegroupCompletion team core z := rfl
@[simp] theorem exec_regroupTimeout (team core : Nat) (z : State) : exec (.regroupTimeout team core) z = execRegroupTimeout team core z := rfl
@[simp] theorem exec_relocationEnd (team core : Nat) (z : State) : exec (.relocationEnd team core) z = execRelocationEnd team core z := rfl
@[simp] theorem exec_slotArbitration (core slot : Nat) (z : State) : exec (.slotArbitration core slot) z = execSlotArbitration core slot z := rfl
@[simp] theorem exec_llWindowEnd (core : Nat) (z : State) : exec (.llWindowEnd core) z = execLlWindowEnd core z := rfl
@[simp] theorem exec_slewWindowEnd (core : Nat) (z : State) : exec (.slewWindowEnd core) z = execSlewWindowEnd core z := rfl
@[simp] theorem exec_sleepuWake (gk : Nat) (z : State) : exec (.sleepuWake gk) z = execSleepuWake gk z := rfl
@[simp] theorem exec_sleepuChkWake (gk : Nat) (z : State) : exec (.sleepuChkWake gk) z = execSleepuChkWake gk z := rfl
@[simp] theorem exec_loadDataReturn (id : Nat) (z : State) : exec (.loadDataReturn id) z = execLoadDataReturn id z := rfl
@[simp] theorem exec_storePerform (id : Nat) (z : State) : exec (.storePerform id) z = execStorePerform id z := rfl
@[simp] theorem exec_atomicPerform (id : Nat) (z : State) : exec (.atomicPerform id) z = execAtomicPerform id z := rfl
@[simp] theorem exec_releaseMarkerMet (id : Nat) (z : State) : exec (.releaseMarkerMet id) z = execReleaseMarkerMet id z := rfl
@[simp] theorem exec_spillFillComplete (id : Nat) (z : State) : exec (.spillFillComplete id) z = execSpillFillComplete id z := rfl
@[simp] theorem exec_pageWalkComplete (id : Nat) (z : State) : exec (.pageWalkComplete id) z = execPageWalkComplete id z := rfl
@[simp] theorem exec_transactionCommit (gk : Nat) (z : State) : exec (.transactionCommit gk) z = execTransactionCommit gk z := rfl
@[simp] theorem exec_transactionTimeout (gk lane : Nat) (z : State) : exec (.transactionTimeout gk lane) z = execTransactionTimeout gk lane z := rfl
@[simp] theorem exec_tokenGrant (d : Nat) (z : State) : exec (.tokenGrant d) z = execTokenGrant d z := rfl
@[simp] theorem exec_copyJobDelivery (job elements : Nat) (z : State) : exec (.copyJobDelivery job elements) z = execCopyJobDelivery job elements z := rfl
@[simp] theorem exec_copyJobFinish (job : Nat) (z : State) : exec (.copyJobFinish job) z = execCopyJobFinish job z := rfl
@[simp] theorem exec_pageMigration (job : Nat) (z : State) : exec (.pageMigration job) z = execPageMigration job z := rfl
@[simp] theorem exec_completionRecordWrite (id : Nat) (z : State) : exec (.completionRecordWrite id) z = execCompletionRecordWrite id z := rfl
@[simp] theorem exec_coreBarrierPhaseComplete (core off : Nat) (z : State) : exec (.coreBarrierPhaseComplete core off) z = execCoreBarrierPhaseComplete core off z := rfl
@[simp] theorem exec_barrierSlotComplete (unit slot : Nat) (z : State) : exec (.barrierSlotComplete unit slot) z = execBarrierSlotComplete unit slot z := rfl
@[simp] theorem exec_matrixOpExecute (core : Nat) (z : State) : exec (.matrixOpExecute core) z = execMatrixOpExecute core z := rfl
@[simp] theorem exec_matrixOpRetire (core : Nat) (z : State) : exec (.matrixOpRetire core) z = execMatrixOpRetire core z := rfl
@[simp] theorem exec_residencyRefill (core res : Nat) (z : State) : exec (.residencyRefill core res) z = execResidencyRefill core res z := rfl
@[simp] theorem exec_rloadFillComplete (core fill : Nat) (z : State) : exec (.rloadFillComplete core fill) z = execRloadFillComplete core fill z := rfl
@[simp] theorem exec_mwaitComplete (gk : Nat) (z : State) : exec (.mwaitComplete gk) z = execMwaitComplete gk z := rfl
@[simp] theorem exec_packetFetch (qk : Nat) (z : State) : exec (.packetFetch qk) z = execPacketFetch qk z := rfl
@[simp] theorem exec_waitConditionCheck (grid : Nat) (z : State) : exec (.waitConditionCheck grid) z = execWaitConditionCheck grid z := rfl
@[simp] theorem exec_gridRelease (grid : Nat) (z : State) : exec (.gridRelease grid) z = execGridRelease grid z := rfl
@[simp] theorem exec_deviceQueueEnqueue (gk : Nat) (z : State) : exec (.deviceQueueEnqueue gk) z = execDeviceQueueEnqueue gk z := rfl
@[simp] theorem exec_teamClaim (d grid : Nat) (z : State) : exec (.teamClaim d grid) z = execTeamClaim d grid z := rfl
@[simp] theorem exec_teamPlacement (d : Nat) (z : State) : exec (.teamPlacement d) z = execTeamPlacement d z := rfl
@[simp] theorem exec_coresidentPlacement (grid : Nat) (z : State) : exec (.coresidentPlacement grid) z = execCoresidentPlacement grid z := rfl
@[simp] theorem exec_teamStart (team : Nat) (z : State) : exec (.teamStart team) z = execTeamStart team z := rfl
@[simp] theorem exec_ageingLimitReached (d : Nat) (z : State) : exec (.ageingLimitReached d) z = execAgeingLimitReached d z := rfl
@[simp] theorem exec_sliceExpiry (z : State) : exec (.sliceExpiry) z = execSliceExpiry z := rfl
@[simp] theorem exec_preemptGraceExpiry (team : Nat) (z : State) : exec (.preemptGraceExpiry team) z = execPreemptGraceExpiry team z := rfl
@[simp] theorem exec_groupSave (gk : Nat) (z : State) : exec (.groupSave gk) z = execGroupSave gk z := rfl
@[simp] theorem exec_teamSave (team : Nat) (z : State) : exec (.teamSave team) z = execTeamSave team z := rfl
@[simp] theorem exec_teamResume (team : Nat) (z : State) : exec (.teamResume team) z = execTeamResume team z := rfl
@[simp] theorem exec_teamRetire (team : Nat) (z : State) : exec (.teamRetire team) z = execTeamRetire team z := rfl
@[simp] theorem exec_gridRetire (grid : Nat) (z : State) : exec (.gridRetire grid) z = execGridRetire grid z := rfl
@[simp] theorem exec_qtailWrite (qk : Nat) (v : Word) (z : State) : exec (.qtailWrite qk v) z = execQtailWrite qk v z := rfl
@[simp] theorem exec_queueEnable (qk : Nat) (v : Word) (z : State) : exec (.queueEnable qk v) z = execQueueEnable qk v z := rfl
@[simp] theorem exec_queueDisable (qk : Nat) (v : Word) (z : State) : exec (.queueDisable qk v) z = execQueueDisable qk v z := rfl
@[simp] theorem exec_qstatFltClear (qk : Nat) (z : State) : exec (.qstatFltClear qk) z = execQstatFltClear qk z := rfl
@[simp] theorem exec_qstatOvrClear (qk : Nat) (z : State) : exec (.qstatOvrClear qk) z = execQstatOvrClear qk z := rfl
@[simp] theorem exec_mbinWrite (fn : Nat) (v : Word) (z : State) : exec (.mbinWrite fn v) z = execMbinWrite fn v z := rfl
@[simp] theorem exec_mboutPost (fn : Nat) (z : State) : exec (.mboutPost fn) z = execMboutPost fn z := rfl
@[simp] theorem exec_hostWindowWrite (fn off : Nat) (data : List (Option Byte)) (z : State) : exec (.hostWindowWrite fn off data) z = execHostWindowWrite fn off data z := rfl
@[simp] theorem exec_hostWindowRead (fn off n : Nat) (z : State) : exec (.hostWindowRead fn off n) z = execHostWindowRead fn off n z := rfl
@[simp] theorem exec_functionLevelReset (fn : Nat) (z : State) : exec (.functionLevelReset fn) z = execFunctionLevelReset fn z := rfl
@[simp] theorem exec_contextDisable (ck : Nat) (z : State) : exec (.contextDisable ck) z = execContextDisable ck z := rfl
@[simp] theorem exec_eventRingEnable (fn : Nat) (v : Word) (z : State) : exec (.eventRingEnable fn v) z = execEventRingEnable fn v z := rfl
@[simp] theorem exec_erstatWrite (fn : Nat) (z : State) : exec (.erstatWrite fn) z = execErstatWrite fn z := rfl
@[simp] theorem exec_eventRingDrain (fn : Nat) (z : State) : exec (.eventRingDrain fn) z = execEventRingDrain fn z := rfl
@[simp] theorem exec_shootDownStart (ck : Nat) (v : Word) (z : State) : exec (.shootDownStart ck v) z = execShootDownStart ck v z := rfl
@[simp] theorem exec_shootDownComplete (ck : Nat) (z : State) : exec (.shootDownComplete ck) z = execShootDownComplete ck z := rfl
@[simp] theorem exec_ovchkWrite (ck : Nat) (v : Word) (z : State) : exec (.ovchkWrite ck v) z = execOvchkWrite ck v z := rfl
@[simp] theorem exec_lmapWrite (ck i : Nat) (v : DWord) (z : State) : exec (.lmapWrite ck i v) z = execLmapWrite ck i v z := rfl
@[simp] theorem exec_xsGrantWrite (ck d : Nat) (v : Word) (z : State) : exec (.xsGrantWrite ck d v) z = execXsGrantWrite ck d v z := rfl
@[simp] theorem exec_chaltHalt (ck : Nat) (z : State) : exec (.chaltHalt ck) z = execChaltHalt ck z := rfl
@[simp] theorem exec_chaltRelease (ck : Nat) (z : State) : exec (.chaltRelease ck) z = execChaltRelease ck z := rfl
@[simp] theorem exec_chaltDump (ck : Nat) (z : State) : exec (.chaltDump ck) z = execChaltDump ck z := rfl
@[simp] theorem exec_contextStopped (ck : Nat) (z : State) : exec (.contextStopped ck) z = execContextStopped ck z := rfl
@[simp] theorem exec_dieReset (p : Nat) (z : State) : exec (.dieReset p) z = execDieReset p z := rfl
@[simp] theorem exec_dieFence (p : Nat) (z : State) : exec (.dieFence p) z = execDieFence p z := rfl
@[simp] theorem exec_dieFenceRelease (p : Nat) (z : State) : exec (.dieFenceRelease p) z = execDieFenceRelease p z := rfl
@[simp] theorem exec_dieDrop (p : Nat) (z : State) : exec (.dieDrop p) z = execDieDrop p z := rfl
@[simp] theorem exec_dieFatalError (p : Nat) (z : State) : exec (.dieFatalError p) z = execDieFatalError p z := rfl
@[simp] theorem exec_dieSelfTestEnd (p : Nat) (pass : Bool) (z : State) : exec (.dieSelfTestEnd p pass) z = execDieSelfTestEnd p pass z := rfl
@[simp] theorem exec_baseFatalError (z : State) : exec (.baseFatalError) z = execBaseFatalError z := rfl
@[simp] theorem exec_cellReceive (port : Nat) (cell : List Byte) (z : State) : exec (.cellReceive port cell) z = execCellReceive port cell z := rfl
@[simp] theorem exec_cellNakReceive (port : Nat) (aseq : BitVec 12) (z : State) : exec (.cellNakReceive port aseq) z = execCellNakReceive port aseq z := rfl
@[simp] theorem exec_linkRetrain (link lanes : Nat) (z : State) : exec (.linkRetrain link lanes) z = execLinkRetrain link lanes z := rfl
@[simp] theorem exec_diePortDown (p port : Nat) (z : State) : exec (.diePortDown p port) z = execDiePortDown p port z := rfl
@[simp] theorem exec_remoteAccessReceive (peer : Nat) (r : RemoteReq) (z : State) : exec (.remoteAccessReceive peer r) z = execRemoteAccessReceive peer r z := rfl
@[simp] theorem exec_dopWrite (p : Nat) (v : Word) (z : State) : exec (.dopWrite p v) z = execDopWrite p v z := rfl
@[simp] theorem exec_clockRelockComplete (p : Nat) (z : State) : exec (.clockRelockComplete p) z = execClockRelockComplete p z := rfl
@[simp] theorem exec_passWrite (k : Nat) (v : Word) (z : State) : exec (.passWrite k v) z = execPassWrite k v z := rfl
@[simp] theorem exec_swalWrite (k : Nat) (v : Word) (z : State) : exec (.swalWrite k v) z = execSwalWrite k v z := rfl
@[simp] theorem exec_slewWrite (k : Nat) (v : Word) (z : State) : exec (.slewWrite k v) z = execSlewWrite k v z := rfl
@[simp] theorem exec_powerCapControl (k : Nat) (pass : Nat) (bits : BitVec 16) (z : State) : exec (.powerCapControl k pass bits) z = execPowerCapControl k pass bits z := rfl
@[simp] theorem exec_thermalThreshold (p : Nat) (temp : Nat) (z : State) : exec (.thermalThreshold p temp) z = execThermalThreshold p temp z := rfl
@[simp] theorem exec_leakDetected (z : State) : exec (.leakDetected) z = execLeakDetected z := rfl
@[simp] theorem exec_leakCleared (z : State) : exec (.leakCleared) z = execLeakCleared z := rfl
@[simp] theorem exec_mainEnHigh (z : State) : exec (.mainEnHigh) z = execMainEnHigh z := rfl
@[simp] theorem exec_railsInRegulation (z : State) : exec (.railsInRegulation) z = execRailsInRegulation z := rfl
@[simp] theorem exec_mainInputDropout (z : State) : exec (.mainInputDropout) z = execMainInputDropout z := rfl
@[simp] theorem exec_coldReset (z : State) : exec (.coldReset) z = execColdReset z := rfl
@[simp] theorem exec_leaseNAssert (z : State) : exec (.leaseNAssert) z = execLeaseNAssert z := rfl
@[simp] theorem exec_bctlLrst (z : State) : exec (.bctlLrst) z = execBctlLrst z := rfl
@[simp] theorem exec_bctlGo (z : State) : exec (.bctlGo) z = execBctlGo z := rfl
@[simp] theorem exec_bootSelfTestComplete (map : UnitMap) (z : State) : exec (.bootSelfTestComplete map) z = execBootSelfTestComplete map z := rfl
@[simp] theorem exec_scrubComplete (z : State) : exec (.scrubComplete) z = execScrubComplete z := rfl
@[simp] theorem exec_imageMeasured (image : Option (List Byte)) (z : State) : exec (.imageMeasured image) z = execImageMeasured image z := rfl
@[simp] theorem exec_smbusLeaseReset (z : State) : exec (.smbusLeaseReset) z = execSmbusLeaseReset z := rfl
@[simp] theorem exec_smbusWriteLimits (bytes : List Byte) (z : State) : exec (.smbusWriteLimits bytes) z = execSmbusWriteLimits bytes z := rfl
@[simp] theorem exec_smbusReadRecord (z : State) : exec (.smbusReadRecord) z = execSmbusReadRecord z := rfl
@[simp] theorem exec_smbusReadLimits (z : State) : exec (.smbusReadLimits) z = execSmbusReadLimits z := rfl
@[simp] theorem exec_smbusReadCoolant (z : State) : exec (.smbusReadCoolant) z = execSmbusReadCoolant z := rfl
@[simp] theorem exec_registerWrite (space : RegSpace) (off : Nat) (v : DWord) (z : State) : exec (.registerWrite space off v) z = execRegisterWrite space off v z := rfl
@[simp] theorem exec_instructionFetch (gk : Nat) (z : State) : exec (.instructionFetch gk) z = execInstructionFetch gk z := rfl
@[simp] theorem exec_issueSlotCharge (z : State) : exec (.issueSlotCharge) z = execIssueSlotCharge z := rfl
@[simp] theorem exec_linkTraining (link lanes : Nat) (z : State) : exec (.linkTraining link lanes) z = execLinkTraining link lanes z := rfl
@[simp] theorem exec_vfEnable (z : State) : exec (.vfEnable) z = execVfEnable z := rfl

end Sys2Proof.Machine
end

