-- ==== Sys2Proof/Laws/Table.lean ====
section
/-! SUPPORT. What reading a sparse table gives after each of its operations, and that every operation keeps the order of
the keys and the canonical form. -/

namespace Sys2Proof.Tbl

variable {β : Type}

/-! ## Reading after writing -/

@[simp] theorem get?_nil (k : Nat) : get? ([] : Tbl β) k = none := rfl

theorem get?_put (m : Tbl β) (k j : Nat) (v : β) : (m.put k v).get? j = if k = j then some v else m.get? j := by
  fun_induction put m k v <;> grind [get?]

theorem mem_of_get? {m : Tbl β} {k : Nat} {v : β} (found : m.get? k = some v) : (k, v) ∈ m := by
  fun_induction get? m k <;> simp_all

@[simp] theorem get?_put_same (m : Tbl β) (k : Nat) (v : β) : (m.put k v).get? k = some v := by simp [get?_put]

theorem get?_put_other (m : Tbl β) {k j : Nat} (h : k ≠ j) (v : β) : (m.put k v).get? j = m.get? j := by
  simp [get?_put, h]

theorem get?_filter_key (m : Tbl β) (p : Nat → Bool) (j : Nat) :
    get? (m.filter fun e => p e.1) j = if p j then m.get? j else none := by
  induction m <;> grind [get?]

theorem get?_del (m : Tbl β) (k j : Nat) : (m.del k).get? j = if k = j then none else m.get? j := by
  unfold del
  rw [get?_filter_key m fun n => decide (n ≠ k)]
  grind

@[simp] theorem get?_del_same (m : Tbl β) (k : Nat) : (m.del k).get? k = none := by simp [get?_del]

theorem get?_modify (m : Tbl β) (k j : Nat) (f : β → β) :
    (m.modify k f).get? j = if k = j then (m.get? j).map f else m.get? j := by
  unfold modify
  cases h : m.get? k <;> grind [get?_put]

theorem read_write [DecidableEq β] (m : Tbl β) (d v : β) (k j : Nat) :
    (m.write d k v).read d j = if k = j then v else m.read d j := by
  unfold write read
  split
  · next h =>
    rw [get?_del]
    split
    · simp [h]
    · rfl
  · rw [get?_put]
    split <;> rfl

@[simp] theorem read_write_same [DecidableEq β] (m : Tbl β) (d v : β) (k : Nat) : (m.write d k v).read d k = v := by
  simp [read_write]

theorem read_write_other [DecidableEq β] (m : Tbl β) (d v : β) {k j : Nat} (h : k ≠ j) :
    (m.write d k v).read d j = m.read d j := by simp [read_write, h]

theorem read_put (m : Tbl β) (d v : β) (k j : Nat) : (m.put k v).read d j = if k = j then v else m.read d j := by
  unfold read
  rw [get?_put]
  split <;> rfl

/-! ## The form of a table -/

theorem sorted_iff (m : Tbl β) : m.sorted = true ↔ (m.map (·.1)).Pairwise (· < ·) := by
  unfold sorted keys
  exact decide_eq_true_iff

theorem sorted_cons (e : Nat × β) (t : Tbl β) :
    sorted (e :: t) = true ↔ (∀ x ∈ t, e.1 < x.1) ∧ sorted t = true := by
  rw [sorted_iff, sorted_iff, List.map_cons, List.pairwise_cons]
  simp

theorem mem_put {m : Tbl β} {k : Nat} {v : β} {x : Nat × β} (h : x ∈ m.put k v) : x = (k, v) ∨ x ∈ m := by
  fun_induction put m k v <;> grind

theorem sorted_put {m : Tbl β} (h : m.sorted = true) (k : Nat) (v : β) : (m.put k v).sorted = true := by
  fun_induction put m k v with
  | case1 => simp [sorted, keys]
  | case2 => grind [sorted_cons]
  | case3 => grind [sorted_cons]
  | case4 k' v' t k v _ _ ih =>
    simp only [sorted_cons] at h ⊢
    refine ⟨fun x hx => ?_, ih h.2⟩
    rcases mem_put hx with rfl | old
    · grind
    · exact h.1 x old

theorem sorted_filter {m : Tbl β} (h : m.sorted = true) (p : Nat × β → Bool) : sorted (m.filter p) = true := by
  rw [sorted_iff] at h ⊢
  exact h.sublist (List.filter_sublist.map _)

theorem sorted_del {m : Tbl β} (h : m.sorted = true) (k : Nat) : (m.del k).sorted = true := sorted_filter h _

theorem canonical_iff [DecidableEq β] (m : Tbl β) (d : β) :
    m.canonical d = true ↔ m.sorted = true ∧ ∀ x ∈ m, x.2 ≠ d := by simp [canonical]

theorem canonical_nil [DecidableEq β] (d : β) : canonical ([] : Tbl β) d = true := by simp [canonical, sorted, keys]

/-- Dropping entries keeps the canonical form. -/
theorem canonical_filter [DecidableEq β] {m : Tbl β} {d : β} (h : m.canonical d = true) (p : Nat × β → Bool) :
    canonical (m.filter p) d = true := by
  rw [canonical_iff] at h ⊢
  exact ⟨sorted_filter h.1 p, fun x hx => h.2 x (List.mem_filter.1 hx).1⟩

/-- A write keeps the canonical form. -/
theorem canonical_write [DecidableEq β] {m : Tbl β} {d : β} (h : m.canonical d = true) (k : Nat) (v : β) :
    (m.write d k v).canonical d = true := by
  unfold write
  split
  · exact canonical_filter h _
  · next hv =>
    rw [canonical_iff] at h ⊢
    refine ⟨sorted_put h.1 k v, fun x hx => ?_⟩
    rcases mem_put hx with rfl | hx
    · exact hv
    · exact h.2 x hx

theorem canonical_dropRange [DecidableEq β] {m : Tbl β} {d : β} (h : m.canonical d = true) (lo hi : Nat) :
    (m.dropRange lo hi).canonical d = true := canonical_filter h _

end Sys2Proof.Tbl
end

