-- ==== Sys2Proof/Laws/Issue.lean ====
section
/-! SUPPORT. What ends an issue: raising no trap changes nothing, a slot with a live thread is not freed, and the lanes
that execute receive the outcomes of their lanes. -/

namespace Sys2Proof.Machine

theorem raise_nil (s : State) (gk lead : Nat) (h : Bool) : s.raise gk lead h [] = s := by
  unfold State.raise
  simp

/-- A slot whose group has a thread that has not exited stays. -/
theorem reap_live {s : State} {gk l : Nat} {g : Group} {t : Thread} (hg : s.groups.get? gk = some g)
    (hl : g.lanes.get? l = some t) (ht : t.exited = false) : s.reap gk = s := by
  unfold State.reap
  have : (g.lanes.any fun e => !e.2.exited) = true := List.any_eq_true.2 ⟨(l, t), Tbl.mem_of_get? hl, by simp [ht]⟩
  simp [hg, this]

/-- Without traps, in a group that keeps a live thread, the end of an issue only takes the standing instruction away. -/
theorem finish_clean {s : State} {k : Cursor} {g : Group} {l : Nat} {t : Thread} (hk : k.traps = [])
    (hg : s.groups.get? k.gk = some g) (hl : g.lanes.get? l = some t) (ht : t.exited = false) :
    s.finish k [] = { s with cur := none } := by
  unfold State.finish
  rw [hk, List.append_nil, raise_nil]
  exact reap_live hg hl ht

theorem group_of {s : State} {gk : Nat} {g : Group} (h : s.groups.get? gk = some g) : s.group gk = g := by
  simp [State.group, h]

/-! ## Lanes of a mask -/

theorem lanesOf_nodup (m : Word) : (lanesOf m).Nodup := List.Nodup.filter _ List.nodup_range

theorem mem_lanesOf (m : Word) (l : Nat) : l ∈ lanesOf m ↔ l < 32 ∧ bitOf m l = true := by simp [lanesOf]

/-! ## Outcomes of the lanes -/

/-- What a lane holds after its outcome. -/
def LaneOut.after (o : LaneOut) (old : Option Thread) : Option Thread :=
  match o with
  | .next t => some { t with lpc := t.lpc + 1 }
  | .goto t => some t
  | .trap .. => old

theorem laneOut_lanes (g : Group) (l j : Nat) (o : LaneOut) :
    (g.laneOut l o).lanes.get? j =
      if l = j then o.after (g.lanes.get? j) else g.lanes.get? j := by
  cases o
  all_goals
    simp only [Group.laneOut, Tbl.get?_put, LaneOut.after]
  split
  all_goals rfl

theorem laneOut_rest (g : Group) (l : Nat) (o : LaneOut) : g.laneOut l o = { g with lanes := (g.laneOut l o).lanes } := by
  cases o
  all_goals rfl

theorem applyOuts_cons (g : Group) (o : Nat × LaneOut) (os : List (Nat × LaneOut)) :
    g.applyOuts (o :: os) = (g.laneOut o.1 o.2).applyOuts os := rfl

/-- Only the lanes of a group change. -/
theorem applyOuts_rest (os : List (Nat × LaneOut)) (g : Group) :
    g.applyOuts os = { g with lanes := (g.applyOuts os).lanes } := by
  induction os generalizing g with
  | nil => rfl
  | cons o os ih =>
    rw [applyOuts_cons, ih]
    obtain ⟨j, o⟩ := o
    cases o
    all_goals rfl

/-- A lane without an outcome is unchanged. -/
theorem applyOuts_other (os : List (Nat × LaneOut)) (g : Group) (j : Nat) (h : j ∉ os.map (·.1)) :
    (g.applyOuts os).lanes.get? j = g.lanes.get? j := by
  induction os generalizing g with
  | nil => rfl
  | cons o os ih =>
    simp only [List.map_cons, List.mem_cons, not_or] at h
    rw [applyOuts_cons, ih _ h.2, laneOut_lanes, if_neg (Ne.symm h.1)]

/-- A lane receives its outcome. -/
theorem applyOuts_lane (os : List (Nat × LaneOut)) (g : Group) (j : Nat) (o : LaneOut) (h : (os.map (·.1)).Nodup)
    (hm : (j, o) ∈ os) :
    (g.applyOuts os).lanes.get? j = o.after (g.lanes.get? j) := by
  induction os generalizing g with
  | nil => cases hm
  | cons p os ih =>
    rw [List.map_cons, List.nodup_cons] at h
    rw [applyOuts_cons]
    rcases List.mem_cons.1 hm with rfl | hm
    · rw [applyOuts_other _ _ _ h.1, laneOut_lanes, if_pos rfl]
    · rw [ih _ h.2 hm]
      have : p.1 ≠ j := fun e => h.1 (e ▸ List.mem_map.2 ⟨_, hm, rfl⟩)
      rw [laneOut_lanes, if_neg this]

theorem laneOuts_nodup (g : Group) (h : Head) (k : Cursor) (f : Nat → Thread → LaneOut) :
    ((laneOuts g h k f).map (·.1)).Nodup := by
  have : (laneOuts g h k f).map (·.1) = (lanesOf k.active).filter fun l => (g.lanes.get? l).isSome := by
    unfold laneOuts
    induction lanesOf k.active with
    | nil => rfl
    | cons l t ih =>
      rw [List.filterMap_cons]
      cases hl : g.lanes.get? l <;> simp [hl, ih]
  rw [this]
  exact (lanesOf_nodup _).filter _

theorem mem_laneOuts {g : Group} {h : Head} {k : Cursor} {f : Nat → Thread → LaneOut} {l : Nat} {t : Thread}
    (hl : l ∈ lanesOf k.active) (ht : g.lanes.get? l = some t) :
    (l, if t.guard h then f l t else .next t) ∈ laneOuts g h k f :=
  List.mem_filterMap.2 ⟨l, hl, by simp [ht]⟩

theorem laneOuts_lanes {g : Group} {h : Head} {k : Cursor} {f : Nat → Thread → LaneOut} {j : Nat}
    (hj : j ∉ lanesOf k.active) : j ∉ (laneOuts g h k f).map (·.1) := by
  intro hm
  obtain ⟨o, ho, rfl⟩ := List.mem_map.1 hm
  obtain ⟨l, hl, e⟩ := List.mem_filterMap.1 ho
  cases hg : g.lanes.get? l <;> simp [hg] at e
  subst e
  exact hj hl

/-- No outcome traps when no lane's function traps. -/
theorem trapsOf_laneOuts {g : Group} {h : Head} {k : Cursor} {f : Nat → Thread → LaneOut}
    (hf : ∀ l ∈ lanesOf k.active, ∀ t, g.lanes.get? l = some t → t.guard h = true → (f l t).traps l = []) :
    trapsOf (laneOuts g h k f) = [] := by
  unfold trapsOf
  rw [List.flatMap_eq_nil_iff]
  intro o ho
  obtain ⟨l, hl, e⟩ := List.mem_filterMap.1 ho
  cases hg : g.lanes.get? l <;> simp [hg] at e
  subst e
  next t =>
  by_cases hgd : t.guard h = true
  · simpa [hgd] using hf l hl t hg hgd
  · simp [hgd, LaneOut.traps]

/-- A group-wide advance changes the counters and the waits of the lanes that execute, and nothing else. -/
theorem advanceAll_lanes (ls : List Nat) (g : Group) (j : Nat) (h : ls.Nodup) :
    (g.advanceAll ls).lanes.get? j =
      if j ∈ ls then (g.lanes.get? j).map fun t => { t with lpc := t.lpc + 1, wait := .none } else g.lanes.get? j := by
  induction ls generalizing g with
  | nil => simp [Group.advanceAll]
  | cons l ls ih =>
    rw [List.nodup_cons] at h
    have e : g.advanceAll (l :: ls) = (g.advance l).advanceAll ls := rfl
    rw [e, ih _ h.2]
    have a : ∀ j, (g.advance l).lanes.get? j =
        if l = j then (g.lanes.get? j).map fun t => { t with lpc := t.lpc + 1, wait := .none } else g.lanes.get? j :=
      fun j => Tbl.get?_modify _ _ _ _
    by_cases hj : j = l
    · subst hj; simp [h.1, a]
    · simp [hj, a, Ne.symm hj]

theorem advanceAll_rest (ls : List Nat) (g : Group) : g.advanceAll ls = { g with lanes := (g.advanceAll ls).lanes } := by
  induction ls generalizing g with
  | nil => rfl
  | cons l ls ih =>
    have e : g.advanceAll (l :: ls) = (g.advance l).advanceAll ls := rfl
    rw [e, ih]
    rfl

end Sys2Proof.Machine
end

