-- ==== Sys2Proof/Laws/Modes.lean ====
section
/-! SUPPORT. What an issue of each mode leaves when no lane traps: laneMode, groupMode, vectorOp and scalarOp, each said
once. -/

namespace Sys2Proof.Machine

theorem Issuing.lane {s : State} {k : Cursor} {g : Group} (hi : Issuing s k g) :
    ∃ l ∈ lanesOf k.active, ∃ t, g.lanes.get? l = some t ∧ t.exited = false := by
  obtain ⟨l, hl⟩ := List.exists_mem_of_ne_nil _ hi.nonempty
  exact ⟨l, hl, hi.present l hl⟩

/-- The end of an issue that leaves some live lane of its group. -/
theorem Issuing.finish {s : State} {k : Cursor} {g g' : Group} (hi : Issuing s k g) {l : Nat} {t : Thread}
    (hl : g'.lanes.get? l = some t) (ht : t.exited = false) :
    ({ s with groups := s.groups.put k.gk g' }).finish k [] = s.issued k g' :=
  (finish_clean hi.clean (g := g') (by simp) hl ht).trans rfl

/-- Mode L: every lane that executes receives its own outcome. -/
theorem laneMode_clean {s : State} {k : Cursor} {g : Group} {h : Head} {F : Group → Nat → Thread → LaneOut}
    {r : Nat → Thread → Thread} (hi : Issuing s k g)
    (hF : ∀ l ∈ lanesOf k.active, ∀ t, g.lanes.get? l = some t →
      LaneOut.after (if t.guard h then F g l t else .next t) (some t) = some (r l t) ∧
        (t.guard h = true → (F g l t).traps l = []) ∧ (r l t).exited = t.exited) :
    ∃ g', laneMode h F k s = s.issued k g' ∧ LanesBecome k g g' r := by
  have ht : trapsOf (laneOuts g h k (F g)) = [] :=
    trapsOf_laneOuts fun l hl t h1 h2 => (hF l hl t h1).2.1 h2
  have hb : LanesBecome k g (g.applyOuts (laneOuts g h k (F g))) r :=
    { rest := applyOuts_rest _ _
      others := fun l hl => applyOuts_other _ _ _ (laneOuts_lanes hl)
      runs := fun l t hl h1 => by
        rw [applyOuts_lane _ _ _ _ (laneOuts_nodup _ _ _ _) (mem_laneOuts hl h1), h1]
        exact (hF l hl t h1).1 }
  refine ⟨_, ?_, hb⟩
  obtain ⟨l, hl, t, h1, h2⟩ := hi.lane
  unfold laneMode
  simp only [group_of hi.group, ht]
  exact hi.finish (hb.runs l t hl h1) (by rw [(hF l hl t h1).2.2, h2])

/-- Mode G over a group: the group's function leaves the lanes' presence and whether they have exited. -/
theorem advance_become {k : Cursor} {g g' : Group} (r : Nat → Thread → Thread)
    (hr : ∀ l t, l ∈ lanesOf k.active → g.lanes.get? l = some t → g'.lanes.get? l = some (r l t))
    (ho : ∀ l, l ∉ lanesOf k.active → g'.lanes.get? l = g.lanes.get? l) :
    LanesBecome k { g' with lanes := g.lanes } (g'.advanceActive k)
      (fun l t => { (r l t).step with wait := .none }) where
  rest := by
    unfold Group.advanceActive
    rw [advanceAll_rest]
  others := fun l hl => by
    unfold Group.advanceActive
    rw [advanceAll_lanes _ _ _ (lanesOf_nodup _), if_neg hl]
    exact ho l hl
  runs := fun l t hl h1 => by
    unfold Group.advanceActive
    rw [advanceAll_lanes _ _ _ (lanesOf_nodup _), if_pos hl, hr l t hl h1]
    rfl

theorem write_lanes (g : Group) (n : Nat) (d : Operand) (v : Nat) : (g.write n d v).lanes = g.lanes := by
  cases d
  case scal i =>
    simp only [Group.write]
    induction n generalizing g i v with
    | zero => rfl
    | succ n ih => simp only [Group.setScalars]; rw [ih]; rfl
  all_goals rfl

theorem setRegs_exited (t : Thread) (h : Bool) (i n v : Nat) : (t.setRegs h i n v).exited = t.exited := by
  induction n generalizing t i v with
  | zero => rfl
  | succ n ih => simp only [Thread.setRegs]; rw [ih]; rfl

theorem setPred_exited (t : Thread) (i : Nat) (b : Bool) : (t.setPred i b).exited = t.exited := by
  unfold Thread.setPred
  split
  all_goals rfl

theorem write_exited (t : Thread) (h : Bool) (n : Nat) (d : Operand) (v : Nat) : (t.write h n d v).exited = t.exited := by
  cases d
  case win i => exact setRegs_exited t h i n v
  case pred i => exact setPred_exited t i _
  all_goals rfl

@[simp] theorem fpTraps_zero (fpen : Word) : fpTraps fpen 0 = false := by simp [fpTraps]

@[simp] theorem flags_zero (t : Thread) : t.flags 0 = t := by simp [Thread.flags]

/-- A class 0b01 instruction whose lanes raise no enabled flag. -/
theorem vectorOp_clean {s : State} {k : Cursor} {g : Group} (w : Shape) (res : Src → FRes) (f : Arith)
    (hi : Issuing s k g) (r : Thread → FRes)
    (hr : ∀ t, r t = res ⟨laneVal g t k.handler f.ty w.a f.a, laneVal g t k.handler w.bty w.b f.b,
      laneVal g t k.handler f.ty w.c f.c, laneVal g t k.handler f.ty w.d f.d⟩)
    (hf : ∀ l t, l ∈ lanesOf k.active → g.lanes.get? l = some t → t.guard f.h = true → fpTraps g.fpen (r t).2 = false) :
    ∃ g', vectorOp w res f s = .next (s.issued k g') ∧ LanesBecome k g g' fun _ t =>
      if t.guard f.h then ((t.write k.handler w.d f.d (r t).1).flags (r t).2).step else t.step := by
  obtain ⟨g', h1, h2⟩ := laneMode_clean (h := f.h) (F := laneArith w res f k.handler)
    (r := fun _ t => if t.guard f.h then ((t.write k.handler w.d f.d (r t).1).flags (r t).2).step else t.step) hi
    (fun l hl t ht => by
      by_cases hg : t.guard f.h = true
      · have := hf l t hl ht hg
        rw [hr t] at this
        simp only [laneArith, hg, if_true, hr t, this]
        refine ⟨rfl, fun _ => rfl, ?_⟩
        exact write_exited t _ _ _ _
      · simp [hg, LaneOut.after, Thread.step])
  refine ⟨g', ?_, h2⟩
  unfold vectorOp withIssuer
  simp only [hi.cur]
  rw [h1]

theorem flagAll_lanes (ls : List Nat) (g : Group) (r : Word) (j : Nat) (h : ls.Nodup) :
    (ls.foldl (fun g l => g.modThread l fun t => t.flags r) g).lanes.get? j =
      if j ∈ ls then (g.lanes.get? j).map fun t => t.flags r else g.lanes.get? j := by
  induction ls generalizing g with
  | nil => simp
  | cons l ls ih =>
    rw [List.nodup_cons] at h
    have a : ∀ j, (g.modThread l fun t => t.flags r).lanes.get? j =
        if l = j then (g.lanes.get? j).map fun t => t.flags r else g.lanes.get? j := fun j => Tbl.get?_modify _ _ _ _
    rw [List.foldl_cons, ih _ h.2]
    by_cases hj : j = l
    · subst hj; simp [h.1, a]
    · simp [hj, a, Ne.symm hj]

theorem flagAll_rest (ls : List Nat) (g : Group) (r : Word) :
    ls.foldl (fun g l => g.modThread l fun t => t.flags r) g =
      { g with lanes := (ls.foldl (fun g l => g.modThread l fun t => t.flags r) g).lanes } := by
  induction ls generalizing g with
  | nil => rfl
  | cons l ls ih =>
    rw [List.foldl_cons, ih]
    rfl

/-- A class 0b00 instruction that raises no enabled flag. -/
theorem scalarOp_clean {s : State} {k : Cursor} {g : Group} (w : Shape) (res : Src → FRes) (f : Arith)
    (hi : Issuing s k g) (r : FRes)
    (hr : r = res ⟨groupVal g f.ty w.a f.a, groupVal g w.bty w.b f.b, groupVal g f.ty w.c f.c, groupVal g f.ty w.d f.d⟩)
    (hf : guardG g f.h k = true → fpTraps g.fpen r.2 = false) :
    ∃ g', scalarOp w res f s = .next (s.issued k g') ∧
      LanesBecome k (if guardG g f.h k then g.write w.d f.d r.1 else g) g' fun _ t =>
        { (if guardG g f.h k then t.flags r.2 else t).step with wait := .none } := by
  obtain ⟨l, hl, t, h1, h2⟩ := hi.lane
  unfold scalarOp withIssuer scalarIssue
  simp only [hi.cur, group_of hi.group, ← hr]
  by_cases hg : guardG g f.h k = true
  · have hb := advance_become (k := k) (g := g) (g' := (g.write w.d f.d r.1).flagActive k r.2)
      (fun _ t => t.flags r.2)
      (fun l t hl h => by
        unfold Group.flagActive
        rw [flagAll_lanes _ _ _ _ (lanesOf_nodup _), if_pos hl, write_lanes, h]
        rfl)
      (fun l hl => by
        unfold Group.flagActive
        rw [flagAll_lanes _ _ _ _ (lanesOf_nodup _), if_neg hl, write_lanes])
    have hb' : LanesBecome k (g.write w.d f.d r.1) (((g.write w.d f.d r.1).flagActive k r.2).advanceActive k)
        fun _ t => { (t.flags r.2).step with wait := .none } :=
      { rest := by
          rw [hb.rest]
          unfold Group.flagActive
          rw [flagAll_rest]
        others := fun l hl => by rw [hb.others l hl, write_lanes]
        runs := fun l t hl ht => hb.runs l t hl (by rwa [write_lanes] at ht) }
    refine ⟨((g.write w.d f.d r.1).flagActive k r.2).advanceActive k, ?_, ?_⟩
    · simp only [hg, if_true, hf hg, Bool.false_eq_true, if_false]
      exact congrArg _ (hi.finish (hb.runs l t hl h1) h2)
    · simpa [hg] using hb'
  · have hb := advance_become (k := k) (g := g) (g' := g) (fun _ t => t) (fun _ _ _ h => h) (fun _ _ => rfl)
    refine ⟨g.advanceActive k, ?_, ?_⟩
    · simp only [hg, Bool.false_eq_true, if_false]
      exact congrArg _ (hi.finish (hb.runs l t hl h1) h2)
    · simpa [hg] using hb

/-- A shared opcode that raises no flag writes in both classes what its result gives. -/
theorem bothWrite {s : State} {k : Cursor} {g : Group} {sc ve : Instr} {w : Shape} {res : Src → FRes} {f : Arith}
    {good : Src → Nat → Prop} (hi : Issuing s k g) (hs : exec sc s = scalarOp w res f s)
    (hv : exec ve s = vectorOp w res f s) (h0 : ∀ x, (res x).2 = 0) (hg : ∀ x, good x (res x).1) :
    BothWrite sc ve w f s k g good := by
  refine ⟨?_, ?_⟩
  · obtain ⟨g', h1, h2⟩ := vectorOp_clean w res f hi (fun t => res (laneSrc w f k g t)) (fun _ => rfl)
      (fun l t _ _ _ => by rw [h0]; exact fpTraps_zero _)
    refine ⟨g', fun _ t => (res (laneSrc w f k g t)).1, hv.trans h1, ?_, fun l t _ _ _ => hg _⟩
    simp only [h0, flags_zero] at h2
    exact h2
  · obtain ⟨g', h1, h2⟩ := scalarOp_clean w res f hi (res (groupSrc w f g)) rfl
      (fun _ => by rw [h0]; exact fpTraps_zero _)
    refine ⟨g', (res (groupSrc w f g)).1, hs.trans h1, ?_, hg _⟩
    simp only [h0, flags_zero, ite_self] at h2
    exact h2

end Sys2Proof.Machine
end

