-- ==== Sys2Proof/Laws/Groups.lean ====
section
/-! SUPPORT. Changes to one group of the state, gathered into one: a chain of changes to the group of an issue is one
change of it. -/

namespace Sys2Proof

theorem Tbl.put_put {β : Type} (m : Tbl β) (k : Nat) (v w : β) : (m.put k v).put k w = m.put k w := by
  induction m with
  | nil => simp [put]
  | cons e t ih =>
    obtain ⟨k', v'⟩ := e
    by_cases h1 : k < k'
    · simp [put, h1]
    · by_cases h2 : k = k'
      · subst h2; simp [put]
      · simp [put, h1, h2, ih]

end Sys2Proof

namespace Sys2Proof.Machine

@[simp] theorem setGroup_get (s : State) (gk : Nat) (g : Group) : (s.setGroup gk g).groups.get? gk = some g := by
  simp [State.setGroup]

theorem setGroup_other (s : State) {gk gk' : Nat} (h : gk ≠ gk') (g : Group) :
    (s.setGroup gk g).groups.get? gk' = s.groups.get? gk' := Tbl.get?_put_other _ h _

@[simp] theorem setGroup_group (s : State) (gk : Nat) (g : Group) : (s.setGroup gk g).group gk = g := by
  simp [State.group]

@[simp] theorem setGroup_setGroup (s : State) (gk : Nat) (g g' : Group) :
    (s.setGroup gk g).setGroup gk g' = s.setGroup gk g' := by
  simp [State.setGroup, Tbl.put_put]

theorem modGroup_of {s : State} {gk : Nat} {g : Group} (h : s.groups.get? gk = some g) (f : Group → Group) :
    s.modGroup gk f = s.setGroup gk (f g) := by
  simp [State.modGroup, State.setGroup, Tbl.modify, h]

theorem modThread_of {s : State} {gk l : Nat} {g : Group} (h : s.groups.get? gk = some g) (f : Thread → Thread) :
    s.modThread gk l f = s.setGroup gk (g.modThread l f) := modGroup_of h _

theorem modThread_at (g : Group) (l j : Nat) (f : Thread → Thread) :
    (g.modThread l f).lanes.get? j = if l = j then (g.lanes.get? j).map f else g.lanes.get? j := Tbl.get?_modify _ _ _ _

@[simp] theorem setGroup_modGroup (s : State) (gk : Nat) (g : Group) (f : Group → Group) :
    (s.setGroup gk g).modGroup gk f = s.setGroup gk (f g) := by
  rw [modGroup_of (setGroup_get s gk g), setGroup_setGroup]

@[simp] theorem setGroup_modThread (s : State) (gk l : Nat) (g : Group) (f : Thread → Thread) :
    (s.setGroup gk g).modThread gk l f = s.setGroup gk (g.modThread l f) := setGroup_modGroup _ _ _ _

theorem setGroup_thread {g : Group} {l : Nat} {t : Thread} (s : State) (gk : Nat) (h : g.lanes.get? l = some t) :
    (s.setGroup gk g).thread gk l = t := by
  simp [State.thread, h]

/-- A loop over lanes that changes the group of the issue alone is a loop over the group. -/
theorem foldl_setGroup (s : State) (gk : Nat) (F : State → Nat → State) (f : Group → Nat → Group)
    (h : ∀ g l, F (s.setGroup gk g) l = s.setGroup gk (f g l)) (ls : List Nat) (g : Group) :
    ls.foldl F (s.setGroup gk g) = s.setGroup gk (ls.foldl f g) := by
  induction ls generalizing g with
  | nil => rfl
  | cons l ls ih => rw [List.foldl_cons, h, ih]; rfl

/-- Lane by lane, each by its own function: the loop changes the listed lanes and no other. -/
theorem foldl_modThread (ls : List Nat) (g : Group) (f : Nat → Thread → Thread) (j : Nat) (h : ls.Nodup) :
    (ls.foldl (fun g l => g.modThread l (f l)) g).lanes.get? j =
      if j ∈ ls then (g.lanes.get? j).map (f j) else g.lanes.get? j := by
  induction ls generalizing g with
  | nil => simp
  | cons l ls ih =>
    rw [List.nodup_cons] at h
    rw [List.foldl_cons, ih _ h.2]
    by_cases hj : j = l
    · subst hj; simp [h.1, modThread_at]
    · simp [hj, modThread_at, Ne.symm hj]

theorem foldl_modThread_rest (ls : List Nat) (g : Group) (f : Nat → Thread → Thread) :
    ls.foldl (fun g l => g.modThread l (f l)) g =
      { g with lanes := (ls.foldl (fun g l => g.modThread l (f l)) g).lanes } := by
  induction ls generalizing g with
  | nil => rfl
  | cons l ls ih =>
    rw [List.foldl_cons, ih]
    rfl

theorem guarded_nodup (g : Group) (h : Head) (k : Cursor) : (guarded g h k).Nodup := (lanesOf_nodup _).filter _

theorem mem_guarded {g : Group} {h : Head} {k : Cursor} {l : Nat} :
    l ∈ guarded g h k ↔ l ∈ lanesOf k.active ∧ ∃ t, g.lanes.get? l = some t ∧ t.guard h = true := by
  simp only [guarded, List.mem_filter]
  cases hg : g.lanes.get? l <;> simp

/-- The state of an issue as a state whose group is set. -/
theorem Issuing.as_set {s : State} {k : Cursor} {g : Group} (hi : Issuing s k g) (f : Group → Group) :
    s.modGroup k.gk f = s.setGroup k.gk (f g) := modGroup_of hi.group f

/-- The end of an issue over a group that is set, where some live lane remains. -/
theorem Issuing.finish_set {s : State} {k : Cursor} {g g' : Group} (hi : Issuing s k g) {l : Nat} {t : Thread}
    (hl : g'.lanes.get? l = some t) (ht : t.exited = false) :
    (s.setGroup k.gk g').finish k [] = s.issued k g' := hi.finish hl ht

/-- Every lane that executes advances. -/
theorem advance_all {k : Cursor} (g : Group) :
    LanesBecome k g (g.advanceActive k) (fun _ t => { t.step with wait := .none }) where
  rest := advanceAll_rest _ _
  others := fun l hl => by rw [Group.advanceActive, advanceAll_lanes _ _ _ (lanesOf_nodup _), if_neg hl]
  runs := fun l t hl h => by
    rw [Group.advanceActive, advanceAll_lanes _ _ _ (lanesOf_nodup _), if_pos hl, h]
    rfl

/-- Mode G over the group: the function that runs under the guard leaves the lanes, and every lane advances. -/
theorem groupMode_clean {s : State} {k : Cursor} {g : Group} (hi : Issuing s k g) (h : Head) (f : Group → Group)
    (hf : (f g).lanes = g.lanes) :
    groupMode h f k s = s.issued k ((if guardG g h k then f g else g).advanceActive k) := by
  obtain ⟨l, hl, t, h1, h2⟩ := hi.lane
  unfold groupMode
  simp only [group_of hi.group]
  refine hi.finish (l := l) (t := { t.step with wait := .none }) ?_ h2
  apply (advance_all (k := k) (if guardG g h k then f g else g)).runs l t hl
  split
  · rw [hf, h1]
  · exact h1

end Sys2Proof.Machine
end

