-- ==== Sys2Proof/Laws/Memory.lean ====
section
/-! SUPPORT. Reading after writing at a place, and that every operation over memory keeps the canonical form of the three
memories. -/

namespace Sys2Proof.Machine

/-! ## One byte -/

theorem setByte_byte (s : State) (p : Place) (a b : Nat) (v : Byte) :
    (s.setByte p a v).byte p b = if a = b then v else s.byte p b := by
  cases p <;> simp [State.setByte, State.byte, Tbl.read_write]

@[simp] theorem setByte_byte_same (s : State) (p : Place) (a : Nat) (v : Byte) : (s.setByte p a v).byte p a = v := by
  simp [setByte_byte]

theorem setByte_byte_other (s : State) (p : Place) {a b : Nat} (h : a ≠ b) (v : Byte) :
    (s.setByte p a v).byte p b = s.byte p b := by simp [setByte_byte, h]

/-- A write at one place leaves the bytes of every other place. -/
theorem setByte_byte_place (s : State) {p q : Place} (h : p ≠ q) (a b : Nat) (v : Byte) :
    (s.setByte p a v).byte q b = s.byte q b := by
  cases p <;> cases q <;> first | exact absurd rfl h | rfl

theorem setPoisons_byte (s : State) (p q : Place) (l : List Nat) (b : Nat) :
    (s.setPoisons p l).byte q b = s.byte q b := by cases p <;> cases q <;> rfl

theorem markStale_mems (s : State) (ls : List Nat) (c : Nat) :
    (s.markStale ls c).mem = s.mem ∧ (s.markStale ls c).scratch = s.scratch ∧ (s.markStale ls c).chip = s.chip := by
  unfold State.markStale
  generalize (s.watches.filter _) = ws
  induction ws generalizing s with
  | nil => exact ⟨rfl, rfl, rfl⟩
  | cons w t ih => rw [List.foldl_cons]; exact ih _

theorem markStale_byte (s : State) (ls : List Nat) (c : Nat) (q : Place) (b : Nat) :
    (s.markStale ls c).byte q b = s.byte q b := by
  obtain ⟨h1, h2, h3⟩ := markStale_mems s ls c
  cases q <;> simp [State.byte, h1, h2, h3]

theorem dropRels_byte (s : State) (p q : Place) (bs : Tbl Byte) (b : Nat) :
    (s.dropRels p bs).byte q b = s.byte q b := by
  unfold State.dropRels
  split
  · rfl
  · cases q <;> rfl

/-! ## Several bytes -/

theorem foldl_setByte_byte (bs : Tbl Byte) (s : State) (p : Place) (b : Nat) (h : ∀ e ∈ bs, e.1 ≠ b) :
    (bs.foldl (fun s e => s.setByte p e.1 e.2) s).byte p b = s.byte p b := by
  induction bs generalizing s with
  | nil => rfl
  | cons e t ih =>
    rw [List.foldl_cons, ih _ fun x hx => h x (List.mem_cons_of_mem _ hx)]
    exact setByte_byte_other s p (h e (List.mem_cons_self ..)) _

/-- A store leaves every byte that it does not name. -/
theorem write_byte_other (s : State) (p : Place) (bs : Tbl Byte) (b : Nat) (h : ∀ e ∈ bs, e.1 ≠ b) :
    (s.write p bs).byte p b = s.byte p b := by
  unfold State.write
  rw [foldl_setByte_byte _ _ _ _ h, dropRels_byte, State.clearPoison, setPoisons_byte]
  cases p
  · exact markStale_byte ..
  · rfl
  · rfl

theorem foldl_setByte_same (bs : Tbl Byte) (s : State) (p : Place) (hn : (bs.map (·.1)).Nodup) {a : Nat} {v : Byte}
    (h : (a, v) ∈ bs) : (bs.foldl (fun s e => s.setByte p e.1 e.2) s).byte p a = v := by
  induction bs generalizing s with
  | nil => cases h
  | cons e t ih =>
    rw [List.map_cons, List.nodup_cons] at hn
    rcases List.mem_cons.1 h with rfl | h
    · rw [List.foldl_cons, foldl_setByte_byte]
      · exact setByte_byte_same ..
      · intro x hx he
        exact hn.1 (List.mem_map.2 ⟨x, hx, he⟩)
    · exact ih _ hn.2 h

/-- A store of bytes at different addresses leaves each of them with its value. -/
theorem write_byte_same (s : State) (p : Place) (bs : Tbl Byte) (hn : (bs.map (·.1)).Nodup) {a : Nat} {v : Byte}
    (h : (a, v) ∈ bs) : (s.write p bs).byte p a = v := foldl_setByte_same bs _ p hn h

/-! ## The canonical form -/

theorem reset_memoriesWf : State.reset.memoriesWf := by
  refine ⟨?_, ?_, ?_⟩ <;> decide

theorem setByte_memoriesWf {s : State} (h : s.memoriesWf) (p : Place) (a : Nat) (v : Byte) :
    (s.setByte p a v).memoriesWf := by
  obtain ⟨h1, h2, h3⟩ := h
  cases p
  · exact ⟨Tbl.canonical_write h1 .., h2, h3⟩
  · exact ⟨h1, Tbl.canonical_write h2 .., h3⟩
  · exact ⟨h1, h2, Tbl.canonical_write h3 ..⟩

theorem setPoisons_memoriesWf {s : State} (h : s.memoriesWf) (p : Place) (l : List Nat) :
    (s.setPoisons p l).memoriesWf := by cases p <;> exact h

theorem dropRels_memoriesWf {s : State} (h : s.memoriesWf) (p : Place) (bs : Tbl Byte) :
    (s.dropRels p bs).memoriesWf := by
  unfold State.dropRels
  split <;> exact h

theorem markStale_memoriesWf {s : State} (h : s.memoriesWf) (ls : List Nat) (c : Nat) : (s.markStale ls c).memoriesWf := by
  obtain ⟨h1, h2, h3⟩ := markStale_mems s ls c
  simpa [State.memoriesWf, h1, h2, h3] using h

theorem foldl_setByte_memoriesWf (bs : Tbl Byte) {s : State} (h : s.memoriesWf) (p : Place) :
    (bs.foldl (fun s e => s.setByte p e.1 e.2) s).memoriesWf := by
  induction bs generalizing s with
  | nil => exact h
  | cons e t ih => exact ih (setByte_memoriesWf h ..)

theorem write_memoriesWf {s : State} (h : s.memoriesWf) (p : Place) (bs : Tbl Byte) : (s.write p bs).memoriesWf := by
  unfold State.write
  refine foldl_setByte_memoriesWf _ (dropRels_memoriesWf (setPoisons_memoriesWf ?_ _ _) _ _) _
  cases p
  · exact markStale_memoriesWf h _ _
  · exact h
  · exact h

theorem poisonRange_memoriesWf {s : State} (h : s.memoriesWf) (p : Place) (a n : Nat) :
    (s.poisonRange p a n).memoriesWf := setPoisons_memoriesWf h _ _

/-- Clearing an interval of a memory keeps the canonical form. -/
theorem dropRange_wf {m : List Host.Cell} (h : Memory.wf m = true) (lo hi : Nat) : Memory.wf (Tbl.dropRange m lo hi) = true :=
  Tbl.canonical_dropRange h lo hi

end Sys2Proof.Machine
end

