-- ==== Sys2Proof/Laws/State.lean ====
section
/-! SUPPORT. What each update of one part of the state leaves in every field, each true by computation, so that no proof
unfolds an update. -/

namespace Sys2Proof.Machine

/-! ## State.modCore -/

@[simp] theorem modCore_bstate (s : State) (c : Nat) (f : Core → Core) : (s.modCore c f).bstate = s.bstate := rfl
@[simp] theorem modCore_berr (s : State) (c : Nat) (f : Core → Core) : (s.modCore c f).berr = s.berr := rfl
@[simp] theorem modCore_bimg (s : State) (c : Nat) (f : Core → Core) : (s.modCore c f).bimg = s.bimg := rfl
@[simp] theorem modCore_blen (s : State) (c : Nat) (f : Core → Core) : (s.modCore c f).blen = s.blen := rfl
@[simp] theorem modCore_nonce (s : State) (c : Nat) (f : Core → Core) : (s.modCore c f).nonce = s.nonce := rfl
@[simp] theorem modCore_record (s : State) (c : Nat) (f : Core → Core) : (s.modCore c f).record = s.record := rfl
@[simp] theorem modCore_lcount (s : State) (c : Nat) (f : Core → Core) : (s.modCore c f).lcount = s.lcount := rfl
@[simp] theorem modCore_bootId (s : State) (c : Nat) (f : Core → Core) : (s.modCore c f).bootId = s.bootId := rfl
@[simp] theorem modCore_imgHash (s : State) (c : Nat) (f : Core → Core) : (s.modCore c f).imgHash = s.imgHash := rfl
@[simp] theorem modCore_unitMap (s : State) (c : Nat) (f : Core → Core) : (s.modCore c f).unitMap = s.unitMap := rfl
@[simp] theorem modCore_lock (s : State) (c : Nat) (f : Core → Core) : (s.modCore c f).lock = s.lock := rfl
@[simp] theorem modCore_pendingLimits (s : State) (c : Nat) (f : Core → Core) : (s.modCore c f).pendingLimits = s.pendingLimits := rfl
@[simp] theorem modCore_rootCode (s : State) (c : Nat) (f : Core → Core) : (s.modCore c f).rootCode = s.rootCode := rfl
@[simp] theorem modCore_fnCode (s : State) (c : Nat) (f : Core → Core) : (s.modCore c f).fnCode = s.fnCode := rfl
@[simp] theorem modCore_rootEntry (s : State) (c : Nat) (f : Core → Core) : (s.modCore c f).rootEntry = s.rootEntry := rfl
@[simp] theorem modCore_fnEntry (s : State) (c : Nat) (f : Core → Core) : (s.modCore c f).fnEntry = s.fnEntry := rfl
@[simp] theorem modCore_mainEn (s : State) (c : Nat) (f : Core → Core) : (s.modCore c f).mainEn = s.mainEn := rfl
@[simp] theorem modCore_mainOk (s : State) (c : Nat) (f : Core → Core) : (s.modCore c f).mainOk = s.mainOk := rfl
@[simp] theorem modCore_leak (s : State) (c : Nat) (f : Core → Core) : (s.modCore c f).leak = s.leak := rfl
@[simp] theorem modCore_baseDead (s : State) (c : Nat) (f : Core → Core) : (s.modCore c f).baseDead = s.baseDead := rfl
@[simp] theorem modCore_dies (s : State) (c : Nat) (f : Core → Core) : (s.modCore c f).dies = s.dies := rfl
@[simp] theorem modCore_clusters (s : State) (c : Nat) (f : Core → Core) : (s.modCore c f).clusters = s.clusters := rfl
@[simp] theorem modCore_links (s : State) (c : Nat) (f : Core → Core) : (s.modCore c f).links = s.links := rfl
@[simp] theorem modCore_peerSent (s : State) (c : Nat) (f : Core → Core) : (s.modCore c f).peerSent = s.peerSent := rfl
@[simp] theorem modCore_peerDone (s : State) (c : Nat) (f : Core → Core) : (s.modCore c f).peerDone = s.peerDone := rfl
@[simp] theorem modCore_peerHeld (s : State) (c : Nat) (f : Core → Core) : (s.modCore c f).peerHeld = s.peerHeld := rfl
@[simp] theorem modCore_octets (s : State) (c : Nat) (f : Core → Core) : (s.modCore c f).octets = s.octets := rfl
@[simp] theorem modCore_octetsUsed (s : State) (c : Nat) (f : Core → Core) : (s.modCore c f).octetsUsed = s.octetsUsed := rfl
@[simp] theorem modCore_dage (s : State) (c : Nat) (f : Core → Core) : (s.modCore c f).dage = s.dage := rfl
@[simp] theorem modCore_pgrace (s : State) (c : Nat) (f : Core → Core) : (s.modCore c f).pgrace = s.pgrace := rfl
@[simp] theorem modCore_slices (s : State) (c : Nat) (f : Core → Core) : (s.modCore c f).slices = s.slices := rfl
@[simp] theorem modCore_sliceNow (s : State) (c : Nat) (f : Core → Core) : (s.modCore c f).sliceNow = s.sliceNow := rfl
@[simp] theorem modCore_sliceClock (s : State) (c : Nat) (f : Core → Core) : (s.modCore c f).sliceClock = s.sliceClock := rfl
@[simp] theorem modCore_ageing (s : State) (c : Nat) (f : Core → Core) : (s.modCore c f).ageing = s.ageing := rfl
@[simp] theorem modCore_fns (s : State) (c : Nat) (f : Core → Core) : (s.modCore c f).fns = s.fns := rfl
@[simp] theorem modCore_ctxs (s : State) (c : Nat) (f : Core → Core) : (s.modCore c f).ctxs = s.ctxs := rfl
@[simp] theorem modCore_queues (s : State) (c : Nat) (f : Core → Core) : (s.modCore c f).queues = s.queues := rfl
@[simp] theorem modCore_grids (s : State) (c : Nat) (f : Core → Core) : (s.modCore c f).grids = s.grids := rfl
@[simp] theorem modCore_teams (s : State) (c : Nat) (f : Core → Core) : (s.modCore c f).teams = s.teams := rfl
@[simp] theorem modCore_savedTeams (s : State) (c : Nat) (f : Core → Core) : (s.modCore c f).savedTeams = s.savedTeams := rfl
@[simp] theorem modCore_groups (s : State) (c : Nat) (f : Core → Core) : (s.modCore c f).groups = s.groups := rfl
@[simp] theorem modCore_cores (s : State) (c : Nat) (f : Core → Core) : (s.modCore c f).cores = s.cores.put c (f (s.core c)) := rfl
@[simp] theorem modCore_icache (s : State) (c : Nat) (f : Core → Core) : (s.modCore c f).icache = s.icache := rfl
@[simp] theorem modCore_tlb2 (s : State) (c : Nat) (f : Core → Core) : (s.modCore c f).tlb2 = s.tlb2 := rfl
@[simp] theorem modCore_walks (s : State) (c : Nat) (f : Core → Core) : (s.modCore c f).walks = s.walks := rfl
@[simp] theorem modCore_flights (s : State) (c : Nat) (f : Core → Core) : (s.modCore c f).flights = s.flights := rfl
@[simp] theorem modCore_l2 (s : State) (c : Nat) (f : Core → Core) : (s.modCore c f).l2 = s.l2 := rfl
@[simp] theorem modCore_overlaps (s : State) (c : Nat) (f : Core → Core) : (s.modCore c f).overlaps = s.overlaps := rfl
@[simp] theorem modCore_strongs (s : State) (c : Nat) (f : Core → Core) : (s.modCore c f).strongs = s.strongs := rfl
@[simp] theorem modCore_rels (s : State) (c : Nat) (f : Core → Core) : (s.modCore c f).rels = s.rels := rfl
@[simp] theorem modCore_hazy (s : State) (c : Nat) (f : Core → Core) : (s.modCore c f).hazy = s.hazy := rfl
@[simp] theorem modCore_promos (s : State) (c : Nat) (f : Core → Core) : (s.modCore c f).promos = s.promos := rfl
@[simp] theorem modCore_residencies (s : State) (c : Nat) (f : Core → Core) : (s.modCore c f).residencies = s.residencies := rfl
@[simp] theorem modCore_watches (s : State) (c : Nat) (f : Core → Core) : (s.modCore c f).watches = s.watches := rfl
@[simp] theorem modCore_barSlots (s : State) (c : Nat) (f : Core → Core) : (s.modCore c f).barSlots = s.barSlots := rfl
@[simp] theorem modCore_jobs (s : State) (c : Nat) (f : Core → Core) : (s.modCore c f).jobs = s.jobs := rfl
@[simp] theorem modCore_remains (s : State) (c : Nat) (f : Core → Core) : (s.modCore c f).remains = s.remains := rfl
@[simp] theorem modCore_heldRecords (s : State) (c : Nat) (f : Core → Core) : (s.modCore c f).heldRecords = s.heldRecords := rfl
@[simp] theorem modCore_tokens (s : State) (c : Nat) (f : Core → Core) : (s.modCore c f).tokens = s.tokens := rfl
@[simp] theorem modCore_mem (s : State) (c : Nat) (f : Core → Core) : (s.modCore c f).mem = s.mem := rfl
@[simp] theorem modCore_memPoison (s : State) (c : Nat) (f : Core → Core) : (s.modCore c f).memPoison = s.memPoison := rfl
@[simp] theorem modCore_scratch (s : State) (c : Nat) (f : Core → Core) : (s.modCore c f).scratch = s.scratch := rfl
@[simp] theorem modCore_scratchPoison (s : State) (c : Nat) (f : Core → Core) : (s.modCore c f).scratchPoison = s.scratchPoison := rfl
@[simp] theorem modCore_chip (s : State) (c : Nat) (f : Core → Core) : (s.modCore c f).chip = s.chip := rfl
@[simp] theorem modCore_chipPoison (s : State) (c : Nat) (f : Core → Core) : (s.modCore c f).chipPoison = s.chipPoison := rfl
@[simp] theorem modCore_acc (s : State) (c : Nat) (f : Core → Core) : (s.modCore c f).acc = s.acc := rfl
@[simp] theorem modCore_accPoison (s : State) (c : Nat) (f : Core → Core) : (s.modCore c f).accPoison = s.accPoison := rfl
@[simp] theorem modCore_weights (s : State) (c : Nat) (f : Core → Core) : (s.modCore c f).weights = s.weights := rfl
@[simp] theorem modCore_scales (s : State) (c : Nat) (f : Core → Core) : (s.modCore c f).scales = s.scales := rfl
@[simp] theorem modCore_agenda (s : State) (c : Nat) (f : Core → Core) : (s.modCore c f).agenda = s.agenda := rfl
@[simp] theorem modCore_cur (s : State) (c : Nat) (f : Core → Core) : (s.modCore c f).cur = s.cur := rfl
@[simp] theorem modCore_closing (s : State) (c : Nat) (f : Core → Core) : (s.modCore c f).closing = s.closing := rfl
@[simp] theorem modCore_freeCount (s : State) (c : Nat) (f : Core → Core) : (s.modCore c f).freeCount = s.freeCount := rfl
@[simp] theorem modCore_nextId (s : State) (c : Nat) (f : Core → Core) : (s.modCore c f).nextId = s.nextId := rfl
@[simp] theorem modCore_clock (s : State) (c : Nat) (f : Core → Core) : (s.modCore c f).clock = s.clock := rfl
@[simp] theorem modCore_sent (s : State) (c : Nat) (f : Core → Core) : (s.modCore c f).sent = s.sent := rfl

/-! ## State.modDie -/

@[simp] theorem modDie_bstate (s : State) (p : Nat) (f : Die → Die) : (s.modDie p f).bstate = s.bstate := rfl
@[simp] theorem modDie_berr (s : State) (p : Nat) (f : Die → Die) : (s.modDie p f).berr = s.berr := rfl
@[simp] theorem modDie_bimg (s : State) (p : Nat) (f : Die → Die) : (s.modDie p f).bimg = s.bimg := rfl
@[simp] theorem modDie_blen (s : State) (p : Nat) (f : Die → Die) : (s.modDie p f).blen = s.blen := rfl
@[simp] theorem modDie_nonce (s : State) (p : Nat) (f : Die → Die) : (s.modDie p f).nonce = s.nonce := rfl
@[simp] theorem modDie_record (s : State) (p : Nat) (f : Die → Die) : (s.modDie p f).record = s.record := rfl
@[simp] theorem modDie_lcount (s : State) (p : Nat) (f : Die → Die) : (s.modDie p f).lcount = s.lcount := rfl
@[simp] theorem modDie_bootId (s : State) (p : Nat) (f : Die → Die) : (s.modDie p f).bootId = s.bootId := rfl
@[simp] theorem modDie_imgHash (s : State) (p : Nat) (f : Die → Die) : (s.modDie p f).imgHash = s.imgHash := rfl
@[simp] theorem modDie_unitMap (s : State) (p : Nat) (f : Die → Die) : (s.modDie p f).unitMap = s.unitMap := rfl
@[simp] theorem modDie_lock (s : State) (p : Nat) (f : Die → Die) : (s.modDie p f).lock = s.lock := rfl
@[simp] theorem modDie_pendingLimits (s : State) (p : Nat) (f : Die → Die) : (s.modDie p f).pendingLimits = s.pendingLimits := rfl
@[simp] theorem modDie_rootCode (s : State) (p : Nat) (f : Die → Die) : (s.modDie p f).rootCode = s.rootCode := rfl
@[simp] theorem modDie_fnCode (s : State) (p : Nat) (f : Die → Die) : (s.modDie p f).fnCode = s.fnCode := rfl
@[simp] theorem modDie_rootEntry (s : State) (p : Nat) (f : Die → Die) : (s.modDie p f).rootEntry = s.rootEntry := rfl
@[simp] theorem modDie_fnEntry (s : State) (p : Nat) (f : Die → Die) : (s.modDie p f).fnEntry = s.fnEntry := rfl
@[simp] theorem modDie_mainEn (s : State) (p : Nat) (f : Die → Die) : (s.modDie p f).mainEn = s.mainEn := rfl
@[simp] theorem modDie_mainOk (s : State) (p : Nat) (f : Die → Die) : (s.modDie p f).mainOk = s.mainOk := rfl
@[simp] theorem modDie_leak (s : State) (p : Nat) (f : Die → Die) : (s.modDie p f).leak = s.leak := rfl
@[simp] theorem modDie_baseDead (s : State) (p : Nat) (f : Die → Die) : (s.modDie p f).baseDead = s.baseDead := rfl
@[simp] theorem modDie_dies (s : State) (p : Nat) (f : Die → Die) : (s.modDie p f).dies = s.dies.put p (f (s.die p)) := rfl
@[simp] theorem modDie_clusters (s : State) (p : Nat) (f : Die → Die) : (s.modDie p f).clusters = s.clusters := rfl
@[simp] theorem modDie_links (s : State) (p : Nat) (f : Die → Die) : (s.modDie p f).links = s.links := rfl
@[simp] theorem modDie_peerSent (s : State) (p : Nat) (f : Die → Die) : (s.modDie p f).peerSent = s.peerSent := rfl
@[simp] theorem modDie_peerDone (s : State) (p : Nat) (f : Die → Die) : (s.modDie p f).peerDone = s.peerDone := rfl
@[simp] theorem modDie_peerHeld (s : State) (p : Nat) (f : Die → Die) : (s.modDie p f).peerHeld = s.peerHeld := rfl
@[simp] theorem modDie_octets (s : State) (p : Nat) (f : Die → Die) : (s.modDie p f).octets = s.octets := rfl
@[simp] theorem modDie_octetsUsed (s : State) (p : Nat) (f : Die → Die) : (s.modDie p f).octetsUsed = s.octetsUsed := rfl
@[simp] theorem modDie_dage (s : State) (p : Nat) (f : Die → Die) : (s.modDie p f).dage = s.dage := rfl
@[simp] theorem modDie_pgrace (s : State) (p : Nat) (f : Die → Die) : (s.modDie p f).pgrace = s.pgrace := rfl
@[simp] theorem modDie_slices (s : State) (p : Nat) (f : Die → Die) : (s.modDie p f).slices = s.slices := rfl
@[simp] theorem modDie_sliceNow (s : State) (p : Nat) (f : Die → Die) : (s.modDie p f).sliceNow = s.sliceNow := rfl
@[simp] theorem modDie_sliceClock (s : State) (p : Nat) (f : Die → Die) : (s.modDie p f).sliceClock = s.sliceClock := rfl
@[simp] theorem modDie_ageing (s : State) (p : Nat) (f : Die → Die) : (s.modDie p f).ageing = s.ageing := rfl
@[simp] theorem modDie_fns (s : State) (p : Nat) (f : Die → Die) : (s.modDie p f).fns = s.fns := rfl
@[simp] theorem modDie_ctxs (s : State) (p : Nat) (f : Die → Die) : (s.modDie p f).ctxs = s.ctxs := rfl
@[simp] theorem modDie_queues (s : State) (p : Nat) (f : Die → Die) : (s.modDie p f).queues = s.queues := rfl
@[simp] theorem modDie_grids (s : State) (p : Nat) (f : Die → Die) : (s.modDie p f).grids = s.grids := rfl
@[simp] theorem modDie_teams (s : State) (p : Nat) (f : Die → Die) : (s.modDie p f).teams = s.teams := rfl
@[simp] theorem modDie_savedTeams (s : State) (p : Nat) (f : Die → Die) : (s.modDie p f).savedTeams = s.savedTeams := rfl
@[simp] theorem modDie_groups (s : State) (p : Nat) (f : Die → Die) : (s.modDie p f).groups = s.groups := rfl
@[simp] theorem modDie_cores (s : State) (p : Nat) (f : Die → Die) : (s.modDie p f).cores = s.cores := rfl
@[simp] theorem modDie_icache (s : State) (p : Nat) (f : Die → Die) : (s.modDie p f).icache = s.icache := rfl
@[simp] theorem modDie_tlb2 (s : State) (p : Nat) (f : Die → Die) : (s.modDie p f).tlb2 = s.tlb2 := rfl
@[simp] theorem modDie_walks (s : State) (p : Nat) (f : Die → Die) : (s.modDie p f).walks = s.walks := rfl
@[simp] theorem modDie_flights (s : State) (p : Nat) (f : Die → Die) : (s.modDie p f).flights = s.flights := rfl
@[simp] theorem modDie_l2 (s : State) (p : Nat) (f : Die → Die) : (s.modDie p f).l2 = s.l2 := rfl
@[simp] theorem modDie_overlaps (s : State) (p : Nat) (f : Die → Die) : (s.modDie p f).overlaps = s.overlaps := rfl
@[simp] theorem modDie_strongs (s : State) (p : Nat) (f : Die → Die) : (s.modDie p f).strongs = s.strongs := rfl
@[simp] theorem modDie_rels (s : State) (p : Nat) (f : Die → Die) : (s.modDie p f).rels = s.rels := rfl
@[simp] theorem modDie_hazy (s : State) (p : Nat) (f : Die → Die) : (s.modDie p f).hazy = s.hazy := rfl
@[simp] theorem modDie_promos (s : State) (p : Nat) (f : Die → Die) : (s.modDie p f).promos = s.promos := rfl
@[simp] theorem modDie_residencies (s : State) (p : Nat) (f : Die → Die) : (s.modDie p f).residencies = s.residencies := rfl
@[simp] theorem modDie_watches (s : State) (p : Nat) (f : Die → Die) : (s.modDie p f).watches = s.watches := rfl
@[simp] theorem modDie_barSlots (s : State) (p : Nat) (f : Die → Die) : (s.modDie p f).barSlots = s.barSlots := rfl
@[simp] theorem modDie_jobs (s : State) (p : Nat) (f : Die → Die) : (s.modDie p f).jobs = s.jobs := rfl
@[simp] theorem modDie_remains (s : State) (p : Nat) (f : Die → Die) : (s.modDie p f).remains = s.remains := rfl
@[simp] theorem modDie_heldRecords (s : State) (p : Nat) (f : Die → Die) : (s.modDie p f).heldRecords = s.heldRecords := rfl
@[simp] theorem modDie_tokens (s : State) (p : Nat) (f : Die → Die) : (s.modDie p f).tokens = s.tokens := rfl
@[simp] theorem modDie_mem (s : State) (p : Nat) (f : Die → Die) : (s.modDie p f).mem = s.mem := rfl
@[simp] theorem modDie_memPoison (s : State) (p : Nat) (f : Die → Die) : (s.modDie p f).memPoison = s.memPoison := rfl
@[simp] theorem modDie_scratch (s : State) (p : Nat) (f : Die → Die) : (s.modDie p f).scratch = s.scratch := rfl
@[simp] theorem modDie_scratchPoison (s : State) (p : Nat) (f : Die → Die) : (s.modDie p f).scratchPoison = s.scratchPoison := rfl
@[simp] theorem modDie_chip (s : State) (p : Nat) (f : Die → Die) : (s.modDie p f).chip = s.chip := rfl
@[simp] theorem modDie_chipPoison (s : State) (p : Nat) (f : Die → Die) : (s.modDie p f).chipPoison = s.chipPoison := rfl
@[simp] theorem modDie_acc (s : State) (p : Nat) (f : Die → Die) : (s.modDie p f).acc = s.acc := rfl
@[simp] theorem modDie_accPoison (s : State) (p : Nat) (f : Die → Die) : (s.modDie p f).accPoison = s.accPoison := rfl
@[simp] theorem modDie_weights (s : State) (p : Nat) (f : Die → Die) : (s.modDie p f).weights = s.weights := rfl
@[simp] theorem modDie_scales (s : State) (p : Nat) (f : Die → Die) : (s.modDie p f).scales = s.scales := rfl
@[simp] theorem modDie_agenda (s : State) (p : Nat) (f : Die → Die) : (s.modDie p f).agenda = s.agenda := rfl
@[simp] theorem modDie_cur (s : State) (p : Nat) (f : Die → Die) : (s.modDie p f).cur = s.cur := rfl
@[simp] theorem modDie_closing (s : State) (p : Nat) (f : Die → Die) : (s.modDie p f).closing = s.closing := rfl
@[simp] theorem modDie_freeCount (s : State) (p : Nat) (f : Die → Die) : (s.modDie p f).freeCount = s.freeCount := rfl
@[simp] theorem modDie_nextId (s : State) (p : Nat) (f : Die → Die) : (s.modDie p f).nextId = s.nextId := rfl
@[simp] theorem modDie_clock (s : State) (p : Nat) (f : Die → Die) : (s.modDie p f).clock = s.clock := rfl
@[simp] theorem modDie_sent (s : State) (p : Nat) (f : Die → Die) : (s.modDie p f).sent = s.sent := rfl

/-! ## State.modCluster -/

@[simp] theorem modCluster_bstate (s : State) (k : Nat) (f : Cluster → Cluster) : (s.modCluster k f).bstate = s.bstate := rfl
@[simp] theorem modCluster_berr (s : State) (k : Nat) (f : Cluster → Cluster) : (s.modCluster k f).berr = s.berr := rfl
@[simp] theorem modCluster_bimg (s : State) (k : Nat) (f : Cluster → Cluster) : (s.modCluster k f).bimg = s.bimg := rfl
@[simp] theorem modCluster_blen (s : State) (k : Nat) (f : Cluster → Cluster) : (s.modCluster k f).blen = s.blen := rfl
@[simp] theorem modCluster_nonce (s : State) (k : Nat) (f : Cluster → Cluster) : (s.modCluster k f).nonce = s.nonce := rfl
@[simp] theorem modCluster_record (s : State) (k : Nat) (f : Cluster → Cluster) : (s.modCluster k f).record = s.record := rfl
@[simp] theorem modCluster_lcount (s : State) (k : Nat) (f : Cluster → Cluster) : (s.modCluster k f).lcount = s.lcount := rfl
@[simp] theorem modCluster_bootId (s : State) (k : Nat) (f : Cluster → Cluster) : (s.modCluster k f).bootId = s.bootId := rfl
@[simp] theorem modCluster_imgHash (s : State) (k : Nat) (f : Cluster → Cluster) : (s.modCluster k f).imgHash = s.imgHash := rfl
@[simp] theorem modCluster_unitMap (s : State) (k : Nat) (f : Cluster → Cluster) : (s.modCluster k f).unitMap = s.unitMap := rfl
@[simp] theorem modCluster_lock (s : State) (k : Nat) (f : Cluster → Cluster) : (s.modCluster k f).lock = s.lock := rfl
@[simp] theorem modCluster_pendingLimits (s : State) (k : Nat) (f : Cluster → Cluster) : (s.modCluster k f).pendingLimits = s.pendingLimits := rfl
@[simp] theorem modCluster_rootCode (s : State) (k : Nat) (f : Cluster → Cluster) : (s.modCluster k f).rootCode = s.rootCode := rfl
@[simp] theorem modCluster_fnCode (s : State) (k : Nat) (f : Cluster → Cluster) : (s.modCluster k f).fnCode = s.fnCode := rfl
@[simp] theorem modCluster_rootEntry (s : State) (k : Nat) (f : Cluster → Cluster) : (s.modCluster k f).rootEntry = s.rootEntry := rfl
@[simp] theorem modCluster_fnEntry (s : State) (k : Nat) (f : Cluster → Cluster) : (s.modCluster k f).fnEntry = s.fnEntry := rfl
@[simp] theorem modCluster_mainEn (s : State) (k : Nat) (f : Cluster → Cluster) : (s.modCluster k f).mainEn = s.mainEn := rfl
@[simp] theorem modCluster_mainOk (s : State) (k : Nat) (f : Cluster → Cluster) : (s.modCluster k f).mainOk = s.mainOk := rfl
@[simp] theorem modCluster_leak (s : State) (k : Nat) (f : Cluster → Cluster) : (s.modCluster k f).leak = s.leak := rfl
@[simp] theorem modCluster_baseDead (s : State) (k : Nat) (f : Cluster → Cluster) : (s.modCluster k f).baseDead = s.baseDead := rfl
@[simp] theorem modCluster_dies (s : State) (k : Nat) (f : Cluster → Cluster) : (s.modCluster k f).dies = s.dies := rfl
@[simp] theorem modCluster_clusters (s : State) (k : Nat) (f : Cluster → Cluster) : (s.modCluster k f).clusters = s.clusters.put k (f (s.cluster k)) := rfl
@[simp] theorem modCluster_links (s : State) (k : Nat) (f : Cluster → Cluster) : (s.modCluster k f).links = s.links := rfl
@[simp] theorem modCluster_peerSent (s : State) (k : Nat) (f : Cluster → Cluster) : (s.modCluster k f).peerSent = s.peerSent := rfl
@[simp] theorem modCluster_peerDone (s : State) (k : Nat) (f : Cluster → Cluster) : (s.modCluster k f).peerDone = s.peerDone := rfl
@[simp] theorem modCluster_peerHeld (s : State) (k : Nat) (f : Cluster → Cluster) : (s.modCluster k f).peerHeld = s.peerHeld := rfl
@[simp] theorem modCluster_octets (s : State) (k : Nat) (f : Cluster → Cluster) : (s.modCluster k f).octets = s.octets := rfl
@[simp] theorem modCluster_octetsUsed (s : State) (k : Nat) (f : Cluster → Cluster) : (s.modCluster k f).octetsUsed = s.octetsUsed := rfl
@[simp] theorem modCluster_dage (s : State) (k : Nat) (f : Cluster → Cluster) : (s.modCluster k f).dage = s.dage := rfl
@[simp] theorem modCluster_pgrace (s : State) (k : Nat) (f : Cluster → Cluster) : (s.modCluster k f).pgrace = s.pgrace := rfl
@[simp] theorem modCluster_slices (s : State) (k : Nat) (f : Cluster → Cluster) : (s.modCluster k f).slices = s.slices := rfl
@[simp] theorem modCluster_sliceNow (s : State) (k : Nat) (f : Cluster → Cluster) : (s.modCluster k f).sliceNow = s.sliceNow := rfl
@[simp] theorem modCluster_sliceClock (s : State) (k : Nat) (f : Cluster → Cluster) : (s.modCluster k f).sliceClock = s.sliceClock := rfl
@[simp] theorem modCluster_ageing (s : State) (k : Nat) (f : Cluster → Cluster) : (s.modCluster k f).ageing = s.ageing := rfl
@[simp] theorem modCluster_fns (s : State) (k : Nat) (f : Cluster → Cluster) : (s.modCluster k f).fns = s.fns := rfl
@[simp] theorem modCluster_ctxs (s : State) (k : Nat) (f : Cluster → Cluster) : (s.modCluster k f).ctxs = s.ctxs := rfl
@[simp] theorem modCluster_queues (s : State) (k : Nat) (f : Cluster → Cluster) : (s.modCluster k f).queues = s.queues := rfl
@[simp] theorem modCluster_grids (s : State) (k : Nat) (f : Cluster → Cluster) : (s.modCluster k f).grids = s.grids := rfl
@[simp] theorem modCluster_teams (s : State) (k : Nat) (f : Cluster → Cluster) : (s.modCluster k f).teams = s.teams := rfl
@[simp] theorem modCluster_savedTeams (s : State) (k : Nat) (f : Cluster → Cluster) : (s.modCluster k f).savedTeams = s.savedTeams := rfl
@[simp] theorem modCluster_groups (s : State) (k : Nat) (f : Cluster → Cluster) : (s.modCluster k f).groups = s.groups := rfl
@[simp] theorem modCluster_cores (s : State) (k : Nat) (f : Cluster → Cluster) : (s.modCluster k f).cores = s.cores := rfl
@[simp] theorem modCluster_icache (s : State) (k : Nat) (f : Cluster → Cluster) : (s.modCluster k f).icache = s.icache := rfl
@[simp] theorem modCluster_tlb2 (s : State) (k : Nat) (f : Cluster → Cluster) : (s.modCluster k f).tlb2 = s.tlb2 := rfl
@[simp] theorem modCluster_walks (s : State) (k : Nat) (f : Cluster → Cluster) : (s.modCluster k f).walks = s.walks := rfl
@[simp] theorem modCluster_flights (s : State) (k : Nat) (f : Cluster → Cluster) : (s.modCluster k f).flights = s.flights := rfl
@[simp] theorem modCluster_l2 (s : State) (k : Nat) (f : Cluster → Cluster) : (s.modCluster k f).l2 = s.l2 := rfl
@[simp] theorem modCluster_overlaps (s : State) (k : Nat) (f : Cluster → Cluster) : (s.modCluster k f).overlaps = s.overlaps := rfl
@[simp] theorem modCluster_strongs (s : State) (k : Nat) (f : Cluster → Cluster) : (s.modCluster k f).strongs = s.strongs := rfl
@[simp] theorem modCluster_rels (s : State) (k : Nat) (f : Cluster → Cluster) : (s.modCluster k f).rels = s.rels := rfl
@[simp] theorem modCluster_hazy (s : State) (k : Nat) (f : Cluster → Cluster) : (s.modCluster k f).hazy = s.hazy := rfl
@[simp] theorem modCluster_promos (s : State) (k : Nat) (f : Cluster → Cluster) : (s.modCluster k f).promos = s.promos := rfl
@[simp] theorem modCluster_residencies (s : State) (k : Nat) (f : Cluster → Cluster) : (s.modCluster k f).residencies = s.residencies := rfl
@[simp] theorem modCluster_watches (s : State) (k : Nat) (f : Cluster → Cluster) : (s.modCluster k f).watches = s.watches := rfl
@[simp] theorem modCluster_barSlots (s : State) (k : Nat) (f : Cluster → Cluster) : (s.modCluster k f).barSlots = s.barSlots := rfl
@[simp] theorem modCluster_jobs (s : State) (k : Nat) (f : Cluster → Cluster) : (s.modCluster k f).jobs = s.jobs := rfl
@[simp] theorem modCluster_remains (s : State) (k : Nat) (f : Cluster → Cluster) : (s.modCluster k f).remains = s.remains := rfl
@[simp] theorem modCluster_heldRecords (s : State) (k : Nat) (f : Cluster → Cluster) : (s.modCluster k f).heldRecords = s.heldRecords := rfl
@[simp] theorem modCluster_tokens (s : State) (k : Nat) (f : Cluster → Cluster) : (s.modCluster k f).tokens = s.tokens := rfl
@[simp] theorem modCluster_mem (s : State) (k : Nat) (f : Cluster → Cluster) : (s.modCluster k f).mem = s.mem := rfl
@[simp] theorem modCluster_memPoison (s : State) (k : Nat) (f : Cluster → Cluster) : (s.modCluster k f).memPoison = s.memPoison := rfl
@[simp] theorem modCluster_scratch (s : State) (k : Nat) (f : Cluster → Cluster) : (s.modCluster k f).scratch = s.scratch := rfl
@[simp] theorem modCluster_scratchPoison (s : State) (k : Nat) (f : Cluster → Cluster) : (s.modCluster k f).scratchPoison = s.scratchPoison := rfl
@[simp] theorem modCluster_chip (s : State) (k : Nat) (f : Cluster → Cluster) : (s.modCluster k f).chip = s.chip := rfl
@[simp] theorem modCluster_chipPoison (s : State) (k : Nat) (f : Cluster → Cluster) : (s.modCluster k f).chipPoison = s.chipPoison := rfl
@[simp] theorem modCluster_acc (s : State) (k : Nat) (f : Cluster → Cluster) : (s.modCluster k f).acc = s.acc := rfl
@[simp] theorem modCluster_accPoison (s : State) (k : Nat) (f : Cluster → Cluster) : (s.modCluster k f).accPoison = s.accPoison := rfl
@[simp] theorem modCluster_weights (s : State) (k : Nat) (f : Cluster → Cluster) : (s.modCluster k f).weights = s.weights := rfl
@[simp] theorem modCluster_scales (s : State) (k : Nat) (f : Cluster → Cluster) : (s.modCluster k f).scales = s.scales := rfl
@[simp] theorem modCluster_agenda (s : State) (k : Nat) (f : Cluster → Cluster) : (s.modCluster k f).agenda = s.agenda := rfl
@[simp] theorem modCluster_cur (s : State) (k : Nat) (f : Cluster → Cluster) : (s.modCluster k f).cur = s.cur := rfl
@[simp] theorem modCluster_closing (s : State) (k : Nat) (f : Cluster → Cluster) : (s.modCluster k f).closing = s.closing := rfl
@[simp] theorem modCluster_freeCount (s : State) (k : Nat) (f : Cluster → Cluster) : (s.modCluster k f).freeCount = s.freeCount := rfl
@[simp] theorem modCluster_nextId (s : State) (k : Nat) (f : Cluster → Cluster) : (s.modCluster k f).nextId = s.nextId := rfl
@[simp] theorem modCluster_clock (s : State) (k : Nat) (f : Cluster → Cluster) : (s.modCluster k f).clock = s.clock := rfl
@[simp] theorem modCluster_sent (s : State) (k : Nat) (f : Cluster → Cluster) : (s.modCluster k f).sent = s.sent := rfl

/-! ## State.modLink -/

@[simp] theorem modLink_bstate (s : State) (k : Nat) (f : Port → Port) : (s.modLink k f).bstate = s.bstate := rfl
@[simp] theorem modLink_berr (s : State) (k : Nat) (f : Port → Port) : (s.modLink k f).berr = s.berr := rfl
@[simp] theorem modLink_bimg (s : State) (k : Nat) (f : Port → Port) : (s.modLink k f).bimg = s.bimg := rfl
@[simp] theorem modLink_blen (s : State) (k : Nat) (f : Port → Port) : (s.modLink k f).blen = s.blen := rfl
@[simp] theorem modLink_nonce (s : State) (k : Nat) (f : Port → Port) : (s.modLink k f).nonce = s.nonce := rfl
@[simp] theorem modLink_record (s : State) (k : Nat) (f : Port → Port) : (s.modLink k f).record = s.record := rfl
@[simp] theorem modLink_lcount (s : State) (k : Nat) (f : Port → Port) : (s.modLink k f).lcount = s.lcount := rfl
@[simp] theorem modLink_bootId (s : State) (k : Nat) (f : Port → Port) : (s.modLink k f).bootId = s.bootId := rfl
@[simp] theorem modLink_imgHash (s : State) (k : Nat) (f : Port → Port) : (s.modLink k f).imgHash = s.imgHash := rfl
@[simp] theorem modLink_unitMap (s : State) (k : Nat) (f : Port → Port) : (s.modLink k f).unitMap = s.unitMap := rfl
@[simp] theorem modLink_lock (s : State) (k : Nat) (f : Port → Port) : (s.modLink k f).lock = s.lock := rfl
@[simp] theorem modLink_pendingLimits (s : State) (k : Nat) (f : Port → Port) : (s.modLink k f).pendingLimits = s.pendingLimits := rfl
@[simp] theorem modLink_rootCode (s : State) (k : Nat) (f : Port → Port) : (s.modLink k f).rootCode = s.rootCode := rfl
@[simp] theorem modLink_fnCode (s : State) (k : Nat) (f : Port → Port) : (s.modLink k f).fnCode = s.fnCode := rfl
@[simp] theorem modLink_rootEntry (s : State) (k : Nat) (f : Port → Port) : (s.modLink k f).rootEntry = s.rootEntry := rfl
@[simp] theorem modLink_fnEntry (s : State) (k : Nat) (f : Port → Port) : (s.modLink k f).fnEntry = s.fnEntry := rfl
@[simp] theorem modLink_mainEn (s : State) (k : Nat) (f : Port → Port) : (s.modLink k f).mainEn = s.mainEn := rfl
@[simp] theorem modLink_mainOk (s : State) (k : Nat) (f : Port → Port) : (s.modLink k f).mainOk = s.mainOk := rfl
@[simp] theorem modLink_leak (s : State) (k : Nat) (f : Port → Port) : (s.modLink k f).leak = s.leak := rfl
@[simp] theorem modLink_baseDead (s : State) (k : Nat) (f : Port → Port) : (s.modLink k f).baseDead = s.baseDead := rfl
@[simp] theorem modLink_dies (s : State) (k : Nat) (f : Port → Port) : (s.modLink k f).dies = s.dies := rfl
@[simp] theorem modLink_clusters (s : State) (k : Nat) (f : Port → Port) : (s.modLink k f).clusters = s.clusters := rfl
@[simp] theorem modLink_links (s : State) (k : Nat) (f : Port → Port) : (s.modLink k f).links = s.links.put k (f (s.link k)) := rfl
@[simp] theorem modLink_peerSent (s : State) (k : Nat) (f : Port → Port) : (s.modLink k f).peerSent = s.peerSent := rfl
@[simp] theorem modLink_peerDone (s : State) (k : Nat) (f : Port → Port) : (s.modLink k f).peerDone = s.peerDone := rfl
@[simp] theorem modLink_peerHeld (s : State) (k : Nat) (f : Port → Port) : (s.modLink k f).peerHeld = s.peerHeld := rfl
@[simp] theorem modLink_octets (s : State) (k : Nat) (f : Port → Port) : (s.modLink k f).octets = s.octets := rfl
@[simp] theorem modLink_octetsUsed (s : State) (k : Nat) (f : Port → Port) : (s.modLink k f).octetsUsed = s.octetsUsed := rfl
@[simp] theorem modLink_dage (s : State) (k : Nat) (f : Port → Port) : (s.modLink k f).dage = s.dage := rfl
@[simp] theorem modLink_pgrace (s : State) (k : Nat) (f : Port → Port) : (s.modLink k f).pgrace = s.pgrace := rfl
@[simp] theorem modLink_slices (s : State) (k : Nat) (f : Port → Port) : (s.modLink k f).slices = s.slices := rfl
@[simp] theorem modLink_sliceNow (s : State) (k : Nat) (f : Port → Port) : (s.modLink k f).sliceNow = s.sliceNow := rfl
@[simp] theorem modLink_sliceClock (s : State) (k : Nat) (f : Port → Port) : (s.modLink k f).sliceClock = s.sliceClock := rfl
@[simp] theorem modLink_ageing (s : State) (k : Nat) (f : Port → Port) : (s.modLink k f).ageing = s.ageing := rfl
@[simp] theorem modLink_fns (s : State) (k : Nat) (f : Port → Port) : (s.modLink k f).fns = s.fns := rfl
@[simp] theorem modLink_ctxs (s : State) (k : Nat) (f : Port → Port) : (s.modLink k f).ctxs = s.ctxs := rfl
@[simp] theorem modLink_queues (s : State) (k : Nat) (f : Port → Port) : (s.modLink k f).queues = s.queues := rfl
@[simp] theorem modLink_grids (s : State) (k : Nat) (f : Port → Port) : (s.modLink k f).grids = s.grids := rfl
@[simp] theorem modLink_teams (s : State) (k : Nat) (f : Port → Port) : (s.modLink k f).teams = s.teams := rfl
@[simp] theorem modLink_savedTeams (s : State) (k : Nat) (f : Port → Port) : (s.modLink k f).savedTeams = s.savedTeams := rfl
@[simp] theorem modLink_groups (s : State) (k : Nat) (f : Port → Port) : (s.modLink k f).groups = s.groups := rfl
@[simp] theorem modLink_cores (s : State) (k : Nat) (f : Port → Port) : (s.modLink k f).cores = s.cores := rfl
@[simp] theorem modLink_icache (s : State) (k : Nat) (f : Port → Port) : (s.modLink k f).icache = s.icache := rfl
@[simp] theorem modLink_tlb2 (s : State) (k : Nat) (f : Port → Port) : (s.modLink k f).tlb2 = s.tlb2 := rfl
@[simp] theorem modLink_walks (s : State) (k : Nat) (f : Port → Port) : (s.modLink k f).walks = s.walks := rfl
@[simp] theorem modLink_flights (s : State) (k : Nat) (f : Port → Port) : (s.modLink k f).flights = s.flights := rfl
@[simp] theorem modLink_l2 (s : State) (k : Nat) (f : Port → Port) : (s.modLink k f).l2 = s.l2 := rfl
@[simp] theorem modLink_overlaps (s : State) (k : Nat) (f : Port → Port) : (s.modLink k f).overlaps = s.overlaps := rfl
@[simp] theorem modLink_strongs (s : State) (k : Nat) (f : Port → Port) : (s.modLink k f).strongs = s.strongs := rfl
@[simp] theorem modLink_rels (s : State) (k : Nat) (f : Port → Port) : (s.modLink k f).rels = s.rels := rfl
@[simp] theorem modLink_hazy (s : State) (k : Nat) (f : Port → Port) : (s.modLink k f).hazy = s.hazy := rfl
@[simp] theorem modLink_promos (s : State) (k : Nat) (f : Port → Port) : (s.modLink k f).promos = s.promos := rfl
@[simp] theorem modLink_residencies (s : State) (k : Nat) (f : Port → Port) : (s.modLink k f).residencies = s.residencies := rfl
@[simp] theorem modLink_watches (s : State) (k : Nat) (f : Port → Port) : (s.modLink k f).watches = s.watches := rfl
@[simp] theorem modLink_barSlots (s : State) (k : Nat) (f : Port → Port) : (s.modLink k f).barSlots = s.barSlots := rfl
@[simp] theorem modLink_jobs (s : State) (k : Nat) (f : Port → Port) : (s.modLink k f).jobs = s.jobs := rfl
@[simp] theorem modLink_remains (s : State) (k : Nat) (f : Port → Port) : (s.modLink k f).remains = s.remains := rfl
@[simp] theorem modLink_heldRecords (s : State) (k : Nat) (f : Port → Port) : (s.modLink k f).heldRecords = s.heldRecords := rfl
@[simp] theorem modLink_tokens (s : State) (k : Nat) (f : Port → Port) : (s.modLink k f).tokens = s.tokens := rfl
@[simp] theorem modLink_mem (s : State) (k : Nat) (f : Port → Port) : (s.modLink k f).mem = s.mem := rfl
@[simp] theorem modLink_memPoison (s : State) (k : Nat) (f : Port → Port) : (s.modLink k f).memPoison = s.memPoison := rfl
@[simp] theorem modLink_scratch (s : State) (k : Nat) (f : Port → Port) : (s.modLink k f).scratch = s.scratch := rfl
@[simp] theorem modLink_scratchPoison (s : State) (k : Nat) (f : Port → Port) : (s.modLink k f).scratchPoison = s.scratchPoison := rfl
@[simp] theorem modLink_chip (s : State) (k : Nat) (f : Port → Port) : (s.modLink k f).chip = s.chip := rfl
@[simp] theorem modLink_chipPoison (s : State) (k : Nat) (f : Port → Port) : (s.modLink k f).chipPoison = s.chipPoison := rfl
@[simp] theorem modLink_acc (s : State) (k : Nat) (f : Port → Port) : (s.modLink k f).acc = s.acc := rfl
@[simp] theorem modLink_accPoison (s : State) (k : Nat) (f : Port → Port) : (s.modLink k f).accPoison = s.accPoison := rfl
@[simp] theorem modLink_weights (s : State) (k : Nat) (f : Port → Port) : (s.modLink k f).weights = s.weights := rfl
@[simp] theorem modLink_scales (s : State) (k : Nat) (f : Port → Port) : (s.modLink k f).scales = s.scales := rfl
@[simp] theorem modLink_agenda (s : State) (k : Nat) (f : Port → Port) : (s.modLink k f).agenda = s.agenda := rfl
@[simp] theorem modLink_cur (s : State) (k : Nat) (f : Port → Port) : (s.modLink k f).cur = s.cur := rfl
@[simp] theorem modLink_closing (s : State) (k : Nat) (f : Port → Port) : (s.modLink k f).closing = s.closing := rfl
@[simp] theorem modLink_freeCount (s : State) (k : Nat) (f : Port → Port) : (s.modLink k f).freeCount = s.freeCount := rfl
@[simp] theorem modLink_nextId (s : State) (k : Nat) (f : Port → Port) : (s.modLink k f).nextId = s.nextId := rfl
@[simp] theorem modLink_clock (s : State) (k : Nat) (f : Port → Port) : (s.modLink k f).clock = s.clock := rfl
@[simp] theorem modLink_sent (s : State) (k : Nat) (f : Port → Port) : (s.modLink k f).sent = s.sent := rfl

/-! ## State.modFn -/

@[simp] theorem modFn_bstate (s : State) (n : Nat) (f : Fn → Fn) : (s.modFn n f).bstate = s.bstate := rfl
@[simp] theorem modFn_berr (s : State) (n : Nat) (f : Fn → Fn) : (s.modFn n f).berr = s.berr := rfl
@[simp] theorem modFn_bimg (s : State) (n : Nat) (f : Fn → Fn) : (s.modFn n f).bimg = s.bimg := rfl
@[simp] theorem modFn_blen (s : State) (n : Nat) (f : Fn → Fn) : (s.modFn n f).blen = s.blen := rfl
@[simp] theorem modFn_nonce (s : State) (n : Nat) (f : Fn → Fn) : (s.modFn n f).nonce = s.nonce := rfl
@[simp] theorem modFn_record (s : State) (n : Nat) (f : Fn → Fn) : (s.modFn n f).record = s.record := rfl
@[simp] theorem modFn_lcount (s : State) (n : Nat) (f : Fn → Fn) : (s.modFn n f).lcount = s.lcount := rfl
@[simp] theorem modFn_bootId (s : State) (n : Nat) (f : Fn → Fn) : (s.modFn n f).bootId = s.bootId := rfl
@[simp] theorem modFn_imgHash (s : State) (n : Nat) (f : Fn → Fn) : (s.modFn n f).imgHash = s.imgHash := rfl
@[simp] theorem modFn_unitMap (s : State) (n : Nat) (f : Fn → Fn) : (s.modFn n f).unitMap = s.unitMap := rfl
@[simp] theorem modFn_lock (s : State) (n : Nat) (f : Fn → Fn) : (s.modFn n f).lock = s.lock := rfl
@[simp] theorem modFn_pendingLimits (s : State) (n : Nat) (f : Fn → Fn) : (s.modFn n f).pendingLimits = s.pendingLimits := rfl
@[simp] theorem modFn_rootCode (s : State) (n : Nat) (f : Fn → Fn) : (s.modFn n f).rootCode = s.rootCode := rfl
@[simp] theorem modFn_fnCode (s : State) (n : Nat) (f : Fn → Fn) : (s.modFn n f).fnCode = s.fnCode := rfl
@[simp] theorem modFn_rootEntry (s : State) (n : Nat) (f : Fn → Fn) : (s.modFn n f).rootEntry = s.rootEntry := rfl
@[simp] theorem modFn_fnEntry (s : State) (n : Nat) (f : Fn → Fn) : (s.modFn n f).fnEntry = s.fnEntry := rfl
@[simp] theorem modFn_mainEn (s : State) (n : Nat) (f : Fn → Fn) : (s.modFn n f).mainEn = s.mainEn := rfl
@[simp] theorem modFn_mainOk (s : State) (n : Nat) (f : Fn → Fn) : (s.modFn n f).mainOk = s.mainOk := rfl
@[simp] theorem modFn_leak (s : State) (n : Nat) (f : Fn → Fn) : (s.modFn n f).leak = s.leak := rfl
@[simp] theorem modFn_baseDead (s : State) (n : Nat) (f : Fn → Fn) : (s.modFn n f).baseDead = s.baseDead := rfl
@[simp] theorem modFn_dies (s : State) (n : Nat) (f : Fn → Fn) : (s.modFn n f).dies = s.dies := rfl
@[simp] theorem modFn_clusters (s : State) (n : Nat) (f : Fn → Fn) : (s.modFn n f).clusters = s.clusters := rfl
@[simp] theorem modFn_links (s : State) (n : Nat) (f : Fn → Fn) : (s.modFn n f).links = s.links := rfl
@[simp] theorem modFn_peerSent (s : State) (n : Nat) (f : Fn → Fn) : (s.modFn n f).peerSent = s.peerSent := rfl
@[simp] theorem modFn_peerDone (s : State) (n : Nat) (f : Fn → Fn) : (s.modFn n f).peerDone = s.peerDone := rfl
@[simp] theorem modFn_peerHeld (s : State) (n : Nat) (f : Fn → Fn) : (s.modFn n f).peerHeld = s.peerHeld := rfl
@[simp] theorem modFn_octets (s : State) (n : Nat) (f : Fn → Fn) : (s.modFn n f).octets = s.octets := rfl
@[simp] theorem modFn_octetsUsed (s : State) (n : Nat) (f : Fn → Fn) : (s.modFn n f).octetsUsed = s.octetsUsed := rfl
@[simp] theorem modFn_dage (s : State) (n : Nat) (f : Fn → Fn) : (s.modFn n f).dage = s.dage := rfl
@[simp] theorem modFn_pgrace (s : State) (n : Nat) (f : Fn → Fn) : (s.modFn n f).pgrace = s.pgrace := rfl
@[simp] theorem modFn_slices (s : State) (n : Nat) (f : Fn → Fn) : (s.modFn n f).slices = s.slices := rfl
@[simp] theorem modFn_sliceNow (s : State) (n : Nat) (f : Fn → Fn) : (s.modFn n f).sliceNow = s.sliceNow := rfl
@[simp] theorem modFn_sliceClock (s : State) (n : Nat) (f : Fn → Fn) : (s.modFn n f).sliceClock = s.sliceClock := rfl
@[simp] theorem modFn_ageing (s : State) (n : Nat) (f : Fn → Fn) : (s.modFn n f).ageing = s.ageing := rfl
@[simp] theorem modFn_fns (s : State) (n : Nat) (f : Fn → Fn) : (s.modFn n f).fns = s.fns.put n (f (s.fn n)) := rfl
@[simp] theorem modFn_ctxs (s : State) (n : Nat) (f : Fn → Fn) : (s.modFn n f).ctxs = s.ctxs := rfl
@[simp] theorem modFn_queues (s : State) (n : Nat) (f : Fn → Fn) : (s.modFn n f).queues = s.queues := rfl
@[simp] theorem modFn_grids (s : State) (n : Nat) (f : Fn → Fn) : (s.modFn n f).grids = s.grids := rfl
@[simp] theorem modFn_teams (s : State) (n : Nat) (f : Fn → Fn) : (s.modFn n f).teams = s.teams := rfl
@[simp] theorem modFn_savedTeams (s : State) (n : Nat) (f : Fn → Fn) : (s.modFn n f).savedTeams = s.savedTeams := rfl
@[simp] theorem modFn_groups (s : State) (n : Nat) (f : Fn → Fn) : (s.modFn n f).groups = s.groups := rfl
@[simp] theorem modFn_cores (s : State) (n : Nat) (f : Fn → Fn) : (s.modFn n f).cores = s.cores := rfl
@[simp] theorem modFn_icache (s : State) (n : Nat) (f : Fn → Fn) : (s.modFn n f).icache = s.icache := rfl
@[simp] theorem modFn_tlb2 (s : State) (n : Nat) (f : Fn → Fn) : (s.modFn n f).tlb2 = s.tlb2 := rfl
@[simp] theorem modFn_walks (s : State) (n : Nat) (f : Fn → Fn) : (s.modFn n f).walks = s.walks := rfl
@[simp] theorem modFn_flights (s : State) (n : Nat) (f : Fn → Fn) : (s.modFn n f).flights = s.flights := rfl
@[simp] theorem modFn_l2 (s : State) (n : Nat) (f : Fn → Fn) : (s.modFn n f).l2 = s.l2 := rfl
@[simp] theorem modFn_overlaps (s : State) (n : Nat) (f : Fn → Fn) : (s.modFn n f).overlaps = s.overlaps := rfl
@[simp] theorem modFn_strongs (s : State) (n : Nat) (f : Fn → Fn) : (s.modFn n f).strongs = s.strongs := rfl
@[simp] theorem modFn_rels (s : State) (n : Nat) (f : Fn → Fn) : (s.modFn n f).rels = s.rels := rfl
@[simp] theorem modFn_hazy (s : State) (n : Nat) (f : Fn → Fn) : (s.modFn n f).hazy = s.hazy := rfl
@[simp] theorem modFn_promos (s : State) (n : Nat) (f : Fn → Fn) : (s.modFn n f).promos = s.promos := rfl
@[simp] theorem modFn_residencies (s : State) (n : Nat) (f : Fn → Fn) : (s.modFn n f).residencies = s.residencies := rfl
@[simp] theorem modFn_watches (s : State) (n : Nat) (f : Fn → Fn) : (s.modFn n f).watches = s.watches := rfl
@[simp] theorem modFn_barSlots (s : State) (n : Nat) (f : Fn → Fn) : (s.modFn n f).barSlots = s.barSlots := rfl
@[simp] theorem modFn_jobs (s : State) (n : Nat) (f : Fn → Fn) : (s.modFn n f).jobs = s.jobs := rfl
@[simp] theorem modFn_remains (s : State) (n : Nat) (f : Fn → Fn) : (s.modFn n f).remains = s.remains := rfl
@[simp] theorem modFn_heldRecords (s : State) (n : Nat) (f : Fn → Fn) : (s.modFn n f).heldRecords = s.heldRecords := rfl
@[simp] theorem modFn_tokens (s : State) (n : Nat) (f : Fn → Fn) : (s.modFn n f).tokens = s.tokens := rfl
@[simp] theorem modFn_mem (s : State) (n : Nat) (f : Fn → Fn) : (s.modFn n f).mem = s.mem := rfl
@[simp] theorem modFn_memPoison (s : State) (n : Nat) (f : Fn → Fn) : (s.modFn n f).memPoison = s.memPoison := rfl
@[simp] theorem modFn_scratch (s : State) (n : Nat) (f : Fn → Fn) : (s.modFn n f).scratch = s.scratch := rfl
@[simp] theorem modFn_scratchPoison (s : State) (n : Nat) (f : Fn → Fn) : (s.modFn n f).scratchPoison = s.scratchPoison := rfl
@[simp] theorem modFn_chip (s : State) (n : Nat) (f : Fn → Fn) : (s.modFn n f).chip = s.chip := rfl
@[simp] theorem modFn_chipPoison (s : State) (n : Nat) (f : Fn → Fn) : (s.modFn n f).chipPoison = s.chipPoison := rfl
@[simp] theorem modFn_acc (s : State) (n : Nat) (f : Fn → Fn) : (s.modFn n f).acc = s.acc := rfl
@[simp] theorem modFn_accPoison (s : State) (n : Nat) (f : Fn → Fn) : (s.modFn n f).accPoison = s.accPoison := rfl
@[simp] theorem modFn_weights (s : State) (n : Nat) (f : Fn → Fn) : (s.modFn n f).weights = s.weights := rfl
@[simp] theorem modFn_scales (s : State) (n : Nat) (f : Fn → Fn) : (s.modFn n f).scales = s.scales := rfl
@[simp] theorem modFn_agenda (s : State) (n : Nat) (f : Fn → Fn) : (s.modFn n f).agenda = s.agenda := rfl
@[simp] theorem modFn_cur (s : State) (n : Nat) (f : Fn → Fn) : (s.modFn n f).cur = s.cur := rfl
@[simp] theorem modFn_closing (s : State) (n : Nat) (f : Fn → Fn) : (s.modFn n f).closing = s.closing := rfl
@[simp] theorem modFn_freeCount (s : State) (n : Nat) (f : Fn → Fn) : (s.modFn n f).freeCount = s.freeCount := rfl
@[simp] theorem modFn_nextId (s : State) (n : Nat) (f : Fn → Fn) : (s.modFn n f).nextId = s.nextId := rfl
@[simp] theorem modFn_clock (s : State) (n : Nat) (f : Fn → Fn) : (s.modFn n f).clock = s.clock := rfl
@[simp] theorem modFn_sent (s : State) (n : Nat) (f : Fn → Fn) : (s.modFn n f).sent = s.sent := rfl

/-! ## State.modCtx -/

@[simp] theorem modCtx_bstate (s : State) (k : Nat) (f : Ctx → Ctx) : (s.modCtx k f).bstate = s.bstate := rfl
@[simp] theorem modCtx_berr (s : State) (k : Nat) (f : Ctx → Ctx) : (s.modCtx k f).berr = s.berr := rfl
@[simp] theorem modCtx_bimg (s : State) (k : Nat) (f : Ctx → Ctx) : (s.modCtx k f).bimg = s.bimg := rfl
@[simp] theorem modCtx_blen (s : State) (k : Nat) (f : Ctx → Ctx) : (s.modCtx k f).blen = s.blen := rfl
@[simp] theorem modCtx_nonce (s : State) (k : Nat) (f : Ctx → Ctx) : (s.modCtx k f).nonce = s.nonce := rfl
@[simp] theorem modCtx_record (s : State) (k : Nat) (f : Ctx → Ctx) : (s.modCtx k f).record = s.record := rfl
@[simp] theorem modCtx_lcount (s : State) (k : Nat) (f : Ctx → Ctx) : (s.modCtx k f).lcount = s.lcount := rfl
@[simp] theorem modCtx_bootId (s : State) (k : Nat) (f : Ctx → Ctx) : (s.modCtx k f).bootId = s.bootId := rfl
@[simp] theorem modCtx_imgHash (s : State) (k : Nat) (f : Ctx → Ctx) : (s.modCtx k f).imgHash = s.imgHash := rfl
@[simp] theorem modCtx_unitMap (s : State) (k : Nat) (f : Ctx → Ctx) : (s.modCtx k f).unitMap = s.unitMap := rfl
@[simp] theorem modCtx_lock (s : State) (k : Nat) (f : Ctx → Ctx) : (s.modCtx k f).lock = s.lock := rfl
@[simp] theorem modCtx_pendingLimits (s : State) (k : Nat) (f : Ctx → Ctx) : (s.modCtx k f).pendingLimits = s.pendingLimits := rfl
@[simp] theorem modCtx_rootCode (s : State) (k : Nat) (f : Ctx → Ctx) : (s.modCtx k f).rootCode = s.rootCode := rfl
@[simp] theorem modCtx_fnCode (s : State) (k : Nat) (f : Ctx → Ctx) : (s.modCtx k f).fnCode = s.fnCode := rfl
@[simp] theorem modCtx_rootEntry (s : State) (k : Nat) (f : Ctx → Ctx) : (s.modCtx k f).rootEntry = s.rootEntry := rfl
@[simp] theorem modCtx_fnEntry (s : State) (k : Nat) (f : Ctx → Ctx) : (s.modCtx k f).fnEntry = s.fnEntry := rfl
@[simp] theorem modCtx_mainEn (s : State) (k : Nat) (f : Ctx → Ctx) : (s.modCtx k f).mainEn = s.mainEn := rfl
@[simp] theorem modCtx_mainOk (s : State) (k : Nat) (f : Ctx → Ctx) : (s.modCtx k f).mainOk = s.mainOk := rfl
@[simp] theorem modCtx_leak (s : State) (k : Nat) (f : Ctx → Ctx) : (s.modCtx k f).leak = s.leak := rfl
@[simp] theorem modCtx_baseDead (s : State) (k : Nat) (f : Ctx → Ctx) : (s.modCtx k f).baseDead = s.baseDead := rfl
@[simp] theorem modCtx_dies (s : State) (k : Nat) (f : Ctx → Ctx) : (s.modCtx k f).dies = s.dies := rfl
@[simp] theorem modCtx_clusters (s : State) (k : Nat) (f : Ctx → Ctx) : (s.modCtx k f).clusters = s.clusters := rfl
@[simp] theorem modCtx_links (s : State) (k : Nat) (f : Ctx → Ctx) : (s.modCtx k f).links = s.links := rfl
@[simp] theorem modCtx_peerSent (s : State) (k : Nat) (f : Ctx → Ctx) : (s.modCtx k f).peerSent = s.peerSent := rfl
@[simp] theorem modCtx_peerDone (s : State) (k : Nat) (f : Ctx → Ctx) : (s.modCtx k f).peerDone = s.peerDone := rfl
@[simp] theorem modCtx_peerHeld (s : State) (k : Nat) (f : Ctx → Ctx) : (s.modCtx k f).peerHeld = s.peerHeld := rfl
@[simp] theorem modCtx_octets (s : State) (k : Nat) (f : Ctx → Ctx) : (s.modCtx k f).octets = s.octets := rfl
@[simp] theorem modCtx_octetsUsed (s : State) (k : Nat) (f : Ctx → Ctx) : (s.modCtx k f).octetsUsed = s.octetsUsed := rfl
@[simp] theorem modCtx_dage (s : State) (k : Nat) (f : Ctx → Ctx) : (s.modCtx k f).dage = s.dage := rfl
@[simp] theorem modCtx_pgrace (s : State) (k : Nat) (f : Ctx → Ctx) : (s.modCtx k f).pgrace = s.pgrace := rfl
@[simp] theorem modCtx_slices (s : State) (k : Nat) (f : Ctx → Ctx) : (s.modCtx k f).slices = s.slices := rfl
@[simp] theorem modCtx_sliceNow (s : State) (k : Nat) (f : Ctx → Ctx) : (s.modCtx k f).sliceNow = s.sliceNow := rfl
@[simp] theorem modCtx_sliceClock (s : State) (k : Nat) (f : Ctx → Ctx) : (s.modCtx k f).sliceClock = s.sliceClock := rfl
@[simp] theorem modCtx_ageing (s : State) (k : Nat) (f : Ctx → Ctx) : (s.modCtx k f).ageing = s.ageing := rfl
@[simp] theorem modCtx_fns (s : State) (k : Nat) (f : Ctx → Ctx) : (s.modCtx k f).fns = s.fns := rfl
@[simp] theorem modCtx_ctxs (s : State) (k : Nat) (f : Ctx → Ctx) : (s.modCtx k f).ctxs = s.ctxs.put k (f (s.ctx k)) := rfl
@[simp] theorem modCtx_queues (s : State) (k : Nat) (f : Ctx → Ctx) : (s.modCtx k f).queues = s.queues := rfl
@[simp] theorem modCtx_grids (s : State) (k : Nat) (f : Ctx → Ctx) : (s.modCtx k f).grids = s.grids := rfl
@[simp] theorem modCtx_teams (s : State) (k : Nat) (f : Ctx → Ctx) : (s.modCtx k f).teams = s.teams := rfl
@[simp] theorem modCtx_savedTeams (s : State) (k : Nat) (f : Ctx → Ctx) : (s.modCtx k f).savedTeams = s.savedTeams := rfl
@[simp] theorem modCtx_groups (s : State) (k : Nat) (f : Ctx → Ctx) : (s.modCtx k f).groups = s.groups := rfl
@[simp] theorem modCtx_cores (s : State) (k : Nat) (f : Ctx → Ctx) : (s.modCtx k f).cores = s.cores := rfl
@[simp] theorem modCtx_icache (s : State) (k : Nat) (f : Ctx → Ctx) : (s.modCtx k f).icache = s.icache := rfl
@[simp] theorem modCtx_tlb2 (s : State) (k : Nat) (f : Ctx → Ctx) : (s.modCtx k f).tlb2 = s.tlb2 := rfl
@[simp] theorem modCtx_walks (s : State) (k : Nat) (f : Ctx → Ctx) : (s.modCtx k f).walks = s.walks := rfl
@[simp] theorem modCtx_flights (s : State) (k : Nat) (f : Ctx → Ctx) : (s.modCtx k f).flights = s.flights := rfl
@[simp] theorem modCtx_l2 (s : State) (k : Nat) (f : Ctx → Ctx) : (s.modCtx k f).l2 = s.l2 := rfl
@[simp] theorem modCtx_overlaps (s : State) (k : Nat) (f : Ctx → Ctx) : (s.modCtx k f).overlaps = s.overlaps := rfl
@[simp] theorem modCtx_strongs (s : State) (k : Nat) (f : Ctx → Ctx) : (s.modCtx k f).strongs = s.strongs := rfl
@[simp] theorem modCtx_rels (s : State) (k : Nat) (f : Ctx → Ctx) : (s.modCtx k f).rels = s.rels := rfl
@[simp] theorem modCtx_hazy (s : State) (k : Nat) (f : Ctx → Ctx) : (s.modCtx k f).hazy = s.hazy := rfl
@[simp] theorem modCtx_promos (s : State) (k : Nat) (f : Ctx → Ctx) : (s.modCtx k f).promos = s.promos := rfl
@[simp] theorem modCtx_residencies (s : State) (k : Nat) (f : Ctx → Ctx) : (s.modCtx k f).residencies = s.residencies := rfl
@[simp] theorem modCtx_watches (s : State) (k : Nat) (f : Ctx → Ctx) : (s.modCtx k f).watches = s.watches := rfl
@[simp] theorem modCtx_barSlots (s : State) (k : Nat) (f : Ctx → Ctx) : (s.modCtx k f).barSlots = s.barSlots := rfl
@[simp] theorem modCtx_jobs (s : State) (k : Nat) (f : Ctx → Ctx) : (s.modCtx k f).jobs = s.jobs := rfl
@[simp] theorem modCtx_remains (s : State) (k : Nat) (f : Ctx → Ctx) : (s.modCtx k f).remains = s.remains := rfl
@[simp] theorem modCtx_heldRecords (s : State) (k : Nat) (f : Ctx → Ctx) : (s.modCtx k f).heldRecords = s.heldRecords := rfl
@[simp] theorem modCtx_tokens (s : State) (k : Nat) (f : Ctx → Ctx) : (s.modCtx k f).tokens = s.tokens := rfl
@[simp] theorem modCtx_mem (s : State) (k : Nat) (f : Ctx → Ctx) : (s.modCtx k f).mem = s.mem := rfl
@[simp] theorem modCtx_memPoison (s : State) (k : Nat) (f : Ctx → Ctx) : (s.modCtx k f).memPoison = s.memPoison := rfl
@[simp] theorem modCtx_scratch (s : State) (k : Nat) (f : Ctx → Ctx) : (s.modCtx k f).scratch = s.scratch := rfl
@[simp] theorem modCtx_scratchPoison (s : State) (k : Nat) (f : Ctx → Ctx) : (s.modCtx k f).scratchPoison = s.scratchPoison := rfl
@[simp] theorem modCtx_chip (s : State) (k : Nat) (f : Ctx → Ctx) : (s.modCtx k f).chip = s.chip := rfl
@[simp] theorem modCtx_chipPoison (s : State) (k : Nat) (f : Ctx → Ctx) : (s.modCtx k f).chipPoison = s.chipPoison := rfl
@[simp] theorem modCtx_acc (s : State) (k : Nat) (f : Ctx → Ctx) : (s.modCtx k f).acc = s.acc := rfl
@[simp] theorem modCtx_accPoison (s : State) (k : Nat) (f : Ctx → Ctx) : (s.modCtx k f).accPoison = s.accPoison := rfl
@[simp] theorem modCtx_weights (s : State) (k : Nat) (f : Ctx → Ctx) : (s.modCtx k f).weights = s.weights := rfl
@[simp] theorem modCtx_scales (s : State) (k : Nat) (f : Ctx → Ctx) : (s.modCtx k f).scales = s.scales := rfl
@[simp] theorem modCtx_agenda (s : State) (k : Nat) (f : Ctx → Ctx) : (s.modCtx k f).agenda = s.agenda := rfl
@[simp] theorem modCtx_cur (s : State) (k : Nat) (f : Ctx → Ctx) : (s.modCtx k f).cur = s.cur := rfl
@[simp] theorem modCtx_closing (s : State) (k : Nat) (f : Ctx → Ctx) : (s.modCtx k f).closing = s.closing := rfl
@[simp] theorem modCtx_freeCount (s : State) (k : Nat) (f : Ctx → Ctx) : (s.modCtx k f).freeCount = s.freeCount := rfl
@[simp] theorem modCtx_nextId (s : State) (k : Nat) (f : Ctx → Ctx) : (s.modCtx k f).nextId = s.nextId := rfl
@[simp] theorem modCtx_clock (s : State) (k : Nat) (f : Ctx → Ctx) : (s.modCtx k f).clock = s.clock := rfl
@[simp] theorem modCtx_sent (s : State) (k : Nat) (f : Ctx → Ctx) : (s.modCtx k f).sent = s.sent := rfl

/-! ## State.modQueue -/

@[simp] theorem modQueue_bstate (s : State) (k : Nat) (f : Queue → Queue) : (s.modQueue k f).bstate = s.bstate := rfl
@[simp] theorem modQueue_berr (s : State) (k : Nat) (f : Queue → Queue) : (s.modQueue k f).berr = s.berr := rfl
@[simp] theorem modQueue_bimg (s : State) (k : Nat) (f : Queue → Queue) : (s.modQueue k f).bimg = s.bimg := rfl
@[simp] theorem modQueue_blen (s : State) (k : Nat) (f : Queue → Queue) : (s.modQueue k f).blen = s.blen := rfl
@[simp] theorem modQueue_nonce (s : State) (k : Nat) (f : Queue → Queue) : (s.modQueue k f).nonce = s.nonce := rfl
@[simp] theorem modQueue_record (s : State) (k : Nat) (f : Queue → Queue) : (s.modQueue k f).record = s.record := rfl
@[simp] theorem modQueue_lcount (s : State) (k : Nat) (f : Queue → Queue) : (s.modQueue k f).lcount = s.lcount := rfl
@[simp] theorem modQueue_bootId (s : State) (k : Nat) (f : Queue → Queue) : (s.modQueue k f).bootId = s.bootId := rfl
@[simp] theorem modQueue_imgHash (s : State) (k : Nat) (f : Queue → Queue) : (s.modQueue k f).imgHash = s.imgHash := rfl
@[simp] theorem modQueue_unitMap (s : State) (k : Nat) (f : Queue → Queue) : (s.modQueue k f).unitMap = s.unitMap := rfl
@[simp] theorem modQueue_lock (s : State) (k : Nat) (f : Queue → Queue) : (s.modQueue k f).lock = s.lock := rfl
@[simp] theorem modQueue_pendingLimits (s : State) (k : Nat) (f : Queue → Queue) : (s.modQueue k f).pendingLimits = s.pendingLimits := rfl
@[simp] theorem modQueue_rootCode (s : State) (k : Nat) (f : Queue → Queue) : (s.modQueue k f).rootCode = s.rootCode := rfl
@[simp] theorem modQueue_fnCode (s : State) (k : Nat) (f : Queue → Queue) : (s.modQueue k f).fnCode = s.fnCode := rfl
@[simp] theorem modQueue_rootEntry (s : State) (k : Nat) (f : Queue → Queue) : (s.modQueue k f).rootEntry = s.rootEntry := rfl
@[simp] theorem modQueue_fnEntry (s : State) (k : Nat) (f : Queue → Queue) : (s.modQueue k f).fnEntry = s.fnEntry := rfl
@[simp] theorem modQueue_mainEn (s : State) (k : Nat) (f : Queue → Queue) : (s.modQueue k f).mainEn = s.mainEn := rfl
@[simp] theorem modQueue_mainOk (s : State) (k : Nat) (f : Queue → Queue) : (s.modQueue k f).mainOk = s.mainOk := rfl
@[simp] theorem modQueue_leak (s : State) (k : Nat) (f : Queue → Queue) : (s.modQueue k f).leak = s.leak := rfl
@[simp] theorem modQueue_baseDead (s : State) (k : Nat) (f : Queue → Queue) : (s.modQueue k f).baseDead = s.baseDead := rfl
@[simp] theorem modQueue_dies (s : State) (k : Nat) (f : Queue → Queue) : (s.modQueue k f).dies = s.dies := rfl
@[simp] theorem modQueue_clusters (s : State) (k : Nat) (f : Queue → Queue) : (s.modQueue k f).clusters = s.clusters := rfl
@[simp] theorem modQueue_links (s : State) (k : Nat) (f : Queue → Queue) : (s.modQueue k f).links = s.links := rfl
@[simp] theorem modQueue_peerSent (s : State) (k : Nat) (f : Queue → Queue) : (s.modQueue k f).peerSent = s.peerSent := rfl
@[simp] theorem modQueue_peerDone (s : State) (k : Nat) (f : Queue → Queue) : (s.modQueue k f).peerDone = s.peerDone := rfl
@[simp] theorem modQueue_peerHeld (s : State) (k : Nat) (f : Queue → Queue) : (s.modQueue k f).peerHeld = s.peerHeld := rfl
@[simp] theorem modQueue_octets (s : State) (k : Nat) (f : Queue → Queue) : (s.modQueue k f).octets = s.octets := rfl
@[simp] theorem modQueue_octetsUsed (s : State) (k : Nat) (f : Queue → Queue) : (s.modQueue k f).octetsUsed = s.octetsUsed := rfl
@[simp] theorem modQueue_dage (s : State) (k : Nat) (f : Queue → Queue) : (s.modQueue k f).dage = s.dage := rfl
@[simp] theorem modQueue_pgrace (s : State) (k : Nat) (f : Queue → Queue) : (s.modQueue k f).pgrace = s.pgrace := rfl
@[simp] theorem modQueue_slices (s : State) (k : Nat) (f : Queue → Queue) : (s.modQueue k f).slices = s.slices := rfl
@[simp] theorem modQueue_sliceNow (s : State) (k : Nat) (f : Queue → Queue) : (s.modQueue k f).sliceNow = s.sliceNow := rfl
@[simp] theorem modQueue_sliceClock (s : State) (k : Nat) (f : Queue → Queue) : (s.modQueue k f).sliceClock = s.sliceClock := rfl
@[simp] theorem modQueue_ageing (s : State) (k : Nat) (f : Queue → Queue) : (s.modQueue k f).ageing = s.ageing := rfl
@[simp] theorem modQueue_fns (s : State) (k : Nat) (f : Queue → Queue) : (s.modQueue k f).fns = s.fns := rfl
@[simp] theorem modQueue_ctxs (s : State) (k : Nat) (f : Queue → Queue) : (s.modQueue k f).ctxs = s.ctxs := rfl
@[simp] theorem modQueue_queues (s : State) (k : Nat) (f : Queue → Queue) : (s.modQueue k f).queues = s.queues.put k (f (s.queue k)) := rfl
@[simp] theorem modQueue_grids (s : State) (k : Nat) (f : Queue → Queue) : (s.modQueue k f).grids = s.grids := rfl
@[simp] theorem modQueue_teams (s : State) (k : Nat) (f : Queue → Queue) : (s.modQueue k f).teams = s.teams := rfl
@[simp] theorem modQueue_savedTeams (s : State) (k : Nat) (f : Queue → Queue) : (s.modQueue k f).savedTeams = s.savedTeams := rfl
@[simp] theorem modQueue_groups (s : State) (k : Nat) (f : Queue → Queue) : (s.modQueue k f).groups = s.groups := rfl
@[simp] theorem modQueue_cores (s : State) (k : Nat) (f : Queue → Queue) : (s.modQueue k f).cores = s.cores := rfl
@[simp] theorem modQueue_icache (s : State) (k : Nat) (f : Queue → Queue) : (s.modQueue k f).icache = s.icache := rfl
@[simp] theorem modQueue_tlb2 (s : State) (k : Nat) (f : Queue → Queue) : (s.modQueue k f).tlb2 = s.tlb2 := rfl
@[simp] theorem modQueue_walks (s : State) (k : Nat) (f : Queue → Queue) : (s.modQueue k f).walks = s.walks := rfl
@[simp] theorem modQueue_flights (s : State) (k : Nat) (f : Queue → Queue) : (s.modQueue k f).flights = s.flights := rfl
@[simp] theorem modQueue_l2 (s : State) (k : Nat) (f : Queue → Queue) : (s.modQueue k f).l2 = s.l2 := rfl
@[simp] theorem modQueue_overlaps (s : State) (k : Nat) (f : Queue → Queue) : (s.modQueue k f).overlaps = s.overlaps := rfl
@[simp] theorem modQueue_strongs (s : State) (k : Nat) (f : Queue → Queue) : (s.modQueue k f).strongs = s.strongs := rfl
@[simp] theorem modQueue_rels (s : State) (k : Nat) (f : Queue → Queue) : (s.modQueue k f).rels = s.rels := rfl
@[simp] theorem modQueue_hazy (s : State) (k : Nat) (f : Queue → Queue) : (s.modQueue k f).hazy = s.hazy := rfl
@[simp] theorem modQueue_promos (s : State) (k : Nat) (f : Queue → Queue) : (s.modQueue k f).promos = s.promos := rfl
@[simp] theorem modQueue_residencies (s : State) (k : Nat) (f : Queue → Queue) : (s.modQueue k f).residencies = s.residencies := rfl
@[simp] theorem modQueue_watches (s : State) (k : Nat) (f : Queue → Queue) : (s.modQueue k f).watches = s.watches := rfl
@[simp] theorem modQueue_barSlots (s : State) (k : Nat) (f : Queue → Queue) : (s.modQueue k f).barSlots = s.barSlots := rfl
@[simp] theorem modQueue_jobs (s : State) (k : Nat) (f : Queue → Queue) : (s.modQueue k f).jobs = s.jobs := rfl
@[simp] theorem modQueue_remains (s : State) (k : Nat) (f : Queue → Queue) : (s.modQueue k f).remains = s.remains := rfl
@[simp] theorem modQueue_heldRecords (s : State) (k : Nat) (f : Queue → Queue) : (s.modQueue k f).heldRecords = s.heldRecords := rfl
@[simp] theorem modQueue_tokens (s : State) (k : Nat) (f : Queue → Queue) : (s.modQueue k f).tokens = s.tokens := rfl
@[simp] theorem modQueue_mem (s : State) (k : Nat) (f : Queue → Queue) : (s.modQueue k f).mem = s.mem := rfl
@[simp] theorem modQueue_memPoison (s : State) (k : Nat) (f : Queue → Queue) : (s.modQueue k f).memPoison = s.memPoison := rfl
@[simp] theorem modQueue_scratch (s : State) (k : Nat) (f : Queue → Queue) : (s.modQueue k f).scratch = s.scratch := rfl
@[simp] theorem modQueue_scratchPoison (s : State) (k : Nat) (f : Queue → Queue) : (s.modQueue k f).scratchPoison = s.scratchPoison := rfl
@[simp] theorem modQueue_chip (s : State) (k : Nat) (f : Queue → Queue) : (s.modQueue k f).chip = s.chip := rfl
@[simp] theorem modQueue_chipPoison (s : State) (k : Nat) (f : Queue → Queue) : (s.modQueue k f).chipPoison = s.chipPoison := rfl
@[simp] theorem modQueue_acc (s : State) (k : Nat) (f : Queue → Queue) : (s.modQueue k f).acc = s.acc := rfl
@[simp] theorem modQueue_accPoison (s : State) (k : Nat) (f : Queue → Queue) : (s.modQueue k f).accPoison = s.accPoison := rfl
@[simp] theorem modQueue_weights (s : State) (k : Nat) (f : Queue → Queue) : (s.modQueue k f).weights = s.weights := rfl
@[simp] theorem modQueue_scales (s : State) (k : Nat) (f : Queue → Queue) : (s.modQueue k f).scales = s.scales := rfl
@[simp] theorem modQueue_agenda (s : State) (k : Nat) (f : Queue → Queue) : (s.modQueue k f).agenda = s.agenda := rfl
@[simp] theorem modQueue_cur (s : State) (k : Nat) (f : Queue → Queue) : (s.modQueue k f).cur = s.cur := rfl
@[simp] theorem modQueue_closing (s : State) (k : Nat) (f : Queue → Queue) : (s.modQueue k f).closing = s.closing := rfl
@[simp] theorem modQueue_freeCount (s : State) (k : Nat) (f : Queue → Queue) : (s.modQueue k f).freeCount = s.freeCount := rfl
@[simp] theorem modQueue_nextId (s : State) (k : Nat) (f : Queue → Queue) : (s.modQueue k f).nextId = s.nextId := rfl
@[simp] theorem modQueue_clock (s : State) (k : Nat) (f : Queue → Queue) : (s.modQueue k f).clock = s.clock := rfl
@[simp] theorem modQueue_sent (s : State) (k : Nat) (f : Queue → Queue) : (s.modQueue k f).sent = s.sent := rfl

/-! ## State.modGrid -/

@[simp] theorem modGrid_bstate (s : State) (k : Nat) (f : Grid → Grid) : (s.modGrid k f).bstate = s.bstate := rfl
@[simp] theorem modGrid_berr (s : State) (k : Nat) (f : Grid → Grid) : (s.modGrid k f).berr = s.berr := rfl
@[simp] theorem modGrid_bimg (s : State) (k : Nat) (f : Grid → Grid) : (s.modGrid k f).bimg = s.bimg := rfl
@[simp] theorem modGrid_blen (s : State) (k : Nat) (f : Grid → Grid) : (s.modGrid k f).blen = s.blen := rfl
@[simp] theorem modGrid_nonce (s : State) (k : Nat) (f : Grid → Grid) : (s.modGrid k f).nonce = s.nonce := rfl
@[simp] theorem modGrid_record (s : State) (k : Nat) (f : Grid → Grid) : (s.modGrid k f).record = s.record := rfl
@[simp] theorem modGrid_lcount (s : State) (k : Nat) (f : Grid → Grid) : (s.modGrid k f).lcount = s.lcount := rfl
@[simp] theorem modGrid_bootId (s : State) (k : Nat) (f : Grid → Grid) : (s.modGrid k f).bootId = s.bootId := rfl
@[simp] theorem modGrid_imgHash (s : State) (k : Nat) (f : Grid → Grid) : (s.modGrid k f).imgHash = s.imgHash := rfl
@[simp] theorem modGrid_unitMap (s : State) (k : Nat) (f : Grid → Grid) : (s.modGrid k f).unitMap = s.unitMap := rfl
@[simp] theorem modGrid_lock (s : State) (k : Nat) (f : Grid → Grid) : (s.modGrid k f).lock = s.lock := rfl
@[simp] theorem modGrid_pendingLimits (s : State) (k : Nat) (f : Grid → Grid) : (s.modGrid k f).pendingLimits = s.pendingLimits := rfl
@[simp] theorem modGrid_rootCode (s : State) (k : Nat) (f : Grid → Grid) : (s.modGrid k f).rootCode = s.rootCode := rfl
@[simp] theorem modGrid_fnCode (s : State) (k : Nat) (f : Grid → Grid) : (s.modGrid k f).fnCode = s.fnCode := rfl
@[simp] theorem modGrid_rootEntry (s : State) (k : Nat) (f : Grid → Grid) : (s.modGrid k f).rootEntry = s.rootEntry := rfl
@[simp] theorem modGrid_fnEntry (s : State) (k : Nat) (f : Grid → Grid) : (s.modGrid k f).fnEntry = s.fnEntry := rfl
@[simp] theorem modGrid_mainEn (s : State) (k : Nat) (f : Grid → Grid) : (s.modGrid k f).mainEn = s.mainEn := rfl
@[simp] theorem modGrid_mainOk (s : State) (k : Nat) (f : Grid → Grid) : (s.modGrid k f).mainOk = s.mainOk := rfl
@[simp] theorem modGrid_leak (s : State) (k : Nat) (f : Grid → Grid) : (s.modGrid k f).leak = s.leak := rfl
@[simp] theorem modGrid_baseDead (s : State) (k : Nat) (f : Grid → Grid) : (s.modGrid k f).baseDead = s.baseDead := rfl
@[simp] theorem modGrid_dies (s : State) (k : Nat) (f : Grid → Grid) : (s.modGrid k f).dies = s.dies := rfl
@[simp] theorem modGrid_clusters (s : State) (k : Nat) (f : Grid → Grid) : (s.modGrid k f).clusters = s.clusters := rfl
@[simp] theorem modGrid_links (s : State) (k : Nat) (f : Grid → Grid) : (s.modGrid k f).links = s.links := rfl
@[simp] theorem modGrid_peerSent (s : State) (k : Nat) (f : Grid → Grid) : (s.modGrid k f).peerSent = s.peerSent := rfl
@[simp] theorem modGrid_peerDone (s : State) (k : Nat) (f : Grid → Grid) : (s.modGrid k f).peerDone = s.peerDone := rfl
@[simp] theorem modGrid_peerHeld (s : State) (k : Nat) (f : Grid → Grid) : (s.modGrid k f).peerHeld = s.peerHeld := rfl
@[simp] theorem modGrid_octets (s : State) (k : Nat) (f : Grid → Grid) : (s.modGrid k f).octets = s.octets := rfl
@[simp] theorem modGrid_octetsUsed (s : State) (k : Nat) (f : Grid → Grid) : (s.modGrid k f).octetsUsed = s.octetsUsed := rfl
@[simp] theorem modGrid_dage (s : State) (k : Nat) (f : Grid → Grid) : (s.modGrid k f).dage = s.dage := rfl
@[simp] theorem modGrid_pgrace (s : State) (k : Nat) (f : Grid → Grid) : (s.modGrid k f).pgrace = s.pgrace := rfl
@[simp] theorem modGrid_slices (s : State) (k : Nat) (f : Grid → Grid) : (s.modGrid k f).slices = s.slices := rfl
@[simp] theorem modGrid_sliceNow (s : State) (k : Nat) (f : Grid → Grid) : (s.modGrid k f).sliceNow = s.sliceNow := rfl
@[simp] theorem modGrid_sliceClock (s : State) (k : Nat) (f : Grid → Grid) : (s.modGrid k f).sliceClock = s.sliceClock := rfl
@[simp] theorem modGrid_ageing (s : State) (k : Nat) (f : Grid → Grid) : (s.modGrid k f).ageing = s.ageing := rfl
@[simp] theorem modGrid_fns (s : State) (k : Nat) (f : Grid → Grid) : (s.modGrid k f).fns = s.fns := rfl
@[simp] theorem modGrid_ctxs (s : State) (k : Nat) (f : Grid → Grid) : (s.modGrid k f).ctxs = s.ctxs := rfl
@[simp] theorem modGrid_queues (s : State) (k : Nat) (f : Grid → Grid) : (s.modGrid k f).queues = s.queues := rfl
@[simp] theorem modGrid_grids (s : State) (k : Nat) (f : Grid → Grid) : (s.modGrid k f).grids = s.grids.modify k f := rfl
@[simp] theorem modGrid_teams (s : State) (k : Nat) (f : Grid → Grid) : (s.modGrid k f).teams = s.teams := rfl
@[simp] theorem modGrid_savedTeams (s : State) (k : Nat) (f : Grid → Grid) : (s.modGrid k f).savedTeams = s.savedTeams := rfl
@[simp] theorem modGrid_groups (s : State) (k : Nat) (f : Grid → Grid) : (s.modGrid k f).groups = s.groups := rfl
@[simp] theorem modGrid_cores (s : State) (k : Nat) (f : Grid → Grid) : (s.modGrid k f).cores = s.cores := rfl
@[simp] theorem modGrid_icache (s : State) (k : Nat) (f : Grid → Grid) : (s.modGrid k f).icache = s.icache := rfl
@[simp] theorem modGrid_tlb2 (s : State) (k : Nat) (f : Grid → Grid) : (s.modGrid k f).tlb2 = s.tlb2 := rfl
@[simp] theorem modGrid_walks (s : State) (k : Nat) (f : Grid → Grid) : (s.modGrid k f).walks = s.walks := rfl
@[simp] theorem modGrid_flights (s : State) (k : Nat) (f : Grid → Grid) : (s.modGrid k f).flights = s.flights := rfl
@[simp] theorem modGrid_l2 (s : State) (k : Nat) (f : Grid → Grid) : (s.modGrid k f).l2 = s.l2 := rfl
@[simp] theorem modGrid_overlaps (s : State) (k : Nat) (f : Grid → Grid) : (s.modGrid k f).overlaps = s.overlaps := rfl
@[simp] theorem modGrid_strongs (s : State) (k : Nat) (f : Grid → Grid) : (s.modGrid k f).strongs = s.strongs := rfl
@[simp] theorem modGrid_rels (s : State) (k : Nat) (f : Grid → Grid) : (s.modGrid k f).rels = s.rels := rfl
@[simp] theorem modGrid_hazy (s : State) (k : Nat) (f : Grid → Grid) : (s.modGrid k f).hazy = s.hazy := rfl
@[simp] theorem modGrid_promos (s : State) (k : Nat) (f : Grid → Grid) : (s.modGrid k f).promos = s.promos := rfl
@[simp] theorem modGrid_residencies (s : State) (k : Nat) (f : Grid → Grid) : (s.modGrid k f).residencies = s.residencies := rfl
@[simp] theorem modGrid_watches (s : State) (k : Nat) (f : Grid → Grid) : (s.modGrid k f).watches = s.watches := rfl
@[simp] theorem modGrid_barSlots (s : State) (k : Nat) (f : Grid → Grid) : (s.modGrid k f).barSlots = s.barSlots := rfl
@[simp] theorem modGrid_jobs (s : State) (k : Nat) (f : Grid → Grid) : (s.modGrid k f).jobs = s.jobs := rfl
@[simp] theorem modGrid_remains (s : State) (k : Nat) (f : Grid → Grid) : (s.modGrid k f).remains = s.remains := rfl
@[simp] theorem modGrid_heldRecords (s : State) (k : Nat) (f : Grid → Grid) : (s.modGrid k f).heldRecords = s.heldRecords := rfl
@[simp] theorem modGrid_tokens (s : State) (k : Nat) (f : Grid → Grid) : (s.modGrid k f).tokens = s.tokens := rfl
@[simp] theorem modGrid_mem (s : State) (k : Nat) (f : Grid → Grid) : (s.modGrid k f).mem = s.mem := rfl
@[simp] theorem modGrid_memPoison (s : State) (k : Nat) (f : Grid → Grid) : (s.modGrid k f).memPoison = s.memPoison := rfl
@[simp] theorem modGrid_scratch (s : State) (k : Nat) (f : Grid → Grid) : (s.modGrid k f).scratch = s.scratch := rfl
@[simp] theorem modGrid_scratchPoison (s : State) (k : Nat) (f : Grid → Grid) : (s.modGrid k f).scratchPoison = s.scratchPoison := rfl
@[simp] theorem modGrid_chip (s : State) (k : Nat) (f : Grid → Grid) : (s.modGrid k f).chip = s.chip := rfl
@[simp] theorem modGrid_chipPoison (s : State) (k : Nat) (f : Grid → Grid) : (s.modGrid k f).chipPoison = s.chipPoison := rfl
@[simp] theorem modGrid_acc (s : State) (k : Nat) (f : Grid → Grid) : (s.modGrid k f).acc = s.acc := rfl
@[simp] theorem modGrid_accPoison (s : State) (k : Nat) (f : Grid → Grid) : (s.modGrid k f).accPoison = s.accPoison := rfl
@[simp] theorem modGrid_weights (s : State) (k : Nat) (f : Grid → Grid) : (s.modGrid k f).weights = s.weights := rfl
@[simp] theorem modGrid_scales (s : State) (k : Nat) (f : Grid → Grid) : (s.modGrid k f).scales = s.scales := rfl
@[simp] theorem modGrid_agenda (s : State) (k : Nat) (f : Grid → Grid) : (s.modGrid k f).agenda = s.agenda := rfl
@[simp] theorem modGrid_cur (s : State) (k : Nat) (f : Grid → Grid) : (s.modGrid k f).cur = s.cur := rfl
@[simp] theorem modGrid_closing (s : State) (k : Nat) (f : Grid → Grid) : (s.modGrid k f).closing = s.closing := rfl
@[simp] theorem modGrid_freeCount (s : State) (k : Nat) (f : Grid → Grid) : (s.modGrid k f).freeCount = s.freeCount := rfl
@[simp] theorem modGrid_nextId (s : State) (k : Nat) (f : Grid → Grid) : (s.modGrid k f).nextId = s.nextId := rfl
@[simp] theorem modGrid_clock (s : State) (k : Nat) (f : Grid → Grid) : (s.modGrid k f).clock = s.clock := rfl
@[simp] theorem modGrid_sent (s : State) (k : Nat) (f : Grid → Grid) : (s.modGrid k f).sent = s.sent := rfl

/-! ## State.modTeam -/

@[simp] theorem modTeam_bstate (s : State) (k : Nat) (f : Team → Team) : (s.modTeam k f).bstate = s.bstate := rfl
@[simp] theorem modTeam_berr (s : State) (k : Nat) (f : Team → Team) : (s.modTeam k f).berr = s.berr := rfl
@[simp] theorem modTeam_bimg (s : State) (k : Nat) (f : Team → Team) : (s.modTeam k f).bimg = s.bimg := rfl
@[simp] theorem modTeam_blen (s : State) (k : Nat) (f : Team → Team) : (s.modTeam k f).blen = s.blen := rfl
@[simp] theorem modTeam_nonce (s : State) (k : Nat) (f : Team → Team) : (s.modTeam k f).nonce = s.nonce := rfl
@[simp] theorem modTeam_record (s : State) (k : Nat) (f : Team → Team) : (s.modTeam k f).record = s.record := rfl
@[simp] theorem modTeam_lcount (s : State) (k : Nat) (f : Team → Team) : (s.modTeam k f).lcount = s.lcount := rfl
@[simp] theorem modTeam_bootId (s : State) (k : Nat) (f : Team → Team) : (s.modTeam k f).bootId = s.bootId := rfl
@[simp] theorem modTeam_imgHash (s : State) (k : Nat) (f : Team → Team) : (s.modTeam k f).imgHash = s.imgHash := rfl
@[simp] theorem modTeam_unitMap (s : State) (k : Nat) (f : Team → Team) : (s.modTeam k f).unitMap = s.unitMap := rfl
@[simp] theorem modTeam_lock (s : State) (k : Nat) (f : Team → Team) : (s.modTeam k f).lock = s.lock := rfl
@[simp] theorem modTeam_pendingLimits (s : State) (k : Nat) (f : Team → Team) : (s.modTeam k f).pendingLimits = s.pendingLimits := rfl
@[simp] theorem modTeam_rootCode (s : State) (k : Nat) (f : Team → Team) : (s.modTeam k f).rootCode = s.rootCode := rfl
@[simp] theorem modTeam_fnCode (s : State) (k : Nat) (f : Team → Team) : (s.modTeam k f).fnCode = s.fnCode := rfl
@[simp] theorem modTeam_rootEntry (s : State) (k : Nat) (f : Team → Team) : (s.modTeam k f).rootEntry = s.rootEntry := rfl
@[simp] theorem modTeam_fnEntry (s : State) (k : Nat) (f : Team → Team) : (s.modTeam k f).fnEntry = s.fnEntry := rfl
@[simp] theorem modTeam_mainEn (s : State) (k : Nat) (f : Team → Team) : (s.modTeam k f).mainEn = s.mainEn := rfl
@[simp] theorem modTeam_mainOk (s : State) (k : Nat) (f : Team → Team) : (s.modTeam k f).mainOk = s.mainOk := rfl
@[simp] theorem modTeam_leak (s : State) (k : Nat) (f : Team → Team) : (s.modTeam k f).leak = s.leak := rfl
@[simp] theorem modTeam_baseDead (s : State) (k : Nat) (f : Team → Team) : (s.modTeam k f).baseDead = s.baseDead := rfl
@[simp] theorem modTeam_dies (s : State) (k : Nat) (f : Team → Team) : (s.modTeam k f).dies = s.dies := rfl
@[simp] theorem modTeam_clusters (s : State) (k : Nat) (f : Team → Team) : (s.modTeam k f).clusters = s.clusters := rfl
@[simp] theorem modTeam_links (s : State) (k : Nat) (f : Team → Team) : (s.modTeam k f).links = s.links := rfl
@[simp] theorem modTeam_peerSent (s : State) (k : Nat) (f : Team → Team) : (s.modTeam k f).peerSent = s.peerSent := rfl
@[simp] theorem modTeam_peerDone (s : State) (k : Nat) (f : Team → Team) : (s.modTeam k f).peerDone = s.peerDone := rfl
@[simp] theorem modTeam_peerHeld (s : State) (k : Nat) (f : Team → Team) : (s.modTeam k f).peerHeld = s.peerHeld := rfl
@[simp] theorem modTeam_octets (s : State) (k : Nat) (f : Team → Team) : (s.modTeam k f).octets = s.octets := rfl
@[simp] theorem modTeam_octetsUsed (s : State) (k : Nat) (f : Team → Team) : (s.modTeam k f).octetsUsed = s.octetsUsed := rfl
@[simp] theorem modTeam_dage (s : State) (k : Nat) (f : Team → Team) : (s.modTeam k f).dage = s.dage := rfl
@[simp] theorem modTeam_pgrace (s : State) (k : Nat) (f : Team → Team) : (s.modTeam k f).pgrace = s.pgrace := rfl
@[simp] theorem modTeam_slices (s : State) (k : Nat) (f : Team → Team) : (s.modTeam k f).slices = s.slices := rfl
@[simp] theorem modTeam_sliceNow (s : State) (k : Nat) (f : Team → Team) : (s.modTeam k f).sliceNow = s.sliceNow := rfl
@[simp] theorem modTeam_sliceClock (s : State) (k : Nat) (f : Team → Team) : (s.modTeam k f).sliceClock = s.sliceClock := rfl
@[simp] theorem modTeam_ageing (s : State) (k : Nat) (f : Team → Team) : (s.modTeam k f).ageing = s.ageing := rfl
@[simp] theorem modTeam_fns (s : State) (k : Nat) (f : Team → Team) : (s.modTeam k f).fns = s.fns := rfl
@[simp] theorem modTeam_ctxs (s : State) (k : Nat) (f : Team → Team) : (s.modTeam k f).ctxs = s.ctxs := rfl
@[simp] theorem modTeam_queues (s : State) (k : Nat) (f : Team → Team) : (s.modTeam k f).queues = s.queues := rfl
@[simp] theorem modTeam_grids (s : State) (k : Nat) (f : Team → Team) : (s.modTeam k f).grids = s.grids := rfl
@[simp] theorem modTeam_teams (s : State) (k : Nat) (f : Team → Team) : (s.modTeam k f).teams = s.teams.modify k f := rfl
@[simp] theorem modTeam_savedTeams (s : State) (k : Nat) (f : Team → Team) : (s.modTeam k f).savedTeams = s.savedTeams := rfl
@[simp] theorem modTeam_groups (s : State) (k : Nat) (f : Team → Team) : (s.modTeam k f).groups = s.groups := rfl
@[simp] theorem modTeam_cores (s : State) (k : Nat) (f : Team → Team) : (s.modTeam k f).cores = s.cores := rfl
@[simp] theorem modTeam_icache (s : State) (k : Nat) (f : Team → Team) : (s.modTeam k f).icache = s.icache := rfl
@[simp] theorem modTeam_tlb2 (s : State) (k : Nat) (f : Team → Team) : (s.modTeam k f).tlb2 = s.tlb2 := rfl
@[simp] theorem modTeam_walks (s : State) (k : Nat) (f : Team → Team) : (s.modTeam k f).walks = s.walks := rfl
@[simp] theorem modTeam_flights (s : State) (k : Nat) (f : Team → Team) : (s.modTeam k f).flights = s.flights := rfl
@[simp] theorem modTeam_l2 (s : State) (k : Nat) (f : Team → Team) : (s.modTeam k f).l2 = s.l2 := rfl
@[simp] theorem modTeam_overlaps (s : State) (k : Nat) (f : Team → Team) : (s.modTeam k f).overlaps = s.overlaps := rfl
@[simp] theorem modTeam_strongs (s : State) (k : Nat) (f : Team → Team) : (s.modTeam k f).strongs = s.strongs := rfl
@[simp] theorem modTeam_rels (s : State) (k : Nat) (f : Team → Team) : (s.modTeam k f).rels = s.rels := rfl
@[simp] theorem modTeam_hazy (s : State) (k : Nat) (f : Team → Team) : (s.modTeam k f).hazy = s.hazy := rfl
@[simp] theorem modTeam_promos (s : State) (k : Nat) (f : Team → Team) : (s.modTeam k f).promos = s.promos := rfl
@[simp] theorem modTeam_residencies (s : State) (k : Nat) (f : Team → Team) : (s.modTeam k f).residencies = s.residencies := rfl
@[simp] theorem modTeam_watches (s : State) (k : Nat) (f : Team → Team) : (s.modTeam k f).watches = s.watches := rfl
@[simp] theorem modTeam_barSlots (s : State) (k : Nat) (f : Team → Team) : (s.modTeam k f).barSlots = s.barSlots := rfl
@[simp] theorem modTeam_jobs (s : State) (k : Nat) (f : Team → Team) : (s.modTeam k f).jobs = s.jobs := rfl
@[simp] theorem modTeam_remains (s : State) (k : Nat) (f : Team → Team) : (s.modTeam k f).remains = s.remains := rfl
@[simp] theorem modTeam_heldRecords (s : State) (k : Nat) (f : Team → Team) : (s.modTeam k f).heldRecords = s.heldRecords := rfl
@[simp] theorem modTeam_tokens (s : State) (k : Nat) (f : Team → Team) : (s.modTeam k f).tokens = s.tokens := rfl
@[simp] theorem modTeam_mem (s : State) (k : Nat) (f : Team → Team) : (s.modTeam k f).mem = s.mem := rfl
@[simp] theorem modTeam_memPoison (s : State) (k : Nat) (f : Team → Team) : (s.modTeam k f).memPoison = s.memPoison := rfl
@[simp] theorem modTeam_scratch (s : State) (k : Nat) (f : Team → Team) : (s.modTeam k f).scratch = s.scratch := rfl
@[simp] theorem modTeam_scratchPoison (s : State) (k : Nat) (f : Team → Team) : (s.modTeam k f).scratchPoison = s.scratchPoison := rfl
@[simp] theorem modTeam_chip (s : State) (k : Nat) (f : Team → Team) : (s.modTeam k f).chip = s.chip := rfl
@[simp] theorem modTeam_chipPoison (s : State) (k : Nat) (f : Team → Team) : (s.modTeam k f).chipPoison = s.chipPoison := rfl
@[simp] theorem modTeam_acc (s : State) (k : Nat) (f : Team → Team) : (s.modTeam k f).acc = s.acc := rfl
@[simp] theorem modTeam_accPoison (s : State) (k : Nat) (f : Team → Team) : (s.modTeam k f).accPoison = s.accPoison := rfl
@[simp] theorem modTeam_weights (s : State) (k : Nat) (f : Team → Team) : (s.modTeam k f).weights = s.weights := rfl
@[simp] theorem modTeam_scales (s : State) (k : Nat) (f : Team → Team) : (s.modTeam k f).scales = s.scales := rfl
@[simp] theorem modTeam_agenda (s : State) (k : Nat) (f : Team → Team) : (s.modTeam k f).agenda = s.agenda := rfl
@[simp] theorem modTeam_cur (s : State) (k : Nat) (f : Team → Team) : (s.modTeam k f).cur = s.cur := rfl
@[simp] theorem modTeam_closing (s : State) (k : Nat) (f : Team → Team) : (s.modTeam k f).closing = s.closing := rfl
@[simp] theorem modTeam_freeCount (s : State) (k : Nat) (f : Team → Team) : (s.modTeam k f).freeCount = s.freeCount := rfl
@[simp] theorem modTeam_nextId (s : State) (k : Nat) (f : Team → Team) : (s.modTeam k f).nextId = s.nextId := rfl
@[simp] theorem modTeam_clock (s : State) (k : Nat) (f : Team → Team) : (s.modTeam k f).clock = s.clock := rfl
@[simp] theorem modTeam_sent (s : State) (k : Nat) (f : Team → Team) : (s.modTeam k f).sent = s.sent := rfl

/-! ## State.modGroup -/

@[simp] theorem modGroup_bstate (s : State) (k : Nat) (f : Group → Group) : (s.modGroup k f).bstate = s.bstate := rfl
@[simp] theorem modGroup_berr (s : State) (k : Nat) (f : Group → Group) : (s.modGroup k f).berr = s.berr := rfl
@[simp] theorem modGroup_bimg (s : State) (k : Nat) (f : Group → Group) : (s.modGroup k f).bimg = s.bimg := rfl
@[simp] theorem modGroup_blen (s : State) (k : Nat) (f : Group → Group) : (s.modGroup k f).blen = s.blen := rfl
@[simp] theorem modGroup_nonce (s : State) (k : Nat) (f : Group → Group) : (s.modGroup k f).nonce = s.nonce := rfl
@[simp] theorem modGroup_record (s : State) (k : Nat) (f : Group → Group) : (s.modGroup k f).record = s.record := rfl
@[simp] theorem modGroup_lcount (s : State) (k : Nat) (f : Group → Group) : (s.modGroup k f).lcount = s.lcount := rfl
@[simp] theorem modGroup_bootId (s : State) (k : Nat) (f : Group → Group) : (s.modGroup k f).bootId = s.bootId := rfl
@[simp] theorem modGroup_imgHash (s : State) (k : Nat) (f : Group → Group) : (s.modGroup k f).imgHash = s.imgHash := rfl
@[simp] theorem modGroup_unitMap (s : State) (k : Nat) (f : Group → Group) : (s.modGroup k f).unitMap = s.unitMap := rfl
@[simp] theorem modGroup_lock (s : State) (k : Nat) (f : Group → Group) : (s.modGroup k f).lock = s.lock := rfl
@[simp] theorem modGroup_pendingLimits (s : State) (k : Nat) (f : Group → Group) : (s.modGroup k f).pendingLimits = s.pendingLimits := rfl
@[simp] theorem modGroup_rootCode (s : State) (k : Nat) (f : Group → Group) : (s.modGroup k f).rootCode = s.rootCode := rfl
@[simp] theorem modGroup_fnCode (s : State) (k : Nat) (f : Group → Group) : (s.modGroup k f).fnCode = s.fnCode := rfl
@[simp] theorem modGroup_rootEntry (s : State) (k : Nat) (f : Group → Group) : (s.modGroup k f).rootEntry = s.rootEntry := rfl
@[simp] theorem modGroup_fnEntry (s : State) (k : Nat) (f : Group → Group) : (s.modGroup k f).fnEntry = s.fnEntry := rfl
@[simp] theorem modGroup_mainEn (s : State) (k : Nat) (f : Group → Group) : (s.modGroup k f).mainEn = s.mainEn := rfl
@[simp] theorem modGroup_mainOk (s : State) (k : Nat) (f : Group → Group) : (s.modGroup k f).mainOk = s.mainOk := rfl
@[simp] theorem modGroup_leak (s : State) (k : Nat) (f : Group → Group) : (s.modGroup k f).leak = s.leak := rfl
@[simp] theorem modGroup_baseDead (s : State) (k : Nat) (f : Group → Group) : (s.modGroup k f).baseDead = s.baseDead := rfl
@[simp] theorem modGroup_dies (s : State) (k : Nat) (f : Group → Group) : (s.modGroup k f).dies = s.dies := rfl
@[simp] theorem modGroup_clusters (s : State) (k : Nat) (f : Group → Group) : (s.modGroup k f).clusters = s.clusters := rfl
@[simp] theorem modGroup_links (s : State) (k : Nat) (f : Group → Group) : (s.modGroup k f).links = s.links := rfl
@[simp] theorem modGroup_peerSent (s : State) (k : Nat) (f : Group → Group) : (s.modGroup k f).peerSent = s.peerSent := rfl
@[simp] theorem modGroup_peerDone (s : State) (k : Nat) (f : Group → Group) : (s.modGroup k f).peerDone = s.peerDone := rfl
@[simp] theorem modGroup_peerHeld (s : State) (k : Nat) (f : Group → Group) : (s.modGroup k f).peerHeld = s.peerHeld := rfl
@[simp] theorem modGroup_octets (s : State) (k : Nat) (f : Group → Group) : (s.modGroup k f).octets = s.octets := rfl
@[simp] theorem modGroup_octetsUsed (s : State) (k : Nat) (f : Group → Group) : (s.modGroup k f).octetsUsed = s.octetsUsed := rfl
@[simp] theorem modGroup_dage (s : State) (k : Nat) (f : Group → Group) : (s.modGroup k f).dage = s.dage := rfl
@[simp] theorem modGroup_pgrace (s : State) (k : Nat) (f : Group → Group) : (s.modGroup k f).pgrace = s.pgrace := rfl
@[simp] theorem modGroup_slices (s : State) (k : Nat) (f : Group → Group) : (s.modGroup k f).slices = s.slices := rfl
@[simp] theorem modGroup_sliceNow (s : State) (k : Nat) (f : Group → Group) : (s.modGroup k f).sliceNow = s.sliceNow := rfl
@[simp] theorem modGroup_sliceClock (s : State) (k : Nat) (f : Group → Group) : (s.modGroup k f).sliceClock = s.sliceClock := rfl
@[simp] theorem modGroup_ageing (s : State) (k : Nat) (f : Group → Group) : (s.modGroup k f).ageing = s.ageing := rfl
@[simp] theorem modGroup_fns (s : State) (k : Nat) (f : Group → Group) : (s.modGroup k f).fns = s.fns := rfl
@[simp] theorem modGroup_ctxs (s : State) (k : Nat) (f : Group → Group) : (s.modGroup k f).ctxs = s.ctxs := rfl
@[simp] theorem modGroup_queues (s : State) (k : Nat) (f : Group → Group) : (s.modGroup k f).queues = s.queues := rfl
@[simp] theorem modGroup_grids (s : State) (k : Nat) (f : Group → Group) : (s.modGroup k f).grids = s.grids := rfl
@[simp] theorem modGroup_teams (s : State) (k : Nat) (f : Group → Group) : (s.modGroup k f).teams = s.teams := rfl
@[simp] theorem modGroup_savedTeams (s : State) (k : Nat) (f : Group → Group) : (s.modGroup k f).savedTeams = s.savedTeams := rfl
@[simp] theorem modGroup_groups (s : State) (k : Nat) (f : Group → Group) : (s.modGroup k f).groups = s.groups.modify k f := rfl
@[simp] theorem modGroup_cores (s : State) (k : Nat) (f : Group → Group) : (s.modGroup k f).cores = s.cores := rfl
@[simp] theorem modGroup_icache (s : State) (k : Nat) (f : Group → Group) : (s.modGroup k f).icache = s.icache := rfl
@[simp] theorem modGroup_tlb2 (s : State) (k : Nat) (f : Group → Group) : (s.modGroup k f).tlb2 = s.tlb2 := rfl
@[simp] theorem modGroup_walks (s : State) (k : Nat) (f : Group → Group) : (s.modGroup k f).walks = s.walks := rfl
@[simp] theorem modGroup_flights (s : State) (k : Nat) (f : Group → Group) : (s.modGroup k f).flights = s.flights := rfl
@[simp] theorem modGroup_l2 (s : State) (k : Nat) (f : Group → Group) : (s.modGroup k f).l2 = s.l2 := rfl
@[simp] theorem modGroup_overlaps (s : State) (k : Nat) (f : Group → Group) : (s.modGroup k f).overlaps = s.overlaps := rfl
@[simp] theorem modGroup_strongs (s : State) (k : Nat) (f : Group → Group) : (s.modGroup k f).strongs = s.strongs := rfl
@[simp] theorem modGroup_rels (s : State) (k : Nat) (f : Group → Group) : (s.modGroup k f).rels = s.rels := rfl
@[simp] theorem modGroup_hazy (s : State) (k : Nat) (f : Group → Group) : (s.modGroup k f).hazy = s.hazy := rfl
@[simp] theorem modGroup_promos (s : State) (k : Nat) (f : Group → Group) : (s.modGroup k f).promos = s.promos := rfl
@[simp] theorem modGroup_residencies (s : State) (k : Nat) (f : Group → Group) : (s.modGroup k f).residencies = s.residencies := rfl
@[simp] theorem modGroup_watches (s : State) (k : Nat) (f : Group → Group) : (s.modGroup k f).watches = s.watches := rfl
@[simp] theorem modGroup_barSlots (s : State) (k : Nat) (f : Group → Group) : (s.modGroup k f).barSlots = s.barSlots := rfl
@[simp] theorem modGroup_jobs (s : State) (k : Nat) (f : Group → Group) : (s.modGroup k f).jobs = s.jobs := rfl
@[simp] theorem modGroup_remains (s : State) (k : Nat) (f : Group → Group) : (s.modGroup k f).remains = s.remains := rfl
@[simp] theorem modGroup_heldRecords (s : State) (k : Nat) (f : Group → Group) : (s.modGroup k f).heldRecords = s.heldRecords := rfl
@[simp] theorem modGroup_tokens (s : State) (k : Nat) (f : Group → Group) : (s.modGroup k f).tokens = s.tokens := rfl
@[simp] theorem modGroup_mem (s : State) (k : Nat) (f : Group → Group) : (s.modGroup k f).mem = s.mem := rfl
@[simp] theorem modGroup_memPoison (s : State) (k : Nat) (f : Group → Group) : (s.modGroup k f).memPoison = s.memPoison := rfl
@[simp] theorem modGroup_scratch (s : State) (k : Nat) (f : Group → Group) : (s.modGroup k f).scratch = s.scratch := rfl
@[simp] theorem modGroup_scratchPoison (s : State) (k : Nat) (f : Group → Group) : (s.modGroup k f).scratchPoison = s.scratchPoison := rfl
@[simp] theorem modGroup_chip (s : State) (k : Nat) (f : Group → Group) : (s.modGroup k f).chip = s.chip := rfl
@[simp] theorem modGroup_chipPoison (s : State) (k : Nat) (f : Group → Group) : (s.modGroup k f).chipPoison = s.chipPoison := rfl
@[simp] theorem modGroup_acc (s : State) (k : Nat) (f : Group → Group) : (s.modGroup k f).acc = s.acc := rfl
@[simp] theorem modGroup_accPoison (s : State) (k : Nat) (f : Group → Group) : (s.modGroup k f).accPoison = s.accPoison := rfl
@[simp] theorem modGroup_weights (s : State) (k : Nat) (f : Group → Group) : (s.modGroup k f).weights = s.weights := rfl
@[simp] theorem modGroup_scales (s : State) (k : Nat) (f : Group → Group) : (s.modGroup k f).scales = s.scales := rfl
@[simp] theorem modGroup_agenda (s : State) (k : Nat) (f : Group → Group) : (s.modGroup k f).agenda = s.agenda := rfl
@[simp] theorem modGroup_cur (s : State) (k : Nat) (f : Group → Group) : (s.modGroup k f).cur = s.cur := rfl
@[simp] theorem modGroup_closing (s : State) (k : Nat) (f : Group → Group) : (s.modGroup k f).closing = s.closing := rfl
@[simp] theorem modGroup_freeCount (s : State) (k : Nat) (f : Group → Group) : (s.modGroup k f).freeCount = s.freeCount := rfl
@[simp] theorem modGroup_nextId (s : State) (k : Nat) (f : Group → Group) : (s.modGroup k f).nextId = s.nextId := rfl
@[simp] theorem modGroup_clock (s : State) (k : Nat) (f : Group → Group) : (s.modGroup k f).clock = s.clock := rfl
@[simp] theorem modGroup_sent (s : State) (k : Nat) (f : Group → Group) : (s.modGroup k f).sent = s.sent := rfl

/-! ## State.modRes -/

@[simp] theorem modRes_bstate (s : State) (k : Nat) (f : Res → Res) : (s.modRes k f).bstate = s.bstate := rfl
@[simp] theorem modRes_berr (s : State) (k : Nat) (f : Res → Res) : (s.modRes k f).berr = s.berr := rfl
@[simp] theorem modRes_bimg (s : State) (k : Nat) (f : Res → Res) : (s.modRes k f).bimg = s.bimg := rfl
@[simp] theorem modRes_blen (s : State) (k : Nat) (f : Res → Res) : (s.modRes k f).blen = s.blen := rfl
@[simp] theorem modRes_nonce (s : State) (k : Nat) (f : Res → Res) : (s.modRes k f).nonce = s.nonce := rfl
@[simp] theorem modRes_record (s : State) (k : Nat) (f : Res → Res) : (s.modRes k f).record = s.record := rfl
@[simp] theorem modRes_lcount (s : State) (k : Nat) (f : Res → Res) : (s.modRes k f).lcount = s.lcount := rfl
@[simp] theorem modRes_bootId (s : State) (k : Nat) (f : Res → Res) : (s.modRes k f).bootId = s.bootId := rfl
@[simp] theorem modRes_imgHash (s : State) (k : Nat) (f : Res → Res) : (s.modRes k f).imgHash = s.imgHash := rfl
@[simp] theorem modRes_unitMap (s : State) (k : Nat) (f : Res → Res) : (s.modRes k f).unitMap = s.unitMap := rfl
@[simp] theorem modRes_lock (s : State) (k : Nat) (f : Res → Res) : (s.modRes k f).lock = s.lock := rfl
@[simp] theorem modRes_pendingLimits (s : State) (k : Nat) (f : Res → Res) : (s.modRes k f).pendingLimits = s.pendingLimits := rfl
@[simp] theorem modRes_rootCode (s : State) (k : Nat) (f : Res → Res) : (s.modRes k f).rootCode = s.rootCode := rfl
@[simp] theorem modRes_fnCode (s : State) (k : Nat) (f : Res → Res) : (s.modRes k f).fnCode = s.fnCode := rfl
@[simp] theorem modRes_rootEntry (s : State) (k : Nat) (f : Res → Res) : (s.modRes k f).rootEntry = s.rootEntry := rfl
@[simp] theorem modRes_fnEntry (s : State) (k : Nat) (f : Res → Res) : (s.modRes k f).fnEntry = s.fnEntry := rfl
@[simp] theorem modRes_mainEn (s : State) (k : Nat) (f : Res → Res) : (s.modRes k f).mainEn = s.mainEn := rfl
@[simp] theorem modRes_mainOk (s : State) (k : Nat) (f : Res → Res) : (s.modRes k f).mainOk = s.mainOk := rfl
@[simp] theorem modRes_leak (s : State) (k : Nat) (f : Res → Res) : (s.modRes k f).leak = s.leak := rfl
@[simp] theorem modRes_baseDead (s : State) (k : Nat) (f : Res → Res) : (s.modRes k f).baseDead = s.baseDead := rfl
@[simp] theorem modRes_dies (s : State) (k : Nat) (f : Res → Res) : (s.modRes k f).dies = s.dies := rfl
@[simp] theorem modRes_clusters (s : State) (k : Nat) (f : Res → Res) : (s.modRes k f).clusters = s.clusters := rfl
@[simp] theorem modRes_links (s : State) (k : Nat) (f : Res → Res) : (s.modRes k f).links = s.links := rfl
@[simp] theorem modRes_peerSent (s : State) (k : Nat) (f : Res → Res) : (s.modRes k f).peerSent = s.peerSent := rfl
@[simp] theorem modRes_peerDone (s : State) (k : Nat) (f : Res → Res) : (s.modRes k f).peerDone = s.peerDone := rfl
@[simp] theorem modRes_peerHeld (s : State) (k : Nat) (f : Res → Res) : (s.modRes k f).peerHeld = s.peerHeld := rfl
@[simp] theorem modRes_octets (s : State) (k : Nat) (f : Res → Res) : (s.modRes k f).octets = s.octets := rfl
@[simp] theorem modRes_octetsUsed (s : State) (k : Nat) (f : Res → Res) : (s.modRes k f).octetsUsed = s.octetsUsed := rfl
@[simp] theorem modRes_dage (s : State) (k : Nat) (f : Res → Res) : (s.modRes k f).dage = s.dage := rfl
@[simp] theorem modRes_pgrace (s : State) (k : Nat) (f : Res → Res) : (s.modRes k f).pgrace = s.pgrace := rfl
@[simp] theorem modRes_slices (s : State) (k : Nat) (f : Res → Res) : (s.modRes k f).slices = s.slices := rfl
@[simp] theorem modRes_sliceNow (s : State) (k : Nat) (f : Res → Res) : (s.modRes k f).sliceNow = s.sliceNow := rfl
@[simp] theorem modRes_sliceClock (s : State) (k : Nat) (f : Res → Res) : (s.modRes k f).sliceClock = s.sliceClock := rfl
@[simp] theorem modRes_ageing (s : State) (k : Nat) (f : Res → Res) : (s.modRes k f).ageing = s.ageing := rfl
@[simp] theorem modRes_fns (s : State) (k : Nat) (f : Res → Res) : (s.modRes k f).fns = s.fns := rfl
@[simp] theorem modRes_ctxs (s : State) (k : Nat) (f : Res → Res) : (s.modRes k f).ctxs = s.ctxs := rfl
@[simp] theorem modRes_queues (s : State) (k : Nat) (f : Res → Res) : (s.modRes k f).queues = s.queues := rfl
@[simp] theorem modRes_grids (s : State) (k : Nat) (f : Res → Res) : (s.modRes k f).grids = s.grids := rfl
@[simp] theorem modRes_teams (s : State) (k : Nat) (f : Res → Res) : (s.modRes k f).teams = s.teams := rfl
@[simp] theorem modRes_savedTeams (s : State) (k : Nat) (f : Res → Res) : (s.modRes k f).savedTeams = s.savedTeams := rfl
@[simp] theorem modRes_groups (s : State) (k : Nat) (f : Res → Res) : (s.modRes k f).groups = s.groups := rfl
@[simp] theorem modRes_cores (s : State) (k : Nat) (f : Res → Res) : (s.modRes k f).cores = s.cores := rfl
@[simp] theorem modRes_icache (s : State) (k : Nat) (f : Res → Res) : (s.modRes k f).icache = s.icache := rfl
@[simp] theorem modRes_tlb2 (s : State) (k : Nat) (f : Res → Res) : (s.modRes k f).tlb2 = s.tlb2 := rfl
@[simp] theorem modRes_walks (s : State) (k : Nat) (f : Res → Res) : (s.modRes k f).walks = s.walks := rfl
@[simp] theorem modRes_flights (s : State) (k : Nat) (f : Res → Res) : (s.modRes k f).flights = s.flights := rfl
@[simp] theorem modRes_l2 (s : State) (k : Nat) (f : Res → Res) : (s.modRes k f).l2 = s.l2 := rfl
@[simp] theorem modRes_overlaps (s : State) (k : Nat) (f : Res → Res) : (s.modRes k f).overlaps = s.overlaps := rfl
@[simp] theorem modRes_strongs (s : State) (k : Nat) (f : Res → Res) : (s.modRes k f).strongs = s.strongs := rfl
@[simp] theorem modRes_rels (s : State) (k : Nat) (f : Res → Res) : (s.modRes k f).rels = s.rels := rfl
@[simp] theorem modRes_hazy (s : State) (k : Nat) (f : Res → Res) : (s.modRes k f).hazy = s.hazy := rfl
@[simp] theorem modRes_promos (s : State) (k : Nat) (f : Res → Res) : (s.modRes k f).promos = s.promos := rfl
@[simp] theorem modRes_residencies (s : State) (k : Nat) (f : Res → Res) : (s.modRes k f).residencies = s.residencies.modify k f := rfl
@[simp] theorem modRes_watches (s : State) (k : Nat) (f : Res → Res) : (s.modRes k f).watches = s.watches := rfl
@[simp] theorem modRes_barSlots (s : State) (k : Nat) (f : Res → Res) : (s.modRes k f).barSlots = s.barSlots := rfl
@[simp] theorem modRes_jobs (s : State) (k : Nat) (f : Res → Res) : (s.modRes k f).jobs = s.jobs := rfl
@[simp] theorem modRes_remains (s : State) (k : Nat) (f : Res → Res) : (s.modRes k f).remains = s.remains := rfl
@[simp] theorem modRes_heldRecords (s : State) (k : Nat) (f : Res → Res) : (s.modRes k f).heldRecords = s.heldRecords := rfl
@[simp] theorem modRes_tokens (s : State) (k : Nat) (f : Res → Res) : (s.modRes k f).tokens = s.tokens := rfl
@[simp] theorem modRes_mem (s : State) (k : Nat) (f : Res → Res) : (s.modRes k f).mem = s.mem := rfl
@[simp] theorem modRes_memPoison (s : State) (k : Nat) (f : Res → Res) : (s.modRes k f).memPoison = s.memPoison := rfl
@[simp] theorem modRes_scratch (s : State) (k : Nat) (f : Res → Res) : (s.modRes k f).scratch = s.scratch := rfl
@[simp] theorem modRes_scratchPoison (s : State) (k : Nat) (f : Res → Res) : (s.modRes k f).scratchPoison = s.scratchPoison := rfl
@[simp] theorem modRes_chip (s : State) (k : Nat) (f : Res → Res) : (s.modRes k f).chip = s.chip := rfl
@[simp] theorem modRes_chipPoison (s : State) (k : Nat) (f : Res → Res) : (s.modRes k f).chipPoison = s.chipPoison := rfl
@[simp] theorem modRes_acc (s : State) (k : Nat) (f : Res → Res) : (s.modRes k f).acc = s.acc := rfl
@[simp] theorem modRes_accPoison (s : State) (k : Nat) (f : Res → Res) : (s.modRes k f).accPoison = s.accPoison := rfl
@[simp] theorem modRes_weights (s : State) (k : Nat) (f : Res → Res) : (s.modRes k f).weights = s.weights := rfl
@[simp] theorem modRes_scales (s : State) (k : Nat) (f : Res → Res) : (s.modRes k f).scales = s.scales := rfl
@[simp] theorem modRes_agenda (s : State) (k : Nat) (f : Res → Res) : (s.modRes k f).agenda = s.agenda := rfl
@[simp] theorem modRes_cur (s : State) (k : Nat) (f : Res → Res) : (s.modRes k f).cur = s.cur := rfl
@[simp] theorem modRes_closing (s : State) (k : Nat) (f : Res → Res) : (s.modRes k f).closing = s.closing := rfl
@[simp] theorem modRes_freeCount (s : State) (k : Nat) (f : Res → Res) : (s.modRes k f).freeCount = s.freeCount := rfl
@[simp] theorem modRes_nextId (s : State) (k : Nat) (f : Res → Res) : (s.modRes k f).nextId = s.nextId := rfl
@[simp] theorem modRes_clock (s : State) (k : Nat) (f : Res → Res) : (s.modRes k f).clock = s.clock := rfl
@[simp] theorem modRes_sent (s : State) (k : Nat) (f : Res → Res) : (s.modRes k f).sent = s.sent := rfl

/-! ## State.modFlight -/

@[simp] theorem modFlight_bstate (s : State) (k : Nat) (f : Flight → Flight) : (s.modFlight k f).bstate = s.bstate := rfl
@[simp] theorem modFlight_berr (s : State) (k : Nat) (f : Flight → Flight) : (s.modFlight k f).berr = s.berr := rfl
@[simp] theorem modFlight_bimg (s : State) (k : Nat) (f : Flight → Flight) : (s.modFlight k f).bimg = s.bimg := rfl
@[simp] theorem modFlight_blen (s : State) (k : Nat) (f : Flight → Flight) : (s.modFlight k f).blen = s.blen := rfl
@[simp] theorem modFlight_nonce (s : State) (k : Nat) (f : Flight → Flight) : (s.modFlight k f).nonce = s.nonce := rfl
@[simp] theorem modFlight_record (s : State) (k : Nat) (f : Flight → Flight) : (s.modFlight k f).record = s.record := rfl
@[simp] theorem modFlight_lcount (s : State) (k : Nat) (f : Flight → Flight) : (s.modFlight k f).lcount = s.lcount := rfl
@[simp] theorem modFlight_bootId (s : State) (k : Nat) (f : Flight → Flight) : (s.modFlight k f).bootId = s.bootId := rfl
@[simp] theorem modFlight_imgHash (s : State) (k : Nat) (f : Flight → Flight) : (s.modFlight k f).imgHash = s.imgHash := rfl
@[simp] theorem modFlight_unitMap (s : State) (k : Nat) (f : Flight → Flight) : (s.modFlight k f).unitMap = s.unitMap := rfl
@[simp] theorem modFlight_lock (s : State) (k : Nat) (f : Flight → Flight) : (s.modFlight k f).lock = s.lock := rfl
@[simp] theorem modFlight_pendingLimits (s : State) (k : Nat) (f : Flight → Flight) : (s.modFlight k f).pendingLimits = s.pendingLimits := rfl
@[simp] theorem modFlight_rootCode (s : State) (k : Nat) (f : Flight → Flight) : (s.modFlight k f).rootCode = s.rootCode := rfl
@[simp] theorem modFlight_fnCode (s : State) (k : Nat) (f : Flight → Flight) : (s.modFlight k f).fnCode = s.fnCode := rfl
@[simp] theorem modFlight_rootEntry (s : State) (k : Nat) (f : Flight → Flight) : (s.modFlight k f).rootEntry = s.rootEntry := rfl
@[simp] theorem modFlight_fnEntry (s : State) (k : Nat) (f : Flight → Flight) : (s.modFlight k f).fnEntry = s.fnEntry := rfl
@[simp] theorem modFlight_mainEn (s : State) (k : Nat) (f : Flight → Flight) : (s.modFlight k f).mainEn = s.mainEn := rfl
@[simp] theorem modFlight_mainOk (s : State) (k : Nat) (f : Flight → Flight) : (s.modFlight k f).mainOk = s.mainOk := rfl
@[simp] theorem modFlight_leak (s : State) (k : Nat) (f : Flight → Flight) : (s.modFlight k f).leak = s.leak := rfl
@[simp] theorem modFlight_baseDead (s : State) (k : Nat) (f : Flight → Flight) : (s.modFlight k f).baseDead = s.baseDead := rfl
@[simp] theorem modFlight_dies (s : State) (k : Nat) (f : Flight → Flight) : (s.modFlight k f).dies = s.dies := rfl
@[simp] theorem modFlight_clusters (s : State) (k : Nat) (f : Flight → Flight) : (s.modFlight k f).clusters = s.clusters := rfl
@[simp] theorem modFlight_links (s : State) (k : Nat) (f : Flight → Flight) : (s.modFlight k f).links = s.links := rfl
@[simp] theorem modFlight_peerSent (s : State) (k : Nat) (f : Flight → Flight) : (s.modFlight k f).peerSent = s.peerSent := rfl
@[simp] theorem modFlight_peerDone (s : State) (k : Nat) (f : Flight → Flight) : (s.modFlight k f).peerDone = s.peerDone := rfl
@[simp] theorem modFlight_peerHeld (s : State) (k : Nat) (f : Flight → Flight) : (s.modFlight k f).peerHeld = s.peerHeld := rfl
@[simp] theorem modFlight_octets (s : State) (k : Nat) (f : Flight → Flight) : (s.modFlight k f).octets = s.octets := rfl
@[simp] theorem modFlight_octetsUsed (s : State) (k : Nat) (f : Flight → Flight) : (s.modFlight k f).octetsUsed = s.octetsUsed := rfl
@[simp] theorem modFlight_dage (s : State) (k : Nat) (f : Flight → Flight) : (s.modFlight k f).dage = s.dage := rfl
@[simp] theorem modFlight_pgrace (s : State) (k : Nat) (f : Flight → Flight) : (s.modFlight k f).pgrace = s.pgrace := rfl
@[simp] theorem modFlight_slices (s : State) (k : Nat) (f : Flight → Flight) : (s.modFlight k f).slices = s.slices := rfl
@[simp] theorem modFlight_sliceNow (s : State) (k : Nat) (f : Flight → Flight) : (s.modFlight k f).sliceNow = s.sliceNow := rfl
@[simp] theorem modFlight_sliceClock (s : State) (k : Nat) (f : Flight → Flight) : (s.modFlight k f).sliceClock = s.sliceClock := rfl
@[simp] theorem modFlight_ageing (s : State) (k : Nat) (f : Flight → Flight) : (s.modFlight k f).ageing = s.ageing := rfl
@[simp] theorem modFlight_fns (s : State) (k : Nat) (f : Flight → Flight) : (s.modFlight k f).fns = s.fns := rfl
@[simp] theorem modFlight_ctxs (s : State) (k : Nat) (f : Flight → Flight) : (s.modFlight k f).ctxs = s.ctxs := rfl
@[simp] theorem modFlight_queues (s : State) (k : Nat) (f : Flight → Flight) : (s.modFlight k f).queues = s.queues := rfl
@[simp] theorem modFlight_grids (s : State) (k : Nat) (f : Flight → Flight) : (s.modFlight k f).grids = s.grids := rfl
@[simp] theorem modFlight_teams (s : State) (k : Nat) (f : Flight → Flight) : (s.modFlight k f).teams = s.teams := rfl
@[simp] theorem modFlight_savedTeams (s : State) (k : Nat) (f : Flight → Flight) : (s.modFlight k f).savedTeams = s.savedTeams := rfl
@[simp] theorem modFlight_groups (s : State) (k : Nat) (f : Flight → Flight) : (s.modFlight k f).groups = s.groups := rfl
@[simp] theorem modFlight_cores (s : State) (k : Nat) (f : Flight → Flight) : (s.modFlight k f).cores = s.cores := rfl
@[simp] theorem modFlight_icache (s : State) (k : Nat) (f : Flight → Flight) : (s.modFlight k f).icache = s.icache := rfl
@[simp] theorem modFlight_tlb2 (s : State) (k : Nat) (f : Flight → Flight) : (s.modFlight k f).tlb2 = s.tlb2 := rfl
@[simp] theorem modFlight_walks (s : State) (k : Nat) (f : Flight → Flight) : (s.modFlight k f).walks = s.walks := rfl
@[simp] theorem modFlight_flights (s : State) (k : Nat) (f : Flight → Flight) : (s.modFlight k f).flights = s.flights.modify k f := rfl
@[simp] theorem modFlight_l2 (s : State) (k : Nat) (f : Flight → Flight) : (s.modFlight k f).l2 = s.l2 := rfl
@[simp] theorem modFlight_overlaps (s : State) (k : Nat) (f : Flight → Flight) : (s.modFlight k f).overlaps = s.overlaps := rfl
@[simp] theorem modFlight_strongs (s : State) (k : Nat) (f : Flight → Flight) : (s.modFlight k f).strongs = s.strongs := rfl
@[simp] theorem modFlight_rels (s : State) (k : Nat) (f : Flight → Flight) : (s.modFlight k f).rels = s.rels := rfl
@[simp] theorem modFlight_hazy (s : State) (k : Nat) (f : Flight → Flight) : (s.modFlight k f).hazy = s.hazy := rfl
@[simp] theorem modFlight_promos (s : State) (k : Nat) (f : Flight → Flight) : (s.modFlight k f).promos = s.promos := rfl
@[simp] theorem modFlight_residencies (s : State) (k : Nat) (f : Flight → Flight) : (s.modFlight k f).residencies = s.residencies := rfl
@[simp] theorem modFlight_watches (s : State) (k : Nat) (f : Flight → Flight) : (s.modFlight k f).watches = s.watches := rfl
@[simp] theorem modFlight_barSlots (s : State) (k : Nat) (f : Flight → Flight) : (s.modFlight k f).barSlots = s.barSlots := rfl
@[simp] theorem modFlight_jobs (s : State) (k : Nat) (f : Flight → Flight) : (s.modFlight k f).jobs = s.jobs := rfl
@[simp] theorem modFlight_remains (s : State) (k : Nat) (f : Flight → Flight) : (s.modFlight k f).remains = s.remains := rfl
@[simp] theorem modFlight_heldRecords (s : State) (k : Nat) (f : Flight → Flight) : (s.modFlight k f).heldRecords = s.heldRecords := rfl
@[simp] theorem modFlight_tokens (s : State) (k : Nat) (f : Flight → Flight) : (s.modFlight k f).tokens = s.tokens := rfl
@[simp] theorem modFlight_mem (s : State) (k : Nat) (f : Flight → Flight) : (s.modFlight k f).mem = s.mem := rfl
@[simp] theorem modFlight_memPoison (s : State) (k : Nat) (f : Flight → Flight) : (s.modFlight k f).memPoison = s.memPoison := rfl
@[simp] theorem modFlight_scratch (s : State) (k : Nat) (f : Flight → Flight) : (s.modFlight k f).scratch = s.scratch := rfl
@[simp] theorem modFlight_scratchPoison (s : State) (k : Nat) (f : Flight → Flight) : (s.modFlight k f).scratchPoison = s.scratchPoison := rfl
@[simp] theorem modFlight_chip (s : State) (k : Nat) (f : Flight → Flight) : (s.modFlight k f).chip = s.chip := rfl
@[simp] theorem modFlight_chipPoison (s : State) (k : Nat) (f : Flight → Flight) : (s.modFlight k f).chipPoison = s.chipPoison := rfl
@[simp] theorem modFlight_acc (s : State) (k : Nat) (f : Flight → Flight) : (s.modFlight k f).acc = s.acc := rfl
@[simp] theorem modFlight_accPoison (s : State) (k : Nat) (f : Flight → Flight) : (s.modFlight k f).accPoison = s.accPoison := rfl
@[simp] theorem modFlight_weights (s : State) (k : Nat) (f : Flight → Flight) : (s.modFlight k f).weights = s.weights := rfl
@[simp] theorem modFlight_scales (s : State) (k : Nat) (f : Flight → Flight) : (s.modFlight k f).scales = s.scales := rfl
@[simp] theorem modFlight_agenda (s : State) (k : Nat) (f : Flight → Flight) : (s.modFlight k f).agenda = s.agenda := rfl
@[simp] theorem modFlight_cur (s : State) (k : Nat) (f : Flight → Flight) : (s.modFlight k f).cur = s.cur := rfl
@[simp] theorem modFlight_closing (s : State) (k : Nat) (f : Flight → Flight) : (s.modFlight k f).closing = s.closing := rfl
@[simp] theorem modFlight_freeCount (s : State) (k : Nat) (f : Flight → Flight) : (s.modFlight k f).freeCount = s.freeCount := rfl
@[simp] theorem modFlight_nextId (s : State) (k : Nat) (f : Flight → Flight) : (s.modFlight k f).nextId = s.nextId := rfl
@[simp] theorem modFlight_clock (s : State) (k : Nat) (f : Flight → Flight) : (s.modFlight k f).clock = s.clock := rfl
@[simp] theorem modFlight_sent (s : State) (k : Nat) (f : Flight → Flight) : (s.modFlight k f).sent = s.sent := rfl

/-! ## Counters of the model -/

@[simp] theorem fresh_bstate (s : State) : s.fresh.2.bstate = s.bstate := rfl
@[simp] theorem fresh_berr (s : State) : s.fresh.2.berr = s.berr := rfl
@[simp] theorem fresh_bimg (s : State) : s.fresh.2.bimg = s.bimg := rfl
@[simp] theorem fresh_blen (s : State) : s.fresh.2.blen = s.blen := rfl
@[simp] theorem fresh_nonce (s : State) : s.fresh.2.nonce = s.nonce := rfl
@[simp] theorem fresh_record (s : State) : s.fresh.2.record = s.record := rfl
@[simp] theorem fresh_lcount (s : State) : s.fresh.2.lcount = s.lcount := rfl
@[simp] theorem fresh_bootId (s : State) : s.fresh.2.bootId = s.bootId := rfl
@[simp] theorem fresh_imgHash (s : State) : s.fresh.2.imgHash = s.imgHash := rfl
@[simp] theorem fresh_unitMap (s : State) : s.fresh.2.unitMap = s.unitMap := rfl
@[simp] theorem fresh_lock (s : State) : s.fresh.2.lock = s.lock := rfl
@[simp] theorem fresh_pendingLimits (s : State) : s.fresh.2.pendingLimits = s.pendingLimits := rfl
@[simp] theorem fresh_rootCode (s : State) : s.fresh.2.rootCode = s.rootCode := rfl
@[simp] theorem fresh_fnCode (s : State) : s.fresh.2.fnCode = s.fnCode := rfl
@[simp] theorem fresh_rootEntry (s : State) : s.fresh.2.rootEntry = s.rootEntry := rfl
@[simp] theorem fresh_fnEntry (s : State) : s.fresh.2.fnEntry = s.fnEntry := rfl
@[simp] theorem fresh_mainEn (s : State) : s.fresh.2.mainEn = s.mainEn := rfl
@[simp] theorem fresh_mainOk (s : State) : s.fresh.2.mainOk = s.mainOk := rfl
@[simp] theorem fresh_leak (s : State) : s.fresh.2.leak = s.leak := rfl
@[simp] theorem fresh_baseDead (s : State) : s.fresh.2.baseDead = s.baseDead := rfl
@[simp] theorem fresh_dies (s : State) : s.fresh.2.dies = s.dies := rfl
@[simp] theorem fresh_clusters (s : State) : s.fresh.2.clusters = s.clusters := rfl
@[simp] theorem fresh_links (s : State) : s.fresh.2.links = s.links := rfl
@[simp] theorem fresh_peerSent (s : State) : s.fresh.2.peerSent = s.peerSent := rfl
@[simp] theorem fresh_peerDone (s : State) : s.fresh.2.peerDone = s.peerDone := rfl
@[simp] theorem fresh_peerHeld (s : State) : s.fresh.2.peerHeld = s.peerHeld := rfl
@[simp] theorem fresh_octets (s : State) : s.fresh.2.octets = s.octets := rfl
@[simp] theorem fresh_octetsUsed (s : State) : s.fresh.2.octetsUsed = s.octetsUsed := rfl
@[simp] theorem fresh_dage (s : State) : s.fresh.2.dage = s.dage := rfl
@[simp] theorem fresh_pgrace (s : State) : s.fresh.2.pgrace = s.pgrace := rfl
@[simp] theorem fresh_slices (s : State) : s.fresh.2.slices = s.slices := rfl
@[simp] theorem fresh_sliceNow (s : State) : s.fresh.2.sliceNow = s.sliceNow := rfl
@[simp] theorem fresh_sliceClock (s : State) : s.fresh.2.sliceClock = s.sliceClock := rfl
@[simp] theorem fresh_ageing (s : State) : s.fresh.2.ageing = s.ageing := rfl
@[simp] theorem fresh_fns (s : State) : s.fresh.2.fns = s.fns := rfl
@[simp] theorem fresh_ctxs (s : State) : s.fresh.2.ctxs = s.ctxs := rfl
@[simp] theorem fresh_queues (s : State) : s.fresh.2.queues = s.queues := rfl
@[simp] theorem fresh_grids (s : State) : s.fresh.2.grids = s.grids := rfl
@[simp] theorem fresh_teams (s : State) : s.fresh.2.teams = s.teams := rfl
@[simp] theorem fresh_savedTeams (s : State) : s.fresh.2.savedTeams = s.savedTeams := rfl
@[simp] theorem fresh_groups (s : State) : s.fresh.2.groups = s.groups := rfl
@[simp] theorem fresh_cores (s : State) : s.fresh.2.cores = s.cores := rfl
@[simp] theorem fresh_icache (s : State) : s.fresh.2.icache = s.icache := rfl
@[simp] theorem fresh_tlb2 (s : State) : s.fresh.2.tlb2 = s.tlb2 := rfl
@[simp] theorem fresh_walks (s : State) : s.fresh.2.walks = s.walks := rfl
@[simp] theorem fresh_flights (s : State) : s.fresh.2.flights = s.flights := rfl
@[simp] theorem fresh_l2 (s : State) : s.fresh.2.l2 = s.l2 := rfl
@[simp] theorem fresh_overlaps (s : State) : s.fresh.2.overlaps = s.overlaps := rfl
@[simp] theorem fresh_strongs (s : State) : s.fresh.2.strongs = s.strongs := rfl
@[simp] theorem fresh_rels (s : State) : s.fresh.2.rels = s.rels := rfl
@[simp] theorem fresh_hazy (s : State) : s.fresh.2.hazy = s.hazy := rfl
@[simp] theorem fresh_promos (s : State) : s.fresh.2.promos = s.promos := rfl
@[simp] theorem fresh_residencies (s : State) : s.fresh.2.residencies = s.residencies := rfl
@[simp] theorem fresh_watches (s : State) : s.fresh.2.watches = s.watches := rfl
@[simp] theorem fresh_barSlots (s : State) : s.fresh.2.barSlots = s.barSlots := rfl
@[simp] theorem fresh_jobs (s : State) : s.fresh.2.jobs = s.jobs := rfl
@[simp] theorem fresh_remains (s : State) : s.fresh.2.remains = s.remains := rfl
@[simp] theorem fresh_heldRecords (s : State) : s.fresh.2.heldRecords = s.heldRecords := rfl
@[simp] theorem fresh_tokens (s : State) : s.fresh.2.tokens = s.tokens := rfl
@[simp] theorem fresh_mem (s : State) : s.fresh.2.mem = s.mem := rfl
@[simp] theorem fresh_memPoison (s : State) : s.fresh.2.memPoison = s.memPoison := rfl
@[simp] theorem fresh_scratch (s : State) : s.fresh.2.scratch = s.scratch := rfl
@[simp] theorem fresh_scratchPoison (s : State) : s.fresh.2.scratchPoison = s.scratchPoison := rfl
@[simp] theorem fresh_chip (s : State) : s.fresh.2.chip = s.chip := rfl
@[simp] theorem fresh_chipPoison (s : State) : s.fresh.2.chipPoison = s.chipPoison := rfl
@[simp] theorem fresh_acc (s : State) : s.fresh.2.acc = s.acc := rfl
@[simp] theorem fresh_accPoison (s : State) : s.fresh.2.accPoison = s.accPoison := rfl
@[simp] theorem fresh_weights (s : State) : s.fresh.2.weights = s.weights := rfl
@[simp] theorem fresh_scales (s : State) : s.fresh.2.scales = s.scales := rfl
@[simp] theorem fresh_agenda (s : State) : s.fresh.2.agenda = s.agenda := rfl
@[simp] theorem fresh_cur (s : State) : s.fresh.2.cur = s.cur := rfl
@[simp] theorem fresh_closing (s : State) : s.fresh.2.closing = s.closing := rfl
@[simp] theorem fresh_freeCount (s : State) : s.fresh.2.freeCount = s.freeCount := rfl
@[simp] theorem fresh_nextId (s : State) : s.fresh.2.nextId = s.nextId + 1 := rfl
@[simp] theorem fresh_clock (s : State) : s.fresh.2.clock = s.clock := rfl
@[simp] theorem fresh_sent (s : State) : s.fresh.2.sent = s.sent := rfl

@[simp] theorem freeIdx_bstate (s : State) : s.freeIdx.2.bstate = s.bstate := rfl
@[simp] theorem freeIdx_berr (s : State) : s.freeIdx.2.berr = s.berr := rfl
@[simp] theorem freeIdx_bimg (s : State) : s.freeIdx.2.bimg = s.bimg := rfl
@[simp] theorem freeIdx_blen (s : State) : s.freeIdx.2.blen = s.blen := rfl
@[simp] theorem freeIdx_nonce (s : State) : s.freeIdx.2.nonce = s.nonce := rfl
@[simp] theorem freeIdx_record (s : State) : s.freeIdx.2.record = s.record := rfl
@[simp] theorem freeIdx_lcount (s : State) : s.freeIdx.2.lcount = s.lcount := rfl
@[simp] theorem freeIdx_bootId (s : State) : s.freeIdx.2.bootId = s.bootId := rfl
@[simp] theorem freeIdx_imgHash (s : State) : s.freeIdx.2.imgHash = s.imgHash := rfl
@[simp] theorem freeIdx_unitMap (s : State) : s.freeIdx.2.unitMap = s.unitMap := rfl
@[simp] theorem freeIdx_lock (s : State) : s.freeIdx.2.lock = s.lock := rfl
@[simp] theorem freeIdx_pendingLimits (s : State) : s.freeIdx.2.pendingLimits = s.pendingLimits := rfl
@[simp] theorem freeIdx_rootCode (s : State) : s.freeIdx.2.rootCode = s.rootCode := rfl
@[simp] theorem freeIdx_fnCode (s : State) : s.freeIdx.2.fnCode = s.fnCode := rfl
@[simp] theorem freeIdx_rootEntry (s : State) : s.freeIdx.2.rootEntry = s.rootEntry := rfl
@[simp] theorem freeIdx_fnEntry (s : State) : s.freeIdx.2.fnEntry = s.fnEntry := rfl
@[simp] theorem freeIdx_mainEn (s : State) : s.freeIdx.2.mainEn = s.mainEn := rfl
@[simp] theorem freeIdx_mainOk (s : State) : s.freeIdx.2.mainOk = s.mainOk := rfl
@[simp] theorem freeIdx_leak (s : State) : s.freeIdx.2.leak = s.leak := rfl
@[simp] theorem freeIdx_baseDead (s : State) : s.freeIdx.2.baseDead = s.baseDead := rfl
@[simp] theorem freeIdx_dies (s : State) : s.freeIdx.2.dies = s.dies := rfl
@[simp] theorem freeIdx_clusters (s : State) : s.freeIdx.2.clusters = s.clusters := rfl
@[simp] theorem freeIdx_links (s : State) : s.freeIdx.2.links = s.links := rfl
@[simp] theorem freeIdx_peerSent (s : State) : s.freeIdx.2.peerSent = s.peerSent := rfl
@[simp] theorem freeIdx_peerDone (s : State) : s.freeIdx.2.peerDone = s.peerDone := rfl
@[simp] theorem freeIdx_peerHeld (s : State) : s.freeIdx.2.peerHeld = s.peerHeld := rfl
@[simp] theorem freeIdx_octets (s : State) : s.freeIdx.2.octets = s.octets := rfl
@[simp] theorem freeIdx_octetsUsed (s : State) : s.freeIdx.2.octetsUsed = s.octetsUsed := rfl
@[simp] theorem freeIdx_dage (s : State) : s.freeIdx.2.dage = s.dage := rfl
@[simp] theorem freeIdx_pgrace (s : State) : s.freeIdx.2.pgrace = s.pgrace := rfl
@[simp] theorem freeIdx_slices (s : State) : s.freeIdx.2.slices = s.slices := rfl
@[simp] theorem freeIdx_sliceNow (s : State) : s.freeIdx.2.sliceNow = s.sliceNow := rfl
@[simp] theorem freeIdx_sliceClock (s : State) : s.freeIdx.2.sliceClock = s.sliceClock := rfl
@[simp] theorem freeIdx_ageing (s : State) : s.freeIdx.2.ageing = s.ageing := rfl
@[simp] theorem freeIdx_fns (s : State) : s.freeIdx.2.fns = s.fns := rfl
@[simp] theorem freeIdx_ctxs (s : State) : s.freeIdx.2.ctxs = s.ctxs := rfl
@[simp] theorem freeIdx_queues (s : State) : s.freeIdx.2.queues = s.queues := rfl
@[simp] theorem freeIdx_grids (s : State) : s.freeIdx.2.grids = s.grids := rfl
@[simp] theorem freeIdx_teams (s : State) : s.freeIdx.2.teams = s.teams := rfl
@[simp] theorem freeIdx_savedTeams (s : State) : s.freeIdx.2.savedTeams = s.savedTeams := rfl
@[simp] theorem freeIdx_groups (s : State) : s.freeIdx.2.groups = s.groups := rfl
@[simp] theorem freeIdx_cores (s : State) : s.freeIdx.2.cores = s.cores := rfl
@[simp] theorem freeIdx_icache (s : State) : s.freeIdx.2.icache = s.icache := rfl
@[simp] theorem freeIdx_tlb2 (s : State) : s.freeIdx.2.tlb2 = s.tlb2 := rfl
@[simp] theorem freeIdx_walks (s : State) : s.freeIdx.2.walks = s.walks := rfl
@[simp] theorem freeIdx_flights (s : State) : s.freeIdx.2.flights = s.flights := rfl
@[simp] theorem freeIdx_l2 (s : State) : s.freeIdx.2.l2 = s.l2 := rfl
@[simp] theorem freeIdx_overlaps (s : State) : s.freeIdx.2.overlaps = s.overlaps := rfl
@[simp] theorem freeIdx_strongs (s : State) : s.freeIdx.2.strongs = s.strongs := rfl
@[simp] theorem freeIdx_rels (s : State) : s.freeIdx.2.rels = s.rels := rfl
@[simp] theorem freeIdx_hazy (s : State) : s.freeIdx.2.hazy = s.hazy := rfl
@[simp] theorem freeIdx_promos (s : State) : s.freeIdx.2.promos = s.promos := rfl
@[simp] theorem freeIdx_residencies (s : State) : s.freeIdx.2.residencies = s.residencies := rfl
@[simp] theorem freeIdx_watches (s : State) : s.freeIdx.2.watches = s.watches := rfl
@[simp] theorem freeIdx_barSlots (s : State) : s.freeIdx.2.barSlots = s.barSlots := rfl
@[simp] theorem freeIdx_jobs (s : State) : s.freeIdx.2.jobs = s.jobs := rfl
@[simp] theorem freeIdx_remains (s : State) : s.freeIdx.2.remains = s.remains := rfl
@[simp] theorem freeIdx_heldRecords (s : State) : s.freeIdx.2.heldRecords = s.heldRecords := rfl
@[simp] theorem freeIdx_tokens (s : State) : s.freeIdx.2.tokens = s.tokens := rfl
@[simp] theorem freeIdx_mem (s : State) : s.freeIdx.2.mem = s.mem := rfl
@[simp] theorem freeIdx_memPoison (s : State) : s.freeIdx.2.memPoison = s.memPoison := rfl
@[simp] theorem freeIdx_scratch (s : State) : s.freeIdx.2.scratch = s.scratch := rfl
@[simp] theorem freeIdx_scratchPoison (s : State) : s.freeIdx.2.scratchPoison = s.scratchPoison := rfl
@[simp] theorem freeIdx_chip (s : State) : s.freeIdx.2.chip = s.chip := rfl
@[simp] theorem freeIdx_chipPoison (s : State) : s.freeIdx.2.chipPoison = s.chipPoison := rfl
@[simp] theorem freeIdx_acc (s : State) : s.freeIdx.2.acc = s.acc := rfl
@[simp] theorem freeIdx_accPoison (s : State) : s.freeIdx.2.accPoison = s.accPoison := rfl
@[simp] theorem freeIdx_weights (s : State) : s.freeIdx.2.weights = s.weights := rfl
@[simp] theorem freeIdx_scales (s : State) : s.freeIdx.2.scales = s.scales := rfl
@[simp] theorem freeIdx_agenda (s : State) : s.freeIdx.2.agenda = s.agenda := rfl
@[simp] theorem freeIdx_cur (s : State) : s.freeIdx.2.cur = s.cur := rfl
@[simp] theorem freeIdx_closing (s : State) : s.freeIdx.2.closing = s.closing := rfl
@[simp] theorem freeIdx_freeCount (s : State) : s.freeIdx.2.freeCount = s.freeCount + 1 := rfl
@[simp] theorem freeIdx_nextId (s : State) : s.freeIdx.2.nextId = s.nextId := rfl
@[simp] theorem freeIdx_clock (s : State) : s.freeIdx.2.clock = s.clock := rfl
@[simp] theorem freeIdx_sent (s : State) : s.freeIdx.2.sent = s.sent := rfl

/-! ## Units read back -/

theorem modCore_core (s : State) (c k : Nat) (f : Core → Core) :
    (s.modCore c f).core k = if c = k then f (s.core c) else s.core k := by
  simp only [State.core, State.modCore, Tbl.get?_put]
  split <;> rfl

theorem modDie_die (s : State) (c k : Nat) (f : Die → Die) :
    (s.modDie c f).die k = if c = k then f (s.die c) else s.die k := by
  simp only [State.die, State.modDie, Tbl.get?_put]
  split <;> rfl

theorem modCluster_cluster (s : State) (c k : Nat) (f : Cluster → Cluster) :
    (s.modCluster c f).cluster k = if c = k then f (s.cluster c) else s.cluster k := by
  simp only [State.cluster, State.modCluster, Tbl.get?_put]
  split <;> rfl

theorem modLink_link (s : State) (c k : Nat) (f : Port → Port) :
    (s.modLink c f).link k = if c = k then f (s.link c) else s.link k := by
  simp only [State.link, State.modLink, Tbl.get?_put]
  split <;> rfl

theorem modFn_fn (s : State) (c k : Nat) (f : Fn → Fn) :
    (s.modFn c f).fn k = if c = k then f (s.fn c) else s.fn k := by
  simp only [State.fn, State.modFn, Tbl.get?_put]
  split <;> rfl

theorem modCtx_ctx (s : State) (c k : Nat) (f : Ctx → Ctx) :
    (s.modCtx c f).ctx k = if c = k then f (s.ctx c) else s.ctx k := by
  simp only [State.ctx, State.modCtx, Tbl.get?_put]
  split <;> rfl

theorem modQueue_queue (s : State) (c k : Nat) (f : Queue → Queue) :
    (s.modQueue c f).queue k = if c = k then f (s.queue c) else s.queue k := by
  simp only [State.queue, State.modQueue, Tbl.get?_put]
  split <;> rfl

/-! ## Group and Thread -/

@[simp] theorem setScalar_team (g : Group) (i : Nat) (v : Word) : (g.setScalar i v).team = g.team := rfl
@[simp] theorem setScalar_gid (g : Group) (i : Nat) (v : Word) : (g.setScalar i v).gid = g.gid := rfl
@[simp] theorem setScalar_j (g : Group) (i : Nat) (v : Word) : (g.setScalar i v).j = g.j := rfl
@[simp] theorem setScalar_isCont (g : Group) (i : Nat) (v : Word) : (g.setScalar i v).isCont = g.isCont := rfl
@[simp] theorem setScalar_idle (g : Group) (i : Nat) (v : Word) : (g.setScalar i v).idle = g.idle := rfl
@[simp] theorem setScalar_scal (g : Group) (i : Nat) (v : Word) : (g.setScalar i v).scal = g.scal.write 0 i v := rfl
@[simp] theorem setScalar_spoison (g : Group) (i : Nat) (v : Word) : (g.setScalar i v).spoison = g.spoison.del i := rfl
@[simp] theorem setScalar_spend (g : Group) (i : Nat) (v : Word) : (g.setScalar i v).spend = g.spend := rfl
@[simp] theorem setScalar_tm (g : Group) (i : Nat) (v : Word) : (g.setScalar i v).tm = g.tm := rfl
@[simp] theorem setScalar_joins (g : Group) (i : Nat) (v : Word) : (g.setScalar i v).joins = g.joins := rfl
@[simp] theorem setScalar_rm (g : Group) (i : Nat) (v : Word) : (g.setScalar i v).rm = g.rm := rfl
@[simp] theorem setScalar_tbase (g : Group) (i : Nat) (v : Word) : (g.setScalar i v).tbase = g.tbase := rfl
@[simp] theorem setScalar_spillb (g : Group) (i : Nat) (v : Word) : (g.setScalar i v).spillb = g.spillb := rfl
@[simp] theorem setScalar_spilll (g : Group) (i : Nat) (v : Word) : (g.setScalar i v).spilll = g.spilll := rfl
@[simp] theorem setScalar_rgkey (g : Group) (i : Nat) (v : Word) : (g.setScalar i v).rgkey = g.rgkey := rfl
@[simp] theorem setScalar_rgtmo (g : Group) (i : Nat) (v : Word) : (g.setScalar i v).rgtmo = g.rgtmo := rfl
@[simp] theorem setScalar_fpen (g : Group) (i : Nat) (v : Word) : (g.setScalar i v).fpen = g.fpen := rfl
@[simp] theorem setScalar_lanes (g : Group) (i : Nat) (v : Word) : (g.setScalar i v).lanes = g.lanes := rfl
@[simp] theorem setScalar_tdet (g : Group) (i : Nat) (v : Word) : (g.setScalar i v).tdet = g.tdet := rfl
@[simp] theorem setScalar_rpc (g : Group) (i : Nat) (v : Word) : (g.setScalar i v).rpc = g.rpc := rfl
@[simp] theorem setScalar_skips (g : Group) (i : Nat) (v : Word) : (g.setScalar i v).skips = g.skips := rfl
@[simp] theorem setScalar_rdvCount (g : Group) (i : Nat) (v : Word) : (g.setScalar i v).rdvCount = g.rdvCount := rfl
@[simp] theorem setScalar_blockedMain (g : Group) (i : Nat) (v : Word) : (g.setScalar i v).blockedMain = g.blockedMain := rfl
@[simp] theorem setScalar_blockedHandler (g : Group) (i : Nat) (v : Word) : (g.setScalar i v).blockedHandler = g.blockedHandler := rfl
@[simp] theorem setScalar_stop (g : Group) (i : Nat) (v : Word) : (g.setScalar i v).stop = g.stop := rfl
@[simp] theorem setScalar_lastOp (g : Group) (i : Nat) (v : Word) : (g.setScalar i v).lastOp = g.lastOp := rfl
@[simp] theorem setScalar_launches (g : Group) (i : Nat) (v : Word) : (g.setScalar i v).launches = g.launches := rfl
@[simp] theorem setScalar_replies (g : Group) (i : Nat) (v : Word) : (g.setScalar i v).replies = g.replies := rfl
@[simp] theorem setScalar_overGid (g : Group) (i : Nat) (v : Word) : (g.setScalar i v).overGid = g.overGid := rfl

@[simp] theorem modThread_team (g : Group) (l : Nat) (f : Thread → Thread) : (g.modThread l f).team = g.team := rfl
@[simp] theorem modThread_gid (g : Group) (l : Nat) (f : Thread → Thread) : (g.modThread l f).gid = g.gid := rfl
@[simp] theorem modThread_j (g : Group) (l : Nat) (f : Thread → Thread) : (g.modThread l f).j = g.j := rfl
@[simp] theorem modThread_isCont (g : Group) (l : Nat) (f : Thread → Thread) : (g.modThread l f).isCont = g.isCont := rfl
@[simp] theorem modThread_idle (g : Group) (l : Nat) (f : Thread → Thread) : (g.modThread l f).idle = g.idle := rfl
@[simp] theorem modThread_scal (g : Group) (l : Nat) (f : Thread → Thread) : (g.modThread l f).scal = g.scal := rfl
@[simp] theorem modThread_spoison (g : Group) (l : Nat) (f : Thread → Thread) : (g.modThread l f).spoison = g.spoison := rfl
@[simp] theorem modThread_spend (g : Group) (l : Nat) (f : Thread → Thread) : (g.modThread l f).spend = g.spend := rfl
@[simp] theorem modThread_tm (g : Group) (l : Nat) (f : Thread → Thread) : (g.modThread l f).tm = g.tm := rfl
@[simp] theorem modThread_joins (g : Group) (l : Nat) (f : Thread → Thread) : (g.modThread l f).joins = g.joins := rfl
@[simp] theorem modThread_rm (g : Group) (l : Nat) (f : Thread → Thread) : (g.modThread l f).rm = g.rm := rfl
@[simp] theorem modThread_tbase (g : Group) (l : Nat) (f : Thread → Thread) : (g.modThread l f).tbase = g.tbase := rfl
@[simp] theorem modThread_spillb (g : Group) (l : Nat) (f : Thread → Thread) : (g.modThread l f).spillb = g.spillb := rfl
@[simp] theorem modThread_spilll (g : Group) (l : Nat) (f : Thread → Thread) : (g.modThread l f).spilll = g.spilll := rfl
@[simp] theorem modThread_rgkey (g : Group) (l : Nat) (f : Thread → Thread) : (g.modThread l f).rgkey = g.rgkey := rfl
@[simp] theorem modThread_rgtmo (g : Group) (l : Nat) (f : Thread → Thread) : (g.modThread l f).rgtmo = g.rgtmo := rfl
@[simp] theorem modThread_fpen (g : Group) (l : Nat) (f : Thread → Thread) : (g.modThread l f).fpen = g.fpen := rfl
@[simp] theorem modThread_lanes (g : Group) (l : Nat) (f : Thread → Thread) : (g.modThread l f).lanes = g.lanes.modify l f := rfl
@[simp] theorem modThread_tdet (g : Group) (l : Nat) (f : Thread → Thread) : (g.modThread l f).tdet = g.tdet := rfl
@[simp] theorem modThread_rpc (g : Group) (l : Nat) (f : Thread → Thread) : (g.modThread l f).rpc = g.rpc := rfl
@[simp] theorem modThread_skips (g : Group) (l : Nat) (f : Thread → Thread) : (g.modThread l f).skips = g.skips := rfl
@[simp] theorem modThread_rdvCount (g : Group) (l : Nat) (f : Thread → Thread) : (g.modThread l f).rdvCount = g.rdvCount := rfl
@[simp] theorem modThread_blockedMain (g : Group) (l : Nat) (f : Thread → Thread) : (g.modThread l f).blockedMain = g.blockedMain := rfl
@[simp] theorem modThread_blockedHandler (g : Group) (l : Nat) (f : Thread → Thread) : (g.modThread l f).blockedHandler = g.blockedHandler := rfl
@[simp] theorem modThread_stop (g : Group) (l : Nat) (f : Thread → Thread) : (g.modThread l f).stop = g.stop := rfl
@[simp] theorem modThread_lastOp (g : Group) (l : Nat) (f : Thread → Thread) : (g.modThread l f).lastOp = g.lastOp := rfl
@[simp] theorem modThread_launches (g : Group) (l : Nat) (f : Thread → Thread) : (g.modThread l f).launches = g.launches := rfl
@[simp] theorem modThread_replies (g : Group) (l : Nat) (f : Thread → Thread) : (g.modThread l f).replies = g.replies := rfl
@[simp] theorem modThread_overGid (g : Group) (l : Nat) (f : Thread → Thread) : (g.modThread l f).overGid = g.overGid := rfl

@[simp] theorem setLpc_team (g : Group) (l : Nat) (v : Word) : (g.setLpc l v).team = g.team := rfl
@[simp] theorem setLpc_gid (g : Group) (l : Nat) (v : Word) : (g.setLpc l v).gid = g.gid := rfl
@[simp] theorem setLpc_j (g : Group) (l : Nat) (v : Word) : (g.setLpc l v).j = g.j := rfl
@[simp] theorem setLpc_isCont (g : Group) (l : Nat) (v : Word) : (g.setLpc l v).isCont = g.isCont := rfl
@[simp] theorem setLpc_idle (g : Group) (l : Nat) (v : Word) : (g.setLpc l v).idle = g.idle := rfl
@[simp] theorem setLpc_scal (g : Group) (l : Nat) (v : Word) : (g.setLpc l v).scal = g.scal := rfl
@[simp] theorem setLpc_spoison (g : Group) (l : Nat) (v : Word) : (g.setLpc l v).spoison = g.spoison := rfl
@[simp] theorem setLpc_spend (g : Group) (l : Nat) (v : Word) : (g.setLpc l v).spend = g.spend := rfl
@[simp] theorem setLpc_tm (g : Group) (l : Nat) (v : Word) : (g.setLpc l v).tm = g.tm := rfl
@[simp] theorem setLpc_joins (g : Group) (l : Nat) (v : Word) : (g.setLpc l v).joins = g.joins := rfl
@[simp] theorem setLpc_rm (g : Group) (l : Nat) (v : Word) : (g.setLpc l v).rm = g.rm := rfl
@[simp] theorem setLpc_tbase (g : Group) (l : Nat) (v : Word) : (g.setLpc l v).tbase = g.tbase := rfl
@[simp] theorem setLpc_spillb (g : Group) (l : Nat) (v : Word) : (g.setLpc l v).spillb = g.spillb := rfl
@[simp] theorem setLpc_spilll (g : Group) (l : Nat) (v : Word) : (g.setLpc l v).spilll = g.spilll := rfl
@[simp] theorem setLpc_rgkey (g : Group) (l : Nat) (v : Word) : (g.setLpc l v).rgkey = g.rgkey := rfl
@[simp] theorem setLpc_rgtmo (g : Group) (l : Nat) (v : Word) : (g.setLpc l v).rgtmo = g.rgtmo := rfl
@[simp] theorem setLpc_fpen (g : Group) (l : Nat) (v : Word) : (g.setLpc l v).fpen = g.fpen := rfl
@[simp] theorem setLpc_lanes (g : Group) (l : Nat) (v : Word) : (g.setLpc l v).lanes = g.lanes.modify l fun t => { t with lpc := v } := rfl
@[simp] theorem setLpc_tdet (g : Group) (l : Nat) (v : Word) : (g.setLpc l v).tdet = g.tdet := rfl
@[simp] theorem setLpc_rpc (g : Group) (l : Nat) (v : Word) : (g.setLpc l v).rpc = g.rpc := rfl
@[simp] theorem setLpc_skips (g : Group) (l : Nat) (v : Word) : (g.setLpc l v).skips = g.skips := rfl
@[simp] theorem setLpc_rdvCount (g : Group) (l : Nat) (v : Word) : (g.setLpc l v).rdvCount = g.rdvCount := rfl
@[simp] theorem setLpc_blockedMain (g : Group) (l : Nat) (v : Word) : (g.setLpc l v).blockedMain = g.blockedMain := rfl
@[simp] theorem setLpc_blockedHandler (g : Group) (l : Nat) (v : Word) : (g.setLpc l v).blockedHandler = g.blockedHandler := rfl
@[simp] theorem setLpc_stop (g : Group) (l : Nat) (v : Word) : (g.setLpc l v).stop = g.stop := rfl
@[simp] theorem setLpc_lastOp (g : Group) (l : Nat) (v : Word) : (g.setLpc l v).lastOp = g.lastOp := rfl
@[simp] theorem setLpc_launches (g : Group) (l : Nat) (v : Word) : (g.setLpc l v).launches = g.launches := rfl
@[simp] theorem setLpc_replies (g : Group) (l : Nat) (v : Word) : (g.setLpc l v).replies = g.replies := rfl
@[simp] theorem setLpc_overGid (g : Group) (l : Nat) (v : Word) : (g.setLpc l v).overGid = g.overGid := rfl

@[simp] theorem advance_team (g : Group) (l : Nat) : (g.advance l).team = g.team := rfl
@[simp] theorem advance_gid (g : Group) (l : Nat) : (g.advance l).gid = g.gid := rfl
@[simp] theorem advance_j (g : Group) (l : Nat) : (g.advance l).j = g.j := rfl
@[simp] theorem advance_isCont (g : Group) (l : Nat) : (g.advance l).isCont = g.isCont := rfl
@[simp] theorem advance_idle (g : Group) (l : Nat) : (g.advance l).idle = g.idle := rfl
@[simp] theorem advance_scal (g : Group) (l : Nat) : (g.advance l).scal = g.scal := rfl
@[simp] theorem advance_spoison (g : Group) (l : Nat) : (g.advance l).spoison = g.spoison := rfl
@[simp] theorem advance_spend (g : Group) (l : Nat) : (g.advance l).spend = g.spend := rfl
@[simp] theorem advance_tm (g : Group) (l : Nat) : (g.advance l).tm = g.tm := rfl
@[simp] theorem advance_joins (g : Group) (l : Nat) : (g.advance l).joins = g.joins := rfl
@[simp] theorem advance_rm (g : Group) (l : Nat) : (g.advance l).rm = g.rm := rfl
@[simp] theorem advance_tbase (g : Group) (l : Nat) : (g.advance l).tbase = g.tbase := rfl
@[simp] theorem advance_spillb (g : Group) (l : Nat) : (g.advance l).spillb = g.spillb := rfl
@[simp] theorem advance_spilll (g : Group) (l : Nat) : (g.advance l).spilll = g.spilll := rfl
@[simp] theorem advance_rgkey (g : Group) (l : Nat) : (g.advance l).rgkey = g.rgkey := rfl
@[simp] theorem advance_rgtmo (g : Group) (l : Nat) : (g.advance l).rgtmo = g.rgtmo := rfl
@[simp] theorem advance_fpen (g : Group) (l : Nat) : (g.advance l).fpen = g.fpen := rfl
@[simp] theorem advance_lanes (g : Group) (l : Nat) : (g.advance l).lanes = g.lanes.modify l fun t => { t with lpc := t.lpc + 1, wait := .none } := rfl
@[simp] theorem advance_tdet (g : Group) (l : Nat) : (g.advance l).tdet = g.tdet := rfl
@[simp] theorem advance_rpc (g : Group) (l : Nat) : (g.advance l).rpc = g.rpc := rfl
@[simp] theorem advance_skips (g : Group) (l : Nat) : (g.advance l).skips = g.skips := rfl
@[simp] theorem advance_rdvCount (g : Group) (l : Nat) : (g.advance l).rdvCount = g.rdvCount := rfl
@[simp] theorem advance_blockedMain (g : Group) (l : Nat) : (g.advance l).blockedMain = g.blockedMain := rfl
@[simp] theorem advance_blockedHandler (g : Group) (l : Nat) : (g.advance l).blockedHandler = g.blockedHandler := rfl
@[simp] theorem advance_stop (g : Group) (l : Nat) : (g.advance l).stop = g.stop := rfl
@[simp] theorem advance_lastOp (g : Group) (l : Nat) : (g.advance l).lastOp = g.lastOp := rfl
@[simp] theorem advance_launches (g : Group) (l : Nat) : (g.advance l).launches = g.launches := rfl
@[simp] theorem advance_replies (g : Group) (l : Nat) : (g.advance l).replies = g.replies := rfl
@[simp] theorem advance_overGid (g : Group) (l : Nat) : (g.advance l).overGid = g.overGid := rfl

@[simp] theorem setEntry_tid (t : Thread) (e : Nat) (v : Word) : (t.setEntry e v).tid = t.tid := rfl
@[simp] theorem setEntry_lpc (t : Thread) (e : Nat) (v : Word) : (t.setEntry e v).lpc = t.lpc := rfl
@[simp] theorem setEntry_exited (t : Thread) (e : Nat) (v : Word) : (t.setEntry e v).exited = t.exited := rfl
@[simp] theorem setEntry_stack (t : Thread) (e : Nat) (v : Word) : (t.setEntry e v).stack = t.stack.write 0 e v := rfl
@[simp] theorem setEntry_preds (t : Thread) (e : Nat) (v : Word) : (t.setEntry e v).preds = t.preds := rfl
@[simp] theorem setEntry_wb (t : Thread) (e : Nat) (v : Word) : (t.setEntry e v).wb = t.wb := rfl
@[simp] theorem setEntry_nres (t : Thread) (e : Nat) (v : Word) : (t.setEntry e v).nres = t.nres := rfl
@[simp] theorem setEntry_cd (t : Thread) (e : Nat) (v : Word) : (t.setEntry e v).cd = t.cd := rfl
@[simp] theorem setEntry_nls (t : Thread) (e : Nat) (v : Word) : (t.setEntry e v).nls = t.nls := rfl
@[simp] theorem setEntry_ngl (t : Thread) (e : Nat) (v : Word) : (t.setEntry e v).ngl = t.ngl := rfl
@[simp] theorem setEntry_links (t : Thread) (e : Nat) (v : Word) : (t.setEntry e v).links = t.links := rfl
@[simp] theorem setEntry_fpstat (t : Thread) (e : Nat) (v : Word) : (t.setEntry e v).fpstat = t.fpstat := rfl
@[simp] theorem setEntry_tx (t : Thread) (e : Nat) (v : Word) : (t.setEntry e v).tx = t.tx := rfl
@[simp] theorem setEntry_poison (t : Thread) (e : Nat) (v : Word) : (t.setEntry e v).poison = t.poison.del e := rfl
@[simp] theorem setEntry_pend (t : Thread) (e : Nat) (v : Word) : (t.setEntry e v).pend = t.pend := rfl
@[simp] theorem setEntry_wpAddr (t : Thread) (e : Nat) (v : Word) : (t.setEntry e v).wpAddr = t.wpAddr := rfl
@[simp] theorem setEntry_wpLen (t : Thread) (e : Nat) (v : Word) : (t.setEntry e v).wpLen = t.wpLen := rfl
@[simp] theorem setEntry_wpKind (t : Thread) (e : Nat) (v : Word) : (t.setEntry e v).wpKind = t.wpKind := rfl
@[simp] theorem setEntry_wpSkip (t : Thread) (e : Nat) (v : Word) : (t.setEntry e v).wpSkip = t.wpSkip := rfl
@[simp] theorem setEntry_bkSkip (t : Thread) (e : Nat) (v : Word) : (t.setEntry e v).bkSkip = t.bkSkip := rfl
@[simp] theorem setEntry_late (t : Thread) (e : Nat) (v : Word) : (t.setEntry e v).late = t.late := rfl
@[simp] theorem setEntry_home (t : Thread) (e : Nat) (v : Word) : (t.setEntry e v).home = t.home := rfl
@[simp] theorem setEntry_wait (t : Thread) (e : Nat) (v : Word) : (t.setEntry e v).wait = t.wait := rfl
@[simp] theorem setEntry_fenceRel (t : Thread) (e : Nat) (v : Word) : (t.setEntry e v).fenceRel = t.fenceRel := rfl
@[simp] theorem setEntry_fenceSeen (t : Thread) (e : Nat) (v : Word) : (t.setEntry e v).fenceSeen = t.fenceSeen := rfl
@[simp] theorem setEntry_strongRead (t : Thread) (e : Nat) (v : Word) : (t.setEntry e v).strongRead = t.strongRead := rfl
@[simp] theorem setEntry_readFrom (t : Thread) (e : Nat) (v : Word) : (t.setEntry e v).readFrom = t.readFrom := rfl
@[simp] theorem setEntry_readScope (t : Thread) (e : Nat) (v : Word) : (t.setEntry e v).readScope = t.readScope := rfl
@[simp] theorem setEntry_seen (t : Thread) (e : Nat) (v : Word) : (t.setEntry e v).seen = t.seen := rfl

@[simp] theorem setReg_tid (t : Thread) (h : Bool) (i : Nat) (v : Word) : (t.setReg h i v).tid = t.tid := rfl
@[simp] theorem setReg_lpc (t : Thread) (h : Bool) (i : Nat) (v : Word) : (t.setReg h i v).lpc = t.lpc := rfl
@[simp] theorem setReg_exited (t : Thread) (h : Bool) (i : Nat) (v : Word) : (t.setReg h i v).exited = t.exited := rfl
@[simp] theorem setReg_stack (t : Thread) (h : Bool) (i : Nat) (v : Word) : (t.setReg h i v).stack = t.stack.write 0 (t.entry h i) v := rfl
@[simp] theorem setReg_preds (t : Thread) (h : Bool) (i : Nat) (v : Word) : (t.setReg h i v).preds = t.preds := rfl
@[simp] theorem setReg_wb (t : Thread) (h : Bool) (i : Nat) (v : Word) : (t.setReg h i v).wb = t.wb := rfl
@[simp] theorem setReg_nres (t : Thread) (h : Bool) (i : Nat) (v : Word) : (t.setReg h i v).nres = t.nres := rfl
@[simp] theorem setReg_cd (t : Thread) (h : Bool) (i : Nat) (v : Word) : (t.setReg h i v).cd = t.cd := rfl
@[simp] theorem setReg_nls (t : Thread) (h : Bool) (i : Nat) (v : Word) : (t.setReg h i v).nls = t.nls := rfl
@[simp] theorem setReg_ngl (t : Thread) (h : Bool) (i : Nat) (v : Word) : (t.setReg h i v).ngl = t.ngl := rfl
@[simp] theorem setReg_links (t : Thread) (h : Bool) (i : Nat) (v : Word) : (t.setReg h i v).links = t.links := rfl
@[simp] theorem setReg_fpstat (t : Thread) (h : Bool) (i : Nat) (v : Word) : (t.setReg h i v).fpstat = t.fpstat := rfl
@[simp] theorem setReg_tx (t : Thread) (h : Bool) (i : Nat) (v : Word) : (t.setReg h i v).tx = t.tx := rfl
@[simp] theorem setReg_poison (t : Thread) (h : Bool) (i : Nat) (v : Word) : (t.setReg h i v).poison = t.poison.del (t.entry h i) := rfl
@[simp] theorem setReg_pend (t : Thread) (h : Bool) (i : Nat) (v : Word) : (t.setReg h i v).pend = t.pend := rfl
@[simp] theorem setReg_wpAddr (t : Thread) (h : Bool) (i : Nat) (v : Word) : (t.setReg h i v).wpAddr = t.wpAddr := rfl
@[simp] theorem setReg_wpLen (t : Thread) (h : Bool) (i : Nat) (v : Word) : (t.setReg h i v).wpLen = t.wpLen := rfl
@[simp] theorem setReg_wpKind (t : Thread) (h : Bool) (i : Nat) (v : Word) : (t.setReg h i v).wpKind = t.wpKind := rfl
@[simp] theorem setReg_wpSkip (t : Thread) (h : Bool) (i : Nat) (v : Word) : (t.setReg h i v).wpSkip = t.wpSkip := rfl
@[simp] theorem setReg_bkSkip (t : Thread) (h : Bool) (i : Nat) (v : Word) : (t.setReg h i v).bkSkip = t.bkSkip := rfl
@[simp] theorem setReg_late (t : Thread) (h : Bool) (i : Nat) (v : Word) : (t.setReg h i v).late = t.late := rfl
@[simp] theorem setReg_home (t : Thread) (h : Bool) (i : Nat) (v : Word) : (t.setReg h i v).home = t.home := rfl
@[simp] theorem setReg_wait (t : Thread) (h : Bool) (i : Nat) (v : Word) : (t.setReg h i v).wait = t.wait := rfl
@[simp] theorem setReg_fenceRel (t : Thread) (h : Bool) (i : Nat) (v : Word) : (t.setReg h i v).fenceRel = t.fenceRel := rfl
@[simp] theorem setReg_fenceSeen (t : Thread) (h : Bool) (i : Nat) (v : Word) : (t.setReg h i v).fenceSeen = t.fenceSeen := rfl
@[simp] theorem setReg_strongRead (t : Thread) (h : Bool) (i : Nat) (v : Word) : (t.setReg h i v).strongRead = t.strongRead := rfl
@[simp] theorem setReg_readFrom (t : Thread) (h : Bool) (i : Nat) (v : Word) : (t.setReg h i v).readFrom = t.readFrom := rfl
@[simp] theorem setReg_readScope (t : Thread) (h : Bool) (i : Nat) (v : Word) : (t.setReg h i v).readScope = t.readScope := rfl
@[simp] theorem setReg_seen (t : Thread) (h : Bool) (i : Nat) (v : Word) : (t.setReg h i v).seen = t.seen := rfl

end Sys2Proof.Machine
end

