-- ==== Sys2Proof/Tests/Slice0.lean ====
section
/-! SUPPORT. Tests of the decoder, of well-formedness and of single steps, and for every statement with hypotheses a
state and operands that meet them (test_meets_…). Words and results are the spec's own, or worked out by hand from its
tables. -/

set_option maxRecDepth 100000
set_option Elab.async false

namespace Sys2Proof.Machine

/-! ## Small states -/

/-- A group of one team with two threads. -/
def benchGroup : Group := { lanes := [(0, {}), (1, { tid := 1 })] }

/-- The issue of lanes 0 and 1 of group 0. -/
def benchCursor : Cursor := { gk := 0, full := 3, active := 3, handler := false, word := 0, pc := 5, traps := [] }

/-- A running context with one grid, one team and the group `g`, which issues. -/
def benchIssue (g : Group) (k : Cursor) : State :=
  { State.reset.withFetchWord 96 0 with groups := [(0, g)], agenda := [], cur := some k }

/-- The same without an issue. -/
def benchRest (g : Group) : State := { State.reset.withFetchWord 96 0 with groups := [(0, g)], agenda := [], cur := none }

/-- The unguarded head. -/
def openHead : Head := ⟨false, 0, false⟩

/-- An arithmetic instruction of a type on registers. -/
def benchArith (ty : Ty) (d a b c : Operand) : Arith := ⟨openHead, ty, .rn, 0, .none, d, a, b, c⟩

/-- An instruction of the other shape. -/
def benchOp (d a b : Operand) (imm : Word) : Op3 := ⟨openHead, d, a, b, imm, 0⟩

theorem lanes_all {g : Group} {P : Nat → Thread → Prop} (h : ∀ e ∈ g.lanes, P e.1 e.2) (l : Nat) (t : Thread)
    (hl : g.lanes.get? l = some t) : P l t := h _ (Tbl.mem_of_get? hl)

theorem issuing_bench {g : Group} {k : Cursor} (hk : k.gk = 0) (ht : k.traps = []) (hn : lanesOf k.active ≠ [])
    (hw : ∀ l ∈ lanesOf k.active, l ∈ lanesOf k.full)
    (hp : ∀ l ∈ lanesOf k.active, ∃ t, g.lanes.get? l = some t ∧ t.exited = false) : Issuing (benchIssue g k) k g :=
  ⟨rfl, ht, by rw [hk]; rfl, hn, hw, hp⟩

theorem issuing_two {g : Group} {t u : Thread} (hg : g.lanes = [(0, t), (1, u)]) (ht : t.exited = false)
    (hu : u.exited = false) : Issuing (benchIssue g benchCursor) benchCursor g := by
  refine issuing_bench rfl rfl (by decide) (by decide) fun l hl => ?_
  have : l = 0 ∨ l = 1 := by
    have h : ∀ l ∈ lanesOf benchCursor.active, l = 0 ∨ l = 1 := by decide
    exact h l hl
  rcases this with rfl | rfl
  · exact ⟨t, by rw [hg]; rfl, ht⟩
  · exact ⟨u, by rw [hg]; rfl, hu⟩

/-- The common witness of statements about an issuing group. -/
theorem test_issuing : Issuing (benchIssue benchGroup benchCursor) benchCursor benchGroup := issuing_two rfl rfl rfl

/-! ## Words that the spec works out (05, 07, 09, 11 to 13, 15 to 18, 20) -/

theorem test_spec_word_1 : ([
    (0x4092200400221100000E0000, .vadd ⟨⟨false, 2, false⟩, .f32, .rn, 0, .none, .win 4, .win 2, .scal 17, .zero⟩),  -- vadd.f32
    (0x60029006008E00000040002B, .ldVector ⟨⟨true, 1, false⟩, .gl, .s32, .plain, .none, .natural, 0x40, .win 6, .win 8, .zero, 0x2, some 0x3⟩),  -- ld.gl.b32
    (0x801408026012280000000080, .mma ⟨⟨false, 0, true⟩, .e4m3, .none, .rn, 0, 0, .acc 2, .tmap 1, .scal 40⟩),  -- mma.e4m3
    (0xC3800205E00E000000000C80, .loop ⟨⟨false, 0, true⟩, .scal 5, .zero, .zero, 0xC, 0x0⟩),  -- loop s5, 12 :end
    (0xC2002E00403E000000002800, .eject ⟨⟨false, 2, false⟩, .zero, .pred 3, .zero, 0x28, 0x0⟩),  -- (p2) eject p3, 40
    (0xC1400E00E00E000000000000, .ret ⟨⟨false, 0, false⟩, .zero, .zero, .zero, 0x0, 0x0⟩),  -- ret
    (0x41470002001C000005553800, .vmulhi ⟨⟨false, 0, false⟩, .n32, .rn, 0, .none, .win 2, .win 1, .imm 0x55538, .zero⟩),  -- vmulhi.n32 w2, w1, 349496
    (0x4D470401004C000000300100, .vcmpGe ⟨⟨false, 0, false⟩, .n32, .rn, 0, .none, .pred 1, .win 4, .imm 0x3001, .zero⟩),  -- vcmp.ge.n32 p1, w4, 12289
    (0x481200030010020002000300, .vfma ⟨⟨false, 0, false⟩, .f32, .rz, 0, .none, .win 3, .win 1, .win 2, .win 3⟩),  -- vfma.rz.f32 w3, w1, w2, w3
    (0x60920E000050090000080000, .stVector ⟨⟨false, 0, false⟩, .ks, .s32, .plain, .none, .natural, 0x8, .zero, .win 5, .win 9, 0x0, none⟩),  -- st.ks.b32 [w5+8], w9
    (0x604230070024040000800000, .ldNr ⟨⟨false, 3, false⟩, .gl, .s32, .plain, .none, .natural, 0x80, .win 7, .win 2, .pred 4, 0x0, none⟩),  -- (p3) ld.nr.gl.b32 w7, [w2.d+0x80], p4
    (0x90000214204E000000000030, .cpy ⟨⟨false, 0, false⟩, .scal 20, .scal 4, .zero, 0x0, 0x3⟩),  -- cpy s20.d, s4 :rd3
    (0x82C00601208E000000000000, .tmset ⟨⟨false, 0, false⟩, .none, .none, .rn, 0, 0, .tmap 1, .scal 8, .zero⟩),  -- tmset tm1, s8.q
    (0x809408036022280000004000, .mmaK2 ⟨⟨false, 0, false⟩, .e4m3, .none, .rn, 0, 1, .acc 3, .tmap 2, .scal 40⟩),  -- mma.k2.e4m3 acc3, tm2, s40, 1
    (0x825200088022050000180000, .mrow ⟨⟨false, 0, false⟩, .f32, .none, .rn, 3, 0, .win 8, .acc 2, .scal 5⟩),  -- mrow.f32 w8.d, acc2, s5, 3
    (0x88140228E00E000000D80000, .ralloc ⟨⟨false, 0, false⟩, .e4m3, .none, false, false, false, false, 3, 3, 0, .scal 40, .zero, .zero⟩),  -- ralloc.e4m3 s40.d, 4, p3
    (0x8840023222A23C0008004000, .rloadGlobal ⟨⟨false, 0, false⟩, .none, .none, false, false, true, false, 0, 0, 1, .scal 50, .scal 42, .scal 60⟩)  -- rload s50, s42.d, s60.d, 1, watch
    ] : List (Nat × Instr)).all (fun e => decide (decodeTableWord 96 e.1 = some e.2)) = true := by decide +kernel

theorem test_spec_word_2 : ([
    (0x6402000D00600A0000007400, .atomAdd ⟨⟨false, 0, false⟩, .gl, .s32, .rel, .device, .natural, 0x0, .win 13, .win 6, .win 10, 0x0, none⟩),  -- atom.add.gl.n32.rel.device w13, [w6.d], w10
    (0x65C300040020080000009800, .atomCas ⟨⟨false, 0, false⟩, .gl, .s64, .ar, .system, .natural, 0x0, .win 4, .win 2, .win 8, 0x0, none⟩),  -- atom.cas.gl.b64.ar.system w4.d, [w2.d], w8.q
    (0x91400E00C002070040000200, .barc ⟨⟨false, 0, false⟩, .zero, .imm 0x400002, .scal 7, 0x0, 0x0⟩),  -- barc 2, 64, s7
    (0xC8000E00E00E000000009400, .fence ⟨⟨false, 0, false⟩, .zero, .zero, .zero, 0x94, 0x0⟩),  -- fence.ar.device
    (0x68400008E00E000000000000, .xend ⟨⟨false, 0, false⟩, .win 8, .zero, .zero, 0x0, 0x0⟩),  -- xend w8
    (0xCC000E00002E00000003F000, .regroup ⟨⟨false, 0, false⟩, .zero, .win 2, .zero, 0x3F0, 0x0⟩),  -- regroup w2, 0x3F0
    (0xCC800209E00E000000000000, .cqstat ⟨⟨false, 0, false⟩, .scal 9, .zero, .zero, 0x0, 0x0⟩),  -- cqstat s9
    (0xD8000E00E00E000000002A00, .trap ⟨⟨false, 0, false⟩, .zero, .zero, .zero, 0x2A, 0x0⟩),  -- trap 0x2A
    (0xD8400E00E00E000000000100, .tret ⟨⟨false, 0, false⟩, .zero, .zero, .zero, 0x1, 0x0⟩),  -- tret.skip
    (0xD8800E0020C21400000F3C80, .yieldl ⟨⟨false, 0, true⟩, .zero, .scal 12, .scal 20, 0xF3C, 0x0⟩),  -- yieldl s12, s20.d, 0xF3C :end
    (0xD8C00001A21E000000000000, .mrs ⟨⟨false, 0, false⟩, .win 1, .special 33, .zero, 0x0, 0x0⟩),  -- mrs w1, sr.tdet1
    (0xD9000A1221EE000000000000, .msr ⟨⟨false, 0, false⟩, .special 18, .scal 30, .zero, 0x0, 0x0⟩),  -- msr sr.tbase, s30
    (0xD9C00214E00E000000001100, .pcnt ⟨⟨false, 0, false⟩, .scal 20, .zero, .zero, 0x11, 0x0⟩),  -- pcnt s20.d, 0x11
    (0xDA000E00207E000000000300, .trc ⟨⟨false, 0, false⟩, .zero, .scal 7, .zero, 0x3, 0x0⟩),  -- trc s7, 3
    (0xD9400E00E00E000000000700, .bkpt ⟨⟨false, 0, false⟩, .zero, .zero, .zero, 0x7, 0x0⟩),  -- bkpt 7
    (0xD9800E000040060000000000, .wpt ⟨⟨false, 0, false⟩, .zero, .win 4, .win 6, 0x0, 0x0⟩),  -- wpt w4.d, w6
    (0x54CB000300120800000E0000, .vbfly ⟨⟨false, 0, false⟩, .b32, .rn, 0, .none, .win 3, .win 1, .scal 8, .zero⟩)  -- vbfly.b32 w3, w1, s8
    ] : List (Nat × Instr)).all (fun e => decide (decodeTableWord 96 e.1 = some e.2)) = true := by decide +kernel

theorem test_spec_word_3 : ([
    (0xC3800209E00E000000001500, .loop ⟨⟨false, 0, false⟩, .scal 9, .zero, .zero, 0x15, 0x0⟩),  -- loop s9, stage
    (0x10190214212E000006001200, .cvt ⟨⟨false, 0, false⟩, .e8m0, .rd, 0, .f32, .scal 20, .scal 18, .zero, .zero⟩),  -- cvt.rd.e8m0.f32 s20, s18
    (0x03C70214214C000000000800, .subs ⟨⟨false, 0, false⟩, .n32, .rn, 0, .none, .scal 20, .scal 20, .imm 0x8, .zero⟩),  -- subs.n32 s20, s20, 8
    (0x90C00E00212C000000100000, .barx ⟨⟨false, 0, false⟩, .zero, .scal 18, .imm 0x1000, 0x0, 0x0⟩),  -- barx s18, 4096
    (0x404B1004001E0000000E0000, .vmov ⟨⟨false, 1, false⟩, .b32, .rn, 0, .none, .win 4, .win 1, .zero, .zero⟩),  -- (p1) vmov.b32 w4, w1
    (0x58070003003E0000000E0000, .vscanMax ⟨⟨false, 0, false⟩, .n32, .rn, 0, .none, .win 3, .win 3, .zero, .zero⟩),  -- vscan.max.n32 w3, w3
    (0xCC000E00005E000000000000, .regroup ⟨⟨false, 0, false⟩, .zero, .win 5, .zero, 0x0, 0x0⟩),  -- regroup w5, 0
    (0xC0800E0021FE000000005200, .brx ⟨⟨false, 0, false⟩, .zero, .scal 31, .zero, 0x52, 0x0⟩),  -- brx s31, stub0
    (0x800108036002280000000000, .mma ⟨⟨false, 0, false⟩, .i8, .none, .rn, 0, 0, .acc 3, .tmap 0, .scal 40⟩),  -- mma.i8 acc3, tm0, s40
    (0x88400E0022822A0008000000, .rloadGlobal ⟨⟨false, 0, false⟩, .none, .none, false, false, true, false, 0, 0, 0, .zero, .scal 40, .scal 42⟩),  -- rload zero, s40.d, s42.d, 0, watch
    (0xD8800E00E00E000000000400, .yieldl ⟨⟨false, 0, false⟩, .zero, .zero, .zero, 0x4, 0x0⟩),  -- yieldl zero, zero, 0x4
    (0x640200012042150000009400, .atomAdd ⟨⟨false, 0, false⟩, .gl, .s32, .ar, .device, .natural, 0x0, .win 1, .scal 4, .scal 21, 0x0, none⟩),  -- atom.add.gl.n32.ar.device w1, [s4.d], s21
    (0x60826E002060080000006800, .stVector ⟨⟨false, 6, false⟩, .gl, .s32, .rel, .core, .natural, 0x0, .zero, .scal 6, .win 8, 0x0, none⟩),  -- (p6) st.gl.b32.rel.core [s6.d], w8
    (0x60020006206E00000000B400, .ldVector ⟨⟨false, 0, false⟩, .gl, .s32, .rp, .device, .natural, 0x0, .win 6, .scal 6, .zero, 0x0, none⟩),  -- ld.gl.b32.rp.device w6, [s6.d]
    (0x55400007401E0000000E0000, .vballot ⟨⟨false, 0, false⟩, .none, .rn, 0, .none, .win 7, .pred 1, .zero, .zero⟩)  -- vballot w7, p1
    ] : List (Nat × Instr)).all (fun e => decide (decodeTableWord 96 e.1 = some e.2)) = true := by decide +kernel

/-! ## A word for every instruction, assembled from R104, R105, R109 to R111, R121, R150, R200, R258, R296, R317, R366 to
R368, R372, R378, R401, R425, R427 -/

theorem test_decode_row_1 : ([
    (0x004C220420AE0000000E0080, .mov ⟨⟨false, 2, true⟩, .b64, .rn, 0, .none, .scal 4, .scal 10, .zero, .zero⟩),
    (0x404CB00A006E0000000E0000, .vmov ⟨⟨true, 3, false⟩, .b64, .rn, 0, .none, .win 10, .win 6, .zero, .zero⟩),
    (0x0090F20220520900020E0080, .add ⟨⟨true, 7, true⟩, .f16, .rz, 0, .none, .scal 2, .scal 5, .scal 9, .zero⟩),
    (0x4090500500300700020E0000, .vadd ⟨⟨false, 5, false⟩, .f16, .rz, 0, .none, .win 5, .win 3, .win 7, .zero⟩),
    (0x00C4020420A21200000E0000, .sub ⟨⟨false, 0, false⟩, .i64, .rn, 0, .none, .scal 4, .scal 10, .scal 18, .zero⟩),
    (0x40C4200A00600E00000E0080, .vsub ⟨⟨false, 2, true⟩, .i64, .rn, 0, .none, .win 10, .win 6, .win 14, .zero⟩),
    (0x0113B20420A21200040E0000, .mul ⟨⟨true, 3, false⟩, .f64, .ru, 0, .none, .scal 4, .scal 10, .scal 18, .zero⟩),
    (0x4113F00A00600E00040E0080, .vmul ⟨⟨true, 7, true⟩, .f64, .ru, 0, .none, .win 10, .win 6, .win 14, .zero⟩),
    (0x01475202205C000005553800, .mulhi ⟨⟨false, 5, false⟩, .n32, .rn, 0, .none, .scal 2, .scal 5, .imm 0x55538, .zero⟩),
    (0x41470005003C000005553800, .vmulhi ⟨⟨false, 0, false⟩, .n32, .rn, 0, .none, .win 5, .win 3, .imm 0x55538, .zero⟩),
    (0x018222022052090000024680, .mad ⟨⟨false, 2, true⟩, .i16, .rn, 0, .none, .scal 2, .scal 5, .scal 9, .scal 70⟩),
    (0x4182B0050030070000000B00, .vmad ⟨⟨true, 3, false⟩, .i16, .rn, 0, .none, .win 5, .win 3, .win 7, .win 11⟩),
    (0x01C8F20420A2120000028C80, .madhi ⟨⟨true, 7, true⟩, .n64, .rn, 0, .none, .scal 4, .scal 10, .scal 18, .scal 140⟩),
    (0x41C8500A00600E0000001600, .vmadhi ⟨⟨false, 5, false⟩, .n64, .rn, 0, .none, .win 10, .win 6, .win 14, .win 22⟩),
    (0x0203020220520900000E0000, .div ⟨⟨false, 0, false⟩, .i32, .rn, 0, .none, .scal 2, .scal 5, .scal 9, .zero⟩),
    (0x4203200500300700000E0080, .vdiv ⟨⟨false, 2, true⟩, .i32, .rn, 0, .none, .win 5, .win 3, .win 7, .zero⟩)
    ] : List (Nat × Instr)).all (fun e => decide (decodeTableWord 96 e.1 = some e.2)) = true := by decide +kernel

theorem test_decode_row_2 : ([
    (0x0245B20220520900000E0000, .rem ⟨⟨true, 3, false⟩, .n8, .rn, 0, .none, .scal 2, .scal 5, .scal 9, .zero⟩),
    (0x4245F00500300700000E0080, .vrem ⟨⟨true, 7, true⟩, .n8, .rn, 0, .none, .win 5, .win 3, .win 7, .zero⟩),
    (0x0291520220520900000E0000, .min ⟨⟨false, 5, false⟩, .bf16, .rn, 0, .none, .scal 2, .scal 5, .scal 9, .zero⟩),
    (0x4291000500300700000E0000, .vmin ⟨⟨false, 0, false⟩, .bf16, .rn, 0, .none, .win 5, .win 3, .win 7, .zero⟩),
    (0x02C1220220520900000E0080, .max ⟨⟨false, 2, true⟩, .i8, .rn, 0, .none, .scal 2, .scal 5, .scal 9, .zero⟩),
    (0x42C1B00500300700000E0000, .vmax ⟨⟨true, 3, false⟩, .i8, .rn, 0, .none, .win 5, .win 3, .win 7, .zero⟩),
    (0x0312F202205E0000000E0080, .abs ⟨⟨true, 7, true⟩, .f32, .rn, 0, .none, .scal 2, .scal 5, .zero, .zero⟩),
    (0x43125005003E0000000E0000, .vabs ⟨⟨false, 5, false⟩, .f32, .rn, 0, .none, .win 5, .win 3, .zero, .zero⟩),
    (0x03430202205E0000000E0000, .neg ⟨⟨false, 0, false⟩, .i32, .rn, 0, .none, .scal 2, .scal 5, .zero, .zero⟩),
    (0x43432005003E0000000E0080, .vneg ⟨⟨false, 2, true⟩, .i32, .rn, 0, .none, .win 5, .win 3, .zero, .zero⟩),
    (0x0382B202205C0080007FFF00, .adds ⟨⟨true, 3, false⟩, .i16, .rn, 0, .none, .scal 2, .scal 5, .imm 0x80007FFF, .zero⟩),
    (0x4382F005003C0080007FFF80, .vadds ⟨⟨true, 7, true⟩, .i16, .rn, 0, .none, .win 5, .win 3, .imm 0x80007FFF, .zero⟩),
    (0x03C6520220520900000E0000, .subs ⟨⟨false, 5, false⟩, .n16, .rn, 0, .none, .scal 2, .scal 5, .scal 9, .zero⟩),
    (0x43C6000500300700000E0000, .vsubs ⟨⟨false, 0, false⟩, .n16, .rn, 0, .none, .win 5, .win 3, .win 7, .zero⟩),
    (0x0409220220520900000E0080, .and ⟨⟨false, 2, true⟩, .b8, .rn, 0, .none, .scal 2, .scal 5, .scal 9, .zero⟩),
    (0x4409B00500300700000E0000, .vand ⟨⟨true, 3, false⟩, .b8, .rn, 0, .none, .win 5, .win 3, .win 7, .zero⟩)
    ] : List (Nat × Instr)).all (fun e => decide (decodeTableWord 96 e.1 = some e.2)) = true := by decide +kernel

theorem test_decode_row_3 : ([
    (0x044CF20420A21200000E0080, .or ⟨⟨true, 7, true⟩, .b64, .rn, 0, .none, .scal 4, .scal 10, .scal 18, .zero⟩),
    (0x444C500A00600E00000E0000, .vor ⟨⟨false, 5, false⟩, .b64, .rn, 0, .none, .win 10, .win 6, .win 14, .zero⟩),
    (0x048B0202205C00FFFFFFFF00, .xor ⟨⟨false, 0, false⟩, .b32, .rn, 0, .none, .scal 2, .scal 5, .imm 0xFFFFFFFF, .zero⟩),
    (0x448B2005003C00FFFFFFFF80, .vxor ⟨⟨false, 2, true⟩, .b32, .rn, 0, .none, .win 5, .win 3, .imm 0xFFFFFFFF, .zero⟩),
    (0x04CAB202205E0000000E0000, .not ⟨⟨true, 3, false⟩, .b16, .rn, 0, .none, .scal 2, .scal 5, .zero, .zero⟩),
    (0x44CAF005003E0000000E0080, .vnot ⟨⟨true, 7, true⟩, .b16, .rn, 0, .none, .win 5, .win 3, .zero, .zero⟩),
    (0x050B520220520900000E0000, .shl ⟨⟨false, 5, false⟩, .b32, .rn, 0, .none, .scal 2, .scal 5, .scal 9, .zero⟩),
    (0x450B000500300700000E0000, .vshl ⟨⟨false, 0, false⟩, .b32, .rn, 0, .none, .win 5, .win 3, .win 7, .zero⟩),
    (0x0548220420A21200000E0080, .shr ⟨⟨false, 2, true⟩, .n64, .rn, 0, .none, .scal 4, .scal 10, .scal 18, .zero⟩),
    (0x4548B00A00600E00000E0000, .vshr ⟨⟨true, 3, false⟩, .n64, .rn, 0, .none, .win 10, .win 6, .win 14, .zero⟩),
    (0x0583F202205C000000001F80, .sar ⟨⟨true, 7, true⟩, .i32, .rn, 0, .none, .scal 2, .scal 5, .imm 0x1F, .zero⟩),
    (0x45835005003C000000001F00, .vsar ⟨⟨false, 5, false⟩, .i32, .rn, 0, .none, .win 5, .win 3, .imm 0x1F, .zero⟩),
    (0x05CA020220520900000E0000, .rot ⟨⟨false, 0, false⟩, .b16, .rn, 0, .none, .scal 2, .scal 5, .scal 9, .zero⟩),
    (0x45CA200500300700000E0080, .vrot ⟨⟨false, 2, true⟩, .b16, .rn, 0, .none, .win 5, .win 3, .win 7, .zero⟩),
    (0x0604B20420A22100000E0000, .bfx ⟨⟨true, 3, false⟩, .i64, .rn, 0, .none, .scal 4, .scal 10, .scal 33, .zero⟩),
    (0x4604F00A00600900000E0080, .vbfx ⟨⟨true, 7, true⟩, .i64, .rn, 0, .none, .win 10, .win 6, .win 9, .zero⟩)
    ] : List (Nat × Instr)).all (fun e => decide (decodeTableWord 96 e.1 = some e.2)) = true := by decide +kernel

theorem test_decode_row_4 : ([
    (0x064B52022052090000024600, .bfi ⟨⟨false, 5, false⟩, .b32, .rn, 0, .none, .scal 2, .scal 5, .scal 9, .scal 70⟩),
    (0x464B00050030070000000B00, .vbfi ⟨⟨false, 0, false⟩, .b32, .rn, 0, .none, .win 5, .win 3, .win 7, .win 11⟩),
    (0x068B2202205E0000000E0080, .popc ⟨⟨false, 2, true⟩, .b32, .rn, 0, .none, .scal 2, .scal 5, .zero, .zero⟩),
    (0x468BB005003E0000000E0000, .vpopc ⟨⟨true, 3, false⟩, .b32, .rn, 0, .none, .win 5, .win 3, .zero, .zero⟩),
    (0x06C6F202205E0000000E0080, .clz ⟨⟨true, 7, true⟩, .n16, .rn, 0, .none, .scal 2, .scal 5, .zero, .zero⟩),
    (0x46C65005003E0000000E0000, .vclz ⟨⟨false, 5, false⟩, .n16, .rn, 0, .none, .win 5, .win 3, .zero, .zero⟩),
    (0x070C020420AE0000000E0000, .ctz ⟨⟨false, 0, false⟩, .b64, .rn, 0, .none, .scal 4, .scal 10, .zero, .zero⟩),
    (0x470C200A006E0000000E0080, .vctz ⟨⟨false, 2, true⟩, .b64, .rn, 0, .none, .win 10, .win 6, .zero, .zero⟩),
    (0x074BB202205E0000000E0000, .brev ⟨⟨true, 3, false⟩, .b32, .rn, 0, .none, .scal 2, .scal 5, .zero, .zero⟩),
    (0x474BF005003E0000000E0080, .vbrev ⟨⟨true, 7, true⟩, .b32, .rn, 0, .none, .win 5, .win 3, .zero, .zero⟩),
    (0x078C520420AE0000000E0000, .bswp ⟨⟨false, 5, false⟩, .b64, .rn, 0, .none, .scal 4, .scal 10, .zero, .zero⟩),
    (0x478C000A006E0000000E0000, .vbswp ⟨⟨false, 0, false⟩, .b64, .rn, 0, .none, .win 10, .win 6, .zero, .zero⟩),
    (0x07C3221421E20700003E0080, .lea ⟨⟨false, 2, true⟩, .i32, .rn, 3, .none, .scal 20, .scal 30, .scal 7, .zero⟩),
    (0x47C7B01401E00700007E0000, .vlea ⟨⟨true, 3, false⟩, .n32, .rn, 7, .none, .win 20, .win 30, .win 7, .zero⟩),
    (0x0812F2022052090002024680, .fma ⟨⟨true, 7, true⟩, .f32, .rz, 0, .none, .scal 2, .scal 5, .scal 9, .scal 70⟩),
    (0x481250050030070002000B00, .vfma ⟨⟨false, 5, false⟩, .f32, .rz, 0, .none, .win 5, .win 3, .win 7, .win 11⟩)
    ] : List (Nat × Instr)).all (fun e => decide (decodeTableWord 96 e.1 = some e.2)) = true := by decide +kernel

theorem test_decode_row_5 : ([
    (0x08500202205E0000060E0000, .rcp ⟨⟨false, 0, false⟩, .f16, .rd, 0, .none, .scal 2, .scal 5, .zero, .zero⟩),
    (0x48502005003E0000060E0080, .vrcp ⟨⟨false, 2, true⟩, .f16, .rd, 0, .none, .win 5, .win 3, .zero, .zero⟩),
    (0x0892B202205E0000000E0000, .rsq ⟨⟨true, 3, false⟩, .f32, .rn, 0, .none, .scal 2, .scal 5, .zero, .zero⟩),
    (0x4892F005003E0000000E0080, .vrsq ⟨⟨true, 7, true⟩, .f32, .rn, 0, .none, .win 5, .win 3, .zero, .zero⟩),
    (0x08D3520420AE0000020E0000, .sqrt ⟨⟨false, 5, false⟩, .f64, .rz, 0, .none, .scal 4, .scal 10, .zero, .zero⟩),
    (0x48D3000A006E0000020E0000, .vsqrt ⟨⟨false, 0, false⟩, .f64, .rz, 0, .none, .win 10, .win 6, .zero, .zero⟩),
    (0x09112202205E0000000E0080, .exp2 ⟨⟨false, 2, true⟩, .bf16, .rn, 0, .none, .scal 2, .scal 5, .zero, .zero⟩),
    (0x4911B005003E0000000E0000, .vexp2 ⟨⟨true, 3, false⟩, .bf16, .rn, 0, .none, .win 5, .win 3, .zero, .zero⟩),
    (0x0952F202205E0000000E0080, .log2 ⟨⟨true, 7, true⟩, .f32, .rn, 0, .none, .scal 2, .scal 5, .zero, .zero⟩),
    (0x49525005003E0000000E0000, .vlog2 ⟨⟨false, 5, false⟩, .f32, .rn, 0, .none, .win 5, .win 3, .zero, .zero⟩),
    (0x09900202205E0000040E0000, .sin ⟨⟨false, 0, false⟩, .f16, .ru, 0, .none, .scal 2, .scal 5, .zero, .zero⟩),
    (0x49902005003E0000040E0080, .vsin ⟨⟨false, 2, true⟩, .f16, .ru, 0, .none, .win 5, .win 3, .zero, .zero⟩),
    (0x09D2B202205E0000000E0000, .cos ⟨⟨true, 3, false⟩, .f32, .rn, 0, .none, .scal 2, .scal 5, .zero, .zero⟩),
    (0x49D2F005003E0000000E0080, .vcos ⟨⟨true, 7, true⟩, .f32, .rn, 0, .none, .win 5, .win 3, .zero, .zero⟩),
    (0x0A125202205E0000000E0000, .tanh ⟨⟨false, 5, false⟩, .f32, .rn, 0, .none, .scal 2, .scal 5, .zero, .zero⟩),
    (0x4A120005003E0000000E0000, .vtanh ⟨⟨false, 0, false⟩, .f32, .rn, 0, .none, .win 5, .win 3, .zero, .zero⟩)
    ] : List (Nat × Instr)).all (fun e => decide (decodeTableWord 96 e.1 = some e.2)) = true := by decide +kernel

theorem test_decode_row_6 : ([
    (0x0A53220420AE0000060E0080, .frnd ⟨⟨false, 2, true⟩, .f64, .rd, 0, .none, .scal 4, .scal 10, .zero, .zero⟩),
    (0x4A53B00A006E0000060E0000, .vfrnd ⟨⟨true, 3, false⟩, .f64, .rd, 0, .none, .win 10, .win 6, .zero, .zero⟩),
    (0x0A92F20B205E0000000E0080, .fcls ⟨⟨true, 7, true⟩, .f32, .rn, 0, .none, .scal 11, .scal 5, .zero, .zero⟩),
    (0x4A92500D003E0000000E0000, .vfcls ⟨⟨false, 5, false⟩, .f32, .rn, 0, .none, .win 13, .win 3, .zero, .zero⟩),
    (0x0AD0020220520900000E0000, .csgn ⟨⟨false, 0, false⟩, .f16, .rn, 0, .none, .scal 2, .scal 5, .scal 9, .zero⟩),
    (0x4AD0200500300700000E0080, .vcsgn ⟨⟨false, 2, true⟩, .f16, .rn, 0, .none, .win 5, .win 3, .win 7, .zero⟩),
    (0x0B12B20220520900020E0000, .scl ⟨⟨true, 3, false⟩, .f32, .rz, 0, .none, .scal 2, .scal 5, .scal 9, .zero⟩),
    (0x4B12F00500300700020E0080, .vscl ⟨⟨true, 7, true⟩, .f32, .rz, 0, .none, .win 5, .win 3, .win 7, .zero⟩),
    (0x0B4252042052060000020700, .dp2 ⟨⟨false, 5, false⟩, .i16, .rn, 0, .none, .scal 4, .scal 5, .scal 6, .scal 7⟩),
    (0x4B5000040050060002000700, .vdp2 ⟨⟨false, 0, false⟩, .f16, .rz, 0, .none, .win 4, .win 5, .win 6, .win 7⟩),
    (0x0C0B222820820900000E0080, .cmpEq ⟨⟨false, 2, true⟩, .b32, .rn, 0, .none, .scal 40, .scal 8, .scal 9, .zero⟩),
    (0x4C0BB40100800900000E0000, .vcmpEq ⟨⟨true, 3, false⟩, .b32, .rn, 0, .none, .pred 1, .win 8, .win 9, .zero⟩),
    (0x0C50F22820820900000E0080, .cmpNe ⟨⟨true, 7, true⟩, .f16, .rn, 0, .none, .scal 40, .scal 8, .scal 9, .zero⟩),
    (0x4C50540200800900000E0000, .vcmpNe ⟨⟨false, 5, false⟩, .f16, .rn, 0, .none, .pred 2, .win 8, .win 9, .zero⟩),
    (0x0C83022820820900000E0000, .cmpLt ⟨⟨false, 0, false⟩, .i32, .rn, 0, .none, .scal 40, .scal 8, .scal 9, .zero⟩),
    (0x4C83240300800900000E0080, .vcmpLt ⟨⟨false, 2, true⟩, .i32, .rn, 0, .none, .pred 3, .win 8, .win 9, .zero⟩)
    ] : List (Nat × Instr)).all (fun e => decide (decodeTableWord 96 e.1 = some e.2)) = true := by decide +kernel

theorem test_decode_row_7 : ([
    (0x0CC8B22821021200000E0000, .cmpLe ⟨⟨true, 3, false⟩, .n64, .rn, 0, .none, .scal 40, .scal 16, .scal 18, .zero⟩),
    (0x4CC8F40401001200000E0080, .vcmpLe ⟨⟨true, 7, true⟩, .n64, .rn, 0, .none, .pred 4, .win 16, .win 18, .zero⟩),
    (0x0D12522820820900000E0000, .cmpGt ⟨⟨false, 5, false⟩, .f32, .rn, 0, .none, .scal 40, .scal 8, .scal 9, .zero⟩),
    (0x4D12040500800900000E0000, .vcmpGt ⟨⟨false, 0, false⟩, .f32, .rn, 0, .none, .pred 5, .win 8, .win 9, .zero⟩),
    (0x0D45222820820900000E0080, .cmpGe ⟨⟨false, 2, true⟩, .n8, .rn, 0, .none, .scal 40, .scal 8, .scal 9, .zero⟩),
    (0x4D45B40600800900000E0000, .vcmpGe ⟨⟨true, 3, false⟩, .n8, .rn, 0, .none, .pred 6, .win 8, .win 9, .zero⟩),
    (0x0D93F22821021200000E0080, .cmpNum ⟨⟨true, 7, true⟩, .f64, .rn, 0, .none, .scal 40, .scal 16, .scal 18, .zero⟩),
    (0x4D93540701001200000E0000, .vcmpNum ⟨⟨false, 5, false⟩, .f64, .rn, 0, .none, .pred 7, .win 16, .win 18, .zero⟩),
    (0x0DD2022820820900000E0000, .cmpNan ⟨⟨false, 0, false⟩, .f32, .rn, 0, .none, .scal 40, .scal 8, .scal 9, .zero⟩),
    (0x4DD2240100800900000E0080, .vcmpNan ⟨⟨false, 2, true⟩, .f32, .rn, 0, .none, .pred 1, .win 8, .win 9, .zero⟩),
    (0x0E0CB20820A20C0000020F00, .sel ⟨⟨true, 3, false⟩, .b64, .rn, 0, .none, .scal 8, .scal 10, .scal 12, .scal 15⟩),
    (0x4E0BF00800A00C0000040380, .vsel ⟨⟨true, 7, true⟩, .b32, .rn, 0, .none, .win 8, .win 10, .win 12, .pred 3⟩),
    (0x10125208209E000000000300, .cvt ⟨⟨false, 5, false⟩, .f32, .rn, 0, .i32, .scal 8, .scal 9, .zero, .zero⟩),
    (0x50140008009E000002201200, .vcvt ⟨⟨false, 0, false⟩, .e4m3, .rz, 2, .f32, .win 8, .win 9, .zero, .zero⟩),
    (0x104A220820920A00000E0080, .pack ⟨⟨false, 2, true⟩, .b16, .rn, 0, .none, .scal 8, .scal 9, .scal 10, .zero⟩),
    (0x5056B00800CE0000000E0000, .vpack ⟨⟨true, 3, false⟩, .e3m2, .rn, 0, .none, .win 8, .win 12, .zero, .zero⟩)
    ] : List (Nat × Instr)).all (fun e => decide (decodeTableWord 96 e.1 = some e.2)) = true := by decide +kernel

theorem test_decode_row_8 : ([
    (0x1097F20820CE0000000E0080, .unpk ⟨⟨true, 7, true⟩, .e2m3, .rn, 0, .none, .scal 8, .scal 12, .zero, .zero⟩),
    (0x5096500800CE0000000E0000, .vunpk ⟨⟨false, 5, false⟩, .e3m2, .rn, 0, .none, .win 8, .win 12, .zero, .zero⟩),
    (0x4E40040140240300000E0000, .pand ⟨⟨false, 0, false⟩, .none, .rn, 0, .none, .pred 1, .pred 2, .pred 3, .zero⟩),
    (0x4E802404400E0000000E0080, .por ⟨⟨false, 2, true⟩, .none, .rn, 0, .none, .pred 4, .pred 0, .zero, .zero⟩),
    (0x4EC0BE0040640700000E0000, .pxor ⟨⟨true, 3, false⟩, .none, .rn, 0, .none, .zero, .pred 6, .pred 7, .zero⟩),
    (0x4F00F405406E0000000E0080, .pnot ⟨⟨true, 7, true⟩, .none, .rn, 0, .none, .pred 5, .pred 6, .zero, .zero⟩),
    (0x540B532C007C000000001F00, .vtos ⟨⟨false, 5, false⟩, .b32, .rn, 0, .none, .scal 300, .win 7, .imm 0x1F, .zero⟩),
    (0x544C000820A20C00000E0000, .stov ⟨⟨false, 0, false⟩, .b64, .rn, 0, .none, .win 8, .scal 10, .scal 12, .zero⟩),
    (0x548B200100200300000E0080, .vshfl ⟨⟨false, 2, true⟩, .b32, .rn, 0, .none, .win 1, .win 2, .win 3, .zero⟩),
    (0x54CCB004006C000000001000, .vbfly ⟨⟨true, 3, false⟩, .b64, .rn, 0, .none, .win 4, .win 6, .imm 0x10, .zero⟩),
    (0x550BF00400620900000E0080, .vbcast ⟨⟨true, 7, true⟩, .b32, .rn, 0, .none, .win 4, .win 6, .scal 9, .zero⟩),
    (0x55405009404E0000000E0000, .vballot ⟨⟨false, 5, false⟩, .none, .rn, 0, .none, .win 9, .pred 4, .zero, .zero⟩),
    (0x558C000900AE0000000E0000, .vmatch ⟨⟨false, 0, false⟩, .b64, .rn, 0, .none, .win 9, .win 10, .zero, .zero⟩),
    (0x5612200A004E0000000E0080, .vredAdd ⟨⟨false, 2, true⟩, .f32, .rn, 0, .none, .win 10, .win 4, .zero, .zero⟩),
    (0x5641B214004E0000000E0000, .vredMin ⟨⟨true, 3, false⟩, .i8, .rn, 0, .none, .scal 20, .win 4, .zero, .zero⟩),
    (0x5690F00A004E0000000E0080, .vredMax ⟨⟨true, 7, true⟩, .f16, .rn, 0, .none, .win 10, .win 4, .zero, .zero⟩)
    ] : List (Nat × Instr)).all (fun e => decide (decodeTableWord 96 e.1 = some e.2)) = true := by decide +kernel

theorem test_decode_row_9 : ([
    (0x56CB5214004E0000000E0000, .vredAnd ⟨⟨false, 5, false⟩, .b32, .rn, 0, .none, .scal 20, .win 4, .zero, .zero⟩),
    (0x57080014008E0000000E0000, .vredOr ⟨⟨false, 0, false⟩, .n64, .rn, 0, .none, .win 20, .win 8, .zero, .zero⟩),
    (0x574A2214004E0000000E0080, .vredXor ⟨⟨false, 2, true⟩, .b16, .rn, 0, .none, .scal 20, .win 4, .zero, .zero⟩),
    (0x5783B00A004E0000000E0000, .vscanAdd ⟨⟨true, 3, false⟩, .i32, .rn, 0, .none, .win 10, .win 4, .zero, .zero⟩),
    (0x57D3F014008E0000000E0080, .vscanMin ⟨⟨true, 7, true⟩, .f64, .rn, 0, .none, .win 20, .win 8, .zero, .zero⟩),
    (0x5806500A004E0000000E0000, .vscanMax ⟨⟨false, 5, false⟩, .n16, .rn, 0, .none, .win 10, .win 4, .zero, .zero⟩),
    (0x200E0207209E00FFFFFC0000, .ldScalar ⟨⟨false, 0, false⟩, .sp, .i16, .plain, .none, .natural, 0xFFFFFC, .scal 7, .scal 9, .zero, 0, none⟩),
    (0x60032008004E0000004054AD, .ldVector ⟨⟨false, 2, true⟩, .gl, .s64, .acq, .device, .natural, 0x40, .win 8, .win 4, .zero, 2, some 5⟩),
    (0x6042B0070024040000800010, .ldNr ⟨⟨true, 3, false⟩, .gl, .s32, .plain, .none, .natural, 0x80, .win 7, .win 2, .pred 4, 1, none⟩),
    (0x209BFE0020920C7FFFFF0080, .stScalar ⟨⟨true, 7, true⟩, .xs, .s64, .plain, .none, .natural, 0x7FFFFF, .zero, .scal 9, .scal 12, 0, none⟩),
    (0x60A05E000030058000000000, .stVector ⟨⟨false, 5, false⟩, .ln, .s8, .plain, .none, .natural, 0x800000, .zero, .win 3, .win 5, 0, none⟩),
    (0x20C00E00208E000001000060, .pfScalar ⟨⟨false, 0, false⟩, .gl, .s8, .plain, .none, .natural, 0x100, .zero, .scal 8, .zero, 6, none⟩),
    (0x60C02E00008E00FFFF800080, .pfVector ⟨⟨false, 2, true⟩, .gl, .s8, .plain, .none, .natural, 0xFFFF80, .zero, .win 8, .zero, 0, none⟩),
    (0x2100BE00208E000000000000, .pgreqScalar ⟨⟨true, 3, false⟩, .gl, .s8, .plain, .none, .natural, 0x0, .zero, .scal 8, .zero, 0, none⟩),
    (0x6100FE00008E000100000080, .pgreqVector ⟨⟨true, 7, true⟩, .gl, .s8, .plain, .none, .natural, 0x10000, .zero, .win 8, .zero, 0, none⟩),
    (0x61405E00E00E000000000000, .cinv ⟨⟨false, 5, false⟩, .gl, .s8, .plain, .none, .natural, 0x0, .zero, .zero, .zero, 0, none⟩)
    ] : List (Nat × Instr)).all (fun e => decide (decodeTableWord 96 e.1 = some e.2)) = true := by decide +kernel

theorem test_decode_row_10 : ([
    (0x61800E002142160000100000, .cdem ⟨⟨false, 0, false⟩, .gl, .s8, .plain, .none, .natural, 0x10, .zero, .scal 20, .scal 22, 0, none⟩),
    (0x6402200C0060100000003A80, .atomAdd ⟨⟨false, 2, true⟩, .gl, .s32, .rlx, .system, .float, 0x0, .win 12, .win 6, .win 16, 0, none⟩),
    (0x644BB00C0060100000084900, .atomMin ⟨⟨true, 3, false⟩, .sp, .s64, .acq, .core, .signed, 0x8, .win 12, .win 6, .win 16, 0, none⟩),
    (0x6492F00C0060100000106C80, .atomMax ⟨⟨true, 7, true⟩, .ks, .s32, .rel, .cluster, .natural, 0x10, .win 12, .win 6, .win 16, 0, none⟩),
    (0x64DA5E000060100000189400, .atomAnd ⟨⟨false, 5, false⟩, .xs, .s32, .ar, .device, .natural, 0x18, .zero, .win 6, .win 16, 0, none⟩),
    (0x6503000C0060100000203400, .atomOr ⟨⟨false, 0, false⟩, .gl, .s64, .rlx, .device, .natural, 0x20, .win 12, .win 6, .win 16, 0, none⟩),
    (0x654A200C0060100000284880, .atomXor ⟨⟨false, 2, true⟩, .sp, .s32, .acq, .core, .natural, 0x28, .win 12, .win 6, .win 16, 0, none⟩),
    (0x6593B00C0060100000306C00, .atomExch ⟨⟨true, 3, false⟩, .ks, .s64, .rel, .cluster, .natural, 0x30, .win 12, .win 6, .win 16, 0, none⟩),
    (0x65DAF00C0060100000389480, .atomCas ⟨⟨true, 7, true⟩, .xs, .s32, .ar, .device, .natural, 0x38, .win 12, .win 6, .win 16, 0, none⟩),
    (0x66025E000062100000002600, .aredAdd ⟨⟨false, 5, false⟩, .gl, .s32, .rlx, .group, .float, 0x0, .zero, .win 6, .scal 16, 0, none⟩),
    (0x66430E00006010FFFFF86900, .aredMin ⟨⟨false, 0, false⟩, .gl, .s64, .rel, .core, .signed, 0xFFFFF8, .zero, .win 6, .win 16, 0, none⟩),
    (0x66822E00006210FFFFF02C80, .aredMax ⟨⟨false, 2, true⟩, .gl, .s32, .rlx, .cluster, .natural, 0xFFFFF0, .zero, .win 6, .scal 16, 0, none⟩),
    (0x66C2BE00006010FFFFE87000, .aredAnd ⟨⟨true, 3, false⟩, .gl, .s32, .rel, .die, .natural, 0xFFFFE8, .zero, .win 6, .win 16, 0, none⟩),
    (0x6703FE00006210FFFFE03480, .aredOr ⟨⟨true, 7, true⟩, .gl, .s64, .rlx, .device, .natural, 0xFFFFE0, .zero, .win 6, .scal 16, 0, none⟩),
    (0x67425E00006010FFFFD87800, .aredXor ⟨⟨false, 5, false⟩, .gl, .s32, .rel, .system, .natural, 0xFFFFD8, .zero, .win 6, .win 16, 0, none⟩),
    (0x68000E00E00E000000004D00, .xbegin ⟨⟨false, 0, false⟩, .zero, .zero, .zero, 0x4D, 0⟩)
    ] : List (Nat × Instr)).all (fun e => decide (decodeTableWord 96 e.1 = some e.2)) = true := by decide +kernel

theorem test_decode_row_11 : ([
    (0x68402008E00E000000000080, .xend ⟨⟨false, 2, true⟩, .win 8, .zero, .zero, 0x0, 0⟩),
    (0x6880BE00E00E00000000FE00, .xabort ⟨⟨true, 3, false⟩, .zero, .zero, .zero, 0xFE, 0⟩),
    (0x68C0F01FE00E000000000080, .xstat ⟨⟨true, 7, true⟩, .win 31, .zero, .zero, 0x0, 0⟩),
    (0x801A580F60F228000007D500, .mma ⟨⟨false, 5, false⟩, .mx8, .e5m2, .rn, 0, 31, .acc 15, .tmap 15, .scal 40⟩),
    (0x804108016022290000008000, .mmaN2 ⟨⟨false, 0, false⟩, .i8, .none, .rn, 0, 2, .acc 1, .tmap 2, .scal 41⟩),
    (0x809428036022280000004080, .mmaK2 ⟨⟨false, 2, true⟩, .e4m3, .none, .rn, 0, 1, .acc 3, .tmap 2, .scal 40⟩),
    (0x80D1B8046016030000000000, .mmt ⟨⟨true, 3, false⟩, .bf16, .none, .rn, 0, 0, .acc 4, .tmap 1, .tmap 3⟩),
    (0x8110F8046016040000000080, .mmtN2 ⟨⟨true, 7, true⟩, .f16, .none, .rn, 0, 0, .acc 4, .tmap 1, .tmap 4⟩),
    (0x815C58046026040000001800, .mmtK2 ⟨⟨false, 5, false⟩, .mx4, .e2m1, .rn, 0, 0, .acc 4, .tmap 2, .tmap 4⟩),
    (0x81800807E00E000000000000, .mzero ⟨⟨false, 0, false⟩, .none, .none, .rn, 0, 0, .acc 7, .zero, .zero⟩),
    (0x81C32807609E000002000080, .mld ⟨⟨false, 2, true⟩, .i32, .none, .rz, 0, 0, .acc 7, .tmap 9, .zero⟩),
    (0x8214B609807E000004000000, .mst ⟨⟨true, 3, false⟩, .e4m3, .none, .ru, 0, 0, .tmap 9, .acc 7, .zero⟩),
    (0x8250F0088022050007F80080, .mrow ⟨⟨true, 7, true⟩, .f16, .none, .rd, 63, 0, .win 8, .acc 2, .scal 5⟩),
    (0x82805E00E00E000000000000, .mwait ⟨⟨false, 5, false⟩, .none, .none, .rn, 0, 0, .zero, .zero, .zero⟩),
    (0x82C00601208E000000000000, .tmset ⟨⟨false, 0, false⟩, .none, .none, .rn, 0, 0, .tmap 1, .scal 8, .zero⟩),
    (0x8300220C60EE000000000080, .tmget ⟨⟨false, 2, true⟩, .none, .none, .rn, 0, 0, .scal 12, .tmap 14, .zero⟩)
    ] : List (Nat × Instr)).all (fun e => decide (decodeTableWord 96 e.1 = some e.2)) = true := by decide +kernel

theorem test_decode_row_12 : ([
    (0x881BB228E00E000033F81600, .ralloc ⟨⟨true, 3, false⟩, .mx6, .e3m2, true, true, false, false, 15, 7, 0, .scal 40, .zero, .zero⟩),
    (0x8840F23222A60300041F8080, .rloadMap ⟨⟨true, 7, true⟩, .none, .none, false, false, false, true, 0, 3, 30, .scal 50, .scal 42, .tmap 3⟩),
    (0x88405E0022A23C0008004000, .rloadGlobal ⟨⟨false, 5, false⟩, .none, .none, false, false, true, false, 0, 0, 1, .zero, .scal 42, .scal 60⟩),
    (0x88800E00228E000000000000, .rpin ⟨⟨false, 0, false⟩, .none, .none, false, false, false, false, 0, 0, 0, .zero, .scal 40, .zero⟩),
    (0x88C02E00229E000000000080, .runpin ⟨⟨false, 2, true⟩, .none, .none, false, false, false, false, 0, 0, 0, .zero, .scal 41, .zero⟩),
    (0x8900BE0022AE000000000000, .rrev ⟨⟨true, 3, false⟩, .none, .none, false, false, false, false, 0, 0, 0, .zero, .scal 42, .zero⟩),
    (0x8940F22C22BE000000000080, .rstat ⟨⟨true, 7, true⟩, .none, .none, false, false, false, false, 0, 0, 0, .scal 44, .scal 43, .zero⟩),
    (0x8980522C22B22D0000000000, .rquota ⟨⟨false, 5, false⟩, .none, .none, false, false, false, false, 0, 0, 0, .scal 44, .scal 43, .scal 45⟩),
    (0x90005214204E000000000030, .cpy ⟨⟨false, 5, false⟩, .scal 20, .scal 4, .zero, 0x0, 3⟩),
    (0x90400E00206E000000000000, .sleepu ⟨⟨false, 0, false⟩, .zero, .scal 6, .zero, 0x0, 0⟩),
    (0x90802E002062090000000080, .sleepuChk ⟨⟨false, 2, true⟩, .zero, .scal 6, .scal 9, 0x0, 0⟩),
    (0x90C0BE00208C000000100000, .barx ⟨⟨true, 3, false⟩, .zero, .scal 8, .imm 0x1000, 0x0, 0⟩),
    (0x9100FE002080030000000080, .bar ⟨⟨true, 7, true⟩, .zero, .scal 8, .win 3, 0x0, 0⟩),
    (0x91405E00C002070040000200, .barc ⟨⟨false, 5, false⟩, .zero, .imm 0x400002, .scal 7, 0x0, 0⟩),
    (0x91800E00E00C000000FFFF00, .bart ⟨⟨false, 0, false⟩, .zero, .zero, .imm 0xFFFF, 0x0, 0⟩),
    (0x91C02E00E00E000000000080, .barg ⟨⟨false, 2, true⟩, .zero, .zero, .zero, 0x0, 0⟩)
    ] : List (Nat × Instr)).all (fun e => decide (decodeTableWord 96 e.1 = some e.2)) = true := by decide +kernel

theorem test_decode_row_13 : ([
    (0xC000BE00E00E000000000000, .nop ⟨⟨true, 3, false⟩, .zero, .zero, .zero, 0x0, 0⟩),
    (0xC040FE00E00E00FFFFFFFF80, .bra ⟨⟨true, 7, true⟩, .zero, .zero, .zero, 0xFFFFFFFF, 0⟩),
    (0xC0805E00004E000000000300, .brx ⟨⟨false, 5, false⟩, .zero, .win 4, .zero, 0x3, 0⟩),
    (0xC0C00E00E00E000000006400, .call ⟨⟨false, 0, false⟩, .zero, .zero, .zero, 0x64, 0⟩),
    (0xC1002E0020CE000000000580, .callx ⟨⟨false, 2, true⟩, .zero, .scal 12, .zero, 0x5, 0⟩),
    (0xC140BE00E00E000000000000, .ret ⟨⟨true, 3, false⟩, .zero, .zero, .zero, 0x0, 0⟩),
    (0xC180FE00E00E000000002980, .jopen ⟨⟨true, 7, true⟩, .zero, .zero, .zero, 0x29, 0⟩),
    (0xC1C05E00E00E000000000000, .join ⟨⟨false, 5, false⟩, .zero, .zero, .zero, 0x0, 0⟩),
    (0xC2000E00403E000000002800, .eject ⟨⟨false, 0, false⟩, .zero, .pred 3, .zero, 0x28, 0⟩),
    (0xC2402E00E00E000000000080, .rejoin ⟨⟨false, 2, true⟩, .zero, .zero, .zero, 0x0, 0⟩),
    (0xC280BE00E00E000000000200, .enrol ⟨⟨true, 3, false⟩, .zero, .zero, .zero, 0x2, 0⟩),
    (0xC2C0FE00E00E000000000380, .bwaitm ⟨⟨true, 7, true⟩, .zero, .zero, .zero, 0x3, 0⟩),
    (0xC3005E00205E000000000900, .bsz ⟨⟨false, 5, false⟩, .zero, .scal 5, .zero, 0x9, 0⟩),
    (0xC3400E0037FE000000000A00, .bsnz ⟨⟨false, 0, false⟩, .zero, .scal 383, .zero, 0xA, 0⟩),
    (0xC3802205E00E000000000C80, .loop ⟨⟨false, 2, true⟩, .scal 5, .zero, .zero, 0xC, 0⟩),
    (0xC3C0BE00E00E000000000000, .exit ⟨⟨true, 3, false⟩, .zero, .zero, .zero, 0x0, 0⟩)
    ] : List (Nat × Instr)).all (fun e => decide (decodeTableWord 96 e.1 = some e.2)) = true := by decide +kernel

theorem test_decode_row_14 : ([
    (0xC480F21E21FE000000000080, .launch ⟨⟨true, 7, true⟩, .scal 30, .scal 31, .zero, 0x0, 0⟩),
    (0xC8005E00E00E000000009400, .fence ⟨⟨false, 5, false⟩, .zero, .zero, .zero, 0x94, 0⟩),
    (0xCC000E00002E00000003F000, .regroup ⟨⟨false, 0, false⟩, .zero, .win 2, .zero, 0x3F0, 0⟩),
    (0xCC402E00E00E008000000180, .regroupHome ⟨⟨false, 2, true⟩, .zero, .zero, .zero, 0x80000001, 0⟩),
    (0xCC80B209E00E000000000000, .cqstat ⟨⟨true, 3, false⟩, .scal 9, .zero, .zero, 0x0, 0⟩),
    (0xD800FE00E00E000000002A80, .trap ⟨⟨true, 7, true⟩, .zero, .zero, .zero, 0x2A, 0⟩),
    (0xD8405E00E00E000000000100, .tret ⟨⟨false, 5, false⟩, .zero, .zero, .zero, 0x1, 0⟩),
    (0xD8800E0020C21400000F3C00, .yieldl ⟨⟨false, 0, false⟩, .zero, .scal 12, .scal 20, 0xF3C, 0⟩),
    (0xD8C02006A10E000000000080, .mrs ⟨⟨false, 2, true⟩, .win 6, .special 16, .zero, 0x0, 0⟩),
    (0xD900BA1BC00E000000000700, .msr ⟨⟨true, 3, false⟩, .special 27, .imm 0x7, .zero, 0x0, 0⟩),
    (0xD940FE00E00E00000000A580, .bkpt ⟨⟨true, 7, true⟩, .zero, .zero, .zero, 0xA5, 0⟩),
    (0xD9805E000042090000000000, .wpt ⟨⟨false, 5, false⟩, .zero, .win 4, .scal 9, 0x0, 0⟩),
    (0xD9C0020AE00E000000002200, .pcnt ⟨⟨false, 0, false⟩, .scal 10, .zero, .zero, 0x22, 0⟩),
    (0xDA002E00203E000000000980, .trc ⟨⟨false, 2, true⟩, .zero, .scal 3, .zero, 0x9, 0⟩),
    (0xDA40BE00E00E000000000000, .halt ⟨⟨true, 3, false⟩, .zero, .zero, .zero, 0x0, 0⟩),
    (0xDA80FE0020820A0000000080, .tlbinv ⟨⟨true, 7, true⟩, .zero, .scal 8, .scal 10, 0x0, 0⟩)
    ] : List (Nat × Instr)).all (fun e => decide (decodeTableWord 96 e.1 = some e.2)) = true := by decide +kernel

/-! ## Hypotheses met: scalar and vector instructions -/

theorem test_meets_VectorArithmeticCompletes :
    let row := plainRow .add .vadd resAdd
    let f := benchArith .i32 (.win 2) (.win 0) (.imm 7) .zero
    row ∈ integerRows ++ floatRows ∧ Issuing (benchIssue benchGroup benchCursor) benchCursor benchGroup ∧
      ∀ l t, l ∈ lanesOf benchCursor.active → benchGroup.lanes.get? l = some t → t.guard f.h = true →
        fpTraps benchGroup.fpen (row.result f (laneSrc (row.shape f) f benchCursor benchGroup t)).2 = false := by
  refine ⟨?_, test_issuing, fun l t _ _ _ => by simp [fpTraps, benchGroup]⟩
  exact List.mem_append_left _ (.tail _ (.head _))

theorem test_meets_ScalarArithmeticCompletes :
    let row := testRow .cmpNan .vcmpNan .nan
    let f := benchArith .f32 (.scal 2) (.scal 5) (.imm 0x7FC00000) .zero
    row ∈ integerRows ++ floatRows ∧ guardG benchGroup f.h benchCursor = true ∧
      fpTraps benchGroup.fpen (row.result f (groupSrc (row.shape f) f benchGroup)).2 = false := by
  refine ⟨?_, by decide, by simp [fpTraps, benchGroup]⟩
  exact List.mem_append_right _ (by simp [floatRows])

/-- 1 / 0 in binary32 raises DBZ, which `sr.fpen` enables. -/
theorem test_meets_EnabledFlagTraps :
    let row := plainRow .div .vdiv resDiv
    let g := { benchGroup with fpen := 0x3F }
    let f := benchArith .f32 (.scal 2) (.imm 0x3F800000) .zero .zero
    guardG g f.h benchCursor = true ∧ fpTraps g.fpen (row.result f (groupSrc (row.shape f) f g)).2 = true ∧
      ({} : Thread).guard f.h = true ∧ fpTraps g.fpen (row.result f (laneSrc (row.shape f) f benchCursor g {})).2 = true := by
  decide +kernel

theorem test_meets_integer_types : ∀ t ∈ [Ty.i8, .n64], t.isInt = true := by decide

theorem test_meets_bit_types : ∀ t ∈ [Ty.b8, .i16], t.isInt = true ∨ t ∈ [Ty.b8, .b16, .b32, .b64] := by decide

/-- The greatest shift of `lea`, and the widest field of `bfi`. -/
theorem test_meets_BitsFieldsAndAddresses :
    let f : Arith := { benchArith .n32 (.win 2) (.win 4) (.win 6) .zero with sub := 7 }
    (f.ty = .i32 ∨ f.ty = .n32) ∧ f.sub < 8 ∧ (Ty.b64 = .b32 ∨ Ty.b64 = .b64) ∧ Ty.i16.slot ≠ 8 := by decide

theorem test_meets_DestinationsReceive :
    (30 + 2 ≤ 32 ∧ ¬(30 ≤ 29 ∧ 29 < 32)) ∧ (0 < 8 ∧ 7 < 8 ∧ (7 : Nat) ≠ 0) := by decide

theorem test_meets_ComparisonsAndPredicates :
    Ty.b32.isFloat = false ∧ ((Operand.pred 7).kind = 2 ∨ Operand.pred 7 = .zero) ∧
      (Operand.zero.kind = 2 ∨ Operand.zero = .zero) := by decide

/-- The last element of a word that a conversion from 8 bits to 32 names, and the other two forms. -/
theorem test_meets_Conversions :
    (Ty.i32.isInt = true ∧ Ty.n8.isInt = true ∧ 3 < (if min Ty.n8.slot Ty.i32.slot < 32 then 32 / min Ty.n8.slot Ty.i32.slot else 1)) ∧
      (Ty.e2m3 = .e3m2 ∨ Ty.e2m3 = .e2m3) := by decide

/-- Encodings of binary32 that meet each clause: a quiet and a signalling NaN, both infinities, both zeros, −1 and 1. -/
theorem test_meets_FloatResultsOfKnownValues :
    (fmt32.decode 0x7FC00000).isNan = true ∧ (fmt32.decode 0x7F800001).isSnan = true ∧
      fmt32.decode 0x7F800000 = .inf false ∧ fmt32.decode 0xFF800000 = .inf true ∧
      (fmt32.decode 0x80000000).isZero = true ∧ (∃ e, fmt32.decode 0 = .fin false 0 e) ∧
      (∃ u e, fmt32.decode 0xBF800000 = .fin true u e ∧ u ≠ 0) ∧ (∃ u e, fmt32.decode 0x3F800000 = .fin false u e ∧ u ≠ 0) ∧
      0x3F800000 < 2 ^ Ty.f32.fmt.width := by
  refine ⟨by decide, by decide, by decide, by decide, by decide, ⟨_, rfl⟩, ⟨_, _, rfl, by decide⟩, ⟨_, _, rfl, by decide⟩,
    by decide⟩

theorem test_meets_ScalarsAndLanes :
    let f := benchArith .b64 (.scal 8) (.win 30) (.imm 31) .zero
    let g := benchGroup
    let j := groupVal g .b32 1 f.b % 32
    f.a = .win 30 ∧ g.usePending (g.inHandler j) [j] (0, 30, f.ty.regs) = false ∧
      g.usePoison (g.inHandler j) j (0, 30, f.ty.regs) = none := by decide

theorem test_meets_LaneExchangesAndMasks :
    let f := benchArith .b64 (.win 2) (.win 4) (.win 6) .zero
    (∀ l < 32, operandPoison benchGroup false l f.ty.regs f.a = none) ∧ operandPoison benchGroup false 40 f.ty.regs f.a = none ∧
      ∀ l < 32, operandPoison benchGroup false l 1 (.pred 3) = none := by decide

/-- Lanes that contribute, and a group in which none does: the guard `p1` is false in both lanes. -/
theorem test_meets_ReductionsAndScans :
    let f := benchArith .n16 (.scal 2) (.win 4) .zero .zero
    let h : Head := ⟨false, 1, false⟩
    f.ty.isFloat = false ∧ f.ty.isInt = true ∧ (∀ l < 32, operandPoison benchGroup false l f.ty.regs f.a = none) ∧
      (∀ e ∈ benchGroup.lanes, e.2.guard openHead = true) ∧ ∀ e ∈ benchGroup.lanes, e.2.guard h = false := by decide

/-! ## Hypotheses met: control flow -/

/-- A thread at the greatest call depth from which a call is allowed, and one that can return. -/
def callGroup (t : Thread) : Group := { lanes := [(0, t), (1, t)] }

theorem test_meets_Calls :
    let g := callGroup { cd := 65534 }
    let s := benchIssue g benchCursor
    Issuing s benchCursor g ∧ (s.teamOf g).isSome = true ∧ (s.pktOf g).isSome = true ∧
      (∀ e, (g.lanes.any fun t => t.2.pend.contains e) = false) ∧ s.requestsUsed 0 ≤ 512 ∧
      ∀ l t, g.lanes.get? l = some t → t.nres = 0 ∧ t.cd < 65535 :=
  ⟨issuing_two rfl rfl rfl, rfl, rfl, fun _ => rfl, by decide +kernel, lanes_all (by decide)⟩

theorem test_meets_Returns :
    let g := callGroup { cd := 1, nres := 1, wb := 72 }
    Issuing (benchIssue g benchCursor) benchCursor g ∧ (∀ l t, g.lanes.get? l = some t → t.nres = 1 ∧ 0 < t.cd) ∧
      (72 : Nat) ∈ [0, 24, 48, 72] :=
  ⟨issuing_two rfl rfl rfl, lanes_all (by decide), by decide⟩

/-- 14, 15 and 16 entries on the join stack; an entry that waits for the join at 5; none that does. -/
theorem test_meets_JoinStack :
    let e : JoinEntry := .join 0 3 9 0
    let full (n : Nat) : Group := { benchGroup with joins := List.replicate n e }
    (∀ n ∈ [14, 15, 16], Issuing (benchIssue (full n) benchCursor) benchCursor (full n) ∧
      (full n).joinHeld benchCursor = false ∧ guardG (full n) openHead benchCursor = true) ∧
    (let g := { benchGroup with joins := [e, .join 2 3 5 1] }
     g.joins = [e] ++ .join 2 3 benchCursor.pc 1 :: [] ∧ g.joinHeld benchCursor = false ∧
       ∀ x ∈ [e], ∃ c m tgt a, x = .join c m tgt a ∧ tgt ≠ benchCursor.pc) ∧
    ∀ c m a, JoinEntry.join c m benchCursor.pc a ∉ (full 16).joins := by
  refine ⟨fun n hn => ⟨issuing_two rfl rfl rfl, ?_, ?_⟩, ⟨rfl, by decide, ?_⟩, ?_⟩
  · revert n; decide
  · revert n; decide
  · intro x hx
    rw [List.mem_singleton.1 hx]
    exact ⟨_, _, _, _, rfl, by decide⟩
  · intro c m a h
    have := List.eq_of_mem_replicate h
    injection this with _ _ h3 _
    exact absurd h3 (by decide)

/-- A join entry whose lanes have all arrived, and one that waits for lane 1. -/
theorem test_meets_JoinCompletion :
    let g := { benchGroup with joins := [.join 0 3 9 3] }
    let g' := { benchGroup with joins := [.join 0 3 9 1] }
    (benchRest g).groups.get? 0 = some g ∧ (∀ l ∈ lanesOf 3#32, bitOf (3 : Word) l = true ∨ g.live l = false) ∧
      ¬∀ l ∈ lanesOf 3#32, bitOf (1 : Word) l = true ∨ g'.live l = false := by
  refine ⟨rfl, by decide, by decide⟩

/-- Both lanes of a rejoin mask wait; and only lane 0 does. -/
theorem test_meets_RejoinMasks :
    let w : Thread := { wait := .rejoinMask 3 }
    let g : Group := { rm := [(3, 3)], lanes := [(0, w), (1, w)] }
    let g' : Group := { rm := [(3, 3)], lanes := [(0, w), (1, {})] }
    let waits (g : Group) (l : Nat) : Prop := ∃ t, g.lanes.get? l = some t ∧ t.wait = .rejoinMask 3
    ((∃ l < 32, waits g l) ∧ ∀ l ∈ lanesOf (g.rmask 3), waits g l ∨ g.live l = false) ∧
      ¬((∃ l < 32, waits g' l) ∧ ∀ l ∈ lanesOf (g'.rmask 3), waits g' l ∨ g'.live l = false) := by
  refine ⟨⟨⟨0, by decide, _, rfl, rfl⟩, fun l hl => ?_⟩, fun h => ?_⟩
  · have : l = 0 ∨ l = 1 := by revert l; decide
    rcases this with rfl | rfl <;> exact .inl ⟨_, rfl, rfl⟩
  · rcases h.2 1 (by decide) with ⟨t, ht, hw⟩ | h
    · cases ht; cases hw
    · exact absurd h (by decide)

theorem test_meets_Eject :
    let f := benchOp .zero (.pred 0) .zero 40
    let g := { benchGroup with joins := [.join 0 3 9 0] }
    let s := benchIssue g benchCursor
    Issuing s benchCursor g ∧ f.a = .pred 0 ∧ g.isCont = false ∧ g.trapEntry = none ∧ (s.teams.get? g.team).isSome = true ∧
      (∃ t, g.lanes.get? 1 = some t ∧ t.guard f.h = true ∧ t.pred 0 = true) ∧ ∀ l < 32, g.enrolled l = false :=
  ⟨issuing_two rfl rfl rfl, rfl, rfl, by decide, rfl, ⟨_, rfl, by decide, by decide⟩, by decide⟩

/-- A continuation of slot 1 that stands at `rejoin` in slot 0, with its home entry at position 0 of slot 1. -/
theorem test_meets_Rejoin :
    let h : Home := ⟨1, 31, 0, 2⟩
    let u : Thread := { cd := 2, home := some h }
    let g : Group := { isCont := true, lanes := [(0, u)] }
    let hg : Group := { joins := [.join 1 3 9 0], lanes := [(0, {})] }
    let k : Cursor := { benchCursor with full := 1, active := 1 }
    let s : State := { benchIssue g k with groups := [(0, g), (1, hg)] }
    Issuing s k g ∧ lanesOf k.active = [0] ∧ u.guard openHead = true ∧ g.joins = [] ∧ u.cd = h.cd ∧ h.gk ≠ k.gk ∧
      h.lane < 32 ∧ s.groups.get? h.gk = some hg ∧ hg.joins = [] ++ .join 1 3 9 0 :: [] ∧ ([] : List JoinEntry).length = h.entry := by
  refine ⟨⟨rfl, rfl, rfl, by decide, by decide, fun l hl => ?_⟩, by decide, by decide, rfl, rfl, by decide, by decide, rfl, rfl, rfl⟩
  have : l = 0 := by revert l; decide
  subst this
  exact ⟨_, rfl, rfl⟩

/-- A continuation that has waited 64 clocks, and a slot is free for it. -/
def contState : State :=
  let s := benchRest benchGroup
  { s with teams := s.teams.modify 0 fun t => { t with conts := [⟨0, { tid := 7, lpc := 40 }, 64, 1⟩] } }

/-- One continuation of age 64 makes a class; without continuations there is none. -/
theorem test_meets_ContinuationGroups :
    (∃ gk, contState.contClass 0 = some (0, gk, [⟨0, { tid := 7, lpc := 40 }, 64, 1⟩])) ∧
      (benchRest benchGroup).contClass 0 = none ∧ contState.teams.sorted = true ∧ (contState.freeSlots 0).head? = some 1 ∧
      ((contState.teams.get? 0).bind contState.gridOf).isSome = true ∧
      ((benchRest benchGroup).teams.all fun e => e.2.conts.all fun c => c.core ≠ 0) = true := by
  have h1 : contState.contQueue 0 = [(0, ⟨0, { tid := 7, lpc := 40 }, 64, 1⟩)] := List.mergeSort_singleton _
  have h2 : (benchRest benchGroup).contQueue 0 = [] := List.mergeSort_nil
  have h3 : (contState.contSlot 0 0).isSome = true := by decide +kernel
  refine ⟨?_, ?_, by decide +kernel⟩
  · obtain ⟨gk, hg⟩ := Option.isSome_iff_exists.1 h3
    refine ⟨gk, ?_⟩
    simp [State.contClass, h1, hg]
  · simp [State.contClass, h2]

/-- One of two threads ends; the last thread of a group ends. -/
theorem test_meets_ExitEndsThreads :
    let k : Cursor := { benchCursor with full := 1, active := 1 }
    let g : Group := { lanes := [(0, {}), (1, { exited := true })] }
    Issuing (benchIssue benchGroup k) k benchGroup ∧ Issuing (benchIssue g k) k g ∧ benchGroup.trapEntry = none ∧
      benchGroup.idle = false ∧ (∀ l t, benchGroup.lanes.get? l = some t → t.home = none) ∧
      (∃ t, benchGroup.lanes.get? 1 = some t ∧ t.exited = false ∧ 1 ∉ lanesOf k.active) ∧ g.lanes.sorted = true ∧
      (∀ l t, g.lanes.get? l = some t → t.exited = true ∨ l ∈ lanesOf k.active) ∧ (benchIssue g k).hasConts 0 = false := by
  have one (l : Nat) (h : l ∈ lanesOf 1#32) : l = 0 := by revert l; decide
  refine ⟨issuing_bench rfl rfl (by decide) (by decide) fun l hl => ?_,
    issuing_bench rfl rfl (by decide) (by decide) fun l hl => ?_, by decide, rfl, lanes_all (by decide), ⟨_, rfl, rfl, by decide⟩,
    by decide, lanes_all (by decide), by decide +kernel⟩
  · rw [one l hl]; exact ⟨_, rfl, rfl⟩
  · rw [one l hl]; exact ⟨_, rfl, rfl⟩

/-! ## Hypotheses met: memory -/

/-- A context whose core holds one run of 16 pages with every permission in its TLB. -/
def benchMem (g : Group) : State :=
  { benchIssue g benchCursor with cores := [(0, { tlb := [⟨0, 0, 16, BitVec.ofNat 64 (15 * 2 ^ 55 + 0x3F)⟩] })] }

/-- A memory instruction on a space. -/
def benchAcc (space : Space) (size : Size) (ord : Ord) (sco : Scope) (d a b : Operand) : MemF :=
  ⟨openHead, space, size, ord, sco, .natural, 0, d, a, b, 0, none⟩

/-- A group whose lanes hold two addresses in `w0` and `w1`. -/
def addrGroup (x y : Word) : Group :=
  { lanes := [(0, { stack := [(0, x)] }), (1, { tid := 1, stack := [(0, y)] })] }

/-- The last bytes in bounds, the first out of bounds, a misaligned address, and addresses of `.gl` around 2^57. -/
theorem test_meets_AddressChecks :
    let s := benchMem benchGroup
    let at' (p : Space) (a : Nat) : Checked := (s.check 0 ⟨0, 0, p, a, 4, .read, 1⟩).2
    (s.teamOf (s.group 0)).isSome = true ∧ (s.pktOf (s.group 0)).isSome = true ∧
      at' .ln 252 = .ok (1024 + 252) (0, 0) 0 ∧ at' .ln 256 = .trap 6 (detailM 256 0 1 4 4) ∧
      at' .sp 1020 = .ok 1020 (0, 0) 0 ∧ at' .sp 1024 = .trap 6 (detailM 1024 0 1 4 1) ∧
      at' .ks 1020 = .ok 1020 (0, 0) 0 ∧ at' .ks 0x80000 = .trap 6 (detailM 0x80000 0 1 4 2) ∧
      at' .xs 0 = .trap 6 (detailM 0 0 1 4 3) ∧ at' .sp 2 = .trap 5 (detailM 2 0 1 4 1) ∧
      at' .gl (2 ^ 57) = .trap 3 (detailM (2 ^ 57) 4 1 4 0) ∧
      at' .gl 0xFFFFC = .ok 0xFFFFC (0, 16) (homeSlice 0xFFFFC (BitVec.ofNat 64 (15 * 2 ^ 55 + 0x3F))) ∧ at' .gl 0x100000 = .wait := by
  decide +kernel

/-- Where no strong access stands noted and none is in flight, an access meets no undefined byte. -/
theorem benchMem_clear (g : Group) (f : Flight) (tid : Nat) : (benchMem g).clearOf f tid := by
  intro q _
  have hc : (benchMem g).clashing { f with seq := q } tid = [] := by
    unfold State.clashing
    split
    · rfl
    · exact List.filter_eq_nil_iff.2 fun a h => by cases h
  have hh : ∀ p a x, (benchMem g).hazyFor p a x = false := fun _ _ _ => rfl
  unfold State.mixedBytes State.vague
  split
  · rfl
  · simp [hc, hh]

/-- A page without its write permission, and a walk that has begun for no page of another context. -/
theorem test_meets_AddressChecks_2 :
    let e : TlbEntry := ⟨0, 0, 16, BitVec.ofNat 64 0x37⟩
    leafAllows e.leaf .write = false ∧ leafAllows e.leaf .read = true ∧ e.covers 0 15 = true ∧ e.covers 0 16 = false ∧
      (benchMem benchGroup).remoteOf 0 0xFFFFC = none ∧ (benchMem benchGroup).walks = [] := by decide +kernel

/-- The hypotheses of a load or a store by two lanes, with the checks' answers `rs`. -/
def accessMet (f : MemF) (g : Group) (need : Need) (kind line : Nat) (wr near : Bool) (rs : List (Req × Checked)) : Bool :=
  let s := benchMem g
  let k := benchCursor
  decide ((s.checkAll k.gk (laneReqs g k f f.size.bytes need kind)).2 = some rs) &&
    ((guarded g f.h k).all fun l => !(s.thread k.gk l).tx.act && !s.threadHolds k.gk l wr) &&
    (rs.all fun rc => decide (rc.2.watched k.handler (s.thread k.gk rc.1.lane) rc.1 = rc.2) && !s.locHolds k.gk near wr rc.1 rc.2 &&
      decide ((s.thread k.gk rc.1.lane).tid < 65536) &&
      rs.all fun x => decide ((s.thread k.gk x.1.lane).tid ≠ (s.thread k.gk rc.1.lane).tid ∨ x.1.lane = rc.1.lane)) &&
    s.strongs.sorted && s.rels.sorted && s.hazy.sorted &&
    s.withinCap k.gk && s.hasRequests (coreOf k.gk) (requestCount line (if wr then rs else s.loadMisses k f 0 rs)) &&
    !s.lendHolds k.gk (guarded g f.h k)

/-- A load of the last word in bounds of `.ln`, one in `.sp`, one in `.gl` that misses the L1, and a flagged one of a
page that is not resident. -/
theorem test_meets_VectorLoads :
    let g := addrGroup 252 248
    let f (p : Space) := benchAcc p .s32 .plain .none (.win 4) (.win 0) .zero
    accessMet (f .ln) g .read 1 64 false true
        [(⟨0, 0, .ln, 252, 4, .read, 1⟩, .ok (1024 + 252) (0, 0) 0), (⟨1, 1, .ln, 248, 4, .read, 1⟩, .ok (1280 + 248) (0, 0) 0)] = true ∧
      (benchMem g).poisoned .pad (1024 + 252) 4 = false ∧
      accessMet (f .sp) g .read 1 64 false true
        [(⟨0, 0, .sp, 252, 4, .read, 1⟩, .ok 252 (0, 0) 0), (⟨1, 1, .sp, 248, 4, .read, 1⟩, .ok 248 (0, 0) 0)] = true ∧
      accessMet (f .gl) g .read 1 64 false false
        [(⟨0, 0, .gl, 252, 4, .read, 1⟩, .ok 252 (0, 16) (homeSlice 252 (BitVec.ofNat 64 (15 * 2 ^ 55 + 0x3F)))),
         (⟨1, 1, .gl, 248, 4, .read, 1⟩, .ok 248 (0, 16) (homeSlice 248 (BitVec.ofNat 64 (15 * 2 ^ 55 + 0x3F))))] = true ∧
      (isStrong (f .gl) = false ∧ ((benchMem g).core 0).l1Sector 252 = none ∧
        (benchMem g).l1Hits ((benchMem g).loadFlight benchCursor (f .gl) 0 0 ⟨0, 0, .gl, 252, 4, .read, 1⟩
          (.ok 252 (0, 16) (homeSlice 252 (BitVec.ofNat 64 (15 * 2 ^ 55 + 0x3F))))) = false) ∧ (7 ≠ 0 ∧ 7 < 8) := by decide +kernel

/-- Two lanes that store to one word, at once in `.sp` and in flight in `.ks`; a release in `.gl`. -/
theorem test_meets_VectorStores :
    let g := addrGroup 16 16
    let f (p : Space) (o : Ord) (c : Scope) := benchAcc p .s32 o c .zero (.win 0) (.win 1)
    let leaf := BitVec.ofNat 64 (15 * 2 ^ 55 + 0x3F)
    accessMet (f .sp .plain .none) g .write 2 128 true true
        [(⟨0, 0, .sp, 16, 4, .write, 2⟩, .ok 16 (0, 0) 0), (⟨1, 1, .sp, 16, 4, .write, 2⟩, .ok 16 (0, 0) 0)] = true ∧
      accessMet (f .ks .plain .none) g .write 2 128 true false
        [(⟨0, 0, .ks, 16, 4, .write, 2⟩, .ok 16 (0, 0) 0), (⟨1, 1, .ks, 16, 4, .write, 2⟩, .ok 16 (0, 0) 0)] = true ∧
      accessMet (f .gl .rel .device) g .write 2 128 true false
        [(⟨0, 0, .gl, 16, 4, .write, 2⟩, .ok 16 (0, 16) (homeSlice 16 leaf)),
         (⟨1, 1, .gl, 16, 4, .write, 2⟩, .ok 16 (0, 16) (homeSlice 16 leaf))] = true ∧
      storeHeld (f .gl .rel .device) none = true ∧ storeHeld (f .sp .plain .none) none = false := by decide +kernel

/-- The group's accesses: guard held and failed, `.sp` and `.gl`. -/
theorem test_meets_ScalarAccesses :
    let g := { benchGroup with scal := [(6, 16)] }
    let s := benchMem g
    let f (p : Space) := benchAcc p .s32 .plain .none (.scal 8) (.scal 6) .zero
    let shut : MemF := { f .sp with h := ⟨false, 1, false⟩ }
    Issuing (benchIssue g benchCursor) benchCursor g ∧ guardG g shut.h benchCursor = false ∧
      guardG g openHead benchCursor = true ∧ (∀ l ∈ lanesOf benchCursor.active, (s.thread 0 l).tx.act = false) ∧
      s.withinCap 0 = true ∧ s.hasRequests 0 1 = true ∧ (∀ l ∈ lanesOf benchCursor.active, s.threadHolds 0 l true = false) ∧
      (∀ p ∈ [Space.sp, .gl], s.watchAll benchCursor (groupReq g benchCursor (f p) 4 .read 1) = []) ∧
      (s.check 0 (groupReq g benchCursor (f .sp) 4 .read 1)).2 = .ok 16 (0, 0) 0 ∧
      s.locHolds 0 true false (groupReq g benchCursor (f .sp) 4 .read 1) (.ok 16 (0, 0) 0) = false ∧
      s.poisoned .pad 16 4 = false ∧ s.lendHolds 0 (lanesOf benchCursor.active) = false ∧
      s.clearOf (s.groupLoadFlight benchCursor (f .sp) (groupReq g benchCursor (f .sp) 4 .read 1) (.ok 16 (0, 0) 0))
        (groupTid 0) ∧ s.strongs.sorted = true ∧ s.rels.sorted = true ∧ s.hazy.sorted = true := by
  refine ⟨issuing_two rfl rfl rfl, ?_⟩
  simp only [benchMem_clear, true_and]
  decide +kernel

/-- A prefetch and a page request by two lanes; a range of `cdem` that ends with its page. -/
theorem test_meets_Prefetches :
    let g := { addrGroup 252 0x100000 with scal := [(6, 0xFF80), (8, 0x80)] }
    let s := benchMem g
    let f := benchAcc .gl .s8 .plain .none .zero (.win 0) .zero
    let fd := benchAcc .gl .s8 .plain .none .zero (.scal 6) (.scal 8)
    ((s.checkAll 0 (laneReqs (addrGroup 252 248) benchCursor f 1 .read 1)).2.isSome = true ∧ s.hasRequests 0 2 = true) ∧
      (s.checkAll 0 (laneReqs g benchCursor f 1 .read 1)).2 = none ∧ groupAddr g fd % 65536 + groupVal g .b32 1 fd.b ≤ 65536 ∧
      0 < groupVal g .b32 1 fd.b ∧
      (match s.xlatNow 0 0 .read with | .ok pa _ => decide (pa = 0) | _ => false) = true ∧
      groupVal benchGroup .b32 1 fd.b = 0 ∧ s.demoteHolds 0 0 (groupAddr g fd) (groupVal g .b32 1 fd.b) = false ∧
      s.remoteOf 0 (groupAddr g fd / 65536 * 65536) = none ∧
      (match (s.lookupNow 0 0 (groupAddr g fd / 65536)).2 with
        | some e => (match e.check (groupAddr g fd / 65536 * 65536) .read with | .ok .. => true | _ => false)
        | none => false) = true := by decide +kernel

/-- No lane waits for a page request that is still to come. -/
theorem test_meets_Prefetches_2 : ∀ n, (benchMem benchGroup).wakeAll (.pgreq n) = benchMem benchGroup := fun _ => rfl

/-- A walk of the group that failed, and a page that no walk serves. -/
theorem test_meets_AddressChecks_3 :
    let w : Walk := { ck := 0, page := 16, core := 0, isc := 0, gks := [0], result := some (.fault 3 2) }
    let s : State := { benchMem benchGroup with walks := [(0, w)] }
    ((s.check 0 ⟨0, 0, .gl, 0x100000, 4, .read, 1⟩).2 = .trap 3 (detailM 0x100000 2 1 4 0)) ∧
      s.walkersBusy 0 < 32 ∧ s.joins w 0 17 = false := by decide +kernel

/-- Two lanes on one location, and on a poisoned one without a destination. -/
theorem test_meets_Atomics :
    let g := addrGroup 16 16
    let f := benchAcc .sp .s64 .rlx .core (.win 4) (.win 0) (.win 6)
    accessMet f g .both 3 1 false false
      [(⟨0, 0, .sp, 16, 8, .both, 3⟩, .ok 16 (0, 0) 0), (⟨1, 1, .sp, 16, 8, .both, 3⟩, .ok 16 (0, 0) 0)] = true ∧
      (({ benchMem g with scratchPoison := [4] } : State).poisoned .pad 16 8 = true) := by decide +kernel

/-! ## Hypotheses met: fences, transactions, barriers, rendezvous -/

/-- A lane in a transaction that started at clock 0. -/
def txThread : Thread := { tx := { act := true, tgt := 9, rset := [(4, 0)], wset := [(16, 7)] } }

theorem test_meets_Fences :
    let g : Group := { lanes := [(0, { strongRead := some 1 }), (1, txThread)] }
    let s := benchIssue g benchCursor
    Issuing s benchCursor g ∧ guardG g openHead benchCursor = true ∧ guardG g ⟨false, 1, false⟩ benchCursor = false ∧
      (∀ l ∈ guarded g openHead benchCursor, ∀ e ∈ s.flights, ¬(e.2.tx = true ∧ e.2.team = g.team ∧ e.2.tid = (s.thread 0 l).tid)) ∧
      (∀ e ∈ g.lanes, ∀ d, e.2.wait ≠ .commit d) ∧
      (∀ l ∈ guarded g openHead benchCursor, s.threadHolds 0 l true = false) ∧
      Ord.ofCode ((0x94 : Word).toNat / 32 % 8) = .ar ∧ (Scope.ofCode ((0x94 : Word).toNat / 4 % 8)).wide = true := by
  refine ⟨issuing_two rfl rfl rfl, by decide +kernel, by decide +kernel, by decide +kernel, fun e he d => ?_, by decide +kernel,
    by decide, by decide⟩
  rcases List.mem_cons.1 he with rfl | he
  · exact fun h => by cases h
  · rw [List.mem_singleton.1 he]; exact fun h => by cases h

/-- A lane at its commit whose recorded word still holds its value, and one whose word has changed. -/
theorem test_meets_Commit :
    let u : Thread := { txThread with wait := .commit 96 }
    let g : Group := { lanes := [(0, u)] }
    let s := benchRest g
    let s' : State := { s with mem := s.mem.write 0 16 1 }
    s.groups.get? 0 = some g ∧ g.lanes.get? 0 = some u ∧ committing g = [(0, 96, u)] ∧ u.tx.wset.sorted = true ∧
      s.flights = [] ∧ s.owedDone 0 false = true ∧ s.readBefore (committing g) = false ∧ s.validates 0 u = true ∧ s'.validates 0 u = false ∧
        s.tokens = [] := by
  decide +kernel

/-- Two lanes whose write sets share a word; a transaction at its limit; a token requested by a thread that lives and by
one that has exited. -/
theorem test_meets_Commit_2 :
    let u : Thread := { txThread with wait := .commit 0 }
    let v : Thread := { txThread with tid := 1, wait := .commit 95 }
    let g : Group := { lanes := [(0, u), (1, v)] }
    let s : State := { benchRest g with tokens := [(0, [(0, 1)])], ctxs := [(0, { ctime := 65536, en := true })] }
    let gone : State := benchRest { lanes := [(0, { exited := true })] }
    committing g = [(0, 0, u), (1, 95, v)] ∧ u.tx.tok = false ∧ 4 ∈ u.tx.writeWords ∧ 4 ∈ v.tx.readWords ++ v.tx.writeWords ∧
      65536 ≤ ((s.ctx (s.ckOf g)).ctime - u.tx.start).toNat ∧ s.tokens.get? 0 = some [(0, 1)] ∧
      s.findThread 0 1 = some (0, 1) ∧ v.exited = false ∧ gone.findThread 0 0 = some (0, 0) := by
  decide +kernel

/-- A barrier object for two arrivals at offset 8, on which both lanes arrive without a mask. -/
def barState (g : Group) : State :=
  { benchIssue g benchCursor with
    scratch := (place 8 8 ({ phase := false, bc := false, posted := false, err := false, expa := 2, arrc := 2, bytes := 0 } : BarObj).word).foldl
      (fun m e => m.write 0 e.1 e.2) [] }

theorem test_meets_BarArrivals :
    let g := { benchGroup with scal := [(4, 8)] }
    let s := barState g
    let off := groupVal g .b32 1 (.scal 4)
    (s.teamOf g).isSome = true ∧ off = 8 ∧ (s.barObj 0 8).arrc = 2 ∧ (guarded g openHead benchCursor).length = 2 ∧
      s.barTrap 0 off = none ∧ s.padBusy 0 8 8 = false ∧ g.collecting off = [] ∧
      guarded g ⟨false, 1, false⟩ benchCursor = [] ∧ guardG g ⟨false, 1, false⟩ benchCursor = false := by
  decide +kernel

/-- Lanes 0 and 1 with the mask 7, whose lane 2 has not come; and with the mask 3, which is theirs. -/
theorem test_meets_BarMasks :
    let k := benchCursor
    let v (t : Thread) (m : Word) := BitVec.ofNat 32 (k.val benchGroup t .b32 1 (.imm m))
    (∀ e ∈ benchGroup.lanes, v e.2 7 = 7 ∧ bitOf (7 : Word) e.1 = true ∧ v e.2 3 = 3) ∧
      (2 ∈ lanesOf 7#32 ∧ 2 ∉ guarded benchGroup openHead k ∧
        (benchIssue { lanes := [(0, {}), (1, { tid := 1 }), (2, { tid := 2 })] } k).gone 0 2 = false) ∧
      ∀ l ∈ lanesOf 3#32, l ∈ guarded benchGroup openHead k := by
  decide +kernel

/-- A slot of the team's barrier unit, and the grid slot of a co-resident grid. -/
theorem test_meets_BarSlots :
    let s := benchIssue benchGroup benchCursor
    let s' : State := { s with grids := s.grids.modify 0 fun x => { x with gslot := some (7, 4095) } }
    let a := groupVal benchGroup .b32 1 (.imm 0x40000000)
    s.barSlots.get? (4096 * 0 + 0) = some { owner := 0, isGrid := false } ∧ s.owedDone 0 false = true ∧
      benchGroup.collecting (barTeam 0) = [] ∧ benchGroup.collecting barGrid = [] ∧
      ((s'.teamOf benchGroup).bind fun t => (s'.gridOf t).map (·.gslot)) = some (some (7, 4095)) ∧
      a = 0 + 2 ^ 16 * 16384 ∧ ((s.teamOf benchGroup).map fun t => t.bars[0]?) = some (some 0) := by
  decide +kernel

/-- An object that is complete and one that waits for bytes; a slot with all its arrivals and one without. -/
theorem test_meets_BarPhases :
    let s := benchRest benchGroup
    let b : BarSlot := { owner := 0, isGrid := false, mode := some (some 2), arrived := 2 }
    let b' : BarSlot := { b with arrived := 1 }
    s.tablesSorted ∧ ((s.barObj 0 8).arrc = 0 ∧ (s.barObj 0 8).bytes = 0 ∧ (s.barObj 0 8).bc = false) ∧
      (b.mode ≠ none ∧ b.broken = none ∧ s.expected b ≤ b.arrived) ∧
      ¬(b'.mode ≠ none ∧ b'.broken = none ∧ s.expected b' ≤ b'.arrived) := by
  refine ⟨⟨by decide +kernel, by decide +kernel, fun gk g hg => ?_⟩, by decide +kernel, by decide +kernel, by decide +kernel⟩
  have h : ∀ e ∈ (benchRest benchGroup).groups, e.2.lanes.sorted = true := by decide +kernel
  exact h _ (Tbl.mem_of_get? hg)

/-- A group that may open a rendezvous, and groups that fail each condition of R379 in turn. -/
theorem test_meets_Rendezvous :
    let s := benchIssue benchGroup benchCursor
    (match s.teamOf benchGroup with
      | some tm => decide (regroupCause benchGroup tm benchCursor false 0 = none) && tm.rdvs.isEmpty
      | none => false) = true ∧
      (∀ e ∈ benchGroup.lanes, e.2.pend = []) ∧
      (∀ l ∈ lanesOf benchCursor.active, benchGroup.usePoison false l (0, 2, 1) = none) ∧
      ({ benchCursor with handler := true } : Cursor).handler = true ∧ ({ benchGroup with isCont := true } : Group).isCont = true ∧
      ({ benchGroup with joins := [.join 0 3 9 0] } : Group).joins ≠ [] := by
  decide +kernel

/-- A rendezvous that joins an open one of the same count. -/
def rdvTeam (r : Rdv) (s : State) : State := { s with teams := s.teams.modify 0 fun t => { t with rdvs := [r] } }

/-- Rendezvous whose domain has arrived, whose time-out has come, that is moving, and that goes home. -/
theorem test_meets_RendezvousCompletion :
    let r : Rdv := ⟨0, false, 0x3F0, 0, [0], [(0, 5), (1, 5)], 0, 4096, 4096, false, false⟩
    let s := rdvTeam r (benchRest benchGroup)
    let m : Rdv := { r with moving := true }
    let h : Rdv := { m with home := true }
    let s' := rdvTeam h (benchRest benchGroup)
    ((s.teams.get? 0).map fun t => t.rdvs.filter fun x => x.core = 0) = some [r] ∧ r.limit ≠ 0 ∧ r.limit ≤ r.timer ∧
      (∀ e ∈ s.groups, e.2.team = 0 → coreOf e.1 = 0 → slotOf e.1 ∈ r.arrived) ∧ s.groups.sorted = true ∧ s.teams.sorted = true ∧
      (s.rdvThreads m).length = 2 ∧ (s.groups.get? 0).isSome = true ∧ ((s'.rdvThreads h).map fun e => e.2.tid).Nodup ∧
      benchGroup.gid.toNat = 1 / 32 ∧ (∀ e ∈ s'.rdvThreads h, s'.homeFree 0 h e.2.tid = true) := by
  decide +kernel

/-- A thread whose home slot no group holds: the core's first free slot is 1. -/
theorem test_meets_RendezvousCompletion_2 :
    let r : Rdv := ⟨0, true, 0x3F0, 0, [0], [(32, 5)], 0, 0, 0, true, false⟩
    let s := rdvTeam r (benchRest { lanes := [(0, { tid := 32, wait := .regroup })] })
    s.missingHomes 0 r = [1] ∧ s.homeTaken 0 r 1 = false ∧ (s.freeSlots 0).head? = some 1 ∧ s.groups.sorted = true ∧
      ((s.teams.get? 0).bind s.gridOf).isSome = true := by
  decide +kernel

/-! ## Hypotheses met: what ends in flight -/

/-- An access in flight of thread 0 of group 0. -/
def benchFlight (kind : FlightKind) (space : Space) (loc size : Nat) : Flight :=
  { kind := kind, core := 0, gk := 0, team := 0, tid := 0, ck := 0, space := space, loc := loc, size := size, va := loc,
    strong := false, scope := .none, acq := false, rel := false, promote := false, tx := false, remote := none, run := (0, 16),
    slice := 0 }

/-- The access `f` alone is in flight, and lane 0 waits on it. -/
def inFlight (f : Flight) : State :=
  { benchRest { lanes := [(0, { wait := .window 0, pend := [95] })] } with flights := [(0, f)] }

/-- The premises that every access in flight shares. -/
def flightMet (s : State) (f : Flight) : Bool :=
  decide (s.flights.get? 0 = some f) && f.remote.isNone && !f.tx && decide (s.mates 0 f = [0]) && s.flightReady 0 &&
    !(s.ctx f.ck).ovchk && (s.mixedBytes f f.tid).isEmpty && decide (s.findThread f.team f.tid = some (0, 0)) && (s.groups.get? 0).isSome &&
    (((s.groups.get? 0).bind fun g => g.lanes.get? 0).isSome) && s.groups.sorted && s.flights.sorted &&
    s.groups.all fun e => e.2.lanes.sorted

/-- A load of four registers from the last window register on, a store and a release, atomics of both sizes, a spill and a
fill; a poisoned word of the scratchpad. -/
theorem test_meets_AccessesEnd :
    let st (p : Space) : Flight := benchFlight (.store [(16, 1), (17, 2)]) p 16 2
    let held : Flight := { st .gl with rel := true, scope := .device }
    let amo (d size v : Nat) : Flight := benchFlight (.atomic 0 .natural [(0, 0, d, v, 0)]) .sp 16 size
    (∀ f ∈ [benchFlight (.load 95 4 .s64 7 7) .gl 16 16, benchFlight (.load 96 1 .i8 0 7) .sp 16 1, st .sp, st .gl, held,
        amo 95 8 (2 ^ 64 - 1), amo 96 4 (2 ^ 32 - 1), benchFlight (.spill [(128, 1)] false) .gl 128 128,
        benchFlight .fill .gl 128 128], flightMet (inFlight f) f = true) ∧
      (st .gl).heldRelease = false ∧ held.heldRelease = true ∧ Tbl.sorted ([(16, 1), (17, 2)] : Tbl Byte) = true ∧
      ({ inFlight (amo 95 8 0) with scratchPoison := [4] } : State).poisoned .pad 16 4 = true ∧
      ∀ p ∈ [Place.mem, .pad, .chip], (inFlight (amo 95 8 0)).poisoned p 16 16 = false := by
  decide +kernel

/-- A walk for group 0 that finds the run of the bench's page table, one that finds no leaf, one begun before a shoot-down;
a group whose counter names a line that is not in the instruction cache. -/
theorem test_meets_WalksAndFetches :
    let w (pg : Nat) : Walk := ⟨0, pg, 0, 0, [0], none⟩
    let s : State := { benchRest benchGroup with walks := [(0, w 15), (1, w 16), (2, { w 0 with isc := 1 })], icache := [] }
    (s.walks.get? 0 = some (w 15) ∧ (w 15).result = none ∧ (w 15).isc = (s.ctx 0).isc ∧ (1 : DWord) ≠ (s.ctx 0).isc) ∧
      (match s.walk 0 (15 * 65536) with | .ok _ => true | _ => false) = true ∧
      (match s.walk 0 (16 * 65536) with | .ok _ => false | _ => true) = true ∧ (w 16).gks ≠ [] ∧
      (s.pktOf benchGroup).isSome = true ∧ benchGroup.pick true = none ∧ benchGroup.pick false = some (0, [0, 1]) ∧
      (∀ x ∈ s.icache, x.pair ≠ 0) := by
  decide +kernel

/-! ## Hypotheses met: matrix queue and residencies -/

/-- A tile map at offset 0. -/
def benchMap (ty : Ty) (rows cols stride : Nat) : QWord :=
  BitVec.ofNat 128 (ty.code * 2 ^ 32 + rows * 2 ^ 48 + cols * 2 ^ 56 + stride * 2 ^ 64)

/-- An operation at the head of a queue. -/
def benchMatOp (id : Nat) (kind : MatKind) : MatOp :=
  { id := id, gk := 0, team := 0, tile := 15, tile2 := 0, ty := .i8, kind := kind, foot := 0, res := 0, after := [], done := false,
    poisoned := false, leader := 0, pair := false }

/-- A matrix instruction of type `i8`. -/
def benchMat (d a b : Operand) : MatF := ⟨openHead, .i8, .none, .rn, 0, 0, d, a, b⟩

/-- A group with a map of 16 rows that fills the team's scratch in `tm0`. -/
def mapGroup : Group :=
  { benchGroup with tm := [(0, benchMap .i8 16 64 64)] }

/-- The largest map that passes the checks and one of 65 rows; the map read back. -/
theorem test_meets_TileMaps :
    let g (rows : Nat) : Group := { benchGroup with scal :=
      [(4, 0), (5, BitVec.ofNat 32 (Ty.f32.code + rows * 2 ^ 16 + 64 * 2 ^ 24)), (6, 256)] }
    let v (rows : Nat) : QWord := BitVec.ofNat 128 (groupVal (g rows) .b32 4 (.scal 4))
    guardG (g 64) openHead benchCursor = true ∧ v 64 = benchMap .f32 64 64 256 ∧ tmCheck (v 64) = none ∧ tmCheck (v 65) = some 5 ∧
      (benchMat (.tmap 15) (.scal 4) .zero).d = .tmap 15 ∧ (benchMat (.scal 4) (.tmap 15) .zero).a = .tmap 15 := by
  decide +kernel

/-- A weight residency of one slot, and its handle. -/
def benchRes : Res :=
  { team := 0, core := 0, pair := false, serial := 1, first := 0, ns := 0, ty := .i8, et := .none, pin := false, present := true,
    used := 0, blocks := [] }

/-- A multiply from maps and one from a residency, into a queue with one place and a footprint table with one; a check that
fails; a pair form on two cores; with and without an operation before an `mwait`. -/
theorem test_meets_MatrixInstructions :
    let g : Group := { mapGroup with scal := [(4, 2 ^ 20)] }
    let s : State := { benchIssue g benchCursor with
      residencies := [(9, benchRes)]
      cores := [(0, { mq := (List.range 15).map fun i => benchMatOp (i + 1) .zero,
                      foots := (List.range 31).map fun i => (i + 1, ⟨0, [], [], false, false⟩) })] }
    let s2 : State := { s with teams := s.teams.modify 0 fun t => { t with cores := [0, 1] } }
    let k := benchCursor
    let f := benchMat (.acc 3) (.tmap 0) (.tmap 0)
    let fm := benchMat (.acc 3) (.tmap 0) (.scal 4)
    guardG g openHead k = true ∧ (s.teamOf g).isSome = true ∧
      (match s.matCheck k f (mulPlan g f 0 false) with | .ok r => decide (r = 0) | _ => false) = true ∧
      (match s.matCheck k fm (mulPlan g fm 0 true) with | .ok r => decide (r = 9) | _ => false) = true ∧
      (match s.matCheck k { f with b := .tmap 1 } (mulPlan g { f with b := .tmap 1 } 0 false) with | .ok _ => false | _ => true) = true ∧
      (match s2.matCheck k { f with b := .tmap 0 } (mapPlan [mapOf g f.a 0] (some (mapOf g f.a 0))) with
        | .ok r => decide (r = 0) | _ => false) = true ∧
      (s.core 0).mq.length = 15 ∧ (s.core 0).foots.length = 31 ∧ s.bindHolds 0 false = false ∧ s2.bindHolds 0 true = false ∧
      s.slewHolds 0 = false ∧ s.hasOps 0 1 = true ∧ s.hasOps 0 0 = false := by
  decide +kernel

/-- Pair forms of two cores, whose team holds both. -/
theorem test_meets_MatrixInstructions_2 :
    let m := benchMap .i8 16 64 64
    let g : Group := { mapGroup with tm := [(0, m), (1, m), (2, m), (3, m)] }
    let s0 := benchIssue g benchCursor
    let s : State := { s0 with teams := s0.teams.modify 0 fun t => { t with cores := [0, 1] } }
    let f := benchMat (.acc 3) (.tmap 0) (.tmap 2)
    (match s.matCheck benchCursor f (mulPlan g f 1 false) with | .ok r => decide (r = 0) | _ => false) = true := by
  decide +kernel

/-- Operations that may execute, each kind on tile 15; one that is done; a queue with neither. -/
theorem test_meets_MatrixQueueRuns :
    let m := benchMap .i8 16 64 64
    let q (o : MatOp) : State := { benchRest { mapGroup with lanes := [(31, { wait := .mwait 4 })] } with cores := [(0, { mq := [o] })] }
    (∀ kd ∈ [MatKind.mul 0 m 0 0 m 0, .zero, .ld .rn m, .st .rn m, .row .rn .f32 63 [(31, 0, 95)]],
      (q (benchMatOp 4 kd)).opReady 0 = some (benchMatOp 4 kd) ∧ (q (benchMatOp 4 kd)).opDone 0 = none) ∧
      (q { benchMatOp 4 .zero with done := true }).opDone 0 = some { benchMatOp 4 .zero with done := true } ∧
      (q { benchMatOp 4 .zero with done := true }).opReady 0 = none ∧ tmRows m ≤ 64 ∧ tmCols m ≤ 64 ∧ tmRowBytes m ≤ tmStride m ∧
      (q (benchMatOp 4 .zero)).findThread 0 0 = some (0, 31) ∧ (q (benchMatOp 4 .zero)).hasOps 0 4 = true ∧
      (q (benchMatOp 5 .zero)).hasOps 0 4 = false := by
  decide +kernel

/-- A multiply's rows and columns: 16 rows of A, and B from maps. -/
theorem test_meets_MatrixQueueRuns_2 :
    let m := benchMap .i8 2 2 16
    let s := benchRest mapGroup
    (s.aRows 0 m).length = 2 ∧ (s.bSource (benchMatOp 4 .zero) 0 0 m).length ≤ 64 := by
  decide +kernel

/-- A residency's instructions: all 16 slots of the quota, one more, a handle that holds and one of another serial number. -/
theorem test_meets_Residencies :
    let g : Group := { benchGroup with scal := [(4, 2 ^ 20), (5, 64), (6, 2 ^ 21)] }
    let s := benchIssue g benchCursor
    let t : State := { s with residencies := [(9, benchRes)] }
    let full : State := { s with residencies := [(9, { benchRes with ns := 15 })] }
    let h (o : Operand) : Word := BitVec.ofNat 32 (groupVal g .b32 1 o)
    (s.teamOf g).isSome = true ∧ ((s.teamOf g).bind s.gridOf).isSome = true ∧ guardG g openHead benchCursor = true ∧
      15 + 1 + s.heldSlots 0 0 ≤ (s.fn 0).quota ∧ s.freeRun 0 benchPacket [0] (15 + 1) [] = some 0 ∧
      (full.fn 0).quota < full.heldSlots 0 0 + 0 + 1 ∧ t.handle 0 (h (.scal 4)) none 0 false = .ok 9 ∧
      t.handle 0 (h (.scal 6)) none 0 false = .bad 3 ∧ t.residencies.get? 9 = some benchRes ∧ t.resBusy benchRes.cores 9 = false ∧
      (groupVal g .b64 2 (.imm 32)) % 16 = 0 ∧ groupVal g .b64 2 (.scal 4) / 2 ^ 32 = 64 ∧ rowBytes .i8 .none 64 ≤ 64 := by
  decide +kernel

/-- The values of `rquota`: function 16 and 17, quotas 0, 16, 17 and the read. -/
theorem test_meets_Residencies_2 :
    let n (v : Word) : Nat := groupVal benchGroup .b32 1 (.imm v)
    n 16 ≤ 16 ∧ 16 < n 17 ∧ n 0xFFFFFFFF = 0xFFFFFFFF ∧ n 0 ≤ 16 ∧ 16 < n 17 ∧ n 17 ≠ 0xFFFFFFFF := by
  decide +kernel

/-- `rload` of a block by a map that is as wide as the scratch. -/
theorem test_meets_Residencies_3 :
    let m := benchMap .i8 64 64 64
    let g : Group := { benchGroup with tm := [(15, m)], scal := [(4, 2 ^ 20)] }
    let pk : Packet := { benchPacket with scratch := 4096 }
    let s0 := benchIssue g benchCursor
    let s : State := { s0 with residencies := [(9, benchRes)] }
    s.handle 0 (BitVec.ofNat 32 (groupVal g .b32 1 (.scal 4))) none 0 false = .ok 9 ∧ (s.core 0).foots.length < 32 ∧
      g.tileMap 15 = m ∧ tmRows m = 64 ∧ tmCols m = 64 ∧ tmTy m = benchRes.ty ∧ tmEt m = benchRes.et ∧
      ((s.teamOf g).map fun t => mapOutside t pk 0 m 64) = some none := by
  decide +kernel

/-- A fill that may read and one that waits on an access; an absent residency named by the next operation. -/
theorem test_meets_Fills :
    let x : Fill := ⟨9, 1, 31, .global 0 64, false, 0, 0, some 383, 7, [1], 0, [0], []⟩
    let s : State := { benchRest benchGroup with
      residencies := [(9, benchRes)], cores := [(0, { fills := [(3, x)] })], flights := [(0, benchFlight .fill .gl 0 64)] }
    let u : State := { s with flights := [] }
    let r : State := { s with
      residencies := [(9, { benchRes with present := false })], cores := [(0, { mq := [{ benchMatOp 4 .zero with res := 9 }] })] }
    (s.core 0).fills.get? 3 = some x ∧ s.groups.sorted = true ∧ s.fillReady x = false ∧ u.fillReady x = true ∧
      u.findThread 0 1 = some (0, 1) ∧ r.refillReady 0 9 = true ∧ s.refillReady 0 9 = false := by
  decide +kernel

/-! ## Hypotheses met: copies, sleeping, records, migrations -/

/-- A job card without a ring or a barrier. -/
def benchCard (ctl src dst nx : Nat) : List Byte :=
  bytesOf ctl 4 ++ bytesOf 0 4 ++ bytesOf src 8 ++ bytesOf dst 8 ++ bytesOf nx 4 ++ List.replicate 36 0

/-- CTL of a contiguous copy of words of 8 bytes (02 R48, R49). -/
def copyCtl (cr : Bool) (ssp dsp : Nat) : Nat := 1 + (if cr then 2 ^ 9 else 0) + 3 * 2 ^ 19 + ssp * 2 ^ 22 + dsp * 2 ^ 25

/-- Bytes in the scratchpad of core 0. -/
def padState (s : State) (a : Nat) (b : List Byte) : State :=
  { s with scratch := (placeList a b).foldl (fun m e => m.write 0 e.1 e.2) s.scratch }

/-- A valid card with one footprint entry left, one of a reserved kind, and a failed guard. -/
theorem test_meets_Copies :
    let g : Group := { benchGroup with scal := [(4, 64)] }
    let s : State := { padState (benchIssue g benchCursor) 64 (benchCard (copyCtl true 1 0) 1016 0 1) with
      cores := [(0, { foots := (List.range 31).map fun i => (i + 1, ⟨0, [], [], false, false⟩) })] }
    let s' := padState (benchIssue g benchCursor) 64 (benchCard 8 0 0 1)
    let valid (s : State) : Option Nat :=
      match s.teamOf g, s.pktOf g with
      | some tm, some p =>
        match s.validateCard 0 0 tm p (Card.of (s.bytes .pad 64 64)) with
        | .ok _ => some 0
        | .error st => some st.1
      | _, _ => none
    groupVal g .b32 1 (.scal 4) = 64 ∧ s.cardBusy 0 64 = false ∧ s.cardTrap 0 64 = none ∧ s.cardTrap 0 65 ≠ none ∧ (s.core 0).foots.length = 31 ∧ valid s = some 0 ∧
      s'.cardTrap 0 64 = none ∧ valid s' = some 2 ∧ guardG g openHead benchCursor = true ∧
      guardG g ⟨false, 1, false⟩ benchCursor = false := by
  decide +kernel

/-- A job of thread 0's team. -/
def benchJob (card : List Byte) : Job :=
  { core := 0, gk := 0, team := 0, ck := 0, card := card, cardOff := 64, rdh := 0, done := 0, counted := 0, status := none, detail := 0,
    promise := 9, foot := 0, after := [], waiting := false, stage := 0, savedW := [] }

/-- The present time and one clock later, with and without a job of the card. -/
theorem test_meets_Sleeping :
    let g : Group := { benchGroup with scal := [(4, 0), (6, 1), (8, 64)] }
    let s := benchIssue g benchCursor
    let busy : State := { s with jobs := [(0, benchJob (benchCard (copyCtl true 1 0) 0 0 1))], nextId := 1 }
    let now := (s.ctx (s.ckOf g)).ctime
    sleepPoison g benchCursor (.scal 4) = none ∧ sleepTime g benchCursor (.scal 4) ≤ now.toNat ∧
      now.toNat < sleepTime g benchCursor (.scal 6) % 2 ^ 64 ∧ groupVal g .b32 1 (.scal 8) = 64 ∧ s.openJobs 0 0 64 s.nextId = [] ∧
      busy.openJobs 0 0 64 busy.nextId ≠ [] := by
  decide +kernel

/-- Lanes whose sleep is over at this clock and at the next, checked and not. -/
theorem test_meets_Sleeping_2 :
    let g (w : LaneWait) : Group := { lanes := [(0, { wait := w })] }
    let s (w : LaneWait) := benchRest (g w)
    ((s (.sleep 0)).ctx 0).ctime = 0 ∧ (g (.sleep 0)).lanes.sorted = true ∧ (s (.sleep 0)).sleptChk 0 = [] ∧
      (s (.sleepChk 0 64 1)).sleptChk 0 = [(0, 64, 1)] ∧ (s (.sleepChk 1 64 1)).sleptChk 0 = [] ∧
      (s (.sleepChk 0 64 1)).openJobs 0 0 64 1 = [] := by
  decide +kernel

/-- A job of two words from the last of the scratch to `.gl` and back, one whose source does not translate, and jobs that
have delivered all. -/
theorem test_meets_Jobs :
    let j (b : List Byte) (n : Nat) : Job := { benchJob b with done := n }
    let s := benchRest benchGroup
    let out := benchCard (copyCtl false 1 0) 1008 (15 * 65536) 2
    let back := benchCard (copyCtl true 0 1) (15 * 65536) 1008 2
    let gone := benchCard (copyCtl true 0 1) (16 * 65536) 1008 2
    (∀ b ∈ [out, back, gone], 1 ≤ (Card.of b).kind ∧ (Card.of b).kind ≤ 3 ∧ (j b 1).status = none ∧ s.jobReady (j b 1) = true ∧
        (j b 1).done < (Card.of b).total ∧ (Card.of b).sb = false ∧ (Card.of b).total = 2) ∧
      ((Card.of out).ssp = 1 ∧ (Card.of out).dsp = 0 ∧ s.poisoned .pad 1016 8 = false) ∧
      ((Card.of back).ssp = 0 ∧ (Card.of back).dsp = 1 ∧ s.poisoned .mem (15 * 65536) 8 = false) ∧
      (match s.xlatNow 0 (15 * 65536) .read with | .ok pa _ => decide (pa = 15 * 65536) | _ => false) = true ∧
      (match s.xlatNow 0 (15 * 65536) .write with | .ok pa _ => decide (pa = 15 * 65536) | _ => false) = true ∧
      (match s.xlatNow 0 (16 * 65536) .read with | .fault .. => true | _ => false) = true ∧
      (Card.of out).cr = false ∧ (Card.of back).cr = true ∧ s.jobDone (j out 1) = false ∧ s.jobDone (j out 2) = true ∧
      ((s.teams.get? 0).bind s.gridOf).isSome = true := by
  decide +kernel

/-- A gather whose index is in its bound, is not, and is poisoned; a multicast to core 0 with a barrier object, a write outside
that object. -/
theorem test_meets_Jobs_2 :
    let card (ctl dst bound bar : Nat) : List Byte := bytesOf ctl 4 ++ bytesOf 0 4 ++ bytesOf 512 8 ++ bytesOf dst 8 ++ bytesOf 2 4 ++
      List.replicate 20 0 ++ bytesOf 256 8 ++ bytesOf bound 4 ++ bytesOf bar 4
    let gather (bound : Nat) : Job := benchJob (card (copyCtl false 1 1 + 3) 0 bound 0)
    let cast : Job := benchJob (card (copyCtl false 1 0 + 5 + 2 ^ 8 + 2 ^ 11) 128 0 8)
    let s := padState (benchRest benchGroup) 256 (bytesOf 3 4)
    let bad : State := { s with scratchPoison := [64] }
    let ready (s : State) (j : Job) : Bool := decide (j.status = none) && s.jobReady j && decide (j.done < (Card.of j.card).total)
    ((Card.of (gather 32).card).kind = 4 ∧ ready s (gather 32) = true ∧ ready bad (gather 31) = true ∧ s.load .pad 256 4 = 3 ∧
        s.poisoned .pad 256 4 = false ∧ bad.poisoned .pad 256 4 = true ∧ (Card.of (gather 31).card).bound < 3 * 8 + 8 ∧
        3 * 8 + 8 ≤ (Card.of (gather 32).card).bound) ∧
      ((Card.of cast.card).kind = 6 ∧ ready s cast = true ∧ (Card.of cast.card).sb = true ∧ (s.teams.get? 0).isSome = true ∧
        (Card.of cast.card).barOff = 8 ∧ s.poisoned .pad 512 8 = false ∧ ∀ q ∈ (Card.of cast.card).targets 0, q < 64) := by
  decide +kernel

/-- A ring of two entries in the scratch that is full at its last turn, and one that is empty. -/
theorem test_meets_HeldRecords :
    let h : HeldRecord := { inCore := some 0, ck := 0, ring := 0, bytes := List.replicate 32 7, job := none, grid := none, team := some 0 }
    let s (w : Nat) : State := { padState (benchRest benchGroup) 0 (bytesOf w 4 ++ bytesOf 0 4 ++ [1]) with heldRecords := [(5, h)] }
    (s 2).heldRecords.get? 5 = some h ∧ (s 2).mayWrite 5 h = true ∧
      ({ s 2 with heldRecords := [(4, h), (5, h)] } : State).mayWrite 5 h = false ∧ h.bytes.length = 32 ∧ (s 2).load .pad 0 4 = 2 ∧
      (s 0).load .pad 0 4 = 0 ∧ (s 0).load .pad 8 1 = 1 ∧ (s 0).poisoned .pad 0 32 = false ∧
      (∀ i < 23, (s 0).byte .pad (9 + i) = 0) ∧ (s 0).ringBounds (some 0) = (0, 1024) := by
  decide +kernel

/-- A migration of one page at each step: refused, accepted, waiting, copying, failing. -/
theorem test_meets_Migrations :
    let card (src : Nat) : List Byte := benchCard 7 src (20 * 65536) 1
    let j (src stage : Nat) : Job := { benchJob (card src) with stage := stage }
    let s := benchRest benchGroup
    let w : State := { s with ctxs := s.ctxs.modify 0 fun x => { x with shoots := [⟨0, 15, 1, false, false, []⟩] } }
    let last := 15 * 65536
    (Card.of (card last)).kind = 7 ∧ s.jobReady (j last 0) = true ∧ ({ s with flights := [(0, benchFlight .fill .gl 0 64)] } : State).jobReady { j last 0 with after := [0] } = false ∧
      s.migrationOk (j last 0) (Card.of (card last)) = true ∧
      s.migrationOk (j (16 * 65536) 0) (Card.of (card (16 * 65536))) = false ∧
      (∃ x ∈ (w.ctx 0).shoots, x.key = 0) ∧ (s.ctx 0).shoots = [] ∧ (j last 2).done < (Card.of (card last)).nx ∧
      (match s.xlatNow 0 last .read with | .ok pa _ => decide (pa + 65536 ≤ 20 * 65536) | _ => false) = true ∧
      s.memPoison = [] ∧ s.migrationPoison (j last 0) (Card.of (card last)) = none ∧
      ({ s with memPoison := [0x86000 / 128] } : State).migrationPoison (j last 0) (Card.of (card last)) = some last ∧ (match s.xlatNow 0 (16 * 65536) .read with | .fault .. => true | _ => false) = true := by
  decide +kernel

/-! ## Hypotheses met: launching and placing -/

/-- The die with logical number 0 runs. -/
def withDie (s : State) : State := { s with dies := [(0, { log := 0 })] }

/-- Bytes of memory from an address on. -/
def memState (s : State) (a : Nat) (b : List Byte) : State :=
  { s with mem := (placeList a b).foldl (fun m e => m.write 0 e.1 e.2) s.mem }

/-- A packet of one team of one thread on die 0. -/
def packetBytes : List Byte :=
  bytesOf 0x00010001 4 ++ bytesOf 0 4 ++ bytesOf benchCode 8 ++ bytesOf 1 4 ++ bytesOf 1 2 ++ bytesOf 1 2 ++ bytesOf 1 2 ++
    bytesOf 1 2 ++ bytesOf 1 2 ++ List.replicate 98 0

/-- A queue of two packets with one to read, one at its tail, and one whose packet does not translate. -/
theorem test_meets_PacketFetch :
    let q (page : Nat) (tail : Word) : Queue := { base := BitVec.ofNat 64 (65536 * page), size := 1, en := true, head := 1, tail := tail }
    let s (page : Nat) (tail : Word) : State :=
      { withDie (memState (benchRest benchGroup) (65536 * 15 + 128) packetBytes) with queues := [(0, q page tail)] }
    let go (s : State) : Bool := decide ((s.ctx 0).en = true ∧ (s.queue 0).en = true ∧ (s.queue 0).head ≠ (s.queue 0).tail ∧
      (s.queue 0).flt = false ∧ (s.queue 0).ovr = false ∧ s.baseDead = false)
    go (s 15 2) = true ∧ go (s 15 1) = false ∧
      (match (s 15 2).xlatNow 0 (65536 * 15 + 128) .read with | .ok pa _ => decide (pa = 65536 * 15 + 128) | _ => false) = true ∧
      (s 15 2).poisoned .mem (65536 * 15 + 128) 128 = false ∧
      ((s 15 2).modQueue 0 fun q => { q with head := q.head + 1 }).validate
        (Packet.parse ((s 15 2).bytes .mem (65536 * 15 + 128) 128)) 0 = 0 ∧
      (match (s 16 2).xlatNow 0 (65536 * 16 + 128) .read with | .fault .. => true | _ => false) = true := by
  decide +kernel

/-- A grid whose one condition holds and whose one does not; a grid that may be released and one behind another. -/
theorem test_meets_Release :
    let pk (v : DWord) : Packet := { benchPacket with hdr := 0x00010801, w0addr := 8, w0val := v }
    let g (v : DWord) : Grid := newGrid (pk v) 0 0 false 1 none
    let s : State := withDie (memState (benchRest benchGroup) 8 [5])
    let m : Grid := newGrid benchPacket 0 0 false 1 none
    let r : State := { s with grids := [(3, m), (4, m), (5, { m with dev := true })] }
    (g 5).condition = some (0, 8, 5) ∧ m.condition = none ∧ (5 : DWord).toNat ≤ s.load .mem 8 8 ∧ s.load .mem 8 8 < (6 : DWord).toNat ∧
      (match s.xlatNow 0 8 .read with | .ok pa _ => decide (pa = 8) | _ => false) = true ∧ s.poisoned .mem 8 8 = false ∧
      (pk 5).w0v = true ∧ (pk 5).w1v = false ∧ r.releasable 3 m = true ∧ r.releasable 4 m = false ∧
      r.releasable 5 { m with dev := true } = true ∧
      (r.modCtx 0 fun c => { c with devq := dropFrom c.devq 5 }).validateFit benchPacket 0 = 0 := by
  decide +kernel

/-- A packet at the last aligned place of the scratch, a misaligned one, one that ends outside and a poisoned one; thread 0 in
the group and not. -/
theorem test_meets_Launch :
    let g : Group := { benchGroup with scal := [(4, 896)] }
    let s := padState (benchIssue g benchCursor) 896 packetBytes
    let inside (off : Nat) : Option Bool := (s.teamOf g).map fun t => inScratch t benchPacket off 128
    groupVal g .b32 1 (.scal 4) = 896 ∧ s.padBusy 0 896 128 = false ∧ inside 896 = some true ∧ inside 1024 = some false ∧
      ((s.teamOf g).bind s.gridOf).map (·.pkt) = some benchPacket ∧ s.poisoned .pad 896 128 = false ∧
      ({ s with scratchPoison := [224] } : State).poisoned .pad 896 128 = true ∧ (Packet.parse packetBytes).validate12 = 0 ∧
      (∃ e ∈ g.lanes, e.2.tid = 0 ∧ e.2.exited = false) ∧ (∀ e ∈ [(0, ({ tid := 32 } : Thread))], e.2.tid ≠ 0) := by
  decide +kernel

/-- A launch whose group has a store in flight, one that finds the queue full and one that may go, accepted and rejected, and
one that still waits for room. -/
theorem test_meets_Launch_2 :
    let x (st : Option Nat) (after : List Nat) : Launch :=
      { id := 7, pkt := packetBytes, d := some 8, status := st, after := after, seen := [] }
    let s : State := { benchRest { benchGroup with launches := [x (some 0) [3]] } with flights := [(3, benchFlight (.store [(16, 1)]) .gl 16 1)] }
    let full : State := { s with ctxs := s.ctxs.modify 0 fun c => { c with devq := List.replicate 256 0 } }
    (∃ i ∈ (x (some 0) [3]).after, (s.flights.get? i).isSome = true) ∧
      ¬(∃ i ∈ (x (some 0) [4]).after, (s.flights.get? i).isSome = true) ∧
      256 ≤ (full.ctx 0).devq.length + full.onTheWay 0 ∧ (s.ctx 0).devq.length + s.onTheWay 0 < 256 ∧ (x none []).status = none ∧
      (x (some 9) []).status = some 9 ∧ benchGroup.hasThread = true ∧
      (s.groups.get? 0).map (fun g => g.launches) = some [x (some 0) [3]] ∧ ((s.teamOf benchGroup).bind s.gridOf).isSome = true := by
  decide +kernel


/-- One claimable grid is the only candidate. -/
theorem candidates_one {s : State} {k : Nat} {g : Grid} (hg : s.grids = [(k, g)]) (hc : s.claimable k g = true ∨ s.offered g = true) :
    s.candidates = [(k, g)] := by simp [State.candidates, hg, hc]

/-- Without saved teams a dispatcher's next team of a grid is a held or a fresh one. -/
theorem nextTeam_held {s : State} (hs : s.savedTeams = []) {k : Nat} {g : Grid} {d i : Nat} {l : List Nat}
    (hh : (g.held.filter fun e => e.1 = d).map (·.2) = i :: l) : s.nextTeam k g d = some (.held i) := by
  simp only [State.nextTeam, State.savedOf, hs, List.filter_nil, List.mergeSort_nil, hh]

theorem nextTeam_fresh {s : State} (hs : s.savedTeams = []) {k : Nat} {g : Grid} {d : Nat}
    (hh : (g.held.filter fun e => e.1 = d).map (·.2) = []) (hu : s.unstarted k d = false) : s.nextTeam k g d =
      if !g.pkt.cres && g.pkt.dies.testBit d && !g.dropped.contains d then some (.claim g.counter) else none := by
  simp only [State.nextTeam, State.savedOf, hs, List.filter_nil, List.mergeSort_nil, hh, hu, Bool.not_false, Bool.and_true]

/-- A grid without timers has none to stop. -/
theorem stopTimers_one {s : State} {k d : Nat} {g : Grid} (hg : s.grids = [(k, g)]) (ht : g.timers = []) :
    s.stopTimers d = s := by
  have h : (s.grids.map fun e =>
      if s.wholeOn e.1 e.2 d || s.unstarted e.1 d || (s.nextTeam e.1 e.2 d).any (fun n => !n.exhausted e.2) then e
      else (e.1, { e.2 with timers := e.2.timers.del d })) = s.grids := by
    have : ({ g with timers := g.timers.del d } : Grid) = g := by
      rw [ht, show Tbl.del ([] : Tbl Nat) d = [] from rfl, ← ht]
    rw [hg, List.map_cons, List.map_nil, this, ite_self]
  unfold State.stopTimers
  rw [h]

/-- The turn of a dispatcher with one grid whose next team fits. -/
theorem turned_fits {s : State} {d k : Nat} {g : Grid} {n : NextTeam} {cb : List Nat × Nat} (hd : s.dieThere d = true)
    (hg : s.grids = [(k, g)]) (hc : s.claimable k g = true ∨ s.offered g = true) (hp : g.pkt.cres = false) (hn : s.nextTeam k g d = some n)
    (ha : s.ageing = [])
    (hf : s.nextFit g d n = some cb) : s.turned d = ⟨[], some (k, n, cb.1, cb.2)⟩ := by
  simp [State.turned, hd, candidates_one hg hc, State.walkGrids, State.wholeOn, State.barred, ha, hp, hn, hf]

/-- The turn of a dispatcher with one grid whose next team does not fit. -/
theorem turned_misses {s : State} {d k : Nat} {g : Grid} {n : NextTeam} (hd : s.dieThere d = true) (hg : s.grids = [(k, g)])
    (hc : s.claimable k g = true ∨ s.offered g = true) (hp : g.pkt.cres = false) (hn : s.nextTeam k g d = some n) (ha : s.ageing = [])
    (hx : n.exhausted g = false)
    (hf : s.nextFit g d n = none) (hm : s.unfit g d n = true) : s.turned d = ⟨[k], none⟩ := by
  simp [State.turned, hd, candidates_one hg hc, State.walkGrids, State.wholeOn, State.barred, ha, State.missesOn, hp, hn, hf, hx, hm]

/-- A released grid of 12 teams of one thread. -/
def smallGrid : Grid :=
  { newGrid { benchPacket with teamx := 1, gridx := 12, bars := 0 } 0 0 false 1 none with stage := .released }

/-- The die with no team on it and one grid. -/
def placeState (g : Grid) : State :=
  { withDie (benchRest benchGroup) with grids := [(7, g)], teams := [], groups := [], barSlots := [], nextId := 40 }

/-- A saved team is the next one of its dispatcher where no index is held. -/
theorem nextTeam_saved {s : State} {k tk d : Nat} {g : Grid} {v : SavedTeam} (hs : s.savedTeams = [(tk, v)]) (hk : v.team.grid = k)
    (hd : v.team.d = d) (ht : s.teams = []) (hh : g.held = []) : s.nextTeam k g d = some (.saved tk v.team) := by
  simp [State.nextTeam, State.savedOf, hs, hk, hd, ht, hh]

/-- A grid whose next index is claimed. -/
theorem turned_claim {g : Grid} {c : Nat} (hc : (placeState g).claimable 7 g = true ∨ (placeState g).offered g = true)
    (hp : g.pkt.cres = false) (hh : (g.held.filter fun e => e.1 = 0).map (·.2) = [])
    (hn : (if !g.pkt.cres && g.pkt.dies.testBit 0 && !g.dropped.contains 0 then some (NextTeam.claim g.counter) else none) = some (.claim c))
    (hf : (placeState g).nextFit g 0 (.claim c) = some ([0], 0)) :
    (placeState g).turned 0 = ⟨[], some (7, .claim c, [0], 0)⟩ :=
  turned_fits (cb := ([0], 0)) rfl rfl hc hp ((nextTeam_fresh rfl hh rfl).trans hn) rfl hf

/-- A fresh grid whose next index is claimed, one whose counter is at its end and one with an index held. -/
theorem test_meets_Claims :
    (placeState smallGrid).turned 0 = ⟨[], some (7, .claim 0, [0], 0)⟩ ∧
      (placeState { smallGrid with counter := 12 }).turned 0 = ⟨[], some (7, .claim 12, [0], 0)⟩ ∧
      (placeState { smallGrid with counter := 12, held := [(0, 8)] }).turned 0 = ⟨[], some (7, .held 8, [0], 0)⟩ :=
  ⟨turned_claim (by decide +kernel) (by decide +kernel) (by decide +kernel) (by decide +kernel) (by decide +kernel),
   turned_claim (by decide +kernel) (by decide +kernel) (by decide +kernel) (by decide +kernel) (by decide +kernel),
   turned_fits (cb := ([0], 0)) rfl rfl (by decide +kernel) (by decide +kernel) (nextTeam_held (l := []) rfl (by decide +kernel)) rfl
     (by decide +kernel)⟩

/-- The state before a turn in which no timer runs and the grid fits. -/
theorem before_turn {g : Grid} {n : NextTeam} (ht : g.timers = [])
    (h : (placeState g).turned 0 = ⟨[], some (7, n, [0], 0)⟩) :
    let s1 := (placeState g).stopTimers 0
    let s2 := s1.startTimers 0 (s1.turned 0).misses
    (s1.turned 0).choice = some (7, n, [0], 0) ∧ s2.grids.get? 7 = some g := by
  intro s1 s2
  have h1 : s1 = placeState g := stopTimers_one (k := 7) rfl ht
  show (s1.turned 0).choice = _ ∧ (s1.startTimers 0 (s1.turned 0).misses).grids.get? 7 = _
  rw [h1, h]; exact ⟨rfl, rfl⟩

/-- The states before the turns of dispatchers that claim and that place a held team. -/
theorem test_meets_Placement : ∀ e ∈ [(smallGrid, NextTeam.claim 0), ({ smallGrid with counter := 12, held := [(0, 8)] }, .held 8)],
    let s1 := (placeState e.1).stopTimers 0
    let s2 := s1.startTimers 0 (s1.turned 0).misses
    (s1.turned 0).choice = some (7, e.2, [0], 0) ∧ s2.grids.get? 7 = some e.1 := by
  simp only [List.forall_mem_cons]
  exact ⟨before_turn rfl test_meets_Claims.1, before_turn rfl test_meets_Claims.2.2, fun _ h => nomatch h⟩

/-- A saved team of the grid, which its dispatcher may put on its old core. -/
theorem test_meets_Placement_2 :
    ∀ v : SavedTeam, v = ⟨{ newTeam 7 3 with cores := [0] }, [], [], [], [], [], [], [], 0, 0⟩ →
      let s : State := { placeState { smallGrid with counter := 16, dropped := [0] } with savedTeams := [(5, v)] }
      (s.turned 0).choice = some (7, .saved 5 v.team, [0], 0) := by
  intro v hv s
  have hn : s.nextTeam 7 { smallGrid with counter := 16, dropped := [0] } 0 = some (.saved 5 v.team) :=
    nextTeam_saved rfl (by rw [hv]; rfl) (by rw [hv]; rfl) rfl rfl
  subst hv
  rw [turned_fits (cb := ([0], 0)) rfl rfl (by decide +kernel) (by decide +kernel) hn rfl (by decide +kernel)]

/-- A grid that fits nowhere and has waited for the limit, and one that fits. -/
theorem test_meets_Ageing :
    let g : Grid := { smallGrid with timers := [(0, 100000)] }
    let s : State := { placeState g with octets := (List.range 16).map fun o => (o, 0), octetsUsed := (List.range 16).map fun o => (o, 0) }
    s.headAged 0 = some 7 ∧ (placeState g).headAged 0 = none := by
  intro g s
  have hc : s.candidates = [(7, g)] := candidates_one rfl (by decide +kernel)
  have hc' : (placeState g).candidates = [(7, g)] := candidates_one rfl (by decide +kernel)
  have hn : s.nextTeam 7 g 0 = some (.claim 0) := (nextTeam_fresh rfl (by decide +kernel) rfl).trans (by decide +kernel)
  have hn' : (placeState g).nextTeam 7 g 0 = some (.claim 0) := (nextTeam_fresh rfl (by decide +kernel) rfl).trans (by decide +kernel)
  have hw : s.wholeOn 7 g 0 = false := by decide +kernel
  have hw' : (placeState g).wholeOn 7 g 0 = false := by decide +kernel
  have hf : s.unfit g 0 (.claim 0) = true := by decide +kernel
  have hf' : (placeState g).unfit g 0 (.claim 0) = false := by decide +kernel
  have ha : s.aged 0 g = true := by decide +kernel
  have hx : (NextTeam.claim 0).exhausted g = false := by decide +kernel
  constructor
  · simp [State.headAged, State.headOf, hc, State.missesOn, hn, hw, hf, hx, ha, show s.ageing = [] from rfl]
  · simp [State.headAged, State.headOf, hc', State.missesOn, hn', hw', hf', hx, show (placeState g).ageing = [] from rfl]

/-- A co-resident grid that may be placed whole now. -/
theorem test_meets_Coresident :
    let g : Grid := { smallGrid with pkt := { smallGrid.pkt with hdr := 0x00010101, gridx := 2 } }
    let s := placeState g
    (s.placeWhole 7 g).isSome = true := by
  intro g s
  have hc : s.claimable 7 g = true := by decide +kernel
  have hm : s.wholeMay 7 g = true := by
    have hp : s.presentDies g.pkt = [0] := by decide +kernel
    have hk : s.candidates = [(7, g)] := candidates_one rfl (.inl hc)
    have hh : (s.headOf 0).filter (fun h => h.1 ≠ 7 && s.before h (7, g)) = none := by
      simp only [State.headOf, hk, List.find?]
      split <;> rfl
    simp only [State.wholeMay, hp, List.all_cons, List.all_nil, Bool.and_true]
    rw [hh]; rfl
  have ht : s.wholeTeams 7 g = g.pkt.indices := rfl
  simp only [State.placeWhole, hm, hc, ht]
  decide +kernel

/-- A grid whose teams have all retired, with room in its ring. -/
theorem test_meets_GridRetire :
    let g : Grid := { smallGrid with retired := 12 }
    let s := { placeState g with mem := (benchRest benchGroup).mem }
    g.stage = .released ∧ g.retired = g.pkt.total ∧ bitOf g.pkt.hdr 13 = false ∧ g.gslot = none ∧ s.heldRecords = [] ∧
      s.remoteOf g.ck g.pkt.ring.toNat = none ∧
      (match s.xlatNow g.ck g.pkt.ring.toNat .both with | .ok pa _ => decide (pa = 0) | _ => false) = true ∧
      (s.load .mem 0 4 + 2 ^ 32 - s.load .mem 4 4) % 2 ^ 32 ≠ 2 ^ s.load .mem 8 1 := by
  decide +kernel

/-- A placed team that has not started, one that has finished, and one that runs. -/
theorem test_meets_Teams :
    let s := benchRest { lanes := [(0, { exited := true })] }
    let t := benchRest benchGroup
    let tm := (s.teams.get? 0).getD (newTeam 0 0)
    let gr := (s.gridOf tm).getD smallGrid
    ({ tm with started := false } : Team).started = false ∧ s.savedTeams.get? 0 = none ∧ gr.pkt.cres = false ∧
      bitOf (s.ctx gr.ck).trcctl 31 = false ∧ tm.started = true ∧ s.teamDone 0 tm = true ∧ t.teamDone 0 tm = false ∧
      tm.pending = none ∧ (s.gridOf tm).isSome = true := by
  decide +kernel

/-! ## Hypotheses met: traps, special registers, system instructions -/

/-- Lane 0 with `p1` set, lane 1 without. -/
def trapGroup : Group := { lanes := [(0, { preds := 2, lpc := 5 }), (1, { tid := 1, lpc := 5 })], tbase := 0x40 }

/-- A `trap` under the guard `p1`, which holds in lane 0 alone. -/
theorem test_meets_TrapInstructionsPark :
    Issuing (benchIssue trapGroup benchCursor) benchCursor trapGroup ∧ benchCursor.handler = false ∧ trapGroup.tbase ≠ 0 ∧
      trapGroup.trapEntry = none ∧ (∀ l t, trapGroup.lanes.get? l = some t → t.tx.act = false) ∧
      (0 ∈ lanesOf benchCursor.active ∧ ∃ t, trapGroup.lanes.get? 0 = some t ∧ t.guard ⟨false, 1, false⟩ = true) ∧
      (∃ t, trapGroup.lanes.get? 1 = some t ∧ t.guard ⟨false, 1, false⟩ = false) := by
  refine ⟨issuing_two rfl rfl rfl, rfl, by decide, rfl, fun l t h => ?_, ⟨by decide, _, rfl, by decide⟩, _, rfl, by decide⟩
  exact lanes_all (g := trapGroup) (P := fun _ t => t.tx.act = false) (by decide) l t h

/-- Two lanes that trap with different classes, the last class among them, with and without a trap entry and a handler. -/
theorem test_meets_TrapsLead :
    let ts : List Trap := [⟨0, 22, 0⟩, ⟨1, 3, 0⟩]
    let entry : Group := { trapGroup with joins := [.join 0 3 9 0, .trap 21 1 0 0] }
    ts ≠ [] ∧ (∀ t ∈ ts, t.lane < 32 ∧ t.cls < 23 ∧ ((trapGroup.lanes.get? t.lane).map (·.tx.act)) = some false) ∧
      (ts.map (·.lane)).Nodup ∧ trapGroup.tbase ≠ 0 ∧ trapGroup.trapEntry = none ∧ entry.trapEntry = some (21, 1, 0, 0) ∧
      benchGroup.tbase = 0 ∧ (benchRest trapGroup).groups.get? 0 = some trapGroup := by
  decide +kernel

/-- A `tret` in the handler stream, over a join; one in the main stream on a full join stack; entries done and not done. -/
theorem test_meets_ReturnFromATrap :
    let k : Cursor := { benchCursor with handler := true }
    let j : JoinEntry := .join 0 3 9 0
    let g : Group := { trapGroup with joins := [.trap 21 3 0 0, j] }
    let full : Group := { trapGroup with joins := List.replicate 16 j }
    Issuing (benchIssue g k) k g ∧ k.handler = true ∧ g.joins = .trap 21 3 0 0 :: [j] ∧ (∀ e ∈ [j], ∃ c m t a, e = .join c m t a) ∧
      Issuing (benchIssue full benchCursor) benchCursor full ∧ full.joins.length = 16 ∧
      (∀ l ∈ lanesOf (3 : Word), bitOf (3 : Word) l = true ∨ g.live l = false) ∧
      (¬∀ l ∈ lanesOf (3 : Word), bitOf (1 : Word) l = true ∨ g.live l = false) ∧
      (∃ l t, g.lanes.get? l = some t ∧ t.exited = false) := by
  refine ⟨?_, rfl, rfl, by simp, issuing_two rfl rfl rfl, rfl, by decide +kernel, by decide +kernel, 0, _, rfl, rfl⟩
  refine issuing_bench rfl rfl (by decide) (by decide) fun l hl => ?_
  have h : ∀ l ∈ lanesOf benchCursor.active, l = 0 ∨ l = 1 := by decide
  rcases h l hl with rfl | rfl
  · exact ⟨_, rfl, rfl⟩
  · exact ⟨_, rfl, rfl⟩

/-- Lane 0 is the lowest and lane 1 the highest of the guarded lanes; both see the team and the grid of their group. -/
theorem test_meets_SpecialRegisters :
    let inC (l : Nat) : Prop := l ∈ lanesOf benchCursor.active ∧ ∃ t, benchGroup.lanes.get? l = some t ∧ t.guard openHead = true
    (((benchIssue benchGroup benchCursor).teamOf benchGroup).bind (benchIssue benchGroup benchCursor).gridOf).isSome = true ∧
      inC 0 ∧ inC 1 ∧ (∀ l ∈ lanesOf benchCursor.active, 0 ≤ l ∧ l ≤ 1) ∧
      (benchOp (.special 0x012) (.win 0) .zero 0).d = .special 0x012 := by
  exact ⟨by decide +kernel, ⟨by decide, _, rfl, by decide⟩, ⟨by decide, _, rfl, by decide⟩, by decide, rfl⟩

/-- A shoot-down that waits on an access in flight, one that has nothing left to wait for, and a lane that waits on it. -/
theorem test_meets_Shootdowns :
    let x (ids : List Nat) : Shoot := ⟨2 ^ 32, 3, 1, false, true, ids⟩
    let s (ids : List Nat) : State := { benchRest { lanes := [(0, { wait := .tlbinv (2 ^ 32) })] } with
      ctxs := [(0, { shoots := [x ids], en := true })], flights := [(4, benchFlight .fill .gl 0 64)] }
    (s [4]).ctx 0 = { shoots := [x [4]], en := true } ∧ ((s [4]).flights.get? 4).isSome = true ∧ (s [5]).flights.get? 5 = none ∧
      ((benchIssue benchGroup benchCursor).ctx 0).shoots = [] ∧
      (⟨0, 2, 1, false, false, []⟩ : Shoot).hits 0 ⟨0, 0, 16, 0⟩ = true ∧ (benchFlight .fill .gl 0 64).run = (0, 16) ∧ guardG benchGroup openHead benchCursor = true ∧
      bitOf (0x80000001 : Word) 31 = true := by
  decide +kernel

/-- A save point that all live lanes execute, with and without a pre-emption; a trace of the smallest and largest buffer. -/
theorem test_meets_SavePoints :
    let s := benchIssue benchGroup benchCursor
    let asked : State := { s with teams := s.teams.modify 0 fun t => { t with pending := some ⟨0, 64, 8192⟩ } }
    let traced (n : Nat) : State := { s with
      ctxs := s.ctxs.modify 0 fun c => { c with trcctl := BitVec.ofNat 32 (2 ^ 31 + 2 + 256 * n), trcbase := 0x8000 } }
    ((s.teamOf benchGroup).map (·.pending)) = some none ∧ ((asked.teamOf benchGroup).map (·.pending)) = some (some ⟨0, 64, 8192⟩) ∧
      benchGroup.trapEntry = none ∧ (∀ l < 32, benchGroup.live l = true → l ∈ lanesOf benchCursor.active) ∧
      bitOf (s.ctx 0).trcctl 31 = false ∧ (∀ n ∈ [1, 24], bitOf ((traced n).ctx 0).trcctl 31 = true ∧
        bitOf ((traced n).ctx 0).trcctl 1 = true ∧ ((traced n).ctx 0).trcctl.toNat / 256 % 32 = n) ∧
      (match (traced 24).xlatNow 0 0x8000 .write with | .ok pa _ => decide (pa = 0x8000) | _ => false) = true := by
  decide +kernel

/-! ## Hypotheses met: pre-emption -/

/-- Two functions with claimable grids, function 1's slice running since `n` clocks, function 0's next; a save area that
holds `limit` bytes. -/
def sliceState (n limit : Nat) : State :=
  let s := memState (benchRest benchGroup) 0x8000 (bytesOf limit 8)
  let g : Grid := { newGrid benchPacket 0 0 false 1 none with stage := .released }
  { s with
    slices := [(0, 0x80000001), (1, 0x80010001)], sliceNow := some 1, sliceClock := n
    grids := [(0, { g with ck := 16, counter := 1 }), (1, g)]
    ctxs := [(0, { en := true, ptbase := 0x80000 }), (16, { en := true, ptbase := 0x80000, save := 0x8000 })] }

theorem test_meets_Slices :
    (sliceState 1023 65536).sliceDue = false ∧ (sliceState 1024 65536).sliceDue = true ∧
      (sliceState 1024 65536).nextSlice = some 0 ∧ (sliceState 1024 65536).sliceFn = some 1 ∧
      (sliceState 1024 65536).slice 0 = some (0, 1024) ∧
      ({ sliceState 1024 65536 with grids := [] } : State).nextSlice = none ∧
      ({ sliceState 0 65536 with sliceNow := none } : State).sliceDue = true ∧
      ({ sliceState 0 65536 with sliceNow := none } : State).sliceFn = none := by
  decide +kernel

/-- Function 1 has one started team that no pre-emption waits for, with a free range in its save area and without. -/
theorem test_meets_Slices_2 :
    let s := sliceState 1024 (2 ^ 20)
    let none' := sliceState 1024 64
    s.teams.sorted = true ∧ s.teams.length = 1 ∧
      (match s.teams.get? 0 with
        | some tm => tm.started && tm.pending.isNone && decide ((s.gridOf tm).map (·.ck / 16) = some 1) &&
            decide (s.freeSave 16 (s.fullSize 0 tm benchPacket) = some 64) &&
            decide (none'.freeSave 16 (s.fullSize 0 tm benchPacket) = none)
        | none => false) = true ∧
      (∀ r ∈ (s.ctx 16).ranges, 64 ≤ r.1) := by
  decide +kernel

/-- A team asked to leave `n` clocks ago, whose groups are `gs`. -/
def leaveState (n : Nat) (gs : Tbl Group) : State :=
  let s := benchRest benchGroup
  { s with
    groups := gs
    teams := s.teams.modify 0 fun t => { t with pending := some ⟨n, 64, 65536⟩ }
    ctxs := s.ctxs.modify 0 fun c => { c with thrstat := 1 } }

/-- A group at a save point and one that is not; the clock before the grace ends and the one at which it does. -/
theorem test_meets_Stopping :
    let w : Group := { lanes := [(0, { wait := .sleep 9 })] }
    let now (s : State) (g : Group) : Bool := (s.teams.get? g.team).any fun tm =>
      tm.pending.isSome && (tm.rdvs.all fun r => !r.moving) && g.stop.isNone &&
        (g.handlerLanes ++ g.mainLanes).all fun l => (s.thread 0 l).wait.savePoint
    now (leaveState 0 [(0, w)]) w = true ∧ now (leaveState 0 [(0, benchGroup)]) benchGroup = false ∧
      (leaveState 0 []).pgrace.toNat = 45000 ∧
      ((leaveState 45000 []).teams.get? 0).bind (fun t => t.pending.map (·.clocks)) = some 45000 ∧
      (leaveState 45000 [(0, benchGroup)]).groups.sorted = true := by
  decide +kernel

/-- A team whose groups have stopped, with a hint and in full, is ready to be saved; one that runs is not. -/
theorem test_meets_Saving :
    let u : Thread := { wb := 72, stack := [(71, 9)] }
    let gs : Tbl Group := [(0, { lanes := [(0, u)], stop := some (some ⟨0x80000001, 1, 2, []⟩) }), (1, { lanes := [(3, u)], stop := some none })]
    let s := leaveState 0 gs
    let run := leaveState 0 [(0, benchGroup)]
    let early : Team := { newTeam 0 3 with yielding := true }
    ((s.teams.get? 0).any fun t => s.saveReady 0 t) = true ∧ ((run.teams.get? 0).any fun t => run.saveReady 0 t) = false ∧
      s.groups.sorted = true ∧ (∀ e ∈ gs, e.2.lanes.sorted = true ∧ ∀ x ∈ e.2.lanes, x.2.tx.act = false ∧ x.2.wb < 96) ∧
      bitOf (s.ctx 0).trcctl 31 = false ∧ bitOf (s.ctx 0).thrstat 0 = true ∧ bitOf (0x80000001 : Word) 31 = true ∧
      early.yielding = true ∧ early.started = false ∧ (s.gridOf early).isSome = true ∧ s.savedTeams.get? 7 = none := by
  decide +kernel

/-- A saved team that stands placed again with its group's new slot. -/
theorem test_meets_Resume :
    let s0 := benchRest { team := 0 }
    let x : Group := { benchGroup with stop := some none }
    let tm : Team := { newTeam 0 0 with cores := [0], startAt := 3 }
    let v : SavedTeam := { team := tm, groups := [(0, 7, x)], scratch := [], spois := [], slices := [], acc := [], accPois := [],
                           bars := [], off := 64, size := 65536 }
    let s : State := { s0 with teams := [(0, tm)], savedTeams := [(0, v)], groups := [(5, { team := 0 })] }
    (s.gridOf tm).map (·.pkt.cres) = some false ∧ tm.started = false ∧ s.savedTeams.get? 0 = some v ∧ s.groups.sorted = true ∧
      tm.cores.Nodup ∧ (v.groups.filter fun e => e.1 = 0)[0]? = some (0, 7, x) ∧
      ((s.teamGroups 0 (tm.cores.getD 0 0)).map (·.1))[0]? = some 5 := by
  decide +kernel

/-! ## Hypotheses met: registers, dies, links, power, boot -/

/-- An aligned ring of the smallest and of the largest size, an illegal size and an unaligned base. -/
theorem test_meets_QueueRegisters :
    let q (size base : Nat) : Bool := decide (1 ≤ size ∧ size ≤ 16 ∧ base % min (128 * 2 ^ size) 65536 = 0)
    q 1 256 = true ∧ q 16 65536 = true ∧ q 0 0 = false ∧ q 17 0 = false ∧ q 1 128 = false ∧
      ({ en := true } : Queue).en = true ∧ ({} : Queue).en = false := by
  decide +kernel

/-- An event ring with one free slot and a held record that a `pgreq` waits for, and the same ring full; a reply that is sent, and
one whose vector is masked; a boot stage before 0x3 and at it. -/
theorem test_meets_FunctionRegisters :
    let r (tag : Nat) : EventRecord := { bytes := List.replicate 32 7, time := some 0, tag := tag }
    let f (w : Word) : Fn := { enabled := true, eren := true, ersize := 4, erw := w, held := [r 5, r 0] }
    let s : State := benchRest { lanes := [(0, { wait := .pgreq 5 })] }
    let sends (f : Fn) : Bool := f.msixEn && !f.msixMask && !bitOf f.vecMask 0
    (f 15).ringOpen 1 = true ∧ (f 16).ringOpen 1 = false ∧ (f 15).enabled = true ∧ (State.reset.fn 1).enabled = false ∧
      (State.reset.fn 0).enabled = true ∧ State.reset.bstate < 3 ∧ 3 ≤ ({ State.reset with bstate := 3 } : State).bstate ∧
      (r 5).bytes.length = 32 ∧ (s.thread 0 0).wait = .pgreq 5 ∧ (∀ r' ∈ [r 0], r'.tag ≠ 5) ∧
      sends { msixEn := true, vecMask := 0 } = true ∧ sends { msixEn := true, vecMask := 1 } = false := by
  decide +kernel

/-- The record that a read of RECORD gives, before the first one and with one. -/
theorem test_meets_RegisterReads :
    State.reset.recordNow.length = 352 ∧ ({ State.reset with record := List.replicate 352 1 } : State).recordNow.length = 352 := by
  decide +kernel

/-- A grant of the last pages and one past them; a halted context with and without an access in flight; a dump that fits its
save area exactly and one byte less. -/
theorem test_meets_ContextRegisters :
    let s := { benchRest benchGroup with ctxs := [(0, { en := true, halt := true, stopped := true, save := 0x8000 })] }
    let quiet : State := { s with cores := [] }
    let dump (limit : Nat) : State := memState (memState s 0x8000 (bytesOf limit 8)) 0x8018 (bytesOf 64 8)
    let fits (s : State) : Bool := (s.ctx 0).stopped && decide ((s.ctx 0).saveAt < 2 ^ 39 - 64) && !s.poisoned .mem (s.ctx 0).saveAt 64 &&
      decide (s.load .mem ((s.ctx 0).saveAt + 24) 8 + s.dumpSize 0 ≤ s.load .mem (s.ctx 0).saveAt 8)
    (∃ v : Word, v.toNat % 256 + v.toNat / 256 % 512 = 256) ∧ (∃ v : Word, v.toNat % 256 + v.toNat / 256 % 512 = 257) ∧
      quiet.quiet 0 = true ∧ s.quiet 0 = false ∧ (s.ctx (s.ckOf benchGroup)).halt = true ∧
      fits (dump (64 + s.dumpSize 0)) = true ∧ fits (dump (63 + s.dumpSize 0)) = false := by
  refine ⟨⟨0x1FF, by decide⟩, ⟨0x2FF, by decide⟩, by decide +kernel, by decide +kernel,
    by decide +kernel, by decide +kernel, by decide +kernel⟩

/-- A grid of depth 1 of the context, whose team on die 0 has a live thread. -/
theorem test_meets_ContextDisable :
    let s := benchRest benchGroup
    ((s.grids.get? 0).map fun g => decide (g.ck = 0 ∧ g.depth = 1 ∧ g.stage ≠ .ended)) = some true ∧ s.teams.sorted = true ∧
      (∃ e ∈ s.teams, e.2.grid = 0 ∧ ∃ h ∈ s.groups, h.2.team = e.1 ∧ ∃ l ∈ h.2.lanes, l.2.exited = false) ∧
      (∃ e ∈ s.teams, e.2.grid = 0 ∧ ∃ c ∈ e.2.cores, dieOf c = 0) := by
  decide +kernel

/-- A window access that translates, in a page and past it, of a context that is enabled and one that is not. -/
theorem test_meets_HostWindows :
    let s := benchRest benchGroup
    let hit (need : Need) : Bool := match s.xlatNow 0 0x8000 need with | .ok pa _ => decide (pa = 0x8000) | _ => false
    let miss (need : Need) : Bool := match s.xlatNow 0 (16 * 65536) need with | .ok .. => false | _ => true
    (s.fn 0).enabled = true ∧ (s.fn 1).enabled = false ∧ (s.ctx 0).en = true ∧ (s.ctx 1).en = false ∧ (s.ctx 0).ovchk = false ∧ s.strongs = [] ∧ hit .read = true ∧
      hit .write = true ∧ miss .read = true ∧ miss .write = true ∧ s.poisoned .mem 0x8000 4 = false ∧
      ({ s with memPoison := [0x100] } : State).poisoned .mem 0x8000 4 = true := by
  decide +kernel

/-- Dies at each stage; a running die that holds a team of a grid, with no copy job on it. -/
theorem test_meets_Dies :
    let s := withDie (benchRest benchGroup)
    (s.die 0).stage = .running ∧ (s.die 0).log = 0 ∧ s.jobs = [] ∧
      ((s.teams.get? 0).any fun t => t.grid = 0 && t.cores.any fun c => dieOf c = 0) = true ∧
      ((s.grids.get? 0).map (·.stage)) = some .released ∧
      ({ s with baseDead := true } : State).baseDead = true := by
  decide +kernel

/-- A good cell with the next SEQ and one with a wrong CRC; a negative acknowledgement of the oldest cell kept; links with
2, 4 and 8 lanes. -/
theorem test_meets_Links :
    let head : List Byte := bytesOf 0 8 ++ List.replicate 52 0
    let cell : List Byte := head ++ bytesOf (crc32c head).toNat 4
    let h := CellHead.of cell
    let sent (n : Nat) : List Byte := bytesOf (n * 2 ^ 52) 8
    cell.length = 64 ∧ (crc32c (cell.take 60)).toNat = ofBytes (cell.drop 60) ∧ h.seq = (0xFFF : BitVec 12) + 1 ∧
      bitOf (BitVec.ofNat 32 (ofBytes ((cell.drop 56).take 4))) 31 = false ∧
      (crc32c ((head ++ [1]).take 60)).toNat ≠ ofBytes ((head ++ [1, 2, 3, 4]).drop 60) ∧
      (CellHead.of (sent 1)).seq = 1 ∧ (∀ x ∈ [sent 3, sent 2], (CellHead.of x).seq ≠ 1) := by
  decide +kernel

/-- An access of a peer that the context's map names, one that it does not, of mapped and unmapped addresses. -/
theorem test_meets_Peers :
    let s0 := benchRest benchGroup
    let s : State := { s0 with ctxs := s0.ctxs.modify 0 fun c => { c with lmap := [(3, BitVec.ofNat 64 (2 ^ 63 + 5 * 2 ^ 48 + 2 ^ 11))] } }
    let named (peer : Nat) : Bool := (List.range 4).any fun i =>
      bitOf ((s.ctx 0).lmap.read 0 i) 63 && decide (((s.ctx 0).lmap.read 0 i).toNat / 2 ^ 48 % 256 = peer)
    named 5 = true ∧ named 6 = false ∧
      (match s.xlatNow 0 0x8000 .both with | .ok pa _ => decide (pa = 0x8000) | _ => false) = true ∧
      (match s.xlatNow 0 (16 * 65536) .read with | .fault .. => true | _ => false) = true ∧
      s.poisoned .mem 0x8000 8 = false := by
  decide +kernel

/-- Register values at the limits of 23 R483, and a die whose clock relocks. -/
theorem test_meets_Power :
    let ones (v : Nat) : Nat := ((List.range 16).filter fun i => v.testBit i).length
    ones 0xFFF = 12 ∧ ones 0x1FFF = 13 ∧ (3 : Word).toNat % 4 = 3 ∧ (2 : Word).toNat % 4 ≠ 3 ∧
      bitOf (({ State.reset with clusters := [(1, { swal := 1 })] } : State).pattern 1) 0 = true ∧
      bitOf (State.reset.pattern 1) 0 = false ∧
      ({ State.reset with dies := [(2, { log := 0, relock := true })] } : State).dies.get? 2 = some { log := 0, relock := true } := by
  decide +kernel

/-- An image whose root code of one byte ends it, and one with the entry past its code. -/
theorem test_meets_BootStage :
    let image (ent : Nat) : List Byte := bytesOf 0x4D524946 4 ++ bytesOf 1 4 ++ bytesOf 64 4 ++ bytesOf 1 4 ++ bytesOf 64 4 ++ bytesOf 1 4 ++
      bytesOf ent 4 ++ bytesOf 0 4 ++ List.replicate 33 0
    imageErr (image 0) = 0 ∧ imageErr (image 1) = 2 ∧ imageErr (List.replicate 64 0) = 1 ∧ (image 0).length = 65 ∧
      State.reset.bstate = 1 ∧ State.reset.mainOk = true ∧
      (let b := bytesOf 2400 2 ++ bytesOf 250 2 ++ [0, 2, 100, 0]
       b.length = 8 ∧ ofBytes ((b.drop 0).take 2) ≤ 2400 ∧ ofBytes ((b.drop 5).take 1) ≤ 2 ∧ ofBytes ((b.drop 6).take 1) ≤ 100) := by
  decide +kernel

/-- A free slot with a ready group and with none; a clock that is swallowed and one that is not; windows at their ends; a slot that issued. -/
theorem test_meets_SlotsAndWindows :
    let s := { State.reset.withFetchWord 96 0x4092200400221100000E0000 with agenda := [] }
    let free : State := { s with cores := [] }
    free.slotRun 0 0 = none ∧ (s.slotRun 0 0).isSome = true ∧ free.groupsOn 0 = [0] ∧ free.ready 0 = true ∧
      ({ free with groups := [] } : State).groupsOn 0 = [] ∧ 1024 ≤ ({ llClock := 1024 } : Core).llClock ∧
      ({ llClock := 1023 } : Core).llClock < 1024 ∧ (0x80010010 : Word).toNat.testBit 31 = true ∧
      (0x80010010 : Word).toNat / 2 ^ 10 % 2 ^ 10 = 64 ∧ (0x80010010 : Word).toNat % 2 ^ 10 = 16 ∧
      bitOf (({ free with clusters := [(0, { swal := 1 })], dies := [] } : State).pattern 0) 0 = true ∧
      free.swallowed 0 = false ∧
      (({ free with cores := [(0, { did0 := 1, didg0 := some 0 })] } : State).core 0).did0 = 1 := by
  decide +kernel

/-! ## Hypotheses met: encoding and the step -/

/-- A well-formed instruction with its highest tile, and its word, which decodes. -/
theorem test_meets_Encoding :
    let i : Instr := .mzero ⟨openHead, .none, .none, .rn, 0, 0, .acc 15, .zero, .zero⟩
    i.wellFormed 16 false = true ∧ i.wellFormed 15 false = false ∧
      ((encode i).map fun w => decide (decodeWord 16 false w = .ok i)) = some true := by
  decide +kernel

/-- The first turn after the placing of a word that decodes, and of one that does not. -/
theorem test_meets_Step :
    let s (w : Nat) : State := { State.reset.withFetchWord 96 w with agenda := [] }
    let w : Nat := 0x4092200400221100000E0000
    (∀ v ∈ [w, 0], (State.reset.withFetchWord 96 v).agenda = [.issue 0 0] ∧ (s v).slotRun 0 0 = some { gk := 0, n := 0 } ∧ (s v).mayIssue 0 = true ∧
      (s v).choose 0 = (false, .ready 0 (List.range 32) (BitVec.ofNat 96 v)) ∧ ((s v).group 0).spoison = [] ∧
      (((s v).group 0).lanes.all fun e => decide (e.1 < 32 ∧ e.2.wait = .none ∧ e.2.tx.act = false ∧ e.2.late = none ∧ e.2.poison = [])) = true ∧
      (∀ i < 4, bitOf (((s v).ctx ((s v).ckOf ((s v).group 0))).bkpt.read 0 i) 63 = false)) ∧
      (match decodeWord 16 true (BitVec.ofNat 96 w) with | .ok _ => true | _ => false) = true ∧
      (match decodeWord 16 true (0 : InsnWord) with | .ok _ => false | _ => true) = true := by
  decide +kernel

/-- The line that holds the word at counter 0; the ends of a run by E and by its length. -/
theorem test_meets_Step_2 :
    let s : State := { State.reset.withFetchWord 96 0x4092200400221100000E0000 with agenda := [] }
    s.insnAddr 0 0 % 64 ≤ 52 ∧ s.insnAddr 0 4 % 64 ≤ 52 ∧
      ((s.iline (0 / 2) (s.ckOf (s.group 0)) (s.insnAddr 0 0 / 64 * 64)).map fun x => decide (x.cls = 0 ∧ x.bytes.length = 64)) = some true ∧
      s.cur = none ∧ coreOf benchCursor.gk = 0 ∧ (s.group 0).mainLanes ≠ [] ∧
      (Raw.ofWord (0x801408026012280000000080 : InsnWord)).e = 1 ∧ (Raw.ofWord (0x4092200400221100000E0000 : InsnWord)).e = 0 ∧
      24 ≤ 23 + 1 ∧ 22 + 1 < 24 := by
  decide +kernel

/-- Reset memories are canonical, and so are those of the bench. -/
theorem test_meets_MemoriesStayCanonical : State.reset.memoriesWf ∧ (State.reset.withFetchWord 96 0).memoriesWf := by
  refine ⟨⟨by decide +kernel, by decide +kernel, by decide +kernel⟩, by decide +kernel, by decide +kernel, by decide +kernel⟩

/-- Reset tables are in order, and so are those of the bench, with 32 threads in their lanes. -/
theorem test_meets_TablesStayInOrder : State.reset.tablesKept ∧ (State.reset.withFetchWord 96 0).tablesKept := by
  have h : ∀ s : State, s.groups.sorted = true → s.teams.sorted = true → s.flights.sorted = true →
      (s.groups.all fun e => e.2.lanes.sorted && e.2.lanes.all fun x => decide (x.2.wb = 0) && x.2.tx.wset.sorted) = true →
      (s.teams.all fun e => e.2.conts.isEmpty) = true → s.savedTeams = [] → s.flights = [] →
      (s.strongs.sorted && s.rels.sorted && s.hazy.sorted && s.grids.sorted && s.jobs.sorted && s.heldRecords.sorted &&
        s.residencies.sorted && s.links.sorted) = true → s.tablesKept := by
    intro s h1 h2 h3 h4 h5 h6 h7 h8
    simp only [Bool.and_eq_true] at h8
    obtain ⟨⟨⟨⟨⟨⟨⟨a, b⟩, c⟩, d⟩, e⟩, f⟩, g⟩, i⟩ := h8
    refine ⟨h1, h2, h3, fun e he => ?_, fun e he c hc => ?_, by simp [h6], by simp [h7], ⟨a, b, c⟩, d, e, f, g, i⟩
    · have := List.all_eq_true.1 h4 e he
      simp only [Bool.and_eq_true, List.all_eq_true, decide_eq_true_eq] at this
      exact ⟨this.1, fun x hx => ⟨.inl (this.2 x hx).1, (this.2 x hx).2⟩⟩
    · have := List.all_eq_true.1 h5 e he
      rw [List.isEmpty_iff.1 this] at hc
      cases hc
  exact ⟨h _ rfl rfl rfl rfl rfl rfl rfl rfl,
    h _ (by decide +kernel) (by decide +kernel) rfl (by decide +kernel) (by decide +kernel) rfl rfl (by decide +kernel)⟩

/-! ## Ill-formed terms: one for each check, beside the term that passes it -/

/-- The reserved guard `!p0`, a guard past `p7` (05 R112). -/
theorem test_illformed_guard :
    let f := benchArith .n32 (.win 1) (.win 2) (.win 3) .zero
    (Instr.vadd f).wellFormed 16 true = true ∧ (Instr.vadd { f with h := ⟨true, 0, false⟩ }).wellFormed 16 true = false ∧
      (Instr.vadd { f with h := ⟨false, 8, false⟩ }).wellFormed 16 true = false := by decide

/-- A type, an operand kind, a register past the last, an unaligned pair, two immediates (05 R105 to R107, R109). -/
theorem test_illformed_arithmetic :
    let v (ty : Ty) (d a b : Operand) : Bool := (Instr.vadd (benchArith ty d a b .zero)).wellFormed 16 true
    v .f64 (.win 2) (.win 4) (.win 6) = true ∧ v .mx8 (.win 1) (.win 2) (.win 3) = false ∧
      v .n32 (.acc 1) (.win 2) (.win 3) = false ∧ v .n32 (.win 32) (.win 2) (.win 3) = false ∧
      v .f64 (.win 1) (.win 4) (.win 6) = false ∧ v .n32 (.win 1) (.imm 1) (.imm 1) = false ∧
      (Instr.add (benchArith .n32 (.scal 383) (.scal 2) (.scal 3) .zero)).wellFormed 16 true = true ∧
      (Instr.add (benchArith .n32 (.scal 384) (.scal 2) (.scal 3) .zero)).wellFormed 16 true = false := by decide

/-- Rounding where nothing rounds, a third source that an opcode lacks, a modifier beside an immediate, a conversion to
its own type (05 R118 step 6; 09 R200, R218). -/
theorem test_illformed_modifiers :
    let f := benchArith .n32 (.win 1) (.win 2) (.win 3) .zero
    let c := benchArith .f32 (.win 1) (.win 2) .zero .zero
    (Instr.vadd { f with ty := .f32, rm := .rz }).wellFormed 16 true = true ∧
      (Instr.vadd { f with rm := .rz }).wellFormed 16 true = false ∧ (Instr.vadd { f with c := .win 4 }).wellFormed 16 true = false ∧
      (Instr.vadd { f with ty := .f32, rm := .rz, b := .imm 0 }).wellFormed 16 true = false ∧
      (Instr.vcvt { c with sty := .f16 }).wellFormed 16 true = true ∧ (Instr.vcvt { c with sty := .f32 }).wellFormed 16 true = false := by
  decide

/-- A space without scalar access, an unscoped strong order, a home hint off `.gl`, a destination of the wrong kind. -/
theorem test_illformed_memory :
    let f : MemF := ⟨openHead, .gl, .s32, .plain, .none, .natural, 0, .win 1, .win 2, .zero, 0, none⟩
    let s : MemF := { f with d := .scal 8, a := .scal 2 }
    (Instr.ldVector f).wellFormed 16 true = true ∧ (Instr.ldScalar s).wellFormed 16 true = true ∧
      (Instr.ldScalar { s with space := .ln }).wellFormed 16 true = false ∧
      (Instr.ldVector { f with ord := .acq }).wellFormed 16 true = false ∧
      (Instr.ldVector { f with ord := .acq, sco := .device }).wellFormed 16 true = true ∧
      (Instr.ldVector { f with space := .sp, a := .win 2, home := some 1 }).wellFormed 16 true = false ∧
      (Instr.ldVector { f with d := .pred 1 }).wellFormed 16 true = false := by decide

/-- A tile past the team's, a row past 63, an odd slot count for a 16-bit type, a block past 31, a map where a scalar is
asked for. -/
theorem test_illformed_matrix :
    let f : MatF := ⟨openHead, .f32, .none, .rn, 63, 0, .win 8, .acc 3, .scal 5⟩
    let r : ResF := ⟨openHead, .f16, .none, false, false, false, false, 1, 0, 0, .scal 4, .zero, .zero⟩
    let l : ResF := ⟨openHead, .none, .none, false, false, false, false, 0, 0, 31, .scal 6, .scal 2, .scal 4⟩
    (Instr.mrow f).wellFormed 4 true = true ∧ (Instr.mrow f).wellFormed 3 true = false ∧
      (Instr.mrow { f with row := 64 }).wellFormed 4 true = false ∧ (Instr.mrow { f with ty := .mx8 }).wellFormed 4 true = false ∧
      (Instr.ralloc r).wellFormed 0 true = true ∧ (Instr.ralloc { r with ns := 2 }).wellFormed 0 true = false ∧
      (Instr.rloadGlobal l).wellFormed 0 true = true ∧ (Instr.rloadGlobal { l with blk := 32 }).wellFormed 0 true = false ∧
      (Instr.rloadMap l).wellFormed 0 true = false ∧ (Instr.rloadGlobal { l with b := .tmap 1 }).wellFormed 0 true = false := by
  decide

/-- An operand that an opcode lacks, an IMM out of its range, a write of a read-only register, a privileged word. -/
theorem test_illformed_other :
    let f := benchOp .zero .zero .zero
    (Instr.nop (f 0)).wellFormed 0 false = true ∧ (Instr.nop (f 1)).wellFormed 0 false = false ∧
      (Instr.nop { f 0 with d := .win 1 }).wellFormed 0 false = false ∧ (Instr.trap (f 255)).wellFormed 0 false = true ∧
      (Instr.trap (f 256)).wellFormed 0 false = false ∧ (Instr.halt (f 0)).wellFormed 0 true = true ∧
      (Instr.halt (f 0)).wellFormed 0 false = false ∧ (Instr.msr (benchOp (.special 0x012) (.win 0) .zero 0)).wellFormed 0 true = true ∧
      (Instr.msr (benchOp (.special 0x000) (.win 0) .zero 0)).wellFormed 0 true = false := by decide

/-- Units past the last of their kind (01 R15). -/
theorem test_illformed_units :
    (Instr.packetFetch 17407).wellFormed 0 true = true ∧ (Instr.packetFetch 17408).wellFormed 0 true = false ∧
      (Instr.matrixOpExecute 1023).wellFormed 0 true = true ∧ (Instr.matrixOpExecute 1024).wellFormed 0 true = false ∧
      (Instr.sleepuWake 32767).wellFormed 0 true = true ∧ (Instr.sleepuWake 32768).wellFormed 0 true = false ∧
      (Instr.dieReset 7).wellFormed 0 true = true ∧ (Instr.dieReset 8).wellFormed 0 true = false ∧
      (Instr.swalWrite 16 0).wellFormed 0 true = false ∧ (Instr.mbinWrite 17 0).wellFormed 0 true = false ∧
      (Instr.bwaitmRelease 0 4).wellFormed 0 true = false ∧ (Instr.slotArbitration 0 2).wellFormed 0 true = false ∧
      (Instr.powerCapControl 0 3 0).wellFormed 0 true = false := by decide

/-! ## Steps with results worked out in the spec, or by hand from its tables -/

/-- The state after an instruction, or the state itself where it stops. -/
def afterInstr (i : Instr) (s : State) : State :=
  match exec i s with
  | .next t => t
  | _ => s

/-- Register `r` of a lane after an instruction. -/
def laneReg (i : Instr) (s : State) (l r : Nat) : Nat := (((afterInstr i s).thread 0 l).stack.read 0 r).toNat

/-- Two lanes with a few window registers. -/
def regGroup (a b : Tbl Word) : Group := { lanes := [(0, { stack := a, lpc := 5 }), (1, { tid := 1, stack := b, lpc := 5 })] }

/-- 09_compute, a worked reduction: t := floor(x × m / 2^32), t × q, and x − t × q in both lanes. -/
theorem test_worked_reduction :
    let s (a b : Tbl Word) := benchIssue (regGroup a b) benchCursor
    let i (d a b : Operand) := benchArith .n32 d a b .zero
    let s1 := s [(1, 0xFFFFFFFF)] [(1, 150000000)]
    let s2 := s [(2, 349495)] [(2, 12206)]
    let s3 := s [(1, 0xFFFFFFFF), (3, 4294944055)] [(1, 150000000), (3, 149999534)]
    laneReg (.vmulhi (i (.win 2) (.win 1) (.imm 349496))) s1 0 2 = 349495 ∧
      laneReg (.vmulhi (i (.win 2) (.win 1) (.imm 349496))) s1 1 2 = 12206 ∧
      laneReg (.vmul (i (.win 3) (.win 2) (.imm 12289))) s2 0 3 = 4294944055 ∧
      laneReg (.vmul (i (.win 3) (.win 2) (.imm 12289))) s2 1 3 = 149999534 ∧
      laneReg (.vsub (i (.win 4) (.win 1) (.win 3))) s3 0 4 = 23240 ∧ laneReg (.vsub (i (.win 4) (.win 1) (.win 3))) s3 1 4 = 466 := by
  decide +kernel

/-- 09_compute, a worked reduction: the comparison, and the subtraction that its predicate guards. -/
theorem test_worked_reduction_2 :
    let s := benchIssue (regGroup [(4, 23240)] [(4, 466)]) benchCursor
    let t := afterInstr (.vcmpGe (benchArith .n32 (.pred 1) (.win 4) (.imm 12289) .zero)) s
    let u : State := { t with cur := some benchCursor }
    let i : Instr := .vsub { benchArith .n32 (.win 4) (.win 4) (.imm 12289) .zero with h := ⟨false, 1, false⟩ }
    (t.thread 0 0).pred 1 = true ∧ (t.thread 0 1).pred 1 = false ∧ laneReg i u 0 4 = 10951 ∧ laneReg i u 1 4 = 466 ∧
      ((afterInstr i u).thread 0 0).lpc = 7 := by
  decide +kernel

/-- All 32 lanes, lane L with 10 L in `w1`, `p1` true in lanes 0 to 15. -/
def exchangeGroup : Group :=
  { lanes := (List.range 32).map fun l =>
      (l, { tid := l, stack := [(1, BitVec.ofNat 32 (10 * l))], preds := if l < 16 then 2 else 0 }) }

/-- 09_compute, a worked exchange. -/
theorem test_worked_exchange :
    let k : Cursor := { benchCursor with full := 0xFFFFFFFF, active := 0xFFFFFFFF }
    let s := benchIssue exchangeGroup k
    let p1 : Head := ⟨false, 1, false⟩
    let b (h : Head) (x : Word) : Instr := .vbfly { benchArith .b32 (.win 2) (.win 1) (.imm x) .zero with h := h }
    let sc (i : Instr) (n : Nat) : Nat := (((afterInstr i s).group 0).scal.read 0 n).toNat
    laneReg (b p1 16) s 0 2 = 0 ∧ laneReg (b p1 16) s 15 2 = 150 ∧ laneReg (b p1 16) s 20 2 = 0 ∧
      laneReg (b openHead 1) s 0 2 = 10 ∧ laneReg (b openHead 1) s 1 2 = 0 ∧
      sc (.vredAdd { benchArith .n32 (.scal 5) (.win 1) .zero .zero with h := p1 }) 5 = 1200 ∧
      sc (.vtos { benchArith .b32 (.scal 6) (.win 1) (.imm 20) .zero with h := p1 }) 6 = 200 := by
  decide +kernel

/-- 08_numbers, the worked case of R194: one output from c = 2^24 and E4M3 products. -/
theorem test_worked_partials :
    let at' (l : List (Nat × Nat)) : List (Option FVal) := (List.range 64).map fun k =>
      some (elemValue .e4m3 .none ((l.find? fun e => e.1 = k).map (·.2) |>.getD 0))
    let a := at' [(0, 0x78), (1, 0x01), (2, 0xF8), (16, 0x38), (32, 0x38), (48, 0x38), (49, 0x38)]
    let b := at' [(0, 0x78), (1, 0x38), (2, 0x78), (16, 0x38), (32, 0x38), (48, 0x38), (49, 0x38)]
    partials false a b = [0x3B000000, 0x3F800000, 0x3F800000, 0x40000000] ∧
      accumulate 0x4B800000 (partials false a b) = 0x4B800001 := by
  decide +kernel

/-- 02_describing_work, a job card worked through: the extents of R52. -/
theorem test_worked_card :
    let b := bytesOf 0x02080202 4 ++ bytesOf 0x4000 4 ++ bytesOf 0x0000200000400000 8 ++ bytesOf 0x10000 8 ++ bytesOf 64 4 ++
      bytesOf 64 2 ++ bytesOf 0 2 ++ bytesOf 8192 4 ++ bytesOf 128 4 ++ List.replicate 24 0
    let c := Card.of b
    b.length = 64 ∧ c.kind = 2 ∧ c.cr = true ∧ c.e = 2 ∧ c.ssp = 0 ∧ c.dsp = 1 ∧ c.extent c.ssy c.ssz = 516224 ∧
      c.src + 516224 = 0x000020000047E080 ∧ c.extent c.dsy c.dsz = 8192 ∧ c.total * c.e = 8192 := by
  decide +kernel

/-- The worked figures of R412 and R456: a group of 32 threads saved in full, at a hint with eight registers, and at one with
`w2` alone. -/
theorem test_worked_save :
    let g : Group := { lanes := startThreads benchPacket 0 }
    let h (w : Word) : Option Hint := some ⟨w, 0, 0, []⟩
    g.savedSize none = 16384 ∧ g.savedSize (h 0xF3C) = 13312 ∧ g.savedSize (h 0x4) = 12416 := by decide +kernel

/-- 11_memory_ops, the worked barrier object: BC 1, EXPA 32, ARRC 32. -/
theorem test_worked_barrier :
    let o : BarObj := { phase := false, bc := true, posted := false, err := false, expa := 32, arrc := 32, bytes := 0 }
    o.word = 0x4040080000000000 ∧ BarObj.of 0x4040080000000000 = o := by
  decide +kernel

/-- 01_machine, the worked case of R15: core 717. -/
theorem test_worked_core :
    clusterOf 717 = 11 ∧ 717 % 64 = 13 ∧ dieOf 717 = 5 ∧ 717 / 2 = 358 ∧ 717 / 8 = 89 := by decide

/-- 09 R205, R206: a sum wraps, a division by zero gives all ones. -/
theorem test_integers :
    let s := benchIssue (regGroup [(1, 0xFFFFFFFF)] [(1, 7)]) benchCursor
    laneReg (.vadd (benchArith .n32 (.win 2) (.win 1) (.imm 2) .zero)) s 0 2 = 1 ∧
      laneReg (.vdiv (benchArith .n32 (.win 2) (.win 1) .zero .zero)) s 1 2 = 0xFFFFFFFF ∧
      laneReg (.vrem (benchArith .n32 (.win 2) (.win 1) .zero .zero)) s 1 2 = 7 := by
  decide +kernel

/-- 00 R5; 11 R260: a word in a scratchpad has its least significant byte at the lowest address; bytes are extended by their
sign. -/
theorem test_bytes :
    let s := benchMem (regGroup [(0, 16), (1, 0x80A0B0C0)] [(0, 20), (1, 1)])
    let st := afterInstr (.stVector (benchAcc .sp .s32 .plain .none .zero (.win 0) (.win 1))) s
    let t : State := { st with cur := some benchCursor }
    let ld (z : Size) : Instr := .ldVector (benchAcc .sp z .plain .none (.win 2) (.win 0) .zero)
    st.byte .pad 16 = 0xC0 ∧ st.byte .pad 19 = 0x80 ∧ st.byte .pad 20 = 1 ∧ laneReg (ld .i8) t 0 2 = 0xFFFFFFC0 ∧
      laneReg (ld .s16) t 0 2 = 0xB0C0 := by
  decide +kernel

/-- 07 R152: a branch that one lane takes and the other does not. -/
theorem test_branch :
    let g : Group := { lanes := [(0, { lpc := 5, preds := 2 }), (1, { tid := 1, lpc := 5 })] }
    let t := afterInstr (.bra ⟨⟨false, 1, false⟩, .zero, .zero, .zero, 40, 0⟩) (benchIssue g benchCursor)
    (t.thread 0 0).lpc = 40 ∧ (t.thread 0 1).lpc = 6 := by
  decide +kernel

/-- 17 R395, R397: a `trap` goes to `sr.tbase` + 32 × 21 and keeps the counter. -/
theorem test_trap :
    let t := afterInstr (.trap (benchOp .zero .zero .zero 0x12)) (benchIssue trapGroup benchCursor)
    (t.thread 0 0).lpc = 0x40 + 32 * 21 ∧ (t.group 0).rpc.read 0 0 = 5 ∧ (t.group 0).tdet.read 0 0 = 0x12 ∧
      (t.group 0).joins.length = 1 := by
  decide +kernel

/-- 10_memory, the worked address 0x4A31_4000: stack 1 at offset 0x0946_4000, hashed slice 16, and slice 28 pinned to
locality 1. -/
theorem test_worked_address :
    stackPlace 0x4A314000 = (1, 0x09464000) ∧ homeSlice 0x4A314000 0 = 16 ∧
      homeSlice 0x4A314000 (BitVec.ofNat 64 (2 ^ 9 + 2 ^ 6)) = 28 := by
  decide

/-- 23 R474: the first step after reset ends a clock without work, and the boot stage stays. -/
theorem test_reset_step :
    (match step State.reset with
      | .next t => decide (t.bstate = 1 ∧ t.clock = 0 ∧ t.closing = true ∧ t.groups = [])
      | _ => false) = true := by
  decide +kernel

/-! ## Hypotheses met: clauses about values, packing, control -/

/-- Numbers of binary32 that are finite, a NaN, an infinity beside a zero; an infinity to add; 2, 1/2 and -3/2. -/
theorem test_meets_FloatValues :
    let d := fmt32.decode
    (∀ b ∈ [0x3F800000, 0xBFC00000, 0x80000000, 0x00000001], (d b).isNan = false ∧ (d b).isInf = false) ∧
      (∃ u e u' e', d 0x3F800000 = .fin false u e ∧ d 0xBFC00000 = .fin true u' e' ∧ u ≠ 0 ∧ u' ≠ 0) ∧
      ((d 0x7F800000).isInf && (d 0).isZero) = true ∧ d 0xFF800000 = .inf true ∧
      (d 0x40000000).rat = (2 : ℤ) ∧ (d 0x3F000000).rat = (2 : ℚ) ^ (-1 : ℤ) ∧ (d 0xBFC00000).rat = (-2 : ℤ) + 1 / 2 := by
  refine ⟨by decide, ⟨_, _, _, _, rfl, rfl, by decide, by decide⟩, by decide, by decide, ?_, ?_, ?_⟩
  · rw [show fmt32.decode 0x40000000 = .fin false 0x800000 (-22) by decide]; norm_num [FVal.rat]
  · rw [show fmt32.decode 0x3F000000 = .fin false 0x800000 (-24) by decide]; norm_num [FVal.rat]
  · rw [show fmt32.decode 0xBFC00000 = .fin true 0xC00000 (-23) by decide]; norm_num [FVal.rat]

/-- Three terms of `dp2` that hold a NaN, both infinities, one infinity, and none of these. -/
theorem test_meets_FloatValues_2 :
    let ts (a b c : Nat) : List FVal := [mulTerm (fmt16.decode a) (fmt16.decode 0x3C00), mulTerm (fmt16.decode b) (fmt16.decode 0x3C00),
      fmt32.decode c]
    let both (l : List FVal) : Bool := (l.any fun v => v = .inf false) && l.any fun v => v = .inf true
    (ts 0x7C00 0xFC00 0x7FC00000).any FVal.isNan = true ∧ both (ts 0x7C00 0xFC00 0x7FC00000) = true ∧
      ((ts 0x7C00 0xFC00 0).any FVal.isNan = false ∧ both (ts 0x7C00 0xFC00 0) = true) ∧
      ((ts 0x7C00 0 0).any FVal.isNan = false ∧ both (ts 0x7C00 0 0) = false ∧ FVal.inf false ∈ ts 0x7C00 0 0) ∧
      ((ts 0x3C00 0 0x3F800000).any FVal.isNan = false ∧ (ts 0x3C00 0 0x3F800000).any FVal.isInf = false) := by
  decide

/-- A floating-point reduction without poison, and a lane exchange whose index and value are not poisoned. -/
theorem test_meets_FloatReductions :
    let f := benchArith .f16 (.win 2) (.win 4) (.win 6) .zero
    f.ty.isFloat = true ∧ (∀ l < 32, operandPoison benchGroup false l f.ty.regs f.a = none) ∧
      ∀ l < 32, operandPoison benchGroup false l 1 f.b = none := by decide

/-- The places of 40, 20 and 5 threads in three slots: the second run would leave the third no slot, so both share the last
(16 R382). -/
theorem test_places : placesOf 3 0 [40, 20, 5] = (List.range 40).map (fun j => (j / 32, j % 32)) ++ (List.range 25).map fun j => (2, j) := by
  decide

/-- A rendezvous of two slots that moves its four threads. -/
theorem test_meets_RendezvousCompletion_3 :
    let r : Rdv := ⟨0, false, 0x3F0, 0, [0, 1], [(0, 5), (1, 5), (32, 5), (33, 6)], 0, 4096, 4096, false, true⟩
    let s0 := rdvTeam r (benchRest benchGroup)
    let s : State := { s0 with groups := [(0, benchGroup), (1, { gid := 1, lanes := [(0, { tid := 32 }), (1, { tid := 33 })] })] }
    ∀ ks ts, ks = (r.arrived.filter fun k => (s.group (32 * 0 + k)).hasThread).mergeSort (· ≤ ·) →
      ts = (s.rdvThreads r).mergeSort keyOrder → r.arrived.Nodup ∧ ks.length = 2 ∧ ts.length ≤ 32 * ks.length ∧
        ((s.teams.get? 0).map fun t => t.rdvs.filter fun x => x.core = 0) = some [r] := by
  intro r s0 s ks ts hk ht
  have h1 : ks.length = 2 := by rw [hk, List.length_mergeSort]; decide +kernel
  have h2 : ts.length = 4 := by rw [ht, List.length_mergeSort]; decide +kernel
  exact ⟨by decide, h1, by omega, by decide +kernel⟩

/-- A continuation at `rejoin` whose acquire is in flight, and without one. -/
theorem test_meets_Rejoin_2 :
    let g : Group := { isCont := true, lanes := [(0, {}), (1, { tid := 1 })] }
    let s := benchIssue g benchCursor
    let t : State := { s with flights := [(0, { benchFlight (.load 95 1 .s32 0 7) .gl 16 4 with acq := true, strong := true })] }
    Issuing s benchCursor g ∧ s.acqHolds benchCursor = false ∧ t.acqHolds benchCursor = true ∧ g.joins.length ≤ 16 := by
  exact ⟨issuing_two rfl rfl rfl, by decide +kernel, by decide +kernel, by decide⟩

/-- A lane that an enrolled mask no longer waits for has exited; one that left by `rejoin` counts as before. -/
theorem test_meets_RejoinMasks_2 :
    let w : Thread := { wait := .rejoinMask 3 }
    let g : Group := { rm := [(3, 3)], lanes := [(0, w), (1, { exited := true })] }
    (0 ∈ g.maskWaiters 3) ∧ g.maskGone 1 = true ∧ ({ g with lanes := [(0, w), (1, {})] } : Group).maskGone 1 = false := by
  decide

/-! ## Hypotheses met: matrices and residencies -/

/-- A watched residency with no write under way, and one whose line an atomic compare may write. -/
theorem test_meets_MatrixInstructions_3 :
    let s : State := { benchIssue mapGroup benchCursor with residencies := [(9, benchRes)], watches := [⟨0, 0, 9, 0, 0⟩] }
    let cas : Flight := benchFlight (.atomic 7 .natural [(0, 0, 0, 1, 2)]) .gl 16 4
    let t : State := { s with flights := [(0, cas)] }
    s.casHolds 0 9 0 = false ∧ t.casHolds 0 9 0 = true ∧ s.bindHolds 0 true = false := by
  decide +kernel

/-- Pair forms of multiplication on two cores, with their second tiles. -/
theorem test_meets_MatrixQueueRuns_3 :
    let m := benchMap .i8 2 2 16
    let s := benchRest mapGroup
    let o (pr : Nat) : MatOp := benchMatOp 4 (.mul pr m m 0 m m)
    (∀ pr ∈ [0, 1, 2], pr < 3 ∧ (o pr).kind = .mul pr m m 0 m m) ∧ (s.aRows 0 m).length ≤ 64 ∧ (s.aRows 1 m).length ≤ 64 ∧
      (s.bSource (o 1) 0 0 m).length ≤ 64 ∧ (s.bSource (o 1) 1 0 m).length ≤ 64 ∧ (o 1).tile2 < 16 := by
  decide +kernel

/-- A team of one slot run of 16 that one residency fills: without it the run is free, with it no run is. -/
theorem test_meets_Residencies_4 :
    let pk := benchPacket
    let s : State := { benchRest benchGroup with residencies := [(9, { benchRes with ns := 15 })] }
    let v := s.reclaimable 0 [0]
    v = [9] ∧ s.freeRun 0 pk [0] 1 (v.take 1) = some 0 ∧ ∀ m < 1, s.freeRun 0 pk [0] 1 (v.take m) = none := by
  intro pk s v
  have hv : v = [9] := by
    have hf : (s.residencies.filter fun e => e.2.team = 0 && e.2.present && !e.2.pin && (e.2.cores.any [0].contains) &&
        !s.resBusy e.2.cores e.1) = [(9, { benchRes with ns := 15 })] := by decide +kernel
    show ((s.residencies.filter _).mergeSort _).map _ = _
    rw [hf, List.mergeSort_singleton]; rfl
  rw [hv]
  exact ⟨rfl, by decide +kernel, by decide +kernel⟩

/-- An absent residency of blocks that are not filling and whose source is in the scratch; widths of the weights' types. -/
theorem test_meets_Fills_2 :
    let r : Res := { benchRes with present := false, refilling := true }
    let s : State := { benchRest benchGroup with residencies := [(9, r)], cores := [(0, { mq := [{ benchMatOp 4 .zero with res := 9 }] })] }
    (∀ c, s.resSlot r c + r.ns < 16) ∧ s.refillReady 0 9 = true ∧ (r.block 0).filling = false ∧
      (match (r.block 0).src with | .global .. => false | _ => true) = true ∧ 0 < r.count ∧
      tmWidth .i8 .none ∈ [4, 6, 8, 16] := by
  refine ⟨fun c => ?_, by decide +kernel⟩
  have hw : ((benchRest benchGroup).teams.get? 0).map (·.wrun) = some [(0, 0)] := by decide +kernel
  have hr : (((benchRest benchGroup).teams.get? 0).map fun t => t.wrun.read 0 c) = some 0 := by
    have hm (o : Option Team) : (o.map fun t => t.wrun.read 0 c) = (o.map (·.wrun)).map fun m : Tbl Nat => m.read 0 c := by
      cases o <;> rfl
    rw [hm, hw]
    by_cases h : 0 = c
    · subst h; decide
    · simp [Tbl.read, Tbl.get?, h]
  simp only [State.resSlot, benchRes, hr]
  decide

/-- A residency that `rrev` ended in the clock before, with nothing queued that names it. -/
theorem test_meets_Revoked :
    let s : State := { benchRest benchGroup with residencies := [(9, { benchRes with revoked := some 4 })], clock := 5 }
    s.residencies.sorted = true ∧ (s.residencies.get? 9).bind (·.revoked) = some 4 ∧ 4 < s.clock ∧
      (s.cores.all fun e => (e.2.mq.all fun o => o.res ≠ 9) && e.2.fills.all fun f => f.2.res ≠ 9) = true ∧
      (s.wrunOf 0 0).isSome = true := by
  decide +kernel

/-! ## Hypotheses met: copies, records, migrations -/

/-- A job that is over once the clock ends, and a source byte that no unordered access has made undefined. -/
theorem test_meets_Jobs_3 :
    let j : Job := { benchJob (benchCard (copyCtl false 1 0) 1008 (15 * 65536) 2) with recorded := true }
    let s : State := { benchRest benchGroup with jobs := [(5, j)] }
    s.jobs.get? 5 = some j ∧ s.jobs.sorted = true ∧ j.recorded = true ∧
      (∀ x < (Card.of j.card).e, s.hazyFor .pad (1008 + x) none = false) := by
  decide +kernel

/-- A record that has left its ring, with its place in the event ring still to come and taken. -/
theorem test_meets_HeldRecords_2 :
    let h : HeldRecord := { inCore := some 0, ck := 0, ring := 0, bytes := List.replicate 32 7, job := none, grid := none, team := some 0,
                            moved := true }
    let r : EventRecord := { bytes := List.replicate 32 7, time := none, tag := 0, done := 5 }
    let s : State := { benchRest benchGroup with heldRecords := [(5, h)] }
    let t : State := { s with fns := [(0, { enabled := true, held := [r] })] }
    s.heldRecords.get? 5 = some h ∧ s.heldRecords.sorted = true ∧ s.eventHeld 0 5 = false ∧ t.eventHeld 0 5 = true := by
  decide +kernel

/-- The bench's page table is a tree as far as two pages of it are concerned, apart from the page that a copy writes. -/
theorem test_meets_Migrations_2 :
    let s := benchRest benchGroup
    let page (k : Nat) : Nat := 65536 * (14 + k)
    let above (k : Nat) : List Nat := s.walkReads (page k) ((s.ctx 0).ptbase.toNat / 65536 * 65536) [0, 1, 2]
    let leaf (k : Nat) : Nat := (s.leafPlace 0 (page k)).getD 0
    (∀ k < 2, (above k).length = 3 ∧ (s.leafPlace 0 (page k)).isSome = true ∧ ∀ k' < 2, leaf k ∉ above k' ∧
        (k' ≠ k → leaf k' ≠ leaf k)) ∧
      ∀ k < 2, ∀ a ∈ leaf k :: above k, a + 8 ≤ 20 * 65536 ∨ 21 * 65536 ≤ a := by
  decide +kernel

/-! ## Hypotheses met: faults, stops, loss, links, clocks -/

/-- A grid that has not ended and whose team runs, of which two lanes trap; lane 0 is the lowest. -/
theorem test_meets_ContextFault :
    let s := benchRest benchGroup
    let ts : List Trap := [⟨0, 22, 0⟩, ⟨1, 3, 0⟩]
    ((s.grids.get? 0).map fun g => decide (g.stage ≠ .ended) && !s.gridDone 0 g) = some true ∧
      ((s.teams.get? 0).map (·.grid)) = some 0 ∧ (ts.map (·.lane)).Nodup ∧ ∀ y ∈ ts, 0 ≤ y.lane := by
  decide +kernel

/-- A handler lane that waits for a load into its handler window, and for one into the main window. -/
theorem test_meets_ReturnFromATrap_2 :
    let u : Thread := { pend := [63, 3] }
    (∃ e ∈ u.pend, u.inHandlerWindow e = true) ∧ u.inHandlerWindow 3 = false := by
  decide

/-- A buffered store of a transaction holds a shoot-down, until its thread has exited. -/
theorem test_meets_Shootdowns_2 :
    let g (x : Bool) : Group := { lanes := [(0, { exited := x, tx := { act := true, shot := true, runs := [(0, (0, 16))] } })] }
    let held (s : State) : Bool := s.groups.any fun e => decide (s.ckOf e.2 = 0) && e.2.lanes.any fun l => l.2.tx.act && l.2.tx.shot && !l.2.exited
    held (benchRest (g false)) = true ∧ held (benchRest (g true)) = false := by
  decide +kernel

/-- A main stream lane that stands at a `join` while a trap entry holds it. -/
theorem test_meets_Stopping_2 :
    let g : Group := { lanes := [(0, {}), (1, { tid := 1 })], joins := [.trap 21 2 0 0] }
    let s : State := { State.reset.withFetchWord 96 0xC1C05E00E00E000000000000 with groups := [(0, g)], agenda := [], cur := none }
    (s.thread 0 0).wait = .none ∧ g.setAside 0 = false ∧ g.trapEntry ≠ none ∧
      (match s.fetchWord 0 (g.lpcOf 0) with | .word w => decide ((Raw.ofWord w).key = 0x307) | _ => false) = true := by
  decide +kernel

/-- A host grid and one whose last team has finished; a line of memory that no strong access names. -/
theorem test_meets_ContextDisable_2 :
    let s := benchRest benchGroup
    let t := benchRest { lanes := [(0, { exited := true })] }
    let done (s : State) : Option Bool := (s.grids.get? 0).map fun g => s.gridDone 0 g
    s.grids.sorted = true ∧ done s = some false ∧ done t = some true ∧ s.strongs.get? (4 * (0x8000 / 128)) = none ∧ s.flights = [] ∧
      s.hazyFor .mem 0x8000 none = false ∧ (s.ctx 0).ovUsed = false := by
  decide +kernel

/-- A die that runs, one in reset and one that heat fenced in this clock, with and without jobs of its core. -/
theorem test_meets_Dies_2 :
    let s : State := { withDie (benchRest benchGroup) with jobs := [(5, { benchJob (benchCard (copyCtl false 1 0) 1008 0 2) with done := 1 })] }
    let hot : State := { s with dies := [(0, { log := 0, stage := .fenced, heatAt := some s.clock })] }
    s.heatFenced 0 = false ∧ hot.heatFenced 0 = true ∧ s.jobs.sorted = true ∧ s.links.sorted = true ∧
      (s.jobs.all fun e => !e.2.recorded && !e.2.inside) = true ∧
      (({ s with dies := [(0, { log := 0, stage := .inReset })] } : State).die 0).stage = .inReset := by
  decide +kernel

/-- A port with credits and one without, and a cell of data and one of credits; a line of 128 bytes. -/
theorem test_meets_Links_2 :
    let p : Port := { up := true, credits := [64, 64, 32, 128] }
    let c : Cell := { vc := 3, poi := false, type := 1, dest := 2 ^ 11 - 1, tag := 2 ^ 16 - 1, data := List.replicate 48 7 }
    p.want = [] ∧ p.unacked < 256 ∧ p.credits.getD c.vc 0 ≠ 0 ∧ ({ p with credits := [1, 1, 1, 0] } : Port).credits.getD c.vc 0 = 0 ∧
      c.vc < 4 ∧ c.type < 64 ∧ c.type ≠ 8 ∧ creditCell.type = 8 ∧ c.dest < 2 ^ 11 ∧ c.tag < 2 ^ 16 ∧ c.data.length ≤ 48 ∧
      (List.replicate 128 (7 : Byte)).length = 128 ∧ p.owed.all (· = 0) = true ∧ p.gotNaks < 16 ∧
      (if p.nakSeq = p.rxSeq + 1 then p.naks + 1 else 1) < 16 ∧
      16 ≤ (if ({ p with nakSeq := 0, naks := 15 } : Port).nakSeq = p.rxSeq + 1 then 15 + 1 else 1) := by
  decide +kernel

/-- Two links to one peer of which one may carry its cells, a peer that no link reaches, and the two ports of a die. -/
theorem test_meets_Links_3 :
    let up : Port := { up := true }
    let s : State := { State.reset with links := [(0, up), (1, {})] }
    let t : State := { State.reset with links := [(12, up), (13, up)] }
    s.linksTo (Config.linkPeer 0) ≠ [] ∧ State.reset.linksTo 0 = [] ∧ t.groupMember 12 = some 13 ∧ t.groupMember 28 = none := by
  refine ⟨fun h => ?_, ?_, by decide +kernel, by decide +kernel⟩
  · have : 0 ∈ ({ State.reset with links := [(0, { up := true }), (1, {})] } : State).linksTo (Config.linkPeer 0) :=
      List.mem_filter.2 ⟨by decide, by simp [State.link, Tbl.get?]⟩
    rw [h] at this; cases this
  · refine List.filter_eq_nil_iff.2 fun k _ => ?_
    simp [State.link, State.reset]

/-- A request of a peer whose marker counts more writes than have come, and no more. -/
theorem test_meets_Peers_2 :
    let s : State := { benchRest benchGroup with bstate := 5, peerDone := [(256 * 3 + 5, 2)] }
    3 ≤ s.bstate ∧ s.peerHeld = [] ∧ s.peerDone.read 0 (256 * 3 + 5) < 3 ∧ 2 ≤ s.peerDone.read 0 (256 * 3 + 5) := by
  decide +kernel

/-- A run that keeps a pattern which the register no longer holds; links that self-test narrows. -/
theorem test_meets_Power_2 :
    let s : State := { benchRest benchGroup with cores := [(0, { run0 := some { gk := 0, n := 0, pat := some 5 } })], dies := [] }
    ((s.slotRun 0 0).bind (·.pat)) = some 5 ∧ (s.slotRun 0 1).bind (·.pat) = none ∧ clusterOf 0 = 0 ∧
      (s.dies.any fun e => e.2.log = dieOf 0 && e.2.relock) = false ∧ s.slotSwallowed 0 0 = true ∧ s.slotSwallowed 0 1 = false ∧
      (⟨[], [], [], [(3, 5)]⟩ : UnitMap).narrowed = [(3, 5)] ∧ s.clock = 0 := by
  decide +kernel

/-- A placed team of a grid that has not started, and none. -/
theorem test_meets_Placement_3 :
    let s : State := { placeState smallGrid with teams := [(0, { newTeam 7 0 with cores := [0] })] }
    s.unstarted 7 0 = true ∧ (placeState smallGrid).unstarted 7 0 = false := by
  decide +kernel

end Sys2Proof.Machine
end

section
/-! SUPPORT and PROOFS. The registers of a queue and of a function (O44): reading a table after its values change and
after bytes are placed in it; what a write to the block of a queue does; what a message, a completing `pgreq` and an event
record leave unchanged; the record that a drain of the holding buffer puts into the event ring. -/

namespace Sys2Proof.Tbl

variable {β γ : Type}

/-- Changing every value of a table in one way changes what it lists in that way. -/
theorem get?_map_value (m : Tbl β) (f : β → γ) (k : Nat) :
    get? (m.map fun e => (e.1, f e.2)) k = (m.get? k).map f := by
  induction m with
  | nil => rfl
  | cons e m ih =>
    simp only [List.map_cons, get?, ih]
    split <;> rfl

/-- Values written at `n` consecutive keys are read there, and nothing else changes. -/
theorem read_foldl_write_range [DecidableEq β] (m : Tbl β) (d : β) (a n : Nat) (v : Nat → β) (b : Nat) :
    read (((List.range n).map fun i => (a + i, v i)).foldl (fun m e => m.write d e.1 e.2) m) d b =
      if a ≤ b ∧ b < a + n then v (b - a) else m.read d b := by
  induction n with
  | zero => rw [if_neg (by omega)]; rfl
  | succ n ih =>
    rw [List.range_succ, List.map_append, List.foldl_append]
    simp only [List.map_cons, List.map_nil, List.foldl_cons, List.foldl_nil, read_write, ih]
    by_cases last : a + n = b
    · rw [if_pos last, if_pos (by omega), ← last, Nat.add_sub_cancel_left]
    · rw [if_neg last]
      exact if_congr (by omega) rfl rfl

end Sys2Proof.Tbl

namespace Sys2Proof

theorem bytesOf_length (n k : Nat) : (bytesOf n k).length = k := by
  induction k generalizing n with
  | zero => rfl
  | succ k ih => simp [bytesOf, ih]

theorem bytesOf_getD (n k i : Nat) (h : i < k) : (bytesOf n k).getD i 0 = BitVec.ofNat 8 (n / 256 ^ i) := by
  induction k generalizing n i with
  | zero => omega
  | succ k ih =>
    cases i with
    | zero => simp [bytesOf]
    | succ i =>
      rw [bytesOf, List.getD_cons_succ, ih _ _ (by omega), Nat.div_div_eq_div_mul, pow_succ']

end Sys2Proof

namespace Sys2Proof.Machine

/-- A list of bytes placed in a memory is read back at its place, and every other byte stays. -/
theorem read_foldl_write_placeList (m : Tbl Byte) (a : Nat) (l : List Byte) (b : Nat) :
    ((placeList a l).foldl (fun m e => m.write 0 e.1 e.2) m).read 0 b =
      if a ≤ b ∧ b < a + l.length then l.getD (b - a) 0 else m.read 0 b :=
  Tbl.read_foldl_write_range m 0 a l.length (fun i => l.getD i 0) b

/-! ## Functions -/

theorem modFn_fn_same (s : State) (n : Nat) (f : Fn → Fn) : (s.modFn n f).fn n = f (s.fn n) :=
  (modFn_fn s n n f).trans (if_pos rfl)

/-- Several functions changed in one way. -/
theorem foldl_modFn (ns : List Nat) (hn : ns.Nodup) (f : Fn → Fn) (s : State) (n : Nat) :
    (ns.foldl (fun s k => s.modFn k f) s).fn n = if n ∈ ns then f (s.fn n) else s.fn n := by
  induction ns generalizing s with
  | nil => rfl
  | cons k ns ih =>
    rw [List.nodup_cons] at hn
    rw [List.foldl_cons, ih hn.2, modFn_fn]
    grind

theorem foldl_modFn_rest (ns : List Nat) (f : Fn → Fn) (s : State) :
    ns.foldl (fun s k => s.modFn k f) s = { s with fns := (ns.foldl (fun s k => s.modFn k f) s).fns } := by
  induction ns generalizing s with
  | nil => rfl
  | cons k ns ih =>
    rw [List.foldl_cons]
    exact ih _

/-! ## The registers of a queue -/

theorem control_on_of_en {q : Queue} (h : q.en = true) (size : Nat) : q.control size true = q := by
  simp [Queue.control, h]

theorem control_off_of_en {q : Queue} (h : q.en = true) (size : Nat) : q.control size false = { q with en := false } := by
  simp [Queue.control, h]

theorem control_off_of_not_en {q : Queue} (h : q.en = false) (size : Nat) :
    q.control size false = { q with size := size } := by
  simp [Queue.control, h]

/-- EN is set with a legal SIZE and an aligned base alone, and SIZE is stored either way (03 R61). -/
theorem control_on_of_not_en {q : Queue} (h : q.en = false) (size : Nat) :
    q.control size true =
      if 1 ≤ size ∧ size ≤ 16 ∧ q.base.toNat % min (128 * 2 ^ size) 65536 = 0 then
        { q with size := size, en := true, head := q.tail, ovr := false, flt := false, unc := false
                 read := q.read.map fun r => { r with anew := true } }
      else { q with size := size } := by
  rw [Queue.control, if_neg (by simp [h])]
  exact if_congr (by simp [Queue.aligned, and_assoc]) rfl rfl

theorem queueEnable_control {s : State} {qk : Nat} {v : Word} {q' : Queue}
    (h : (s.queue qk).control (v.toNat % 32) true = q') :
    exec (.queueEnable qk v) s = .next { s with queues := s.queues.put qk q' } := h ▸ rfl

theorem queueDisable_control {s : State} {qk : Nat} {v : Word} {q' : Queue}
    (h : (s.queue qk).control (v.toNat % 32) false = q') :
    exec (.queueDisable qk v) s = .next { s with queues := s.queues.put qk q' } := h ▸ rfl

/-! ## MSI-X messages -/

/-- The MSI-X table of a function lets a vector be sent (03 R71). -/
def Fn.sends (f : Fn) (vec : Nat) : Prop := f.msixEn = true ∧ f.msixMask = false ∧ bitOf f.vecMask vec = false

theorem msix_of_sends {s : State} {fn vec : Nat} (h : (s.fn fn).sends vec) :
    s.msix fn vec = s.send ((s.fn fn).message fn vec) := by
  obtain ⟨en, mask, bit⟩ := h
  simp [State.msix, en, mask, bit]

theorem msix_of_not_sends {s : State} {fn vec : Nat} (h : ¬(s.fn fn).sends vec) :
    s.msix fn vec = s.modFn fn fun f => { f with vecPend := f.vecPend ||| 1#64 <<< vec } := by
  rw [State.msix]
  exact if_neg (by simpa [Fn.sends, and_assoc] using h)

theorem msix_groups (s : State) (fn vec : Nat) : (s.msix fn vec).groups = s.groups := by
  by_cases h : (s.fn fn).sends vec
  · rw [msix_of_sends h]; rfl
  · rw [msix_of_not_sends h]; rfl

/-- A message changes no register of a function but the pending bits of its MSI-X table. -/
theorem msix_fn (s : State) (fn vec n : Nat) :
    (s.msix fn vec).fn n = { s.fn n with vecPend := ((s.msix fn vec).fn n).vecPend } := by
  by_cases h : (s.fn fn).sends vec
  · rw [msix_of_sends h]; rfl
  · rw [msix_of_not_sends h, modFn_fn]
    split
    · next same => rw [same]
    · rfl

/-- The message of a queue is one of its function's, or none is sent (03 R71). -/
theorem queueMsix_cases (s : State) (ck q : Nat) (cmp : Bool) :
    s.queueMsix ck q cmp = s ∨ ∃ vec, s.queueMsix ck q cmp = s.msix (ck / 16) vec := by
  unfold State.queueMsix
  dsimp only
  split
  · exact .inr ⟨_, rfl⟩
  · exact .inl rfl

theorem queueMsix_groups (s : State) (ck q : Nat) (cmp : Bool) : (s.queueMsix ck q cmp).groups = s.groups := by
  obtain unsent | ⟨vec, sent⟩ := queueMsix_cases s ck q cmp
  · rw [unsent]
  · rw [sent, msix_groups]

theorem queueMsix_fn (s : State) (ck q : Nat) (cmp : Bool) (n : Nat) :
    (s.queueMsix ck q cmp).fn n = { s.fn n with vecPend := ((s.queueMsix ck q cmp).fn n).vecPend } := by
  obtain unsent | ⟨vec, sent⟩ := queueMsix_cases s ck q cmp
  · rw [unsent]
  · rw [sent]; exact msix_fn s (ck / 16) vec n

/-! ## Lanes that go on -/

/-- A thread as it stands once the lanes that wait in one way go on. -/
def Thread.woken (w : LaneWait) (t : Thread) : Thread := if t.wait = w then t.goOn else t

/-- A group as it stands once the lanes that wait in one way go on. -/
def Group.woken (w : LaneWait) (g : Group) : Group := { g with lanes := g.lanes.map fun e => (e.1, e.2.woken w) }

theorem wakeAll_groups (s : State) (w : LaneWait) :
    (s.wakeAll w).groups = s.groups.map fun e => (e.1, e.2.woken w) := by
  refine List.map_congr_left fun x _ => ?_
  have lanes : (x.2.lanes.map fun (e : Nat × Thread) =>
      if e.2.wait = w then (e.1, { e.2 with wait := .none, lpc := e.2.lpc + 1 }) else e) =
      x.2.lanes.map fun e => (e.1, e.2.woken w) :=
    List.map_congr_left fun e _ => by
      unfold Thread.woken
      split <;> rfl
  dsimp only
  rw [lanes]
  rfl

theorem wakeAll_group (s : State) (w : LaneWait) (gk : Nat) : (s.wakeAll w).group gk = (s.group gk).woken w := by
  rw [State.group, State.group, wakeAll_groups, Tbl.get?_map_value]
  cases s.groups.get? gk <;> rfl

/-- A lane that waits in the way that ends goes on. -/
theorem wakeAll_thread {s : State} {w : LaneWait} {gk l : Nat} (waits : (s.thread gk l).wait = w) (hw : w ≠ .none) :
    (s.wakeAll w).thread gk l = (s.thread gk l).goOn := by
  unfold State.thread at waits ⊢
  rw [wakeAll_group, Group.woken, Tbl.get?_map_value]
  cases found : (s.group gk).lanes.get? l with
  | none => rw [found] at waits; exact absurd waits.symm hw
  | some t => rw [found] at waits; exact if_pos waits

theorem pgreqDone_zero (s : State) (fn : Nat) : s.pgreqDone fn 0 = s := by simp [State.pgreqDone]

/-- A `pgreq` with no record still held wakes its lanes (11 R265). -/
theorem pgreqDone_of_not_held {s : State} {fn tag : Nat} (h0 : tag ≠ 0) (h : ∀ r ∈ (s.fn fn).held, r.tag ≠ tag) :
    s.pgreqDone fn tag = s.wakeAll (.pgreq tag) := by
  rw [State.pgreqDone]
  exact if_neg (by simpa [h0] using h)

theorem pgreqDone_fns (s : State) (fn tag : Nat) : (s.pgreqDone fn tag).fns = s.fns := by
  unfold State.pgreqDone
  split <;> rfl

theorem pgreqDone_sent (s : State) (fn tag : Nat) : (s.pgreqDone fn tag).sent = s.sent := by
  unfold State.pgreqDone
  split <;> rfl

/-! ## The bytes of an event record -/

theorem withPhase_length (r : List Byte) (n size : Nat) : (withPhase r n size).length = r.length := by
  simp [withPhase]

/-- PHASE is a bit of byte 2; the other bytes are the record's (02 R54). -/
theorem withPhase_getD {r : List Byte} (h : 2 < r.length) (n size i : Nat) :
    (withPhase r n size).getD i 0 =
      if i = 2 then r.getD 2 0 ||| BitVec.ofNat 8 (1 - n / 2 ^ size % 2) else r.getD i 0 := by
  unfold withPhase
  split
  · next same => subst same; simp [List.getD_eq_getElem?_getD, h]
  · next other => simp [List.getD_eq_getElem?_getD, Ne.symm other]

theorem stamped_length {r : List Byte} (h : 16 ≤ r.length) (time : DWord) : (stamped r time).length = r.length := by
  simp [stamped, bytesOf_length]
  omega

/-- TIME is in bytes 8 to 15; the other bytes are the record's (02 R54). -/
theorem stamped_getD {r : List Byte} (h : 16 ≤ r.length) (time : DWord) (i : Nat) :
    (stamped r time).getD i 0 =
      if 8 ≤ i ∧ i < 16 then BitVec.ofNat 8 (time.toNat / 256 ^ (i - 8)) else r.getD i 0 := by
  have take : (r.take 8).length = 8 := by rw [List.length_take]; omega
  have front : (r.take 8 ++ bytesOf time.toNat 8).length = 16 := by rw [List.length_append, take, bytesOf_length]
  unfold stamped
  by_cases low : i < 8
  · rw [if_neg (by omega), List.getD_append _ _ _ _ (by omega), List.getD_append _ _ _ _ (by omega)]
    simp [List.getD_eq_getElem?_getD, low]
  by_cases mid : i < 16
  · rw [if_pos (by omega), List.getD_append _ _ _ _ (by omega), List.getD_append_right _ _ _ _ (by omega), take,
      bytesOf_getD _ _ _ (by omega)]
  · rw [if_neg (by omega), List.getD_append_right _ _ _ _ (by omega), front]
    simp [List.getD_eq_getElem?_getD, List.getElem?_drop, show 16 + (i - 16) = i by omega]

/-- The bytes of an event record as they are written: with its TIME, where it has one (03 R67). -/
def EventRecord.written (r : EventRecord) (s : State) : List Byte :=
  match r.time with
  | some ck => stamped r.bytes (s.ctx ck).ctime
  | none => r.bytes

theorem written_length {r : EventRecord} (h : r.bytes.length = 32) (s : State) : (r.written s).length = 32 := by
  unfold EventRecord.written
  split
  · rw [stamped_length (by omega), h]
  · exact h

theorem written_getD {r : EventRecord} (h : r.bytes.length = 32) (s : State) (i : Nat) :
    (r.written s).getD i 0 = r.time.elim (r.bytes.getD i 0) fun ck =>
      if 8 ≤ i ∧ i < 16 then BitVec.ofNat 8 ((s.ctx ck).ctime.toNat / 256 ^ (i - 8)) else r.bytes.getD i 0 := by
  unfold EventRecord.written
  cases r.time with
  | none => rfl
  | some ck => exact stamped_getD (by omega) _ i

/-- TIME leaves the byte of PHASE. -/
theorem written_getD_two {r : EventRecord} (h : r.bytes.length = 32) (s : State) :
    (r.written s).getD 2 0 = r.bytes.getD 2 0 := by
  rw [written_getD h]
  cases r.time <;> simp

/-! ## The event ring -/

/-- The address of the next record in the ring (03 R70). -/
def Fn.ringAt (f : Fn) : Nat := f.erbase.toNat / 32 * 32 + 32 * (f.erw.toNat % 2 ^ f.ersize)

/-- The record with its PHASE at its place, and the memory of the firmware core as it was elsewhere. -/
theorem ringPut_priv (f : Fn) (r : List Byte) (a : Nat) :
    (f.ringPut r).priv.read 0 a =
      if f.ringAt ≤ a ∧ a < f.ringAt + r.length then (withPhase r f.erw.toNat f.ersize).getD (a - f.ringAt) 0
      else f.priv.read 0 a := by
  rw [← withPhase_length r f.erw.toNat f.ersize]
  exact read_foldl_write_placeList f.priv f.ringAt _ a

theorem ringControl_of_en {f : Fn} (h : f.eren = true) (size : Nat) : f.ringControl size true = f := by
  rw [Fn.ringControl, if_pos h, ← h]

/-- Setting EN of ERCTL stores SIZE and makes ERRIDX equal to ERWIDX (03 R70). -/
theorem ringControl_of_not_en {f : Fn} (h : f.eren = false) (size : Nat) :
    f.ringControl size true = { f with ersize := size, eren := true, err := f.erw } := by
  simp [Fn.ringControl, h]

theorem eventRingEnable_control {s : State} {fn : Nat} {v : Word} {f' : Fn}
    (h : (s.fn fn).ringControl (v.toNat % 32) true = f') :
    exec (.eventRingEnable fn v) s = .next { s with fns := s.fns.put fn f' } := h ▸ rfl

/-- The state once a record stands in the ring, before its message (03 R70; 11 R265). -/
def State.recorded (s : State) (fn : Nat) (r : EventRecord) : State :=
  (s.modFn fn (·.ringPut (r.written s))).pgreqDone fn r.tag

/-- Writing an event record: it enters the ring, its `pgreq` may complete, and then its message follows. -/
theorem writeEvent_cases (s : State) (fn : Nat) (r : EventRecord) :
    (r.queue = none ∧ s.writeEvent fn r = s.recorded fn r) ∨
      ∃ ck q, r.queue = some (ck, q) ∧ s.writeEvent fn r = (s.recorded fn r).queueMsix ck q false := by
  cases h : r.queue with
  | none =>
    refine .inl ⟨rfl, ?_⟩
    unfold State.writeEvent
    rw [h]; rfl
  | some x =>
    refine .inr ⟨x.1, x.2, rfl, ?_⟩
    unfold State.writeEvent
    rw [h]; rfl

theorem recorded_fn (s : State) (fn : Nat) (r : EventRecord) :
    (s.recorded fn r).fn fn = (s.fn fn).ringPut (r.written s) := by
  unfold State.recorded State.fn
  rw [pgreqDone_fns]
  exact modFn_fn_same s fn _

theorem writeEvent_groups (s : State) (fn : Nat) (r : EventRecord) :
    (s.writeEvent fn r).groups = (s.recorded fn r).groups := by
  obtain ⟨-, e⟩ | ⟨ck, q, -, e⟩ := writeEvent_cases s fn r
  · rw [e]
  · rw [e, queueMsix_groups]

theorem writeEvent_fn (s : State) (fn : Nat) (r : EventRecord) :
    (s.writeEvent fn r).fn fn =
      { (s.fn fn).ringPut (r.written s) with vecPend := ((s.writeEvent fn r).fn fn).vecPend } := by
  rw [← recorded_fn]
  obtain ⟨-, e⟩ | ⟨ck, q, -, e⟩ := writeEvent_cases s fn r
  · rw [e]
  · rw [e]; exact queueMsix_fn _ ck q false fn

theorem recorded_sent (s : State) (fn : Nat) (r : EventRecord) : (s.recorded fn r).sent = s.sent := pgreqDone_sent _ fn r.tag

theorem recorded_groups_of_untagged {r : EventRecord} (h : r.tag = 0) (s : State) (fn : Nat) :
    (s.recorded fn r).groups = s.groups := by
  rw [State.recorded, h, pgreqDone_zero]
  rfl

/-- With the last record of a `pgreq` its lanes go on (11 R265). -/
theorem recorded_thread {s : State} {fn gk l : Nat} {r : EventRecord} (h0 : r.tag ≠ 0)
    (last : ∀ r' ∈ (s.fn fn).held, r'.tag ≠ r.tag) (waits : (s.thread gk l).wait = .pgreq r.tag) :
    (s.recorded fn r).thread gk l = (s.thread gk l).goOn := by
  have held : ((s.modFn fn (·.ringPut (r.written s))).fn fn).held = (s.fn fn).held := by
    rw [modFn_fn_same]; rfl
  rw [State.recorded, pgreqDone_of_not_held h0 (held ▸ last)]
  exact wakeAll_thread waits (by simp)

theorem thread_of_groups_eq {s t : State} (h : t.groups = s.groups) (gk l : Nat) : t.thread gk l = s.thread gk l := by
  unfold State.thread State.group
  rw [h]

/-! ## The drain of the holding buffer -/

/-- The state once the oldest held record has left the holding buffer, before it is written. -/
def State.unheld (s : State) (fn : Nat) (rest : List EventRecord) : State := s.modFn fn fun f => { f with held := rest }

theorem unheld_fn (s : State) (fn : Nat) (rest : List EventRecord) :
    (s.unheld fn rest).fn fn = { s.fn fn with held := rest } := modFn_fn_same s fn _

/-- The state once the oldest held record has been written. -/
def State.drained (s : State) (fn : Nat) (r : EventRecord) (rest : List EventRecord) : State :=
  (s.unheld fn rest).writeEvent fn r

/-- The oldest held record enters the ring once there is room (03 R70). -/
theorem eventRingDrain_of_open {s : State} {fn : Nat} {r : EventRecord} {rest : List EventRecord}
    (held : (s.fn fn).held = r :: rest) (room : (s.fn fn).ringOpen fn = true) :
    exec (.eventRingDrain fn) s = .next (s.drained fn r rest) := by
  rw [exec_eventRingDrain, execEventRingDrain, held]
  simp only [room, if_true]
  rfl

theorem eventRingDrain_of_idle {s : State} {fn : Nat} (h : (s.fn fn).held = [] ∨ (s.fn fn).ringOpen fn = false) :
    exec (.eventRingDrain fn) s = .next s := by
  rw [exec_eventRingDrain, execEventRingDrain]
  cases held : (s.fn fn).held with
  | nil => rfl
  | cons r rest =>
    have full : (s.fn fn).ringOpen fn = false := h.resolve_left (by simp [held])
    simp [full]

/-- A drain changes the ring and its interrupt, the holding buffer and the pending bits of the MSI-X table. -/
theorem drained_fn (s : State) (fn : Nat) (r : EventRecord) (rest : List EventRecord) :
    (s.drained fn r rest).fn fn =
      { ({ s.fn fn with held := rest } : Fn).ringPut (r.written s) with
        vecPend := ((s.drained fn r rest).fn fn).vecPend } := by
  rw [← unheld_fn]
  exact writeEvent_fn (s.unheld fn rest) fn r

/-- A drain changes nothing of its function but the holding buffer, the ring, its interrupt and the pending bits. -/
theorem drained_rest (s : State) (fn : Nat) (r : EventRecord) (rest : List EventRecord) :
    let f' := (s.drained fn r rest).fn fn
    f' = { s.fn fn with held := rest, priv := f'.priv, erw := (s.fn fn).erw + 1, erEvent := true, vecPend := f'.vecPend } := by
  intro f'
  have whole : f' = _ := drained_fn s fn r rest
  have priv : f'.priv = (({ s.fn fn with held := rest } : Fn).ringPut (r.written s)).priv := by rw [whole]
  rw [priv]
  exact whole

theorem drained_priv {r : EventRecord} (h : r.bytes.length = 32) (s : State) (fn : Nat) (rest : List EventRecord) (a : Nat) :
    ((s.drained fn r rest).fn fn).priv.read 0 a =
      if (s.fn fn).ringAt ≤ a ∧ a < (s.fn fn).ringAt + 32 then
        (withPhase (r.written s) (s.fn fn).erw.toNat (s.fn fn).ersize).getD (a - (s.fn fn).ringAt) 0
      else (s.fn fn).priv.read 0 a := by
  have put := ringPut_priv { s.fn fn with held := rest } (r.written s) a
  rw [written_length h] at put
  rw [drained_fn]
  exact put

/-- The bytes of the drained record in the ring, with its PHASE and its TIME (02 R54). -/
theorem drained_byte {r : EventRecord} (h : r.bytes.length = 32) (s : State) (fn : Nat) (rest : List EventRecord) {i : Nat}
    (hi : i < 32) :
    ((s.drained fn r rest).fn fn).priv.read 0 ((s.fn fn).ringAt + i) =
      if i = 2 then r.bytes.getD 2 0 ||| BitVec.ofNat 8 (1 - (s.fn fn).erw.toNat / 2 ^ (s.fn fn).ersize % 2)
      else r.time.elim (r.bytes.getD i 0) fun ck =>
        if 8 ≤ i ∧ i < 16 then BitVec.ofNat 8 ((s.ctx ck).ctime.toNat / 256 ^ (i - 8)) else r.bytes.getD i 0 := by
  rw [drained_priv h, if_pos (by omega), Nat.add_sub_cancel_left, withPhase_getD (by rw [written_length h]; omega),
    written_getD_two h, written_getD h]

theorem drained_byte_elsewhere {r : EventRecord} (h : r.bytes.length = 32) (s : State) (fn : Nat) (rest : List EventRecord)
    {a : Nat} (ha : a < (s.fn fn).ringAt ∨ (s.fn fn).ringAt + 32 ≤ a) :
    ((s.drained fn r rest).fn fn).priv.read 0 a = (s.fn fn).priv.read 0 a := by
  rw [drained_priv h, if_neg (by omega)]

/-- No message follows a record without a queue (03 R71). -/
theorem drained_of_queueless {r : EventRecord} (h : r.queue = none) (s : State) (fn : Nat) (rest : List EventRecord) :
    ((s.drained fn r rest).fn fn).vecPend = (s.fn fn).vecPend ∧
      (s.drained fn r rest).sent = s.sent := by
  obtain ⟨-, e⟩ | ⟨ck, q, named, -⟩ := writeEvent_cases (s.unheld fn rest) fn r
  · rw [State.drained, e, recorded_fn, unheld_fn, recorded_sent]
    exact ⟨rfl, rfl⟩
  · rw [h] at named
    cases named

theorem drained_groups_of_untagged {r : EventRecord} (h : r.tag = 0) (s : State) (fn : Nat) (rest : List EventRecord) :
    (s.drained fn r rest).groups = s.groups :=
  (writeEvent_groups _ fn r).trans (recorded_groups_of_untagged h _ fn)

/-- A `pgreq` whose last record is drained completes (11 R265). -/
theorem drained_thread {s : State} {fn gk l : Nat} {r : EventRecord} {rest : List EventRecord} (h0 : r.tag ≠ 0)
    (last : ∀ r' ∈ rest, r'.tag ≠ r.tag) (waits : (s.thread gk l).wait = .pgreq r.tag) :
    (s.drained fn r rest).thread gk l = (s.thread gk l).goOn := by
  rw [State.drained, thread_of_groups_eq (writeEvent_groups _ fn r)]
  exact recorded_thread h0 (by rw [unheld_fn]; exact last) waits

/-! ## The virtual functions -/

/-- The numbers of the virtual functions (00 R8). -/
def virtualFns : List Nat := (List.range 16).map (· + 1)

theorem mem_virtualFns (n : Nat) : n ∈ virtualFns ↔ 1 ≤ n ∧ n ≤ 16 := by
  unfold virtualFns
  simp only [List.mem_map, List.mem_range]
  exact ⟨fun ⟨i, hi, e⟩ => by omega, fun h => ⟨n - 1, by omega, by omega⟩⟩

theorem vfEnable_eq {s : State} (h : 3 ≤ s.bstate) :
    exec .vfEnable s = .next (virtualFns.foldl (fun s k => s.modFn k fun f => { f with enabled := true }) s) := by
  rw [exec_vfEnable, execVfEnable, if_neg (by omega), virtualFns, List.foldl_map]

/-- The sixteen virtual functions are enabled in one block, and nothing else changes (00 R8). -/
theorem vfEnable_of_ready {s : State} (h : 3 ≤ s.bstate) :
    ∃ t, exec .vfEnable s = .next t ∧ t = { s with fns := t.fns } ∧
      ∀ n, t.fn n = if 1 ≤ n ∧ n ≤ 16 then { s.fn n with enabled := true } else s.fn n := by
  refine ⟨_, vfEnable_eq h, foldl_modFn_rest .., fun n => ?_⟩
  rw [foldl_modFn virtualFns (by decide)]
  exact if_congr (mem_virtualFns n) rfl rfl

/-! ## The mailbox -/

/-- A posted reply sends vector 0 where the MSI-X table lets it (03 R57, R58). -/
theorem mboutPost_of_sends {s : State} {fn : Nat} (h : (s.fn fn).sends 0) :
    exec (.mboutPost fn) s = .next { s with
      fns := s.fns.put fn { s.fn fn with mbout := true }
      sent := .msix fn 0 ((s.fn fn).vecAddr.read 0 0) ((s.fn fn).vecData.read 0 0) :: s.sent } := by
  rw [exec_mboutPost, execMboutPost, msix_of_sends (by rw [modFn_fn_same]; exact h), modFn_fn_same]
  rfl

theorem mboutPost_of_not_sends {s : State} {fn : Nat} (h : ¬(s.fn fn).sends 0) :
    ∃ t, exec (.mboutPost fn) s = .next t ∧ t = { s with fns := t.fns } ∧
      t.fn fn = { s.fn fn with mbout := true, vecPend := (s.fn fn).vecPend ||| 1#64 } := by
  refine ⟨_, by rw [exec_mboutPost, execMboutPost, msix_of_not_sends (by rw [modFn_fn_same]; exact h)], rfl, ?_⟩
  rw [modFn_fn_same, modFn_fn_same]
  rfl

/-! ## The registers -/

/-- Settles O44: each register write is one update of its queue or its function, and a drain writes the oldest held record. -/
theorem queueAndFunctionRegisters : Obligations.QueueAndFunctionRegisters := by
  unfold Obligations.QueueAndFunctionRegisters
  refine ⟨fun qk v s => ⟨rfl, rfl, rfl, fun on => ⟨?_, ?_⟩, fun off => ⟨?_, fun legal => ?_, fun illegal => ?_⟩⟩,
    fun fn v s => ⟨fun enabled => ?_, fun disabled => ?_, mboutPost_of_sends, mboutPost_of_not_sends, rfl,
      fun on => ?_, fun off => ?_, eventRingDrain_of_idle, fun r rest held room len => ?_⟩,
    fun s => ⟨fun early => ?_, vfEnable_of_ready⟩⟩
  · exact queueEnable_control (control_on_of_en on _)
  · exact queueDisable_control (control_off_of_en on _)
  · exact queueDisable_control (control_off_of_not_en off _)
  · exact queueEnable_control ((control_on_of_not_en off _).trans (if_pos legal))
  · exact queueEnable_control ((control_on_of_not_en off _).trans (if_neg illegal))
  · exact congrArg Host.Outcome.next (if_pos enabled)
  · exact congrArg Host.Outcome.next (if_neg (by simp [disabled]))
  · exact eventRingEnable_control (ringControl_of_en on _)
  · exact eventRingEnable_control (ringControl_of_not_en off _)
  · exact ⟨_, _, eventRingDrain_of_open held room, rfl, drained_rest s fn r rest,
      ⟨fun i hi => (drained_byte len s fn rest hi).trans (if_congr Iff.rfl rfl (by cases r.time <;> rfl)),
        fun a ha => drained_byte_elsewhere len s fn rest ha⟩,
      fun queueless => drained_of_queueless queueless s fn rest, fun untagged => drained_groups_of_untagged untagged s fn rest,
      fun tagged last gk l waits => drained_thread tagged last waits⟩
  · exact congrArg Host.Outcome.next (if_pos early)

end Sys2Proof.Machine
end

section
/-! SUPPORT. Two invariants of every step (O59, O60), proved together: `Keeps o s` says that `s` keeps whatever of the two held in
`o`. One lemma for each function of the model says that it keeps them; a function of a group, a thread, a team or an access keeps
that it is sound. The two theorems then speak of `step` alone. -/

namespace Sys2Proof.Tbl

variable {β : Type} {p : β → Prop} {m : Tbl β}

/-- A table lists its keys in order, each once, and all its values meet a condition. -/
def Each (p : β → Prop) (m : Tbl β) : Prop := m.sorted = true ∧ ∀ e ∈ m, p e.2

theorem each_nil : Each p ([] : Tbl β) := ⟨rfl, fun _ h => by cases h⟩

theorem Each.put {k : Nat} {v : β} (h : m.Each p) (hv : p v) : (m.put k v).Each p := by
  refine ⟨sorted_put h.1 k v, fun e he => ?_⟩
  rcases mem_put he with rfl | old
  · exact hv
  · exact h.2 e old

theorem Each.filter {f : Nat × β → Bool} (h : m.Each p) : Each p (m.filter f) :=
  ⟨sorted_filter h.1 f, fun e he => h.2 e (List.mem_filter.1 he).1⟩

theorem Each.del {k : Nat} (h : m.Each p) : (m.del k).Each p := h.filter

theorem Each.get? {k : Nat} {v : β} (h : m.Each p) (found : m.get? k = some v) : p v := h.2 _ (mem_of_get? found)

theorem Each.getD {k : Nat} {d : β} (h : m.Each p) (hd : p d) : p ((m.get? k).getD d) := by
  cases found : m.get? k with
  | none => exact hd
  | some v => exact h.get? found

theorem Each.modify {k : Nat} {f : β → β} (h : m.Each p) (hf : ∀ v, p v → p (f v)) : (m.modify k f).Each p := by
  unfold Tbl.modify
  cases found : m.get? k with
  | none => exact h
  | some v => exact h.put (hf v (h.get? found))

/-- Changing values in place keeps the order of the keys. -/
theorem Each.map {γ : Type} {q : γ → Prop} {f : Nat × β → Nat × γ} (h : m.Each p) (keys : ∀ e, (f e).1 = e.1)
    (hf : ∀ e, p e.2 → q (f e).2) : Each q (m.map f) := by
  refine ⟨?_, fun e he => ?_⟩
  · rw [sorted_iff, List.map_map, show (fun e : Nat × γ => e.1) ∘ f = (·.1) from funext keys]
    exact (sorted_iff m).1 h.1
  · obtain ⟨a, ha, rfl⟩ := List.mem_map.1 he
    exact hf a (h.2 a ha)

/-- Values numbered from 0. -/
theorem each_zip {α : Type} {l : List α} {f : α → β} (hf : ∀ x ∈ l, p (f x)) :
    Each p ((List.range l.length).zip (l.map f)) := by
  refine ⟨?_, fun e he => ?_⟩
  · rw [sorted_iff, List.map_fst_zip (by simp)]
    exact List.pairwise_lt_range
  · obtain ⟨x, hx, eq⟩ := List.mem_map.1 (List.of_mem_zip he).2
    rw [← eq]
    exact hf x hx

/-- All values of a table meet a condition. -/
def All (p : β → Prop) (m : Tbl β) : Prop := ∀ e ∈ m, p e.2

theorem all_nil : All p ([] : Tbl β) := fun _ h => nomatch h

theorem All.put {k : Nat} {v : β} (h : m.All p) (hv : p v) : (m.put k v).All p := by
  intro e he
  rcases mem_put he with rfl | old
  · exact hv
  · exact h e old

theorem All.filter {f : Nat × β → Bool} (h : m.All p) : All p (m.filter f) := fun e he => h e (List.mem_filter.1 he).1

theorem All.del {k : Nat} (h : m.All p) : (m.del k).All p := h.filter

theorem All.get? {k : Nat} {v : β} (h : m.All p) (found : m.get? k = some v) : p v := h _ (mem_of_get? found)

theorem All.map {f : Nat × β → Nat × β} (h : m.All p) (hf : ∀ e, p e.2 → p (f e).2) : All p (m.map f) := by
  intro e he
  obtain ⟨a, ha, rfl⟩ := List.mem_map.1 he
  exact hf a (h a ha)

end Sys2Proof.Tbl

namespace Sys2Proof.Machine

/-- A window base in its place, and the bytes that a transaction buffers listed in order. -/
def SoundAt (wb : Nat) (wset : Tbl Byte) : Prop := (wb = 0 ∨ wb = 24 ∨ wb = 48 ∨ wb = 72) ∧ wset.sorted = true

/-- A thread's window base is in its place, and the bytes that its transaction buffers are listed in order. -/
abbrev Thread.sound (t : Thread) : Prop := SoundAt t.wb t.tx.wset

/-- A group's lanes are listed in order, and its threads are sound. -/
abbrev Group.sound (g : Group) : Prop := g.lanes.Each Thread.sound

/-- The threads of a team's continuations are sound. -/
abbrev Team.sound (t : Team) : Prop := ∀ c ∈ t.conts, c.th.sound

/-- The groups and the continuations of a saved team are sound. -/
abbrev SavedTeam.sound (v : SavedTeam) : Prop := (∀ x ∈ v.groups, x.2.2.sound) ∧ v.team.sound

/-- The bytes that an access will write are listed in order. -/
def FlightKind.sound : FlightKind → Prop
  | .store b | .spill b _ => b.sorted = true
  | _ => True

theorem store_sound {b : Tbl Byte} (h : b.sorted = true) : (FlightKind.store b).sound := h

theorem fill_sound : FlightKind.fill.sound := trivial

theorem spill_sound {b : Tbl Byte} {p} (h : b.sorted = true) : (FlightKind.spill b p).sound := h

/-- The bytes that an access in flight will write are listed in order. -/
abbrev Flight.sound (f : Flight) : Prop := f.kind.sound

theorem Flight.sound_iff (f : Flight) : f.sound ↔ f.kept := by
  cases kind : f.kind <;> simp only [Flight.sound, Flight.kept, FlightKind.sound, kind]

/-- What the two invariants say of the fields that they speak of, each as far as it held in `o`. -/
structure KeepsOf (o : State) (mem scratch chip : Tbl Byte) (groups : Tbl Group) (teams : Tbl Team)
    (savedTeams : Tbl SavedTeam) (flights : Tbl Flight) (strongs : Tbl (List StrongNote)) (rels : Tbl (List RelNote))
    (hazy : Tbl (List (List Nat × Nat))) (grids : Tbl Grid) (jobs : Tbl Job) (heldRecords : Tbl HeldRecord)
    (residencies : Tbl Res) (links : Tbl Port) : Prop where
  mem : o.memoriesWf → Memory.wf mem = true
  scratch : o.memoriesWf → Memory.wf scratch = true
  chip : o.memoriesWf → Memory.wf chip = true
  groups : o.tablesKept → groups.Each Group.sound
  teams : o.tablesKept → teams.Each Team.sound
  savedTeams : o.tablesKept → savedTeams.All SavedTeam.sound
  flights : o.tablesKept → flights.Each Flight.sound
  strongs : o.tablesKept → strongs.sorted = true
  rels : o.tablesKept → rels.sorted = true
  hazy : o.tablesKept → hazy.sorted = true
  grids : o.tablesKept → grids.sorted = true
  jobs : o.tablesKept → jobs.sorted = true
  heldRecords : o.tablesKept → heldRecords.sorted = true
  residencies : o.tablesKept → residencies.sorted = true
  links : o.tablesKept → links.sorted = true

/-- A state keeps the invariants of another: memories in canonical form, tables in order. -/
abbrev Keeps (o s : State) : Prop :=
  KeepsOf o s.mem s.scratch s.chip s.groups s.teams s.savedTeams s.flights s.strongs s.rels s.hazy s.grids s.jobs
    s.heldRecords s.residencies s.links

theorem Keeps.refl (s : State) : Keeps s s where
  mem h := h.1
  scratch h := h.2.1
  chip h := h.2.2
  groups := fun ⟨gs, _, _, g, _⟩ => ⟨gs, g⟩
  teams := fun ⟨_, ts, _, _, t, _⟩ => ⟨ts, t⟩
  savedTeams := fun ⟨_, _, _, _, _, v, _⟩ => v
  flights := fun ⟨_, _, fs, _, _, _, f, _⟩ => ⟨fs, fun e he => (Flight.sound_iff e.2).2 (f e he)⟩
  strongs := fun ⟨_, _, _, _, _, _, _, n, _⟩ => n.1
  rels := fun ⟨_, _, _, _, _, _, _, n, _⟩ => n.2.1
  hazy := fun ⟨_, _, _, _, _, _, _, n, _⟩ => n.2.2
  grids := fun ⟨_, _, _, _, _, _, _, _, g, _⟩ => g
  jobs := fun ⟨_, _, _, _, _, _, _, _, _, j, _⟩ => j
  heldRecords := fun ⟨_, _, _, _, _, _, _, _, _, _, r, _⟩ => r
  residencies := fun ⟨_, _, _, _, _, _, _, _, _, _, _, r, _⟩ => r
  links := fun ⟨_, _, _, _, _, _, _, _, _, _, _, _, l⟩ => l

theorem Keeps.memoriesWf {o s : State} (h : Keeps o s) (ho : o.memoriesWf) : s.memoriesWf :=
  ⟨h.mem ho, h.scratch ho, h.chip ho⟩

theorem Keeps.tablesKept {o s : State} (h : Keeps o s) (ho : o.tablesKept) : s.tablesKept :=
  ⟨(h.groups ho).1, (h.teams ho).1, (h.flights ho).1, (h.groups ho).2, (h.teams ho).2, h.savedTeams ho,
    fun e he => (Flight.sound_iff e.2).1 ((h.flights ho).2 e he), ⟨h.strongs ho, h.rels ho, h.hazy ho⟩, h.grids ho,
    h.jobs ho, h.heldRecords ho, h.residencies ho, h.links ho⟩

/-- Every next state that an answer gives keeps the invariants. -/
def KeepsNext (o : State) (a : Answer) : Prop := ∀ t, a = .next t → Keeps o t

end Sys2Proof.Machine

end

section
/-! SUPPORT. Rules for answers, pairs, loops and parts of a state that keeps the invariants (O59, O60). -/

namespace Sys2Proof.Tbl

variable {β γ : Type} {m : Tbl β}

theorem sorted_modify {k : Nat} {f : β → β} (h : m.sorted = true) : (m.modify k f).sorted = true := by
  unfold Tbl.modify
  split
  · exact sorted_put h _ _
  · exact h

/-- Changing values in place keeps the order of the keys. -/
theorem sorted_map {f : Nat × β → Nat × γ} (h : m.sorted = true) (keys : ∀ e, (f e).1 = e.1) :
    Tbl.sorted (m.map f) = true := by
  rw [sorted_iff, List.map_map, show (fun e : Nat × γ => e.1) ∘ f = (·.1) from funext keys]
  exact (sorted_iff m).1 h

/-- Items at the addresses of a range. -/
theorem sorted_ranged {a n : Nat} {f : Nat → β} : Tbl.sorted ((List.range n).map fun i => (a + i, f i)) = true := by
  rw [sorted_iff, List.map_map]
  exact List.pairwise_lt_range.map _ fun _ _ h => Nat.add_lt_add_left h a

theorem sorted_dropRange {lo hi : Nat} (h : m.sorted = true) : (m.dropRange lo hi).sorted = true := sorted_filter h _

end Sys2Proof.Tbl

namespace Sys2Proof.Machine

variable {o s : State}

/-! ## Answers, pairs and loops -/

/-- The state that a search finds keeps the invariants. -/
def KeepsSome (o : State) (x : Option State) : Prop := ∀ t, x = some t → Keeps o t

theorem Keeps.next (h : Keeps o s) : KeepsNext o (.next s) := fun t e => by cases e; exact h

theorem Keeps.some (h : Keeps o s) : KeepsSome o (some s) := fun t e => by cases e; exact h

theorem keepsSome_none (o : State) : KeepsSome o none := fun _ e => nomatch e

theorem Keeps.of_fst {α : Type} {p : State × α} {a : α} (h : Keeps o p.1) (e : p = (s, a)) : Keeps o s := by
  rw [e] at h; exact h

theorem Keeps.of_snd {α : Type} {p : α × State} {a : α} (h : Keeps o p.2) (e : p = (a, s)) : Keeps o s := by
  rw [e] at h; exact h

/-- A loop over the state. -/
theorem Keeps.foldl {α : Type} {f : State → α → State} {l : List α} (h : Keeps o s)
    (hf : ∀ u x, Keeps o u → Keeps o (f u x)) : Keeps o (l.foldl f s) := by
  induction l generalizing s with
  | nil => exact h
  | cons x l ih => exact ih (hf s x h)

/-- A loop that needs to know where its items come from. -/
theorem Keeps.foldl_mem {α : Type} {f : State → α → State} {l : List α} (h : Keeps o s)
    (hf : ∀ u x, x ∈ l → Keeps o u → Keeps o (f u x)) : Keeps o (l.foldl f s) :=
  List.foldlRecOn (motive := Keeps o) l f h fun u hu x hx => hf u x hx hu

/-- A loop that carries something beside the state. -/
theorem Keeps.foldl_fst {α β : Type} {f : State × β → α → State × β} {l : List α} {a : State × β} (h : Keeps o a.1)
    (hf : ∀ a x, Keeps o a.1 → Keeps o (f a x).1) : Keeps o (l.foldl f a).1 := by
  induction l generalizing a with
  | nil => exact h
  | cons x l ih => exact ih (hf a x h)

theorem Keeps.foldr {α : Type} {f : α → State → State} {l : List α} (h : Keeps o s)
    (hf : ∀ x u, Keeps o u → Keeps o (f x u)) : Keeps o (l.foldr f s) := by
  induction l with
  | nil => exact h
  | cons x l ih => exact hf x _ ih

theorem Keeps.foldr_fst {α β : Type} {f : α → State × β → State × β} {l : List α} {a : State × β} (h : Keeps o a.1)
    (hf : ∀ x a, Keeps o a.1 → Keeps o (f x a).1) : Keeps o (l.foldr f a).1 := by
  induction l with
  | nil => exact h
  | cons x l ih => exact hf x _ ih

/-! ## Kept parts of a kept state -/

theorem fresh_sound : ({} : Thread).sound := ⟨.inl rfl, rfl⟩

theorem empty_sound : ({} : Group).sound := Tbl.each_nil

theorem Keeps.group {gk : Nat} (h : Keeps o s) (ho : o.tablesKept) : (s.group gk).sound :=
  (h.groups ho).getD empty_sound

theorem Keeps.thread {gk l : Nat} (h : Keeps o s) (ho : o.tablesKept) : (s.thread gk l).sound :=
  (h.group ho).getD fresh_sound

theorem Group.sound.of_fst {α : Type} {g : Group} {p : Group × α} {a : α} (h : p.1.sound) (e : p = (g, a)) :
    g.sound := by
  rw [e] at h; exact h

theorem Thread.sound.of_fst {α : Type} {t : Thread} {p : Thread × α} {a : α} (h : p.1.sound) (e : p = (t, a)) :
    t.sound := by
  rw [e] at h; exact h

theorem conts_filter {l : List Cont} {f : Cont → Bool} (h : ∀ c ∈ l, c.th.sound) : ∀ c ∈ l.filter f, c.th.sound :=
  fun c hc => h c (List.mem_filter.1 hc).1

theorem conts_append {l : List Cont} {c : Cont} (h : ∀ c ∈ l, c.th.sound) (hc : c.th.sound) :
    ∀ x ∈ l ++ [c], x.th.sound := by
  intro x hx
  rcases List.mem_append.1 hx with old | new
  · exact h x old
  · rw [List.mem_singleton.1 new]
    exact hc

/-- A loop over a group. -/
theorem sound_foldl {α : Type} {f : Group → α → Group} {l : List α} {g : Group} (h : g.sound)
    (hf : ∀ g x, g.sound → (f g x).sound) : (l.foldl f g).sound := by
  induction l generalizing g with
  | nil => exact h
  | cons x l ih => exact ih (hf g x h)

/-- Putting entries one by one into a table keeps its order. -/
theorem sorted_foldl {α β : Type} {f : Tbl β → α → Tbl β} {l : List α} {m : Tbl β} (h : m.sorted = true)
    (hf : ∀ m x, m.sorted = true → (f m x).sorted = true) : (l.foldl f m).sorted = true := by
  induction l generalizing m with
  | nil => exact h
  | cons x l ih => exact ih (hf m x h)

theorem each_foldl {α β : Type} {p : β → Prop} {f : Tbl β → α → Tbl β} {l : List α} {m : Tbl β} (h : m.Each p)
    (hf : ∀ m x, m.Each p → (f m x).Each p) : (l.foldl f m).Each p := by
  induction l generalizing m with
  | nil => exact h
  | cons x l ih => exact ih (hf m x h)

theorem wf_foldl {α : Type} {f : Tbl Byte → α → Tbl Byte} {l : List α} {m : Tbl Byte} (h : Memory.wf m = true)
    (hf : ∀ m x, Memory.wf m = true → Memory.wf (f m x) = true) : Memory.wf (l.foldl f m) = true := by
  induction l generalizing m with
  | nil => exact h
  | cons x l ih => exact ih (hf m x h)

theorem sorted_place {a n v} : (place a n v).sorted = true := Tbl.sorted_ranged

theorem sorted_placeList {a l} : (placeList a l).sorted = true := Tbl.sorted_ranged

theorem sorted_storeBytes {a n v} : (storeBytes a n v).sorted = true := sorted_place

theorem wf_write {m : Tbl Byte} {a : Nat} {v : Byte} (h : Memory.wf m = true) : Memory.wf (m.write 0 a v) = true :=
  Tbl.canonical_write h a v

theorem wf_dropRange {m : Tbl Byte} {lo hi : Nat} (h : Memory.wf m = true) : Memory.wf (m.dropRange lo hi) = true :=
  Tbl.canonical_dropRange h lo hi

end Sys2Proof.Machine

end

section
/-! SUPPORT. What the registers, the memory and the notes of ordering keep of the two invariants: one lemma per function of
the model, in the order of the files named (O59, O60). -/

namespace Sys2Proof.Machine

variable {o s : State} {g : Group} {t : Thread}

/-! ## Regs.lean -/

theorem Keeps.modCore {c f} (h : Keeps o s) : Keeps o (s.modCore c f) := h

theorem Keeps.modDie {p f} (h : Keeps o s) : Keeps o (s.modDie p f) := h

theorem Keeps.modCluster {k f} (h : Keeps o s) : Keeps o (s.modCluster k f) := h

theorem Keeps.modLink {k f} (h : Keeps o s) : Keeps o (s.modLink k f) :=
  { h with links := fun ho => Tbl.sorted_put (h.links ho) k _ }

theorem Keeps.modFn {n f} (h : Keeps o s) : Keeps o (s.modFn n f) := h

theorem Keeps.modCtx {ck f} (h : Keeps o s) : Keeps o (s.modCtx ck f) := h

theorem Keeps.modQueue {qk f} (h : Keeps o s) : Keeps o (s.modQueue qk f) := h

theorem Keeps.modGrid {k f} (h : Keeps o s) : Keeps o (s.modGrid k f) :=
  { h with grids := fun ho => Tbl.sorted_modify (h.grids ho) }

theorem Keeps.modTeam {k f} (h : Keeps o s) (hf : ∀ t, t.sound → (f t).sound) : Keeps o (s.modTeam k f) :=
  { h with teams := fun ho => (h.teams ho).modify hf }

theorem Keeps.modGroup {k f} (h : Keeps o s) (hf : ∀ g, g.sound → (f g).sound) : Keeps o (s.modGroup k f) :=
  { h with groups := fun ho => (h.groups ho).modify hf }

theorem Keeps.modRes {k f} (h : Keeps o s) : Keeps o (s.modRes k f) :=
  { h with residencies := fun ho => Tbl.sorted_modify (h.residencies ho) }

theorem Keeps.modFlight {k f} (h : Keeps o s) (hf : ∀ x, x.sound → (f x).sound) : Keeps o (s.modFlight k f) :=
  { h with flights := fun ho => (h.flights ho).modify hf }

theorem Keeps.fresh (h : Keeps o s) : Keeps o s.fresh.2 := h

theorem Keeps.freeIdx (h : Keeps o s) : Keeps o s.freeIdx.2 := h

theorem Group.sound.modThread {l f} (h : g.sound) (hf : ∀ t, t.sound → (f t).sound) : (g.modThread l f).sound :=
  h.modify hf

theorem Keeps.modThread {k l f} (h : Keeps o s) (hf : ∀ t, t.sound → (f t).sound) : Keeps o (s.modThread k l f) :=
  h.modGroup (fun _ h1 => h1.modThread hf)

/-- An update of a group that needs what the state is known to keep. -/
theorem Keeps.modGroup_of {k f} (h : Keeps o s) (hf : o.tablesKept → ∀ g, g.sound → (f g).sound) :
    Keeps o (s.modGroup k f) :=
  { h with groups := fun ho => (h.groups ho).modify (hf ho) }

/-- An update of a thread that needs what the state is known to keep. -/
theorem Keeps.modThread_of {k l f} (h : Keeps o s) (hf : o.tablesKept → ∀ t, t.sound → (f t).sound) :
    Keeps o (s.modThread k l f) :=
  h.modGroup_of fun ho _ hg => hg.modThread (hf ho)

/-- An update of a team that needs what the state is known to keep. -/
theorem Keeps.modTeam_of {k f} (h : Keeps o s) (hf : o.tablesKept → ∀ t, t.sound → (f t).sound) :
    Keeps o (s.modTeam k f) :=
  { h with teams := fun ho => (h.teams ho).modify (hf ho) }

theorem Thread.sound.setEntry {e v} (h : t.sound) : (t.setEntry e v).sound := h

theorem Thread.sound.setReg {handler i v} (h : t.sound) : (t.setReg handler i v).sound := h.setEntry

theorem Thread.sound.setRegs {hd i n v} (h : t.sound) : (t.setRegs hd i n v).sound := by
  induction n generalizing t i v with
  | zero => exact h
  | succ n ih => exact ih h.setReg

theorem Thread.sound.setEntries {e n v} (h : t.sound) : (t.setEntries e n v).sound := by
  induction n generalizing t e v with
  | zero => exact h
  | succ n ih => exact ih h.setEntry

theorem Thread.sound.setPred {k b} (h : t.sound) : (t.setPred k b).sound := by
  unfold Thread.setPred
  split <;> exact h

theorem Group.sound.setScalar {i v} (h : g.sound) : (g.setScalar i v).sound := h

theorem Group.sound.setScalars {i n v} (h : g.sound) : (g.setScalars i n v).sound := by
  induction n generalizing g i v with
  | zero => exact h
  | succ n ih => exact ih h.setScalar

theorem Group.sound.setLpc {l v} (h : g.sound) : (g.setLpc l v).sound := h.modThread (fun _ h1 => h1)

theorem Group.sound.advance {l} (h : g.sound) : (g.advance l).sound := h.modThread (fun _ h1 => h1)

theorem Group.sound.advanceAll {ls} (h : g.sound) : (g.advanceAll ls).sound :=
  sound_foldl h (fun _ _ h1 => h1.advance)

theorem Thread.sound.unpend {es} (h : t.sound) : (t.unpend es).sound := h

theorem Thread.sound.deliver {d n origin v} (h : t.sound) : (t.deliver d n origin v).sound := by
  unfold Thread.deliver
  split
  · exact h
  · extract_lets es t1
    have ht1 : t1.sound := h.unpend
    split
    · exact ht1.setEntries
    · exact ht1

/-! ## Cells.lean -/

theorem Keeps.linkDown {link} (h : Keeps o s) : Keeps o (s.linkDown link) := by
  unfold State.linkDown
  extract_lets p cells s1
  have hs1 : Keeps o s1 := h.modLink
  split
  · exact hs1.modLink
  · exact hs1

theorem Keeps.strain {link} (h : Keeps o s) : Keeps o (s.strain link) := by
  unfold State.strain
  extract_lets p
  split
  · exact h
  · split
    · exact h.linkDown
    · exact h.modLink

theorem Keeps.linkSend {peer line cs} (h : Keeps o s) : Keeps o (s.linkSend peer line cs) := by
  unfold State.linkSend
  extract_lets ks
  split
  · exact h.modLink
  · exact h

/-! ## Memory.lean -/

theorem Keeps.setByte {p a v} (h : Keeps o s) : Keeps o (s.setByte p a v) := by
  unfold State.setByte
  split
  · exact { h with mem := fun ho => wf_write (h.mem ho) }
  · exact { h with scratch := fun ho => wf_write (h.scratch ho) }
  · exact { h with chip := fun ho => wf_write (h.chip ho) }

theorem Keeps.setPoisons {p l} (h : Keeps o s) : Keeps o (s.setPoisons p l) := by
  unfold State.setPoisons
  split <;> exact h

theorem Keeps.clearPoison {p keys} (h : Keeps o s) : Keeps o (s.clearPoison p keys) := by
  unfold State.clearPoison
  extract_lets g
  exact h.setPoisons

theorem Keeps.poisonRange {p a n} (h : Keeps o s) : Keeps o (s.poisonRange p a n) := by
  unfold State.poisonRange
  extract_lets g units
  exact h.setPoisons

theorem Keeps.markStale {lines cause} (h : Keeps o s) : Keeps o (s.markStale lines cause) :=
  h.foldl (fun _ _ h1 => h1.modRes)

theorem Keeps.dropRels {p bytes} (h : Keeps o s) : Keeps o (s.dropRels p bytes) := by
  unfold State.dropRels
  split
  · exact h
  · exact { h with rels := fun ho => Tbl.sorted_map (h.rels ho) fun e => by split <;> rfl }

theorem Keeps.write {p bytes} (h : Keeps o s) : Keeps o (s.write p bytes) := by
  unfold State.write
  extract_lets s1 s2
  have hs1 : Keeps o s1 := by
    unfold s1
    split
    · exact h.markStale
    · exact h
  have hs2 : Keeps o s2 := hs1.clearPoison.dropRels
  exact hs2.foldl (fun _ _ h1 => h1.setByte)

theorem Keeps.count {who sel} (h : Keeps o s) : Keeps o (s.count who sel) := by
  unfold State.count
  split
  · exact h.modTeam (fun _ h1 => h1)
  · exact h

theorem Keeps.l2Touch {line slice v ck who wr} (h : Keeps o s) : Keeps o (s.l2Touch line slice v ck who wr) := by
  unfold State.l2Touch
  extract_lets base ways s1 top raised
  have hs1 : Keeps o s1 := h.count
  split
  · split
    · exact Keeps.count h
    · exact h
  · split
    · exact hs1
    · split
      · extract_lets s2
        have hs2 : Keeps o s2 := by
          unfold s2
          split
          · split
            · exact hs1.count
            · exact hs1
          · exact hs1
        exact hs2
      · exact hs1

theorem Keeps.writeHome {ck pa leaf who b} (h : Keeps o s) : Keeps o (s.writeHome ck pa leaf who b) := by
  unfold State.writeHome
  extract_lets s1
  have hs1 : Keeps o s1 := h.write
  exact hs1.foldl (fun _ _ h1 => h1.l2Touch)

theorem Keeps.writePhys {ck pa b} (h : Keeps o s) : Keeps o (s.writePhys ck pa b) := h.writeHome

theorem Keeps.walkTouch {ck va} (h : Keeps o s) : Keeps o (s.walkTouch ck va) := by
  unfold State.walkTouch
  extract_lets t
  split
  · exact h
  · exact h.foldl (fun _ _ h1 => h1.l2Touch)

theorem Keeps.xlat {ck va need} (h : Keeps o s) : Keeps o (s.xlat ck va need).1 := by
  unfold State.xlat
  extract_lets s1
  have hs1 : Keeps o s1 := by
    unfold s1
    split
    · exact h
    · exact h.walkTouch
  exact hs1

theorem Keeps.takeReplies {gk} (h : Keeps o s) : Keeps o (s.takeReplies gk) := h

theorem Keeps.lookup {gk ck page} (h : Keeps o s) : Keeps o (s.lookup gk ck page).1 := by
  unfold State.lookup
  extract_lets c d
  split
  · exact h.modCore
  · split
    · extract_lets s1
      have hs1 : Keeps o s1 := h.modCore
      exact hs1
    · split
      · exact h
      · split
        · exact h
        · split
          · exact h
          · split
            next e4 =>
              extract_lets w
              exact (h.fresh.of_snd e4 :)

theorem Keeps.lookups {gk ck l} (h : Keeps o s) : Keeps o (s.lookups gk ck l).1 := by
  induction l generalizing s with
  | nil => exact h
  | cons page rest ih =>
    unfold State.lookups
    split
    next u r e =>
      split
      next v rs e' =>
        have hv : Keeps o v := (ih (h.lookup.of_fst e)).of_fst e'
        split <;> exact hv

theorem Keeps.send {m} (h : Keeps o s) : Keeps o (s.send m) := h

theorem Keeps.msix {fn vec} (h : Keeps o s) : Keeps o (s.msix fn vec) := by
  unfold State.msix
  extract_lets f
  split
  · exact h.send
  · exact h.modFn

theorem Keeps.sendPending {fn} (h : Keeps o s) : Keeps o (s.sendPending fn) := by
  unfold State.sendPending
  extract_lets f out
  split
  · exact h
  · exact Keeps.modFn (h.foldl (fun _ _ h1 => h1.send))

theorem Keeps.sendPeer {ck e bulk r} (h : Keeps o s) : Keeps o (s.sendPeer ck e bulk r) := by
  unfold State.sendPeer
  extract_lets m peer k r1 s1
  have hs1 : Keeps o s1 := by
    unfold s1
    split <;> exact h
  exact hs1.send.linkSend

theorem Keeps.askPeer {ck e va n kind data} (h : Keeps o s) : Keeps o (s.askPeer ck e va n kind data) := h.sendPeer

theorem Keeps.devRead {ck va n need} (h : Keeps o s) : Keeps o (s.devRead ck va n need).1 := by
  unfold State.devRead
  split
  next e => exact h.xlat.of_fst e
  next e1 =>
    split
    · extract_lets b
      exact (h.xlat.of_fst e1).freeIdx.askPeer
    · exact h.xlat.of_fst e1
  next e => exact h.xlat.of_fst e
  next e => exact h.xlat.of_fst e

theorem Keeps.devWrite {ck va b} (h : Keeps o s) : Keeps o (s.devWrite ck va b).1 := by
  unfold State.devWrite
  split
  next e => exact (h.xlat.of_fst e).writeHome
  next e1 =>
    split
    · split
      next e3 => exact ((h.xlat.of_fst e1).freeIdx.of_snd e3).askPeer
    · exact h.xlat.of_fst e1
  next e => exact h.xlat.of_fst e
  next e => exact h.xlat.of_fst e

/-! ## Order.lean -/

theorem Thread.sound.sees {v} (h : t.sound) : (t.sees v).sound := h

theorem Keeps.syncLanes {ls} (h : Keeps o s) : Keeps o (s.syncLanes ls) :=
  h.foldl (fun _ _ h1 => h1.modThread (fun _ h2 => h2.sees))

theorem Keeps.putRel {p n} (h : Keeps o s) : Keeps o (s.putRel p n) := by
  unfold State.putRel
  extract_lets k
  exact { h with rels := fun ho => Tbl.sorted_put (h.rels ho) k _ }

theorem Keeps.releasedBy {f m} (h : Keeps o s) : Keeps o (s.releasedBy f m) := by
  unfold State.releasedBy
  split
  · split
    · exact h
    · exact h.putRel
  · exact h

theorem Thread.sound.tookFrom {f ns} (h : t.sound) : (t.tookFrom f ns).sound := by
  unfold Thread.tookFrom
  split
  · exact h
  · extract_lets t1
    have ht1 : t1.sound := by
      unfold t1
      split
      · exact h.sees
      · exact h
    exact ht1

theorem Keeps.blur {p as} (h : Keeps o s) : Keeps o (s.blur p as) := by
  unfold State.blur
  split
  · exact h
  · split
    next e => exact (h.freeIdx.of_snd e).foldl (fun _ _ h1 => h1.setByte)

theorem Keeps.blurRead {p a n} (h : Keeps o s) : Keeps o (s.blurRead p a n) := by
  unfold State.blurRead
  split
  · exact h
  · exact h.blur

theorem Keeps.haze {f tid wrote} (h : Keeps o s) : Keeps o (s.haze f tid wrote) := by
  unfold State.haze
  extract_lets os seen
  split
  · exact h
  · refine { h with hazy := fun ho => sorted_foldl (h.hazy ho) ?_ }
    intro m x e
    extract_lets a key kept cs es
    split
    · exact Tbl.sorted_del e key
    · exact Tbl.sorted_put e key es

theorem Keeps.strongNote {f tid wrote} (h : Keeps o s) : Keeps o (s.strongNote f tid wrote) := by
  unfold State.strongNote
  split
  · exact h
  · extract_lets s1 s2 key u n rest
    have hs1 : Keeps o s1 := h.haze
    have hs2 : Keeps o s2 := hs1.fresh
    split
    · exact hs1
    · exact { hs2 with strongs := fun ho => Tbl.sorted_put (hs2.strongs ho) key _ }

theorem Keeps.forget {lo hi} (h : Keeps o s) : Keeps o (s.forget lo hi) := by
  unfold State.forget
  extract_lets out
  exact { h with
    strongs := fun ho => Tbl.sorted_filter (h.strongs ho) _
    rels := fun ho => Tbl.sorted_filter (h.rels ho) _
    hazy := fun ho => Tbl.sorted_filter (h.hazy ho) _ }

end Sys2Proof.Machine

end

section
/-! SUPPORT. What the operations on units, groups and lanes, the flags, the issue of an instruction and the checks of an
access keep of the two invariants (O59, O60). -/

namespace Sys2Proof.Machine

variable {o s : State} {g : Group} {t : Thread}

/-! ## Ops.lean -/

theorem Keeps.queueMsix {ck q cmp} (h : Keeps o s) : Keeps o (s.queueMsix ck q cmp) := by
  unfold State.queueMsix
  extract_lets v
  split
  · exact h.msix
  · exact h

theorem Group.sound.await {m w} (h : g.sound) : (g.await m w).sound :=
  sound_foldl h (fun _ _ h1 => h1.modThread (fun _ h2 => h2))

theorem Keeps.wakeAll {w} (h : Keeps o s) : Keeps o (s.wakeAll w) := by
  unfold State.wakeAll
  extract_lets on
  have hon : ∀ g, g.sound → (on g).sound := fun g hg =>
    Tbl.Each.map hg (fun e => by dsimp only; split <;> rfl) fun e he => by
      split
      · exact he
      · exact he
  exact { h with
    groups := fun ho => (h.groups ho).map (fun _ => rfl) fun e he => hon e.2 he
    savedTeams := fun ho => (h.savedTeams ho).map fun e he => ⟨fun x hx => by
      obtain ⟨y, hy, rfl⟩ := List.mem_map.1 hx
      exact hon _ (he.1 y hy), he.2⟩ }

theorem Keeps.pgreqDone {fn tag} (h : Keeps o s) : Keeps o (s.pgreqDone fn tag) := by
  unfold State.pgreqDone
  split
  · exact h
  · exact h.wakeAll

theorem Keeps.writeEvent {fn r} (h : Keeps o s) : Keeps o (s.writeEvent fn r) := by
  unfold State.writeEvent
  extract_lets bytes s1 s2
  have hs1 : Keeps o s1 := h.modFn
  have hs2 : Keeps o s2 := hs1.pgreqDone
  split
  · exact hs2.queueMsix
  · exact hs2

theorem Keeps.postEvent {fn r} (h : Keeps o s) : Keeps o (s.postEvent fn r) := by
  unfold State.postEvent
  extract_lets f
  split
  · exact h.writeEvent
  · exact h.modFn

theorem Keeps.event {ck kind status cls id count detail} (h : Keeps o s) :
    Keeps o (s.event ck kind status cls id count detail) :=
  h.postEvent

theorem Keeps.redirect {ck r id detail done} (h : Keeps o s) : Keeps o (s.redirect ck r id detail done) :=
  h.event.postEvent

theorem Keeps.ringRead {ck core a} (h : Keeps o s) : Keeps o (s.ringRead ck core a).1 := by
  unfold State.ringRead
  split
  · exact h
  · exact h.devRead

theorem Keeps.ringStore {ck core a b} (h : Keeps o s) : Keeps o (s.ringStore ck core a b).1 := by
  unfold State.ringStore
  split
  · exact h.write
  · exact h.devWrite

theorem Keeps.ringWrite {ck core ring lo hi r} (h : Keeps o s) : Keeps o (s.ringWrite ck core ring lo hi r).1 := by
  unfold State.ringWrite
  extract_lets r1 maxE
  split
  · exact h
  · split
    next e => exact h.ringRead.of_fst e
    next e =>
      extract_lets f w ents slot
      split
      · exact h.ringRead.of_fst e
      · split
        · exact h.ringRead.of_fst e
        · split
          · exact h.ringRead.of_fst e
          · split
            next e1 => exact (h.ringRead.of_fst e).ringStore.of_fst e1
            next e1 => exact ((h.ringRead.of_fst e).ringStore.of_fst e1).ringStore

theorem Keeps.signal {k g} (h : Keeps o s) : Keeps o (s.signal k g) := by
  unfold State.signal
  split
  · exact h
  · extract_lets add va fail
    have hfail : ∀ s st, Keeps o s → Keeps o (fail s st) := fun _ _ h1 => h1.event
    split
    next s1 _ _ e =>
      split
      · exact hfail s1 _ (h.xlat.of_fst e)
      · extract_lets v
        exact (h.xlat.of_fst e).writeHome.putRel
    next s1 _ e1 =>
      split
      · split
        next e3 =>
          extract_lets s3
          have hs3 : Keeps o s3 := ((h.xlat.of_fst e1).freeIdx.of_snd e3).askPeer
          split
          · exact hfail s3 _ hs3
          · exact hfail s3 _ hs3
          · exact hs3
      · exact hfail s1 _ (h.xlat.of_fst e1)
    next s1 e => exact hfail s1 _ (h.xlat.of_fst e)
    next s1 _ _ e => exact hfail s1 _ (h.xlat.of_fst e)

theorem Keeps.trace {ck gk lane lpc kind tag value} (h : Keeps o s) :
    Keeps o (s.trace ck gk lane lpc kind tag value) := by
  unfold State.trace
  extract_lets c size n s1
  have hs1 : Keeps o s1 := h.modCtx
  split
  · split
    next e1 =>
      extract_lets tag1 value1 r
      exact (hs1.freeIdx.of_snd e1).devWrite
  · exact h

theorem Keeps.setThr {ck bits} (h : Keeps o s) : Keeps o (s.setThr ck bits) := by
  unfold State.setThr
  extract_lets s1 c new s2 r
  have hs1 : Keeps o s1 := h.modCtx
  have hs2 : Keeps o s2 := hs1.modCtx
  split
  · exact hs1
  · split
    next e => exact hs2.devWrite.of_fst e
    next e => exact (hs2.devWrite.of_fst e).event

theorem Keeps.dropToken {team tid} (h : Keeps o s) : Keeps o (s.dropToken team tid) := h

theorem Keeps.askToken {core team tid} (h : Keeps o s) : Keeps o (s.askToken core team tid) := by
  unfold State.askToken
  extract_lets l
  split <;> exact h

theorem Keeps.clearThr {ck bits} (h : Keeps o s) : Keeps o (s.clearThr ck bits) := by
  unfold State.clearThr
  extract_lets c again
  exact h.modCtx.setThr

theorem Keeps.txAbort {gk l cause} (h : Keeps o s) : Keeps o (s.txAbort gk l cause) := by
  unfold State.txAbort
  extract_lets g t cnt conflict s1
  have hs1 : Keeps o s1 := by
    refine h.modThread ?_
    intro t1 h1
    extract_lets u u1
    have hu : u.sound := by
      unfold u
      split
      · exact h1.deliver
      · exact h1
    exact ⟨hu.1, rfl⟩
  split
  · exact hs1.dropToken
  · split
    · exact hs1.askToken
    · exact hs1

theorem Keeps.gridComplete {k} (h : Keeps o s) : Keeps o (s.gridComplete k) := by
  unfold State.gridComplete
  split
  · exact h
  · extract_lets s1 s2
    have hs1 : Keeps o s1 := h.signal
    have hs2 : Keeps o s2 := by
      unfold s2
      split
      · exact hs1
      · exact hs1.queueMsix
    exact { hs2 with grids := fun ho => Tbl.sorted_del (hs2.grids ho) k }

theorem Keeps.recordDone {r} (h : Keeps o s) : Keeps o (s.recordDone r) := by
  unfold State.recordDone
  extract_lets s1
  have hs1 : Keeps o s1 := by
    unfold s1
    split
    · exact h.gridComplete
    · exact h
  split
  next f _ =>
    split
    · extract_lets s2
      have hs2 : Keeps o s2 := by
        unfold s2
        exact { hs1 with jobs := fun ho => Tbl.sorted_put (hs1.jobs ho) f _ }
      split
      · exact hs2.event
      · unfold s2
        exact { hs1 with jobs := fun ho => Tbl.sorted_put (hs1.jobs ho) f _ }
    · exact hs1
  · exact hs1

theorem Keeps.sweepJobs (h : Keeps o s) : Keeps o s.sweepJobs := by
  unfold State.sweepJobs
  extract_lets s1 rest
  have hs1 : Keeps o s1 := h.foldl (fun _ _ h1 => h1.modCore)
  exact { hs1 with jobs := fun ho => Tbl.sorted_filter (hs1.jobs ho) _ }

theorem Keeps.moveRecord {k r bytes detail} (h : Keeps o s) : Keeps o (s.moveRecord k r bytes detail) := by
  unfold State.moveRecord
  extract_lets s1 lost s2
  have hs1 : Keeps o s1 := h.redirect
  have hs2 : Keeps o s2 := by
    unfold s2
    exact { hs1 with heldRecords := fun ho => Tbl.sorted_del (hs1.heldRecords ho) k }
  split
  · exact { hs1 with heldRecords := fun ho => Tbl.sorted_put (hs1.heldRecords ho) k _ }
  · refine Keeps.recordDone ?_
    split
    · exact hs2.modGrid
    · exact hs2

theorem Keeps.recordNote {r slot} (h : Keeps o s) : Keeps o (s.recordNote r slot) := by
  unfold State.recordNote
  split
  · exact h.putRel
  · exact h

theorem Keeps.tryRecord {k r} (h : Keeps o s) : Keeps o (s.tryRecord k r) := by
  unfold State.tryRecord
  split
  · split
    next e1 =>
      have hu := h.ringWrite.of_fst e1
      exact { hu with heldRecords := fun ho => Tbl.sorted_put (hu.heldRecords ho) k r }
    next e1 => exact (h.ringWrite.of_fst e1).moveRecord
    next e1 =>
      refine Keeps.recordDone (Keeps.recordNote ?_)
      have hu := h.ringWrite.of_fst e1
      exact { hu with heldRecords := fun ho => Tbl.sorted_del (hu.heldRecords ho) k }

theorem Keeps.putRecord {r} (h : Keeps o s) : Keeps o (s.putRecord r) := by
  unfold State.putRecord
  split
  next k _ e =>
    split
    · have hu := h.fresh.of_snd e
      exact { hu with heldRecords := fun ho => Tbl.sorted_put (hu.heldRecords ho) k r }
    · exact (h.fresh.of_snd e).tryRecord

theorem Keeps.gridRecord {g bytes grid behind} (h : Keeps o s) : Keeps o (s.gridRecord g bytes grid behind) :=
  h.putRecord

theorem Keeps.closeGrid {k rejected} (h : Keeps o s) : Keeps o (s.closeGrid k rejected) := by
  unfold State.closeGrid
  split
  · exact h
  · extract_lets s1
    have hs1 : Keeps o s1 := by
      unfold s1
      split <;> exact h
    exact hs1.modGrid

theorem Keeps.endGrid {k status detail behind} (h : Keeps o s) : Keeps o (s.endGrid k status detail behind) := by
  unfold State.endGrid
  split
  · exact h
  · exact h.closeGrid.gridRecord

theorem Keeps.endResidency {k} (h : Keeps o s) : Keeps o (s.endResidency k) := by
  unfold State.endResidency
  split
  · exact h
  · extract_lets zeroOn s1 s2
    have hzeroOn : ∀ s core, Keeps o s → Keeps o (zeroOn s core) := by
      intro s3 core h1
      unfold zeroOn
      split <;> exact h1
    have hs1 : Keeps o s1 := hzeroOn s _ h
    have hs2 : Keeps o s2 := by
      unfold s2
      split
      · exact hzeroOn s1 _ hs1
      · exact hs1
    exact { hs2 with residencies := fun ho => Tbl.sorted_del (hs2.residencies ho) k }

theorem Keeps.sweepRevoked (h : Keeps o s) : Keeps o s.sweepRevoked := h.foldl (fun _ _ h1 => h1.endResidency)

theorem Keeps.removeTeam {tk} (h : Keeps o s) : Keeps o (s.removeTeam tk) := by
  unfold State.removeTeam
  split
  · exact h
  · extract_lets gks mine s1 s2
    have hs1 : Keeps o s1 := h.foldl (fun _ _ h1 => h1.endResidency)
    have hs2 : Keeps o s2 := hs1.foldl (fun _ _ h1 => h1.modCore)
    exact { hs2 with
      teams := fun ho => (hs2.teams ho).del
      groups := fun ho => (hs2.groups ho).filter
      jobs := fun ho => Tbl.sorted_filter (hs2.jobs ho) _
      heldRecords := fun ho => Tbl.sorted_filter (hs2.heldRecords ho) _ }

theorem Keeps.freeRange {ck off size saved} (h : Keeps o s) : Keeps o (s.freeRange ck off size saved) := by
  unfold State.freeRange
  extract_lets s1 c h1 used n hwm
  have hs1 : Keeps o s1 := h.modCtx
  exact hs1.writePhys.writePhys.writePhys

theorem Keeps.removeSaved {tk ck} (h : Keeps o s) : Keeps o (s.removeSaved tk ck) := by
  unfold State.removeSaved
  split
  · exact h
  · extract_lets s1 u
    have hs1 : Keeps o s1 := h.foldl (fun _ _ h1 => h1.endResidency)
    have hu : Keeps o u := hs1.freeRange
    exact { hu with savedTeams := fun ho => (hs1.savedTeams ho).del }

theorem Keeps.stripGrid {k} (h : Keeps o s) : Keeps o (s.stripGrid k) := by
  unfold State.stripGrid
  extract_lets ck s1 s2
  have hs1 : Keeps o s1 := by
    refine h.foldl ?_
    intro u x h1
    extract_lets s3
    have hs3 : Keeps o s3 := by
      unfold s3
      split
      · exact h1.freeRange
      · exact h1
    exact hs3.removeTeam
  have hs2 : Keeps o s2 := hs1.foldl (fun _ _ h1 => h1.removeSaved)
  exact hs2.modGrid

theorem Keeps.abortOne {quiet err k kids} (h : Keeps o s) : Keeps o (s.abortOne quiet err k kids) := by
  unfold State.abortOne
  split
  · exact h
  · extract_lets s1 s2 u
    have hs1 : Keeps o s1 := h.stripGrid
    have hs2 : Keeps o s2 := hs1.closeGrid
    have hu : Keeps o u := hs2.modCtx
    split
    · exact { hu with grids := fun ho => Tbl.sorted_del (hs2.grids ho) k }
    · refine Keeps.endGrid ?_
      split
      · exact hs1.gridRecord
      · exact hs1

theorem Keeps.abortGrids {quiet err top ks} (h : Keeps o s) : Keeps o (s.abortGrids quiet err top ks) :=
  h.foldl (fun _ _ h1 => h1.abortOne)

theorem Keeps.abortGrid {quiet err k} (h : Keeps o s) : Keeps o (s.abortGrid quiet err k) := h.abortGrids

theorem Keeps.disableCtx {ck} (h : Keeps o s) : Keeps o (s.disableCtx ck) := by
  unfold State.disableCtx
  extract_lets s1 s2
  have hs1 : Keeps o s1 := h.modCtx
  have hs2 : Keeps o s2 := hs1
  exact hs2.abortGrids

theorem Keeps.contextFault {gk ts} (h : Keeps o s) : Keeps o (s.contextFault gk ts) := by
  unfold State.contextFault
  split
  · exact h
  · split
    · exact h
    · split
      · exact h.abortGrid

theorem Keeps.doubleFault {gk ts} (h : Keeps o s) : Keeps o (s.doubleFault gk ts) := by
  unfold State.doubleFault
  split
  · exact h
  · split
    · exact h
    · split
      · extract_lets s1 s2 s3
        have hs1 : Keeps o s1 := h.modCtx
        have hs2 : Keeps o s2 := hs1.abortGrid
        have hs3 : Keeps o s3 := hs2.disableCtx
        exact hs3.event

theorem Keeps.dropHandlerResults {gk l} (h : Keeps o s) : Keeps o (s.dropHandlerResults gk l) := by
  unfold State.dropHandlerResults
  extract_lets team t off kind op
  have hkind : ∀ f, f.sound → (kind f).sound := by
    intro f hf
    unfold kind
    unfold Flight.sound at hf
    split <;> simp_all [FlightKind.sound]
  refine Keeps.modThread (s := { s with flights := _, cores := _ }) { h with flights := fun ho => ?_ } fun _ ht => ht
  refine (h.flights ho).map (fun _ => rfl) fun e he => ?_
  dsimp only
  split
  · exact hkind e.2 he
  · exact he

theorem Keeps.leaveWindows {gk ls} (h : Keeps o s) : Keeps o (s.leaveWindows gk ls) :=
  h.foldl (fun _ _ h1 => h1.dropHandlerResults)

theorem Thread.sound.enterHandler {cls det rpc pmask jdepth} (h : t.sound) :
    (t.enterHandler cls det rpc pmask jdepth).sound := by
  unfold Thread.enterHandler
  extract_lets t1
  have ht1 : t1.sound := h.setEntries
  exact ht1.setEntries

theorem Group.sound.takeTrap {ts} (h : g.sound) : (g.takeTrap ts).sound := by
  unfold Group.takeTrap
  extract_lets c p pm qm g1 vec depth g2
  have hg2 : g2.sound := by
    refine sound_foldl (g := g1) h fun g t hg => ?_
    extract_lets pc g3
    have hg3 : g3.sound := hg
    refine hg3.modThread fun k hk => ?_
    have hk' := hk.enterHandler (cls := c) (det := t.det) (rpc := pc) (pmask := pm) (jdepth := depth)
    generalize k.enterHandler c t.det pc pm depth = k' at *
    exact hk'
  exact sound_foldl hg2 fun _ _ hg => hg.modThread fun _ ht => ht

theorem Group.sound.queueTrap {m} (h : g.sound) : (g.queueTrap m).sound :=
  Tbl.Each.map h (fun e => by dsimp only; split <;> rfl) fun e he => by split <;> exact he

theorem Keeps.endRun {gk} (h : Keeps o s) : Keeps o (s.endRun gk) := by
  unfold State.endRun
  extract_lets out
  exact h.modCore

theorem Keeps.raise {gk lead handler ts} (h : Keeps o s) : Keeps o (s.raise gk lead handler ts) := by
  unfold State.raise
  extract_lets act ts1 s1 s2 g c
  have hs1 : Keeps o s1 := h.foldl (fun _ _ h1 => h1.txAbort)
  have hs2 : Keeps o s2 := hs1.endRun
  clear_value ts1
  split
  · exact hs1
  · split
    · exact hs2.doubleFault
    · split
      · exact hs2.contextFault
      · split
        · exact hs2.modGroup (fun _ h1 => h1.queueTrap)
        · extract_lets s3
          have hs3 : Keeps o s3 := hs2.trace
          exact hs3.leaveWindows.modGroup (fun _ h1 => h1.takeTrap)

theorem Group.sound.popTrap (h : g.sound) : g.popTrap.sound := by
  unfold Group.popTrap
  split
  · extract_lets g'
    have hg' : g'.sound := h
    refine sound_foldl hg' (fun g1 x1 h1 => h1.modThread ?_)
    intro t h2
    split <;> exact h2
  · exact h

theorem Keeps.endBind {gk} (h : Keeps o s) : Keeps o (s.endBind gk) := h

theorem Keeps.orphan {gk} (h : Keeps o s) : Keeps o (s.orphan gk) := by
  unfold State.orphan
  extract_lets mine
  refine { h with flights := fun ho => (h.flights ho).map (fun _ => rfl) ?_ }
  exact fun _ h1 => h1

theorem Keeps.reap {gk} (h : Keeps o s) : Keeps o (s.reap gk) := by
  unfold State.reap
  split
  · exact h
  · split
    · exact h
    · extract_lets s1 out s2
      have hs1 : Keeps o s1 := by
        unfold s1
        split
        · exact h
        · exact h.endBind
      have hs2 : Keeps o s2 := hs1.modCore.orphan
      split
      · exact hs1
      · exact { hs2 with groups := fun ho => (hs2.groups ho).del }

/-! ## Operands.lean -/

theorem Thread.sound.write {handler n d v} (h : t.sound) : (t.write handler n d v).sound := by
  unfold Thread.write
  split
  · exact h.setRegs
  · exact h.setPred
  · exact h

theorem Group.sound.write {n d v} (h : g.sound) : (g.write n d v).sound := by
  unfold Group.write
  split
  · exact h.setScalars
  · exact h

theorem Thread.sound.hold {handler n d} (h : t.sound) : (t.hold handler n d).sound := by
  unfold Thread.hold
  split
  · exact h
  · split <;> exact h
  · exact h

theorem Group.sound.hold {n d} (h : g.sound) : (g.hold n d).sound := by
  unfold Group.hold
  split <;> exact h

/-! ## Flags.lean -/

theorem Thread.sound.flags {raised} (h : t.sound) : (t.flags raised).sound := h

/-! ## Issue.lean -/

theorem Keeps.finish {k ts} (h : Keeps o s) : Keeps o (s.finish k ts) := Keeps.reap (Keeps.raise h)

theorem Keeps.withIssuer {f} (h : Keeps o s) (hf : ∀ k u, Keeps o u → Keeps o (f k u)) :
    KeepsNext o (withIssuer s f) := by
  unfold Machine.withIssuer
  split
  · exact fun _ e => nomatch e
  next k _ => exact (hf k s h).next

/-- What a lane's outcome puts into its lane is a sound thread. -/
def LaneOut.sound : LaneOut → Prop
  | .next t | .goto t => t.sound
  | .trap .. => True

theorem Group.sound.laneOut {l x} (h : g.sound) (hx : x.sound) : (g.laneOut l x).sound := by
  cases x with
  | next t => exact Tbl.Each.put h (v := { t with lpc := t.lpc + 1 }) (show t.sound from hx)
  | goto t => exact Tbl.Each.put h (show t.sound from hx)
  | trap => exact h

theorem Group.sound.applyOuts {os} (h : g.sound) (hos : ∀ e ∈ os, e.2.sound) : (g.applyOuts os).sound := by
  induction os generalizing g with
  | nil => exact h
  | cons e os ih =>
    exact ih (h.laneOut (hos e (List.mem_cons_self ..))) fun x hx => hos x (List.mem_cons_of_mem _ hx)

theorem laneOuts_sound {hd k f} (h : g.sound) (hf : ∀ l t, t.sound → (f l t).sound) :
    ∀ e ∈ laneOuts g hd k f, e.2.sound := by
  intro e he
  obtain ⟨l, -, found⟩ := List.mem_filterMap.1 he
  obtain ⟨t, at_l, rfl⟩ := Option.map_eq_some_iff.1 found
  have ht : t.sound := h.get? at_l
  dsimp only
  split
  · exact hf l t ht
  · exact ht

theorem Keeps.laneMode {hd f k} (h : Keeps o s) (hf : ∀ g l t, g.sound → t.sound → (f g l t).sound) :
    Keeps o (laneMode hd f k s) := by
  have hg (ho : o.tablesKept) := h.group ho (gk := k.gk)
  have outs (ho : o.tablesKept) := laneOuts_sound (hd := hd) (k := k) (hg ho) fun l t => hf _ l t (hg ho)
  exact Keeps.finish { h with groups := fun ho => (h.groups ho).put ((hg ho).applyOuts (outs ho)) }

theorem Group.sound.advanceActive {k} (h : g.sound) : (g.advanceActive k).sound := h.advanceAll

theorem Keeps.groupMode {hd f k} (h : Keeps o s) (hf : ∀ g, g.sound → (f g).sound) :
    Keeps o (groupMode hd f k s) := by
  refine Keeps.finish { h with groups := fun ho => (h.groups ho).put (Group.sound.advanceActive ?_) }
  split
  · exact hf _ (h.group ho)
  · exact h.group ho

theorem Keeps.groupModeS {hd f k} (h : Keeps o s) (hf : ∀ u, Keeps o u → Keeps o (f u)) :
    Keeps o (groupModeS hd f k s) := by
  refine (Keeps.modGroup ?_ fun _ hg => hg.advanceActive).finish
  split
  · exact hf s h
  · exact h

theorem Keeps.trapAll {k cls det} (h : Keeps o s) : Keeps o (trapAll k cls det s) := h.finish

theorem Keeps.prepare {gk handler full pc w} (h : Keeps o s) : Keeps o (s.prepare gk handler full pc w).1 := by
  unfold State.prepare
  extract_lets g ck r ready k hits s1 s2 brk bps ready1 runs s3 acts s4 ready2 found rest
  have hs1 : Keeps o s1 := h.trace
  have hs2 : Keeps o s2 := hs1.foldl (fun _ _ h1 => h1.modThread (fun _ h2 => h2))
  have hs3 : Keeps o s3 := by
    unfold s3
    split
    · exact h
    · exact hs1
  have hs4 : Keeps o s4 := hs3.foldl (fun _ _ h1 => h1.txAbort)
  split
  · exact hs2.modCtx.endRun
  · split
    · exact h.trapAll
    · split
      · exact hs4.finish
      · exact hs4

/-! ## Access.lean -/

theorem Keeps.checkAll {gk reqs} (h : Keeps o s) : Keeps o (s.checkAll gk reqs).1 := by
  unfold State.checkAll
  split
  next e => exact h.lookups.of_fst e
  next e => exact h.lookups.of_fst e

theorem Keeps.check {gk r} (h : Keeps o s) : Keeps o (s.check gk r).1 := by
  unfold State.check
  split
  next e => exact h.lookups.of_fst e
  next e => exact h.lookups.of_fst e

theorem Keeps.launchFlight {f} (h : Keeps o s) (hf : o.tablesKept → f.sound) : Keeps o (s.launchFlight f).1 := by
  unfold State.launchFlight
  split
  next e =>
    have hu := h.fresh.of_snd e
    exact { hu with flights := fun ho => (hu.flights ho).put (hf ho) }

theorem Keeps.onThread {team tid f} (h : Keeps o s) (hf : ∀ t, t.sound → (f t).sound) :
    Keeps o (s.onThread team tid f) := by
  unfold State.onThread
  split
  · exact h.modThread hf
  · refine h.modTeam fun t ht c hc => ?_
    obtain ⟨c', hc', rfl⟩ := List.mem_map.1 hc
    split
    · exact hf _ (ht c' hc')
    · exact ht c' hc'

theorem Group.sound.deliver {d n origin v} (h : g.sound) : (g.deliver d n origin v).sound := by
  unfold Group.deliver
  split
  · exact h
  · extract_lets es g1
    have hg1 : g1.sound := h
    split
    · exact hg1.setScalars
    · exact hg1

theorem Keeps.raiseIn {gk ts} (h : Keeps o s) : Keeps o (s.raiseIn gk ts) := by
  unfold State.raiseIn
  extract_lets g hs ms s1
  have hs1 : Keeps o s1 := by
    unfold s1
    split
    · exact h
    · exact h.raise
  split
  · exact hs1
  · exact hs1.raise

theorem Keeps.wake {id step} (h : Keeps o s) : Keeps o (s.wake id step) :=
  h.foldl (fun _ _ h1 => h1.modThread (fun _ h2 => h2))

theorem Keeps.wakeTrap {id cls sel det} (h : Keeps o s) : Keeps o (s.wakeTrap id cls sel det) := by
  unfold State.wakeTrap
  extract_lets ws s1
  have hs1 : Keeps o s1 := h.foldl (fun _ _ h1 => h1.modThread (fun _ h2 => h2))
  exact hs1.foldl (fun _ _ h1 => h1.raiseIn)

end Sys2Proof.Machine

end

section
/-! SUPPORT. What accesses in flight, results, loads and stores keep of the two invariants (O59, O60). -/

namespace Sys2Proof.Machine

variable {o s : State} {g : Group} {t : Thread}

/-! ## Perform.lean -/

theorem Thread.sound.fillFrame {r} (h : t.sound) : (t.fillFrame r).sound := by
  unfold Thread.fillFrame
  extract_lets t1
  have ht1 : t1.sound := h.setEntries
  exact ht1

theorem Thread.sound.doCall {target} (h : t.sound) : (t.doCall target).sound := by
  obtain ⟨base, buffered⟩ := h
  unfold Thread.doCall
  extract_lets wb u
  have moved : wb = 0 ∨ wb = 24 ∨ wb = 48 ∨ wb = 72 := by
    show (t.wb + 24) % 96 = 0 ∨ (t.wb + 24) % 96 = 24 ∨ (t.wb + 24) % 96 = 48 ∨ (t.wb + 24) % 96 = 72
    omega
  have hu : u.sound := ⟨moved, buffered⟩
  exact hu.setEntries

theorem Thread.sound.doRet (h : t.sound) : t.doRet.sound := by
  obtain ⟨base, buffered⟩ := h
  refine ⟨?_, buffered⟩
  show (t.wb + 72) % 96 = 0 ∨ (t.wb + 72) % 96 = 24 ∨ (t.wb + 72) % 96 = 48 ∨ (t.wb + 72) % 96 = 72
  omega

theorem Keeps.peerAnswer (h : Keeps o s) : Keeps o s.peerAnswer.1 := by
  unfold State.peerAnswer
  split
  next e => exact h.freeIdx.of_snd e

theorem Keeps.overlapNote {f tid} (h : Keeps o s) : Keeps o (s.overlapNote f tid) := by
  unfold State.overlapNote
  split <;> exact h

theorem Keeps.strongHere {f} (h : Keeps o s) : Keeps o (s.strongHere f) := h.blur.strongNote

theorem Keeps.releases {f} (h : Keeps o s) : Keeps o (s.releases f) := h.foldl (fun _ _ h1 => h1.releasedBy)

theorem Keeps.touch {first f} (h : Keeps o s) : Keeps o (s.touch first f) := by
  unfold State.touch
  split
  · exact h.l2Touch
  · exact h

theorem Keeps.l1Return {f} (h : Keeps o s) : Keeps o (s.l1Return f) := by
  unfold State.l1Return
  split
  · exact h
  · extract_lets bypass base busy d
    split
    · exact h.modCore
    · split
      · exact h
      · exact h.modCore

theorem Keeps.acquired {f} (h : Keeps o s) : Keeps o (s.acquired f) := by
  unfold State.acquired
  split
  · exact h.modCore
  · exact h

theorem Keeps.relend {f tids} (h : Keeps o s) : Keeps o (s.relend f tids) :=
  h.foldl (fun _ _ h1 => h1.onThread (fun _ h2 => h2))

theorem Keeps.promoted {f} (h : Keeps o s) : Keeps o (s.promoted f) := by
  unfold State.promoted
  split <;> exact h

theorem Thread.sound.readDone {id f ns} (h : t.sound) : (t.readDone id f ns).sound := by
  unfold Thread.readDone
  extract_lets t1
  have ht1 : t1.sound := by
    unfold t1
    split
    · exact h.sees
    · exact h
  split <;> exact ht1

theorem Group.sound.readDone {id f ns} (h : g.sound) : (g.readDone id f ns).sound :=
  h.map (fun _ => rfl) fun e he => by
    split
    · exact he.readDone
    · exact he

theorem Thread.sound.txRead {loc n raw slice home} (h : t.sound) : (t.txRead loc n raw slice home).1.sound := h

/-- A thread that has read in its transaction, put in its place. -/
theorem Keeps.modThread_txRead {v : State} {gk l gk' l' loc n raw slice home t x} (h : Keeps o s)
    (e : (v.thread gk' l').txRead loc n raw slice home = (t, x)) (hv : Keeps o v) :
    Keeps o (s.modThread gk l fun _ => t) :=
  h.modThread_of fun ho _ _ => by
    have ht := (hv.thread ho (gk := gk') (l := l')).txRead (loc := loc) (n := n) (raw := raw) (slice := slice)
        (home := home)
    rwa [e] at ht

theorem Keeps.loadReturn {first id f} (h : Keeps o s) : Keeps o (s.loadReturn first id f) := by
  unfold State.loadReturn
  extract_lets drop s1 v ns s2 home
  have hdrop : ∀ s, Keeps o s → Keeps o (drop s) := by
    intro s3 h1
    unfold drop
    exact { h1 with flights := fun ho => (h1.flights ho).del }
  have hs1 : Keeps o s1 := h.blur
  have hs2 : Keeps o s2 := (hdrop s1 hs1).touch.overlapNote.strongNote.l1Return.acquired.promoted
  split
  · split
    · exact hdrop s h
    · exact (hdrop s h).touch.l1Return
  · extract_lets give free
    have hgive : ∀ s ns v, Keeps o s → Keeps o (give s ns v) := by
      intro s3 ns1 v1 h1
      refine h1.onThread ?_
      intro t h2
      extract_lets t1
      have ht1 : t1.sound := h2.readDone.deliver
      split
      · exact ht1
      · exact ht1.unpend.setPred
    have hfree : ∀ s, Keeps o s → Keeps o (free s) := fun _ h1 => h1.onThread (fun _ h2 => h2.readDone.unpend)
    split
    · split
      next s3 _ e2 => exact (hgive _ _ _ (hdrop s3 (h.peerAnswer.of_fst e2))).acquired.wake
      next s3 e2 => exact (hgive _ _ _ (hdrop s3 (h.peerAnswer.of_fst e2))).wake
      next s3 _ _ e2 =>
        extract_lets s4
        have hs4 : Keeps o s4 := hfree _ (hdrop s3 (h.peerAnswer.of_fst e2))
        split
        · exact Keeps.wake (hs4.onThread (fun _ h1 => h1.setPred.deliver))
        · exact hs4.wakeTrap
    · split
      · exact (hfree _ (hdrop s h)).wakeTrap
      · split
        · split
          · extract_lets act
            clear_value v
            split
            · split
              · exact (hfree s2 hs2).txAbort
              · exact hgive s2 ns _ hs2
            · split
              · split
                next e5 =>
                  exact hgive _ _ _ (hs2.modThread_of
                      (fun ho _ _ => Thread.sound.of_fst (Thread.sound.txRead (hs2.thread ho)) e5))
              · exact hgive s2 ns _ hs2
          · exact hgive s2 ns v hs2
        · exact (hgive s2 ns v hs2).wake
  · extract_lets give free ws s3
    have hgive : ∀ s ns v, Keeps o s → Keeps o (give s ns v) := fun _ _ _ h1 =>
        h1.modGroup (fun _ h2 => h2.deliver.readDone)
    have hfree : ∀ s, Keeps o s → Keeps o (free s) := fun _ h1 => h1.modGroup (fun _ => Group.sound.readDone)
    have hs3 : Keeps o s3 := hs2.foldl (fun _ _ h1 => h1.txAbort)
    split
    · split
      next s4 _ e2 => exact (hgive _ _ _ (hdrop s4 (h.peerAnswer.of_fst e2))).acquired.wake
      next s4 e2 => exact (hgive _ _ _ (hdrop s4 (h.peerAnswer.of_fst e2))).wake
      next s4 _ _ e2 => exact (hfree _ (hdrop s4 (h.peerAnswer.of_fst e2))).wakeTrap
    · split
      · exact (hfree _ (hdrop s h)).wakeTrap
      · clear_value v
        split
        · split
          · exact hfree s3 hs3
          · exact (hgive s3 ns _ hs3).wake
        · split
          next s4 _ e2 =>
            refine Keeps.wake (hgive s4 _ _ (Keeps.of_fst (hs2.foldr_fst ?_) e2))
            intro x3 x4 h1
            split
            next e3 =>
              exact h1.modThread_of (fun ho _ _ => Thread.sound.of_fst (Thread.sound.txRead (hs2.thread ho)) e3)
  · exact h

theorem Keeps.noteRelease {id f} (h : Keeps o s) : Keeps o (s.noteRelease id f) := by
  unfold State.noteRelease
  split <;> exact h

theorem Keeps.writeAs {ids p bytes} (h : Keeps o s) : Keeps o (s.writeAs ids p bytes) := by
  unfold State.writeAs
  extract_lets spared
  exact h.write.foldl (fun _ _ h1 => h1.modRes)

theorem Keeps.storePerformed {first id f bytes} (h : Keeps o s) : Keeps o (s.storePerformed first id f bytes) := by
  unfold State.storePerformed
  extract_lets drop mixed s1 s2
  have hdrop : ∀ s, Keeps o s → Keeps o (drop s) := by
    intro s3 h1
    unfold drop
    exact { h1 with flights := fun ho => (h1.flights ho).del }
  have hs1 : Keeps o s1 := (hdrop s h).writeAs.blur
  have hs2 : Keeps o s2 := by
    unfold s2
    split
    · exact hs1.modCore
    · exact hs1
  split
  · split
    next s3 _ _ e1 => exact (hdrop s3 (h.peerAnswer.of_fst e1)).relend.wakeTrap
    next s3 _ _ e1 => exact (hdrop s3 (h.peerAnswer.of_fst e1)).wake
  · split
    · exact (hdrop s h).relend.wakeTrap
    · exact hs2.touch.overlapNote.strongNote.releases.noteRelease.wake

theorem Keeps.requestPerformed {id f} (h : Keeps o s) : Keeps o (s.requestPerformed id f) := by
  unfold State.requestPerformed
  extract_lets ms fs bytes good s1
  have hs1 : Keeps o s1 := by
    unfold s1
    split
    · exact h
    · exact h.writeAs
  split
  · exact h
  · exact hs1.foldl (fun _ _ h1 => h1.storePerformed)

theorem Keeps.atomWrite {id f tid new ns} (h : Keeps o s) : Keeps o (s.atomWrite id f tid new ns) := by
  unfold State.atomWrite
  extract_lets s1 s2 s3
  have hs1 : Keeps o s1 := h.writeAs
  have hs2 : Keeps o s2 := hs1.blur
  have hs3 : Keeps o s3 := hs2.foldr (fun _ _ h1 => h1.putRel)
  exact hs3.foldl (fun _ _ h1 => h1.releasedBy)

theorem Keeps.atomLane {id f op ecl p} (h : Keeps o s) : Keeps o (s.atomLane id f op ecl p) := by
  unfold State.atomLane
  split
  · extract_lets s1 ns old new s2
    have hs1 : Keeps o s1 := h.blur
    have hs2 : Keeps o s2 := by
      unfold s2
      clear_value new
      split
      · exact hs1.atomWrite
      · exact hs1.relend
    exact hs2.strongNote.onThread (fun _ h1 => h1.readDone.deliver)

theorem Keeps.atomPoison {f p} (h : Keeps o s) : Keeps o (s.atomPoison f p) := by
  unfold State.atomPoison
  split
  · refine h.onThread ?_
    intro t h1
    split
    · exact h1
    · exact h1.deliver

theorem Keeps.atomFree {f os} (h : Keeps o s) : Keeps o (s.atomFree f os) :=
  Keeps.relend (h.foldl (fun _ _ h1 => h1.onThread (fun _ h2 => h2.unpend)))

theorem Keeps.atomicAnswered {id f op ecl ops} (h : Keeps o s) : Keeps o (s.atomicAnswered id f op ecl ops) := by
  unfold State.atomicAnswered
  split
  next e => exact (h.peerAnswer.of_fst e).atomFree.wakeTrap
  next e => exact Keeps.wake (Keeps.relend ((h.peerAnswer.of_fst e).foldl (fun _ _ h1 => h1.atomPoison)))
  next e =>
    extract_lets w
    split
    next e1 =>
      refine Keeps.wake (Keeps.acquired (Keeps.of_fst ((h.peerAnswer.of_fst e).foldl_fst ?_) e1))
      intro x2 x3 h1
      split
      · extract_lets s3
        have hs3 : Keeps o s3 := h1.onThread (fun _ h2 => h2.deliver)
        split
        · exact hs3
        · exact hs3.relend

theorem Keeps.atomicPerformed {id f op ecl ops} (h : Keeps o s) : Keeps o (s.atomicPerformed id f op ecl ops) := by
  unfold State.atomicPerformed
  extract_lets s1 quiet bad good det s2 wrote s3 s4 s5
  have hs1 : Keeps o s1 := by
    unfold s1
    exact { h with flights := fun ho => (h.flights ho).del }
  have hquiet : ∀ s os, Keeps o s → Keeps o (quiet s os) := fun _ _ h1 =>
      h1.foldl (fun _ _ h2 => h2.onThread (fun _ h3 => h3.readDone))
  have hs2 : Keeps o s2 := (hquiet s1 bad hs1).atomFree.wakeTrap
  have hs3 : Keeps o s3 := by
    unfold s3
    split
    · exact Keeps.relend ((hquiet s2 good hs2).foldl (fun _ _ h1 => h1.atomPoison))
    · exact hs2.foldl (fun _ _ h1 => h1.atomLane)
  have hs4 : Keeps o s4 := hs3.touch.overlapNote
  have hs5 : Keeps o s5 := hs4.acquired
  split
  · exact (hquiet s1 ops hs1).atomicAnswered
  · split
    · exact hs2
    · refine Keeps.wake ?_
      split
      · exact hs5.noteRelease
      · exact hs5

theorem Thread.sound.refilled {r} (h : t.sound) :
    ({ ({ t.fillFrame r with ngl := t.ngl - 1 } : Thread).doRet with wait := .none } : Thread).sound := by
  have hf := h.fillFrame (r := r)
  generalize t.fillFrame r = u at hf ⊢
  have hu : ({ u with ngl := t.ngl - 1 } : Thread).sound := hf
  exact hu.doRet

theorem Keeps.windowPerformed {id f} (h : Keeps o s) : Keeps o (s.windowPerformed id f) := by
  unfold State.windowPerformed
  extract_lets s1 back s2 r
  have hs1 : Keeps o s1 := { h with flights := fun ho => (h.flights ho).del }
  have hback : ∀ s r, Keeps o s → Keeps o (back s r) :=
    fun _ _ hv => hv.foldl fun _ _ hw => hw.modThread fun _ ht => ht.refilled
  have hs2 : Keeps o s2 := hs1.blur
  split
  · split
    · split
      next e => exact (hs1.peerAnswer.of_fst e).wakeTrap
      next e => exact (hs1.peerAnswer.of_fst e).foldl fun _ _ hv => hv.modThread fun _ ht => ht
    · refine Keeps.wake (Keeps.touch ?_)
      split
      · exact hs1.writeAs.haze.poisonRange
      · exact hs1.writeAs.haze
  · split
    · split
      split
      next e => exact hback _ _ (hs1.peerAnswer.of_fst e)
      next e => exact (hs1.peerAnswer.of_fst e).wakeTrap
      next e => exact (hs1.peerAnswer.of_fst e).wakeTrap
    · split
      · exact hs1.wakeTrap
      · exact hback _ _ hs2.touch.l1Return.l1Return
  · exact hs1

theorem Keeps.execLoadDataReturn {id} (h : Keeps o s) : KeepsNext o (execLoadDataReturn id s) := by
  unfold Machine.execLoadDataReturn
  refine Keeps.next ?_
  split
  · extract_lets ms
    split
    · exact h.foldl (fun _ _ h1 => h1.loadReturn)
    · exact h
  · exact h

theorem Keeps.execStorePerform {id} (h : Keeps o s) : KeepsNext o (execStorePerform id s) := by
  unfold Machine.execStorePerform
  refine Keeps.next ?_
  split
  · split
    · split
      · exact h
      · exact h.requestPerformed
    · exact h
  · exact h

theorem Keeps.execAtomicPerform {id} (h : Keeps o s) : KeepsNext o (execAtomicPerform id s) := by
  unfold Machine.execAtomicPerform
  refine Keeps.next ?_
  split
  · split
    · split
      · exact h.atomicPerformed
      · exact h
    · exact h
  · exact h

theorem Keeps.execReleaseMarkerMet {id} (h : Keeps o s) : KeepsNext o (execReleaseMarkerMet id s) := by
  unfold Machine.execReleaseMarkerMet
  refine Keeps.next ?_
  split
  · split
    · exact h
    · split
      · exact h.requestPerformed
      · split
        · exact h.atomicPerformed
        · exact h
      · exact h
  · exact h

theorem Keeps.execSpillFillComplete {id} (h : Keeps o s) : KeepsNext o (execSpillFillComplete id s) := by
  unfold Machine.execSpillFillComplete
  refine Keeps.next ?_
  split
  · split
    · exact h.windowPerformed
    · exact h
  · exact h

/-! ## Results.lean -/

theorem Group.sound.flagActive {k raised} (h : g.sound) : (g.flagActive k raised).sound :=
  sound_foldl h (fun _ _ h1 => h1.modThread (fun _ h2 => h2.flags))

theorem Keeps.scalarIssue {w res f k} (h : Keeps o s) : Keeps o (scalarIssue w res f k s) := by
  unfold Machine.scalarIssue
  extract_lets g r
  split
  · split
    · exact h.finish
    · refine Keeps.finish ?_
      exact { h with groups := fun ho => (h.groups ho).put (h.group ho).write.flagActive.advanceActive }
  · refine Keeps.finish ?_
    exact { h with groups := fun ho => (h.groups ho).put (h.group ho).advanceActive }

theorem laneArith_sound {w res f hd l} (h : t.sound) : (laneArith w res f hd g l t).sound := by
  unfold Machine.laneArith
  extract_lets v r
  split
  · exact trivial
  · exact h.write.flags

theorem Keeps.scalarOp {w res f} (h : Keeps o s) : KeepsNext o (scalarOp w res f s) :=
  h.withIssuer (fun _ _ h1 => h1.scalarIssue)

theorem Keeps.vectorOp {w res f} (h : Keeps o s) : KeepsNext o (vectorOp w res f s) :=
  h.withIssuer fun _ _ hu => hu.laneMode fun _ _ _ _ ht => laneArith_sound ht

/-! ## Loads.lean -/

theorem Keeps.txKeep {gk kept l} (h : Keeps o s) : Keeps o (s.txKeep gk kept l).1 := by
  induction l generalizing s kept with
  | nil => exact h
  | cons e rest ih =>
    unfold State.txKeep
    extract_lets held
    split
    · exact h
    · split
      · exact ih h
      · exact ih h.txAbort

theorem Keeps.txFit {gk ls} (h : Keeps o s) : Keeps o (s.txFit gk ls).1 := h.txKeep

theorem Keeps.groupTx {k c} (h : Keeps o s) : Keeps o (s.groupTx k c).1 := by
  unfold State.groupTx
  extract_lets acts
  split
  · exact h
  · split
    next e =>
      extract_lets gone
      refine Keeps.of_fst ?_ e
      split
      · exact h.txFit
      · exact h.foldl (fun _ _ h1 => h1.txAbort)

theorem memFlight_sound {f s gk ls tid r c tx lent kind} (hk : FlightKind.sound kind) :
    (memFlight f s gk ls tid r c tx lent kind).sound := hk

theorem Keeps.sendRemote {f kind data} (h : Keeps o s) : Keeps o (s.sendRemote f kind data) := by
  unfold State.sendRemote
  split
  · extract_lets peer r
    exact h.sendPeer
  · exact h

theorem Keeps.l1Missed {f} (h : Keeps o s) : Keeps o (s.l1Missed f) := by
  unfold State.l1Missed
  split
  · exact h
  · exact h.modCore

theorem Keeps.l1Look {f} (h : Keeps o s) : Keeps o (s.l1Look f).1 := by
  unfold State.l1Look
  split
  · extract_lets s1
    have hs1 : Keeps o s1 := by
      unfold s1
      split
      · exact h.modCore
      · exact h
    split
    · exact hs1.modCore
    · exact hs1
  · split
    · exact h.strongNote.modCore
    · exact h.l1Missed

theorem loadFlight_sound {s : State} {k f flag q r c} : (s.loadFlight k f flag q r c).sound := trivial

theorem Keeps.loadLane {k f flag q r c} (h : Keeps o s) : Keeps o (s.loadLane k f flag q r c).1 := by
  unfold State.loadLane
  extract_lets t n step tx
  have hstep : ∀ s u, Keeps o s → (∀ x, x.sound → (u x).sound) → Keeps o (step s u) := fun _ _ h1 c1 =>
      h1.modThread c1
  split
  · split
    · exact hstep s _ h (fun _ h1 => h1.write.setPred)
    · exact h
  · exact h
  · split
    · split
      · split
        · exact h
        · exact hstep _ _ h.strongHere (fun _ h1 => h1.write.tookFrom)
      · exact h
    · split
      · split
        · exact h.txAbort
        · extract_lets fl ns waits
          have hfl : fl.sound := loadFlight_sound
          split
          next s1 _ e =>
            refine hstep s1 _ (h.l1Look.of_fst e) ?_
            intro t1 h1
            extract_lets t2
            have ht2 : t2.sound := h1.write.tookFrom
            split
            · exact ht2
            · exact ht2.setPred
          next e =>
            split
            next e1 =>
              extract_lets s3 s4 s5
              have hs3 : Keeps o s3 := Keeps.sendRemote (((h.l1Look.of_fst e).launchFlight (fun _ => hfl)).of_fst e1)
              have hs4 : Keeps o s4 := by
                refine hs3.modThread ?_
                intro t1 h1
                split <;> exact h1
              have hs5 : Keeps o s5 := by
                refine hs4.modThread ?_
                intro t1 h1
                extract_lets t2
                have ht2 : t2.sound := h1.hold
                split
                · exact ht2
                · exact ht2.hold
              split
              · exact hs5.modThread (fun _ h1 => h1)
              · exact hstep s5 _ hs5 (fun _ h1 => h1)
      · split
        · exact h.txAbort
        · extract_lets fl ns waits
          have hfl : fl.sound := loadFlight_sound
          split
          next s1 _ e =>
            refine hstep s1 _ (h.l1Look.of_fst e) ?_
            intro t1 h1
            extract_lets t2
            have ht2 : t2.sound := h1.write.tookFrom
            split
            · exact ht2
            · exact ht2.setPred
          next e =>
            split
            next e1 =>
              extract_lets s3 s4 s5
              have hs3 : Keeps o s3 := Keeps.sendRemote (((h.l1Look.of_fst e).launchFlight (fun _ => hfl)).of_fst e1)
              have hs4 : Keeps o s4 := by
                refine hs3.modThread ?_
                intro t1 h1
                split <;> exact h1
              have hs5 : Keeps o s5 := by
                refine hs4.modThread ?_
                intro t1 h1
                extract_lets t2
                have ht2 : t2.sound := h1.hold
                split
                · exact ht2
                · exact ht2.hold
              split
              · exact hs5.modThread (fun _ h1 => h1)
              · exact hstep s5 _ hs5 (fun _ h1 => h1)

theorem Keeps.advanceOthers {k cs} (h : Keeps o s) : Keeps o (s.advanceOthers k cs) :=
  h.modGroup (fun _ h1 => h1.advanceAll)

/-- Lanes run one after another, each from what the one before left. -/
theorem Keeps.runLanes {f l} (h : Keeps o s) (hf : ∀ u r c, Keeps o u → Keeps o (f u r c).1) :
    Keeps o (runLanes f l s).1 := by
  induction l generalizing s with
  | nil => exact h
  | cons rc rest ih => exact ih (hf s rc.1 rc.2 h)

theorem Keeps.loadLanes {f flag k} (h : Keeps o s) : Keeps o (loadLanes f flag k s) := by
  unfold Machine.loadLanes
  extract_lets g cs
  split
  · exact h.setThr
  · split
    · exact h
    · split
      next e => exact h.checkAll.of_fst e
      next e =>
        extract_lets rs1 s2 txs
        have hs2 : Keeps o s2 := (h.checkAll.of_fst e).takeReplies
        split
        · exact h.checkAll.of_fst e
        · split
          next e1 =>
            extract_lets gone
            split
            next e2 =>
              split
              next e3 =>
                exact Keeps.finish (Keeps.advanceOthers
                    ((((hs2.txFit.of_fst e1).fresh.of_snd e2).runLanes (fun _ _ _ h1 => h1.loadLane)).of_fst e3))

theorem groupLoadFlight_sound {s : State} {k f r c} : (s.groupLoadFlight k f r c).sound := trivial

theorem Keeps.tookAll {k f ns} (h : Keeps o s) : Keeps o (s.tookAll k f ns) :=
  h.foldl (fun _ _ h1 => h1.modThread (fun _ h2 => h2.tookFrom))

theorem Keeps.loadGroup {f k} (h : Keeps o s) : Keeps o (loadGroup f k s) := by
  unfold Machine.loadGroup
  extract_lets g act r n
  split
  · exact h.setThr
  · split
    · exact h.groupMode (fun _ h1 => h1)
    · split
      · exact h
      · split
        next e => exact h.check.of_fst e
        next e => exact (h.check.of_fst e).takeReplies.trapAll
        next e =>
          extract_lets ws s2 fl ns s3
          have hs2 : Keeps o s2 := (h.check.of_fst e).takeReplies
          have hs3 : Keeps o s3 := hs2.strongHere.tookAll
          split
          · exact hs2.finish
          · split
            · exact h.check.of_fst e
            · split
              · split
                · exact hs2.trapAll
                · exact Keeps.finish (hs3.modGroup (fun _ h1 => h1.write.advanceActive))
              · split
                next e1 =>
                  extract_lets act1 fl1 ns1 waits
                  have hfl1 : fl1.sound := groupLoadFlight_sound
                  split
                  · exact (hs2.groupTx.of_fst e1).finish
                  · split
                    · exact (hs2.groupTx.of_fst e1).trapAll
                    · split
                      next e3 =>
                        exact Keeps.finish (((hs2.groupTx.of_fst e1).l1Look.of_fst e3).tookAll.modGroup
                            (fun _ h1 => h1.write.advanceActive))
                      next e3 =>
                        split
                        next e4 =>
                          extract_lets s7 s8 s9
                          have hs7 : Keeps o s7 :=
                              Keeps.sendRemote ((((hs2.groupTx.of_fst e1).l1Look.of_fst e3).launchFlight
                              (fun _ => hfl1)).of_fst e4)
                          have hs8 : Keeps o s8 := by
                            unfold s8
                            split
                            · exact hs7.foldl (fun _ _ h1 => h1.modThread (fun _ h2 => h2))
                            · exact hs7
                          have hs9 : Keeps o s9 := hs8.modGroup (fun _ h1 => h1.hold)
                          split
                          · exact Keeps.finish (hs9.foldl (fun _ _ h1 => h1.modThread (fun _ h2 => h2)))
                          · exact Keeps.finish (hs9.modGroup (fun _ h1 => h1.advanceActive))

theorem Thread.sound.txBuffer {loc slice run bytes} (h : t.sound) : (t.txBuffer loc slice run bytes).sound :=
  ⟨h.1, sorted_foldl h.2 fun _ _ hm => Tbl.sorted_put hm ..⟩

theorem sorted_winBytes {mine higher} (h : Tbl.sorted mine = true) : (winBytes mine higher).sorted = true :=
  Tbl.sorted_filter h _

theorem Keeps.storeLane {k f q bytes r c} (h : Keeps o s) (hb : ∀ l, (bytes l).sorted = true) :
    Keeps o (s.storeLane k f q bytes r c).1 := by
  unfold State.storeLane
  extract_lets t step mine s1
  have hstep : ∀ s u, Keeps o s → (∀ x, x.sound → (u x).sound) → Keeps o (step s u) := fun _ _ h1 c1 =>
      h1.modThread c1
  have hs1 : Keeps o s1 := by
    unfold s1
    split
    · exact h.modThread (fun _ h1 => h1)
    · exact h
  split
  · exact h
  · exact h
  · extract_lets u fl waits s2
    have hu : u.sound := memFlight_sound (store_sound (hb _))
    have hfl : fl.sound := hu
    have hs2 : Keeps o s2 := by
      unfold s2
      split
      · exact hs1.modCore
      · exact hs1
    split
    · split
      · exact hs1.txAbort
      · exact hstep s1 _ hs1 (fun _ h1 => h1.txBuffer)
    · split
      · exact hstep _ _ hs1.write.strongHere.releases (fun _ h1 => h1)
      · split
        next e =>
          extract_lets s4
          have hs4 : Keeps o s4 := Keeps.sendRemote ((hs2.launchFlight (fun _ => hfl)).of_fst e)
          split
          · exact hs4.modThread (fun _ h1 => h1)
          · exact hstep s4 _ hs4 (fun _ h1 => h1)

theorem Keeps.storeLanes {f k} (h : Keeps o s) : Keeps o (storeLanes f k s) := by
  unfold Machine.storeLanes
  extract_lets g cs val act
  split
  · exact h
  · split
    next e => exact h.checkAll.of_fst e
    next e =>
      extract_lets rs1 s2 locs whole bytes txs
      have hs2 : Keeps o s2 := (h.checkAll.of_fst e).takeReplies
      have hwhole : ∀ l, (whole l).sorted = true := by
        intro l
        unfold whole
        split
        · exact sorted_storeBytes
        · exact rfl
      have hbytes : ∀ l, (bytes l).sorted = true := fun l => sorted_winBytes (hwhole l)
      split
      · exact h.checkAll.of_fst e
      · split
        next e1 =>
          extract_lets gone
          split
          next e2 =>
            split
            next e3 =>
              exact Keeps.finish (Keeps.advanceOthers
                  ((((hs2.txFit.of_fst e1).fresh.of_snd e2).runLanes (fun _ _ _ h1 => h1.storeLane hbytes)).of_fst
                  e3))

theorem Keeps.groupBuffer {k c mine} (h : Keeps o s) : Keeps o (s.groupBuffer k c mine).1 := by
  unfold State.groupBuffer
  extract_lets acts
  split
  · exact h.foldl (fun _ _ h1 => h1.modThread (fun _ h2 => h2.txBuffer))
  · exact h

theorem Keeps.storeGroup {f k} (h : Keeps o s) : Keeps o (storeGroup f k s) := by
  unfold Machine.storeGroup
  extract_lets g act r
  split
  · exact h.groupMode (fun _ h1 => h1)
  · split
    · exact h
    · split
      next e => exact h.check.of_fst e
      next e => exact (h.check.of_fst e).takeReplies.trapAll
      next e =>
        extract_lets ws loc acts mine
        split
        · exact (h.check.of_fst e).takeReplies.finish
        · split
          · exact h.check.of_fst e
          · split
            next e1 =>
              split
              next e2 =>
                extract_lets act1 fl s4 waits s5
                have hfl : fl.sound := memFlight_sound (store_sound sorted_storeBytes)
                have hs4 : Keeps o s4 := by
                  unfold s4
                  split
                  · exact (((h.check.of_fst e).takeReplies.groupTx.of_fst e1).groupBuffer.of_fst e2).foldl
                        (fun _ _ h1 => h1.modThread (fun _ h2 => h2))
                  · exact ((h.check.of_fst e).takeReplies.groupTx.of_fst e1).groupBuffer.of_fst e2
                have hs5 : Keeps o s5 := by
                  unfold s5
                  split
                  · exact hs4.modCore
                  · exact hs4
                split
                · exact (((h.check.of_fst e).takeReplies.groupTx.of_fst e1).groupBuffer.of_fst e2).finish
                · split
                  · exact (((h.check.of_fst e).takeReplies.groupTx.of_fst e1).groupBuffer.of_fst e2).trapAll
                  · split
                    · exact Keeps.finish (hs4.write.strongHere.releases.modGroup (fun _ h1 => h1.advanceActive))
                    · split
                      next e4 =>
                        extract_lets s7
                        have hs7 : Keeps o s7 := Keeps.sendRemote ((hs5.launchFlight (fun _ => hfl)).of_fst e4)
                        split
                        · exact Keeps.finish (hs7.foldl (fun _ _ h1 => h1.modThread (fun _ h2 => h2)))
                        · exact Keeps.finish (hs7.modGroup (fun _ h1 => h1.advanceActive))

theorem pfFlights_sound {k f q rs} : ∀ x ∈ s.pfFlights k f q rs, x.sound := by
  unfold State.pfFlights
  extract_lets all
  have hall : ∀ x ∈ all, x.sound := by
    intro x hx
    obtain ⟨rc, -, rfl⟩ := List.mem_map.1 hx
    trivial
  refine List.foldlRecOn (motive := fun m => ∀ x ∈ m, Flight.sound x) all _
      (fun _ hx => nomatch hx) fun m hm fl hfl x hx => ?_
  split at hx
  · exact hm x hx
  · rcases List.mem_append.1 hx with old | new
    · exact hm x old
    · rw [List.mem_singleton.1 new]
      exact hall fl hfl

theorem Keeps.prefetch {k f rs} (h : Keeps o s) : Keeps o (s.prefetch k f rs) := by
  unfold State.prefetch
  split
  next q u e =>
    refine (h.fresh.of_snd e).foldl_mem fun v fl hfl hv => ?_
    split
    next e1 => exact hv.l1Look.of_fst e1
    next e1 => exact ((hv.l1Look.of_fst e1).launchFlight fun _ => pfFlights_sound fl hfl).sendRemote

theorem Keeps.withChecks {k rs f} (h : Keeps o s) (hf : ∀ rs u, Keeps o u → Keeps o (f rs u)) :
    Keeps o (withChecks k rs f s) := by
  unfold Machine.withChecks
  split
  next e => exact h.checkAll.of_fst e
  next rs1 e => exact hf rs1 _ (h.checkAll.of_fst e).takeReplies

theorem Keeps.prefetchOp {f k rs} (h : Keeps o s) : Keeps o (prefetchOp f k rs s) := by
  unfold Machine.prefetchOp
  split
  next e => exact h.checkAll.of_fst e
  next e =>
    extract_lets need
    split
    · exact h.checkAll.of_fst e
    · exact Keeps.finish ((h.checkAll.of_fst e).takeReplies.prefetch.modGroup (fun _ h1 => h1.advanceActive))

theorem Keeps.requestPages {k tag rs} (h : Keeps o s) : Keeps o (s.requestPages k tag rs) := by
  unfold State.requestPages
  extract_lets g ck dev pages
  exact h.foldl (fun _ _ h1 => h1.postEvent)

theorem Keeps.pgreqOp {k rs} (h : Keeps o s) : Keeps o (pgreqOp k rs s) := by
  unfold Machine.pgreqOp
  refine h.withChecks ?_
  intro rs1 u h1
  split
  next e =>
    extract_lets s2
    have hs2 : Keeps o s2 := (h1.fresh.of_snd e).requestPages
    split
    · exact Keeps.finish (hs2.foldl (fun _ _ h2 => h2.modThread (fun _ h3 => h3)))
    · exact Keeps.finish (hs2.modGroup (fun _ h2 => h2.advanceActive))

theorem Keeps.demote {core lo hi} (h : Keeps o s) : Keeps o (s.demote core lo hi) := by
  unfold State.demote
  extract_lets inside l2
  exact Keeps.modCore h

theorem Keeps.lookupNow {core ck page} (h : Keeps o s) : Keeps o (s.lookupNow core ck page).1 := by
  unfold State.lookupNow
  extract_lets d fill s1
  have hfill : ∀ s e, Keeps o s → Keeps o (fill s e) := by
    intro s2 e h1
    unfold fill
    extract_lets s3
    have hs3 : Keeps o s3 := h1.modCore
    exact hs3
  have hs1 : Keeps o s1 := h.walkTouch
  split
  next e _ => exact hfill s e h
  · split
    next e1 _ => exact hfill s e1 h
    · split
      next e2 _ => exact hfill s1 e2 hs1
      · exact hs1

theorem Keeps.demoteRange {core ck a n} (h : Keeps o s) : Keeps o (s.demoteRange core ck a n) := by
  unfold State.demoteRange
  split
  · exact h
  · refine h.foldl ?_
    intro u x h1
    extract_lets p
    split
    · exact h1
    · split
      next e1 =>
        split
        · exact (h1.lookupNow.of_fst e1).demote
        · exact h1.lookupNow.of_fst e1

theorem Keeps.execLdScalar {f} (h : Keeps o s) : KeepsNext o (execLdScalar f s) :=
  h.withIssuer (fun _ _ h1 => h1.loadGroup)

theorem Keeps.execLdVector {f} (h : Keeps o s) : KeepsNext o (execLdVector f s) :=
  h.withIssuer (fun _ _ h1 => h1.loadLanes)

theorem Keeps.execLdNr {f} (h : Keeps o s) : KeepsNext o (execLdNr f s) := h.withIssuer (fun _ _ h1 => h1.loadLanes)

theorem Keeps.execStScalar {f} (h : Keeps o s) : KeepsNext o (execStScalar f s) :=
  h.withIssuer (fun _ _ h1 => h1.storeGroup)

theorem Keeps.execStVector {f} (h : Keeps o s) : KeepsNext o (execStVector f s) :=
  h.withIssuer (fun _ _ h1 => h1.storeLanes)

theorem Keeps.execPfScalar {f} (h : Keeps o s) : KeepsNext o (execPfScalar f s) := by
  unfold Machine.execPfScalar
  refine h.withIssuer ?_
  intro k u h1
  extract_lets g
  split
  · exact h1.prefetchOp
  · exact h1.groupMode (fun _ h2 => h2)

theorem Keeps.execPfVector {f} (h : Keeps o s) : KeepsNext o (execPfVector f s) :=
  h.withIssuer (fun _ _ h1 => h1.prefetchOp)

theorem Keeps.execPgreqScalar {f} (h : Keeps o s) : KeepsNext o (execPgreqScalar f s) := by
  unfold Machine.execPgreqScalar
  refine h.withIssuer ?_
  intro k u h1
  extract_lets g
  split
  · exact h1.pgreqOp
  · exact h1.groupMode (fun _ h2 => h2)

theorem Keeps.execPgreqVector {f} (h : Keeps o s) : KeepsNext o (execPgreqVector f s) :=
  h.withIssuer (fun _ _ h1 => h1.pgreqOp)

theorem Keeps.execCinv {f} (h : Keeps o s) : KeepsNext o (execCinv f s) :=
  h.withIssuer (fun _ _ h1 => h1.groupModeS (fun _ h2 => h2.modCore))

theorem Keeps.execCdem {f} (h : Keeps o s) : KeepsNext o (execCdem f s) := by
  unfold Machine.execCdem
  refine h.withIssuer ?_
  intro k u h1
  extract_lets g a n
  split
  · exact h1
  · exact h1.groupModeS (fun _ h2 => h2.demoteRange)

end Sys2Proof.Machine

end

section
/-! SUPPORT. What atomics, transactions, barriers, tiles, residencies and the matrix unit keep of the two invariants (O59,
O60). -/

namespace Sys2Proof.Machine

variable {o s : State} {g : Group} {t : Thread}

/-! ## Sync.lean -/

theorem Keeps.atomSend {k f op e} (h : Keeps o s) : Keeps o (s.atomSend k f op e) := by
  unfold State.atomSend
  extract_lets g w n bits ops lanes fl bad waits s1 s2
  have hfl : fl.sound := memFlight_sound trivial
  have hs1 : Keeps o s1 := by
    unfold s1
    split
    · exact h.modCore
    · exact h
  have hs2 : Keeps o s2 := by
    unfold s2
    split
    · exact hs1.modCore
    · exact hs1
  split
  next e1 =>
    extract_lets s4
    have hs4 : Keeps o s4 := Keeps.sendRemote ((hs2.launchFlight (fun _ => hfl)).of_fst e1)
    refine hs4.foldl (fun u x1 h1 => h1.modThread ?_)
    intro t h2
    extract_lets t1 t2
    have ht1 : t1.sound := h2
    have ht2 : t2.sound := ht1.hold
    split <;> exact ht2

theorem Keeps.atomLanes {op f k} (h : Keeps o s) : Keeps o (atomLanes op f k s) := by
  unfold Machine.atomLanes
  extract_lets g cs
  split
  · exact h
  · split
    next e => exact h.checkAll.of_fst e
    next e =>
      extract_lets rs1 s2 ts good s3
      have hs2 : Keeps o s2 := (h.checkAll.of_fst e).takeReplies
      have hs3 : Keeps o s3 := hs2.foldl (fun _ _ h1 => h1.atomSend)
      split
      · exact h.checkAll.of_fst e
      · exact hs3.advanceOthers.finish

theorem Keeps.execAtomAdd {f} (h : Keeps o s) : KeepsNext o (execAtomAdd f s) :=
  h.withIssuer (fun _ _ h1 => h1.atomLanes)

theorem Keeps.execAtomMin {f} (h : Keeps o s) : KeepsNext o (execAtomMin f s) :=
  h.withIssuer (fun _ _ h1 => h1.atomLanes)

theorem Keeps.execAtomMax {f} (h : Keeps o s) : KeepsNext o (execAtomMax f s) :=
  h.withIssuer (fun _ _ h1 => h1.atomLanes)

theorem Keeps.execAtomAnd {f} (h : Keeps o s) : KeepsNext o (execAtomAnd f s) :=
  h.withIssuer (fun _ _ h1 => h1.atomLanes)

theorem Keeps.execAtomOr {f} (h : Keeps o s) : KeepsNext o (execAtomOr f s) :=
  h.withIssuer (fun _ _ h1 => h1.atomLanes)

theorem Keeps.execAtomXor {f} (h : Keeps o s) : KeepsNext o (execAtomXor f s) :=
  h.withIssuer (fun _ _ h1 => h1.atomLanes)

theorem Keeps.execAtomExch {f} (h : Keeps o s) : KeepsNext o (execAtomExch f s) :=
  h.withIssuer (fun _ _ h1 => h1.atomLanes)

theorem Keeps.execAtomCas {f} (h : Keeps o s) : KeepsNext o (execAtomCas f s) :=
  h.withIssuer (fun _ _ h1 => h1.atomLanes)

theorem Keeps.execAredAdd {f} (h : Keeps o s) : KeepsNext o (execAredAdd f s) :=
  h.withIssuer (fun _ _ h1 => h1.atomLanes)

theorem Keeps.execAredMin {f} (h : Keeps o s) : KeepsNext o (execAredMin f s) :=
  h.withIssuer (fun _ _ h1 => h1.atomLanes)

theorem Keeps.execAredMax {f} (h : Keeps o s) : KeepsNext o (execAredMax f s) :=
  h.withIssuer (fun _ _ h1 => h1.atomLanes)

theorem Keeps.execAredAnd {f} (h : Keeps o s) : KeepsNext o (execAredAnd f s) :=
  h.withIssuer (fun _ _ h1 => h1.atomLanes)

theorem Keeps.execAredOr {f} (h : Keeps o s) : KeepsNext o (execAredOr f s) :=
  h.withIssuer (fun _ _ h1 => h1.atomLanes)

theorem Keeps.execAredXor {f} (h : Keeps o s) : KeepsNext o (execAredXor f s) :=
  h.withIssuer (fun _ _ h1 => h1.atomLanes)

theorem Keeps.fenceThread {gk l acq rel sco} (h : Keeps o s) : Keeps o (s.fenceThread gk l acq rel sco) := by
  unfold State.fenceThread
  extract_lets t known s1
  have hs1 : Keeps o s1 := by
    unfold s1
    split
    · exact h.modThread (fun _ h1 => h1)
    · exact h
  split
  · exact hs1.modFlight (fun _ h1 => h1)
  · exact hs1.modThread (fun _ h1 => h1.sees)
  · exact hs1

theorem Keeps.execFence {f} (h : Keeps o s) : KeepsNext o (execFence f s) := by
  unfold Machine.execFence
  refine h.withIssuer ?_
  intro k u h1
  extract_lets ord sco acq rel
  refine h1.groupModeS ?_
  intro u1 h2
  extract_lets s1
  have hs1 : Keeps o s1 := h2.foldl (fun _ _ h3 => h3.fenceThread)
  split
  · exact hs1.modCore
  · exact hs1

theorem Keeps.lanesOver {hd k f} (h : Keeps o s) (hf : ∀ u l, Keeps o u → Keeps o (f u l)) :
    Keeps o (lanesOver hd k f s) := by
  unfold Machine.lanesOver
  extract_lets cs
  exact (h.foldl hf).advanceOthers.finish

theorem Keeps.stepLane {gk l u} (h : Keeps o s) (hu : ∀ t, t.sound → (u t).sound) : Keeps o (s.stepLane gk l u) :=
  h.modThread hu

theorem Keeps.execXbegin {f} (h : Keeps o s) : KeepsNext o (execXbegin f s) := by
  unfold Machine.execXbegin
  refine h.withIssuer ?_
  intro k u h1
  extract_lets g now
  split
  · exact h1
  · refine h1.lanesOver ?_
    intro u1 l h2
    split
    · exact h2.modThread (fun _ h3 => h3)
    · split
      · exact h2.txAbort
      · exact h2.stepLane (fun _ h3 => ⟨h3.1, rfl⟩)

theorem Keeps.execXabort {f} (h : Keeps o s) : KeepsNext o (execXabort f s) := by
  unfold Machine.execXabort
  refine h.withIssuer (fun k u h1 => h1.lanesOver ?_)
  intro u1 l h2
  split
  · exact Keeps.txAbort (h2.modThread (fun _ h3 => h3))
  · exact h2.stepLane (fun _ h3 => h3)

theorem Keeps.execXstat {f} (h : Keeps o s) : KeepsNext o (execXstat f s) :=
  h.withIssuer (fun _ _ h1 => h1.laneMode (fun _ _ _ _ h3 => h3.write))

theorem Keeps.execXend {f} (h : Keeps o s) : KeepsNext o (execXend f s) := by
  unfold Machine.execXend
  refine h.withIssuer ?_
  intro k u h1
  extract_lets g cs acts busy
  split
  · exact h1
  · refine h1.lanesOver ?_
    intro u1 l h2
    split
    · exact h2.modThread (fun _ h3 => h3.hold)
    · exact h2.stepLane (fun _ h3 => h3.write)

theorem Keeps.commitRel {gk x known} (h : Keeps o s) : Keeps o (s.commitRel gk x known) :=
  h.foldl (fun _ _ h1 => h1.putRel)

theorem Keeps.commitLane {gk l dest} (h : Keeps o s) : Keeps o (s.commitLane gk l dest) := by
  unfold State.commitLane
  extract_lets g t ck seen known s1 s2 s3 s4
  have hs1 : Keeps o s1 := h.write.commitRel
  have hs2 : Keeps o s2 := hs1.foldl (fun _ _ h1 => h1.l2Touch)
  have hs3 : Keeps o s3 := hs2.modCore
  have hs4 : Keeps o s4 := by
    unfold s4
    split
    · exact hs3.dropToken
    · exact hs3
  exact hs4.modThread (fun _ h1 => ⟨h1.sees.deliver.1, rfl⟩)

theorem Keeps.commit {gk} (h : Keeps o s) : Keeps o (s.commit gk) := by
  unfold State.commit
  extract_lets g core ls dest kept s1 good s2 s3
  have hs1 : Keeps o s1 := h.foldl (fun _ _ h1 => h1.txAbort)
  have hs2 : Keeps o s2 := hs1.foldl (fun _ _ h1 => h1.txAbort)
  have hs3 : Keeps o s3 := hs2.foldl (fun _ _ h1 => h1.commitLane)
  split
  · exact h
  · exact hs3.modCore

theorem Keeps.execTransactionCommit {gk} (h : Keeps o s) : KeepsNext o (execTransactionCommit gk s) := h.commit.next

theorem Keeps.execTransactionTimeout {gk lane} (h : Keeps o s) : KeepsNext o (execTransactionTimeout gk lane s) := by
  unfold Machine.execTransactionTimeout
  refine Keeps.next ?_
  extract_lets t
  split
  · exact h.txAbort
  · exact h

theorem Keeps.execTokenGrant {d} (h : Keeps o s) : KeepsNext o (execTokenGrant d s) := by
  unfold Machine.execTokenGrant
  refine Keeps.next ?_
  split
  · split
    · split
      · exact h.dropToken
      · exact h.modThread (fun _ h1 => h1)
    · split
      · exact h.dropToken
      · exact h
  · exact h

/-! ## Barriers.lean -/

theorem Keeps.setBar {core off p} (h : Keeps o s) : Keeps o (s.setBar core off p) := by
  unfold State.setBar
  extract_lets s1 e
  have hs1 : Keeps o s1 := h.write
  split <;> exact hs1

theorem Keeps.slotArrive {unit slot n} (h : Keeps o s) : Keeps o (s.slotArrive unit slot n).1 := by
  unfold State.slotArrive
  split
  · exact h
  · split
    · exact h
    · split <;> exact h

theorem Keeps.arriveAt {gk b n} (h : Keeps o s) : Keeps o (s.arriveAt gk b n).1 := by
  unfold State.arriveAt
  split
  · extract_lets core o1
    split
    · exact h
    · exact h.setBar
  · split
    · exact h.slotArrive
    · exact h

theorem Keeps.arriveAll {gk b n ls} (h : Keeps o s) : Keeps o (s.arriveAll gk b n ls).1 := by
  unfold State.arriveAll
  extract_lets g
  refine h.foldl_fst ?_
  intro x x1 h1
  split
  next e => exact (h1.arriveAt.of_fst e).modThread (fun _ h2 => h2)
  next e => exact (h1.arriveAt.of_fst e).modThread (fun _ h2 => h2)

theorem Keeps.collectLanes {f b n k} (h : Keeps o s) : Keeps o (collectLanes f b n k s) := by
  unfold Machine.collectLanes
  extract_lets g cs c ident left
  split
  next e =>
    extract_lets s2 s3 traps mine others
    have hs2 : Keeps o s2 := (h.arriveAll.of_fst e).foldl (fun _ _ h1 => h1.modThread (fun _ h2 => h2))
    have hs3 : Keeps o s3 := hs2.foldl (fun _ _ h1 => h1.modThread (fun _ h2 => h2))
    exact hs3.advanceOthers.raiseIn.finish

theorem Keeps.collectAgain {gk} (h : Keeps o s) : Keeps o (s.collectAgain gk) := by
  unfold State.collectAgain
  refine h.foldl ?_
  intro u x h1
  extract_lets w all ident
  split
  next e =>
    clear_value all
    split
    · split
      · exact (h1.arriveAll.of_fst e).raiseIn
      · exact h1
    · exact h1

theorem Keeps.execBar {f} (h : Keeps o s) : KeepsNext o (execBar f s) := by
  unfold Machine.execBar
  refine h.withIssuer ?_
  intro k u h1
  extract_lets g cs off core
  split
  · exact h1.advanceOthers.finish
  · split
    · exact h1.advanceOthers.finish
    · split
      · exact h1
      · exact h1.collectLanes

theorem Keeps.execBarx {f} (h : Keeps o s) : KeepsNext o (execBarx f s) := by
  unfold Machine.execBarx
  refine h.withIssuer ?_
  intro k u h1
  extract_lets g off core
  split
  · exact h1.groupMode (fun _ h2 => h2)
  · split
    · exact h1.trapAll
    · split
      · exact h1
      · refine h1.groupModeS ?_
        intro u1 h2
        extract_lets o1
        exact h2.setBar

theorem Keeps.slotLanes {f n b k det c} (h : Keeps o s) : Keeps o (slotLanes f n b k det c s) := by
  unfold Machine.slotLanes
  extract_lets g cs fail
  have hfail : ∀ cls d, Keeps o (fail cls d) := fun _ _ => h.advanceOthers.finish
  split
  · exact h.advanceOthers.finish
  · split
    · exact hfail _ det
    · split
      · exact hfail _ det
      · split
        · exact hfail _ _
        · split
          · exact h
          · exact h.collectLanes

theorem Keeps.execBarc {f} (h : Keeps o s) : KeepsNext o (execBarc f s) := by
  unfold Machine.execBarc
  refine h.withIssuer ?_
  intro k u h1
  extract_lets g a k1 n cs
  split
  · exact h1.advanceOthers.finish
  · exact h1.slotLanes

theorem Keeps.execBart {f} (h : Keeps o s) : KeepsNext o (execBart f s) := h.withIssuer (fun _ _ h1 => h1.slotLanes)

theorem Keeps.execBarg {f} (h : Keeps o s) : KeepsNext o (execBarg f s) := h.withIssuer (fun _ _ h1 => h1.slotLanes)

theorem Keeps.advanceLanes {ls} (h : Keeps o s) : Keeps o (s.advanceLanes ls) :=
  h.foldl (fun _ _ h1 => h1.modGroup (fun _ h2 => h2.advance))

theorem Keeps.releaseLanes {ls} (h : Keeps o s) : Keeps o (s.releaseLanes ls) := h.syncLanes.advanceLanes

theorem Keeps.execCoreBarrierPhaseComplete {core off} (h : Keeps o s) :
    KeepsNext o (execCoreBarrierPhaseComplete core off s) := by
  unfold Machine.execCoreBarrierPhaseComplete
  refine Keeps.next ?_
  extract_lets o1 s1
  have hs1 : Keeps o s1 := by
    unfold s1
    split
    · exact h.write
    · exact h
  exact hs1.releaseLanes

theorem SavedTeam.sound.passed {v : SavedTeam} {grid unit slot seen} (h : v.sound) :
    (v.passed grid unit slot seen).sound := by
  unfold SavedTeam.passed
  extract_lets on
  have hon : ∀ t, t.sound → (on t).sound := by
    intro t ht
    unfold on
    split
    · split
      · exact Thread.sound.sees ht
      · exact ht
    · exact ht
  split
  · exact h
  · refine ⟨fun x hx => ?_, h.2⟩
    obtain ⟨y, hy, rfl⟩ := List.mem_map.1 hx
    exact (h.1 y hy).map (fun _ => rfl) fun e he => hon e.2 he

theorem Keeps.passSaved {b unit slot seen} (h : Keeps o s) : Keeps o (s.passSaved b unit slot seen) := by
  unfold State.passSaved
  split
  · exact h
  · exact { h with savedTeams := fun ho => (h.savedTeams ho).map (fun _ h1 => h1.passed) }

theorem Keeps.execBarrierSlotComplete {unit slot} (h : Keeps o s) :
    KeepsNext o (execBarrierSlotComplete unit slot s) := by
  unfold Machine.execBarrierSlotComplete
  refine Keeps.next ?_
  split
  · split
    · extract_lets b' s1 seen s2 ws s3
      have hs1 : Keeps o s1 := h
      have hs2 : Keeps o s2 := hs1.passSaved
      have hs3 : Keeps o s3 := hs2.foldl (fun _ _ h1 => h1.modThread (fun _ h2 => h2.sees))
      exact hs3.advanceLanes.foldl (fun _ _ h1 => h1.modCore)
    · exact h
  · exact h

theorem Keeps.breakSlot {unit slot die} (h : Keeps o s) : Keeps o (s.breakSlot unit slot die) := by
  unfold State.breakSlot
  split
  · exact h
  · extract_lets b' s1 ws s2
    have hs1 : Keeps o s1 := h
    have hs2 : Keeps o s2 := hs1.foldl (fun _ _ h1 => h1.modThread (fun _ h2 => h2))
    exact hs2.foldl (fun _ _ h1 => h1.raiseIn)

/-! ## Tiles.lean -/

theorem Keeps.execTmset {f} (h : Keeps o s) : KeepsNext o (execTmset f s) := by
  unfold Machine.execTmset
  refine h.withIssuer ?_
  intro k u h1
  extract_lets g v
  split
  · exact h1.groupMode (fun _ h2 => h2)
  · split
    · exact h1.trapAll
    · refine h1.groupMode ?_
      intro g1 h2
      split <;> exact h2

theorem Keeps.execTmget {f} (h : Keeps o s) : KeepsNext o (execTmget f s) := by
  unfold Machine.execTmget
  refine h.withIssuer (fun k u h1 => h1.groupMode ?_)
  intro g h2
  split
  · exact h2.write
  · exact h2

theorem Keeps.takeFoot {core e} (h : Keeps o s) : Keeps o (s.takeFoot core e).1 := by
  unfold State.takeFoot
  split
  next e1 => exact (h.fresh.of_snd e1).modCore

/-! ## Residency.lean -/

theorem Keeps.useRes {k} (h : Keeps o s) : Keeps o (s.useRes k) := h.modRes

theorem Keeps.setWeight {core slot t e blk k n code} (h : Keeps o s) :
    Keeps o (s.setWeight core slot t e blk k n code) :=
  h

theorem Keeps.zeroSlots {core slot n} (h : Keeps o s) : Keeps o (s.zeroSlots core slot n) := h

theorem Keeps.touchSource {ck r src} (h : Keeps o s) : Keeps o (s.touchSource ck r src) := by
  unfold State.touchSource
  split
  · refine h.foldl ?_
    intro u x1 h1
    split
    next e => exact (h1.xlat.of_fst e).l2Touch
    next e1 =>
      split
      · exact (h1.xlat.of_fst e1).askPeer
      · exact h1.xlat.of_fst e1
    next e => exact h1.xlat.of_fst e
  · exact h

theorem Keeps.putBlock {r half blk x} (h : Keeps o s) : Keeps o (s.putBlock r half blk x) := by
  unfold State.putBlock
  extract_lets core slot s1
  have hs1 : Keeps o s1 := h.foldl (fun _ _ h1 => h1.foldl (fun _ _ h2 => h2.setWeight))
  split <;> exact hs1

theorem Keeps.awaitResult {k d n pf} (h : Keeps o s) : Keeps o (s.awaitResult k d n pf) := by
  unfold State.awaitResult
  extract_lets s1
  have hs1 : Keeps o s1 := h.modGroup (fun _ h1 => h1.hold)
  split
  · exact hs1
  · exact hs1.modGroup (fun _ h1 => sound_foldl h1 (fun _ _ h2 => h2.modThread (fun _ h3 => h3.hold)))

theorem Keeps.giveResult {gk team x} (h : Keeps o s) : Keeps o (s.giveResult gk team x) := by
  unfold State.giveResult
  extract_lets s1
  have hs1 : Keeps o s1 := h.modGroup (fun _ h1 => h1.deliver)
  split
  · exact hs1
  · exact hs1.foldl (fun _ _ h1 => h1.onThread (fun _ h2 => h2.unpend.setPred))

theorem Keeps.answer {k d n pf v flag} (h : Keeps o s) : Keeps o (s.answer k d n pf v flag) := by
  unfold State.answer
  extract_lets x
  exact h.awaitResult.modGroup (fun _ h1 => h1)

theorem Keeps.nextReply {gk} (h : Keeps o s) : Keeps o (s.nextReply gk) := by
  unfold State.nextReply
  split
  · exact h
  · exact Keeps.giveResult (h.modGroup (fun _ h1 => h1))

theorem Keeps.makeRes {core tk f i} (h : Keeps o s) : Keeps o (s.makeRes core tk f i).1 := by
  unfold State.makeRes
  extract_lets serial
  split
  next k _ e =>
    extract_lets r s2 s3 s4
    have hs2 : Keeps o s2 := by
      unfold s2
      have hu := h.fresh.of_snd e
      exact { hu with residencies := fun ho => Tbl.sorted_put (hu.residencies ho) k r }
    have hs3 : Keeps o s3 := hs2.foldl (fun _ _ h1 => h1.zeroSlots)
    have hs4 : Keeps o s4 := hs3.modCore
    exact hs4

theorem Keeps.allocate {k i} (h : Keeps o s) : Keeps o (s.allocate k i).1 := by
  unfold State.allocate
  extract_lets g core cores v
  split
  · extract_lets fn
    split
    · exact h
    · split
      · exact h
      · split
        · exact h
        · extract_lets f s1
          have hs1 : Keeps o s1 := h.foldl (fun _ _ h1 => h1.endResidency)
          split
          next e3 => exact hs1.makeRes.of_fst e3
  · exact h

theorem Keeps.execRalloc {f} (h : Keeps o s) : KeepsNext o (execRalloc f s) := by
  unfold Machine.execRalloc
  refine h.withIssuer (fun k u h1 => h1.groupModeS ?_)
  intro u1 h2
  split
  next e => exact (h2.allocate.of_fst e).answer

theorem Keeps.watchWalks {ck r a stride} (h : Keeps o s) : Keeps o (s.watchWalks ck r a stride) := by
  unfold State.watchWalks
  refine h.foldl ?_
  intro u x h1
  split
  · exact h1
  · exact h1.walkTouch

theorem Keeps.unwatch {k half blk} (h : Keeps o s) : Keeps o (s.unwatch k half blk) := h

theorem Keeps.startFill {k f rk core src feet} (h : Keeps o s) : Keeps o (s.startFill k f rk core src feet) := by
  unfold State.startFill
  extract_lets g half reads
  split
  next e =>
    extract_lets fill s2
    have hs2 : Keeps o s2 := by
      refine Keeps.modRes (Keeps.of_fst ?_ e)
      split
      · exact h
      · exact h.takeFoot
    split
    next e1 => exact (hs2.fresh.of_snd e1).modCore.awaitResult

theorem Keeps.rloadOp {f src check k} (h : Keeps o s) : Keeps o (rloadOp f src check k s) := by
  unfold Machine.rloadOp
  extract_lets g h1 half
  split
  · exact h.groupMode (fun _ h2 => h2)
  · split
    · exact h.trapAll
    · split
      · exact h.trapAll
      · split
        · exact h.trapAll
        · exact h.trapAll
        · extract_lets core
          split
          · exact h
          · refine h.groupModeS ?_
            intro u h2
            extract_lets s1
            have hs1 : Keeps o s1 := h2.useRes
            split
            · split
              · extract_lets ls far s2 s3 s4
                have hs2 : Keeps o s2 := by
                  unfold s2
                  split
                  · exact hs1
                  · exact hs1.watchWalks
                have hs3 : Keeps o s3 := hs2.unwatch
                have hs4 : Keeps o s4 := hs3
                split
                · exact hs2.answer
                · exact hs4.startFill
              · exact hs1.unwatch.startFill
            · exact hs1.unwatch.startFill

theorem Keeps.execRloadMap {f} (h : Keeps o s) : KeepsNext o (execRloadMap f s) := by
  unfold Machine.execRloadMap
  refine h.withIssuer ?_
  intro k u h1
  extract_lets g m
  exact h1.rloadOp

theorem Keeps.execRloadGlobal {f} (h : Keeps o s) : KeepsNext o (execRloadGlobal f s) := by
  unfold Machine.execRloadGlobal
  refine h.withIssuer ?_
  intro k u h1
  extract_lets g a stride
  exact h1.rloadOp

theorem Keeps.execRloadFillComplete {core fill} (h : Keeps o s) :
    KeepsNext o (execRloadFillComplete core fill s) := by
  unfold Machine.execRloadFillComplete
  refine Keeps.next ?_
  split
  · exact h
  · split
    · exact h
    · split
      · exact h.modCore
      · extract_lets ck x2 s1 s2 s3 s4
        have hs1 : Keeps o s1 := h.freeIdx.touchSource.putBlock
        have hs2 : Keeps o s2 := hs1.modRes
        have hs3 : Keeps o s3 := hs2.modCore
        have hs4 : Keeps o s4 := hs3.modCore
        exact hs4.giveResult

theorem Keeps.resOp {f act k} (h : Keeps o s) (ha : ∀ u r, Keeps o u → Keeps o (act u r)) :
    Keeps o (resOp f act k s) := by
  unfold Machine.resOp
  extract_lets g h1
  split
  · exact h.groupMode (fun _ h2 => h2)
  · split
    · exact h.trapAll
    next rk _ =>
      split
      · exact h
      · exact h.groupModeS (fun _ h2 => ha _ rk h2.useRes)

theorem Keeps.execRpin {f} (h : Keeps o s) : KeepsNext o (execRpin f s) :=
  h.withIssuer (fun _ _ h1 => h1.resOp (fun _ _ h2 => h2.modRes))

theorem Keeps.execRunpin {f} (h : Keeps o s) : KeepsNext o (execRunpin f s) :=
  h.withIssuer (fun _ _ h1 => h1.resOp (fun _ _ h2 => h2.modRes))

theorem Keeps.execRrev {f} (h : Keeps o s) : KeepsNext o (execRrev f s) :=
  h.withIssuer (fun _ _ h1 => h1.resOp (fun _ _ h2 => h2.modRes))

theorem Keeps.execRstat {f} (h : Keeps o s) : KeepsNext o (execRstat f s) := by
  unfold Machine.execRstat
  refine h.withIssuer ?_
  intro k u h1
  extract_lets g h2
  refine h1.groupModeS ?_
  intro u1 h3
  split
  · split
    · exact h3.useRes.answer
    · exact h3.answer
  · exact h3.answer

theorem Keeps.execRquota {f} (h : Keeps o s) : KeepsNext o (execRquota f s) := by
  unfold Machine.execRquota
  refine h.withIssuer ?_
  intro k u h1
  extract_lets g fn q all out
  have hout : ∀ s v, Keeps o s → Keeps o (out s v) := fun _ _ h2 => h2.answer
  refine h1.groupModeS ?_
  intro u1 h2
  split
  · exact hout u1 all h2
  · extract_lets old
    split
    · exact hout u1 old h2
    · split
      · exact hout u1 all h2
      · exact hout _ old h2.modFn

theorem Keeps.refillBlock {k ck half blk} (h : Keeps o s) : Keeps o (s.refillBlock k ck half blk).1 := by
  unfold State.refillBlock
  split
  · exact h
  · extract_lets b x1 s1
    have hs1 : Keeps o s1 := h.freeIdx.touchSource.putBlock
    split
    · exact h
    · split
      · exact hs1
      · exact hs1.modRes

theorem Keeps.execResidencyRefill {core k} (h : Keeps o s) : KeepsNext o (execResidencyRefill core k s) := by
  unfold Machine.execResidencyRefill
  refine Keeps.next ?_
  split
  · exact h
  · split
    · exact h
    · split
      · exact h.modRes
      · extract_lets ck halves
        split
        next e1 =>
          extract_lets s2 id mark s3
          have hs2 : Keeps o s2 := by
            refine Keeps.modRes (Keeps.of_fst (h.foldl_fst ?_) e1)
            intro x2 x3 h1
            split
            next e2 => exact h1.refillBlock.of_fst e2
          have hs3 : Keeps o s3 := hs2.modCore
          split
          · exact hs2
          · split
            · exact hs3.modCore
            · exact hs3

/-! ## Matrix.lean -/

theorem Keeps.matIssue {f acc plan kind post k} (h : Keeps o s) (hp : ∀ g, g.sound → (post g).sound) :
    Keeps o (matIssue f acc plan kind post k s) := by
  unfold Machine.matIssue
  extract_lets g core p cs needFoot
  split
  · exact h.groupMode (fun _ h1 => h1)
  · split
    · exact h.trapAll
    · split
      · exact h
      · split
        · exact h.setThr
        · split
          · exact h.groupMode (fun _ h1 => h1)
          · refine h.groupModeS ?_
            intro u h1
            extract_lets after
            split
            next e2 =>
              split
              next e3 =>
                extract_lets op s3 s4
                have hs3 : Keeps o s3 := by
                  refine Keeps.foldl (Keeps.of_snd (Keeps.fresh (Keeps.of_fst ?_ e2)) e3) (fun _ _ h2 => h2.modCore)
                  split
                  · exact h1.takeFoot
                  · exact h1
                have hs4 : Keeps o s4 := by
                  unfold s4
                  split
                  · exact hs3
                  · exact hs3.useRes
                exact hs4.modGroup (fun _ h2 => hp _ h2)

theorem Keeps.mulOp {f pair resident} (h : Keeps o s) : KeepsNext o (mulOp f pair resident s) :=
  h.withIssuer (fun _ _ h1 => h1.matIssue (fun _ h2 => h2))

theorem Keeps.execMma {f} (h : Keeps o s) : KeepsNext o (execMma f s) := h.mulOp

theorem Keeps.execMmaN2 {f} (h : Keeps o s) : KeepsNext o (execMmaN2 f s) := h.mulOp

theorem Keeps.execMmaK2 {f} (h : Keeps o s) : KeepsNext o (execMmaK2 f s) := h.mulOp

theorem Keeps.execMmt {f} (h : Keeps o s) : KeepsNext o (execMmt f s) := h.mulOp

theorem Keeps.execMmtN2 {f} (h : Keeps o s) : KeepsNext o (execMmtN2 f s) := h.mulOp

theorem Keeps.execMmtK2 {f} (h : Keeps o s) : KeepsNext o (execMmtK2 f s) := h.mulOp

theorem Keeps.execMzero {f} (h : Keeps o s) : KeepsNext o (execMzero f s) :=
  h.withIssuer (fun _ _ h1 => h1.matIssue (fun _ h2 => h2))

theorem Keeps.execMld {f} (h : Keeps o s) : KeepsNext o (execMld f s) :=
  h.withIssuer (fun _ _ h1 => h1.matIssue (fun _ h2 => h2))

theorem Keeps.execMst {f} (h : Keeps o s) : KeepsNext o (execMst f s) :=
  h.withIssuer (fun _ _ h1 => h1.matIssue (fun _ h2 => h2))

theorem Keeps.execMrow {f} (h : Keeps o s) : KeepsNext o (execMrow f s) := by
  unfold Machine.execMrow
  refine h.withIssuer ?_
  intro k u h1
  extract_lets ls
  exact h1.matIssue (fun _ h2 => sound_foldl h2 (fun _ _ h3 => h3.modThread (fun _ h4 => h4.hold)))

theorem Keeps.mulPart {int rows cols core tile} (h : Keeps o s) : Keeps o (s.mulPart int rows cols core tile) := h

theorem Keeps.poisonTile {core tile yes} (h : Keeps o s) : Keeps o (s.poisonTile core tile yes) := by
  unfold State.poisonTile
  split <;> exact h

theorem Keeps.clearTile {core tile} (h : Keeps o s) : Keeps o (s.clearTile core tile) := h

theorem Keeps.runOp {p} (h : Keeps o s) : Keeps o (s.runOp p) := by
  unfold State.runOp
  extract_lets c int w bad
  split
  · extract_lets b1 b2 bad1 first
    have hfirst : Keeps o first := h.mulPart
    split
    · exact hfirst.poisonTile
    · exact hfirst.mulPart.poisonTile.poisonTile
    · exact hfirst.mulPart.poisonTile
  · exact Keeps.clearTile h
  · extract_lets q bad1 s1
    have hs1 : Keeps o s1 := by
      unfold s1
      split
      · exact h.clearTile
      · exact h
    exact Keeps.poisonTile hs1
  · extract_lets q
    refine h.foldl ?_
    intro u x3 h1
    extract_lets a v s1
    have hs1 : Keeps o s1 := h1.write
    split
    · exact hs1.poisonRange
    · exact hs1
  · refine h.foldl ?_
    intro u x5 h1
    extract_lets lo hi v
    exact h1.onThread (fun _ h2 => h2.deliver)

theorem Keeps.modOp {p f} (h : Keeps o s) : Keeps o (s.modOp p f) := by
  unfold State.modOp
  extract_lets s1
  have hs1 : Keeps o s1 := h.modCore
  split
  · exact hs1.modCore
  · exact hs1

theorem Keeps.execMatrixOpExecute {core} (h : Keeps o s) : KeepsNext o (execMatrixOpExecute core s) := by
  unfold Machine.execMatrixOpExecute
  refine Keeps.next ?_
  split
  · exact h
  · extract_lets s1 s2
    have hs1 : Keeps o s1 := h.runOp
    have hs2 : Keeps o s2 := hs1.modOp
    exact hs2.modCore

theorem Keeps.execMatrixOpRetire {core} (h : Keeps o s) : KeepsNext o (execMatrixOpRetire core s) := by
  unfold Machine.execMatrixOpRetire
  refine Keeps.next ?_
  split
  · exact h
  · extract_lets s1 s2
    have hs1 : Keeps o s1 := h.modOp
    have hs2 : Keeps o s2 := hs1.modCore
    split
    · exact hs2
    · exact hs2.endBind

theorem Keeps.execMwait {f} (h : Keeps o s) : KeepsNext o (execMwait f s) := by
  unfold Machine.execMwait
  refine h.withIssuer ?_
  intro k u h1
  extract_lets g
  split
  · exact h1.groupMode (fun _ h2 => h2)
  · split
    · exact Keeps.finish (h1.modGroup (fun _ h2 => sound_foldl h2 (fun _ _ h3 => h3.modThread (fun _ h4 => h4))))
    · exact h1.groupModeS (fun _ h2 => h2.endBind)

theorem Keeps.execMwaitComplete {gk} (h : Keeps o s) : KeepsNext o (execMwaitComplete gk s) := by
  unfold Machine.execMwaitComplete
  refine Keeps.next ?_
  split
  · exact h
  · exact Keeps.endBind (h.modGroup (fun _ h1 => h1.advanceAll))

end Sys2Proof.Machine

end

section
/-! SUPPORT. What page walks, copies, control flow, regrouping and the asking for a pre-emption keep of the two invariants
(O59, O60). -/

namespace Sys2Proof.Machine

variable {o s : State} {g : Group} {t : Thread}

/-! ## Paging.lean -/

theorem Keeps.execPageWalkComplete {id} (h : Keeps o s) : KeepsNext o (execPageWalkComplete id s) := by
  unfold Machine.execPageWalkComplete
  refine Keeps.next ?_
  split
  · exact h
  · split
    · exact h
    · split
      · exact h
      · split
        · extract_lets s1 cores s2 d
          have hs1 : Keeps o s1 := h.walkTouch
          have hs2 : Keeps o s2 := hs1.foldl (fun _ _ h1 => h1.modCore)
          exact hs2
        · extract_lets s1 w'
          have hs1 : Keeps o s1 := h.walkTouch
          split <;> exact hs1

theorem Keeps.shootBegin {ck} (h : Keeps o s) : Keeps o (s.shootBegin ck) := by
  unfold State.shootBegin
  split
  · exact h
  next e =>
    split
    · exact h
    · extract_lets gone shot waits s1
      have hs1 : Keeps o s1 := by
        unfold s1
        refine { h with groups := fun ho => (h.groups ho).map (fun e => by dsimp only; split <;> rfl) ?_ }
        intro e1 h1
        split
        · exact h1
        · refine h1.map (fun _ => rfl) ?_
          intro e2 h2
          split <;> exact h2
      exact hs1.modCtx

theorem Keeps.shootAsk {ck x} (h : Keeps o s) : Keeps o (s.shootAsk ck x) := h.modCtx.shootBegin

theorem Keeps.execShootDownComplete {ck} (h : Keeps o s) : KeepsNext o (execShootDownComplete ck s) := by
  unfold Machine.execShootDownComplete
  refine Keeps.next ?_
  split
  · split
    · extract_lets s1
      have hs1 : Keeps o s1 := h.modCtx
      refine Keeps.shootBegin ?_
      split
      · exact hs1
      · exact hs1.wakeAll
    · exact h
  · exact h

theorem Keeps.execShootDownStart {ck v} (h : Keeps o s) : KeepsNext o (execShootDownStart ck v s) := by
  unfold Machine.execShootDownStart
  refine Keeps.next ?_
  split
  · exact h
  · extract_lets s1 c1
    have hs1 : Keeps o s1 := h.modCtx
    split
    · exact hs1.shootAsk
    · exact hs1

theorem Keeps.fillLine {l} (h : Keeps o s) : Keeps o (s.fillLine l) := h

theorem Keeps.fetchBlock {gk idx} (h : Keeps o s) : Keeps o (s.fetchBlock gk idx) := by
  unfold State.fetchBlock
  extract_lets g ck base
  refine h.foldl ?_
  intro u x h1
  split
  · exact h1
  · extract_lets s1 s2
    have hs1 : Keeps o s1 := by
      unfold s1
      split
      · exact h1
      · exact h1.walkTouch
    have hs2 : Keeps o s2 := by
      unfold s2
      split
      · exact hs1.l2Touch
      · exact hs1
    exact hs2.fillLine

theorem Keeps.execInstructionFetch {gk} (h : Keeps o s) : KeepsNext o (execInstructionFetch gk s) := by
  unfold Machine.execInstructionFetch
  refine Keeps.next (h.foldl ?_)
  intro u x h1
  split
  · exact h1.fetchBlock
  · exact h1

/-! ## Copy.lean -/

theorem Keeps.countJob {cores off n err} (h : Keeps o s) : Keeps o (s.countJob cores off n err) := by
  unfold State.countJob
  refine h.foldl ?_
  intro u x h1
  extract_lets o1
  exact h1.setBar

theorem Keeps.fullCount {c} (h : Keeps o s) : Keeps o (s.fullCount c).2 := by
  unfold State.fullCount
  split
  · exact h
  · split
    next e => exact h.freeIdx.of_snd e

theorem Keeps.endBarrier {j c} (h : Keeps o s) : Keeps o (s.endBarrier j c) := by
  unfold State.endBarrier
  extract_lets failed
  split
  · split
    next e1 => exact (h.fullCount.of_snd e1).countJob
  · exact h

theorem Keeps.finishJob {k} (h : Keeps o s) : Keeps o (s.finishJob k) := by
  unfold State.finishJob
  split
  · exact h
  · extract_lets c st h1 s1 w
    have hs1 : Keeps o s1 := h.endBarrier
    split
    · refine Keeps.putRecord ?_
      exact { hs1 with jobs := fun ho => Tbl.sorted_put (hs1.jobs ho) k w }
    · exact hs1.recordDone

theorem Keeps.submit {k off rd} (h : Keeps o s) : Keeps o (s.submit k off rd).1 := by
  unfold State.submit
  extract_lets g core ck now b c hint
  split
  · extract_lets rid job
    split
    · split
      next k1 _ e3 =>
        refine Keeps.finishJob ?_
        have hu := h.fresh.of_snd e3
        exact { hu with jobs := fun ho => Tbl.sorted_put (hu.jobs ho) k1 _ }
    · extract_lets after
      split
      next e3 =>
        extract_lets promise
        split
        next e4 =>
          split
          next k2 _ e5 =>
            have hu := ((h.freeIdx.of_snd e3).takeFoot.of_fst e4).fresh.of_snd e5
            exact { hu with jobs := fun ho => Tbl.sorted_put (hu.jobs ho) k2 _ }
  · exact h

theorem Keeps.execCpy {f} (h : Keeps o s) : KeepsNext o (execCpy f s) := by
  unfold Machine.execCpy
  refine h.withIssuer ?_
  intro k u h1
  extract_lets g off
  split
  · exact h1.groupMode (fun _ h2 => h2)
  · split
    · exact h1
    · split
      · exact h1.trapAll
      · split
        · exact h1
        · refine h1.groupModeS ?_
          intro u1 h2
          split
          next e1 => exact (h2.submit.of_fst e1).modGroup (fun _ h3 => h3.write)

theorem Keeps.engineRead {j space a n} (h : Keeps o s) : Keeps o (s.engineRead j space a n).1 := by
  unfold State.engineRead
  split
  · split
    next e1 =>
      extract_lets s2
      have hs2 : Keeps o s2 := (h.xlat.of_fst e1).l2Touch.blurRead
      exact hs2
    next e2 =>
      split
      · extract_lets b
        exact (h.xlat.of_fst e2).freeIdx.askPeer
      · exact h.xlat.of_fst e2
    next e1 => exact h.xlat.of_fst e1
    next e1 => exact h.xlat.of_fst e1
  · split
    · extract_lets s1
      have hs1 : Keeps o s1 := h.blurRead
      exact hs1

theorem Keeps.engineWrite {j core space a b} (h : Keeps o s) : Keeps o (s.engineWrite j core space a b).1 := by
  unfold State.engineWrite
  split
  · split
    next e1 => exact (h.xlat.of_fst e1).l2Touch.write
    next e2 =>
      split
      · split
        next e4 => exact ((h.xlat.of_fst e2).freeIdx.of_snd e4).askPeer
      · exact h.xlat.of_fst e2
    next e1 => exact h.xlat.of_fst e1
    next e1 => exact h.xlat.of_fst e1
  · split
    · exact h.write

theorem Keeps.deliverElem {j c i} (h : Keeps o s) : Keeps o (s.deliverElem j c i).1 := by
  unfold State.deliverElem
  split
  · exact h
  · split
    next e2 => exact h.engineRead.of_fst e2
    next e1 =>
      split
      · exact (h.engineRead.of_fst e1).foldl (fun _ _ h1 => h1.engineWrite)
      · exact (h.engineRead.of_fst e1).engineWrite

theorem Keeps.deliverMany {j c n i} (h : Keeps o s) : Keeps o (s.deliverMany j c n i).1 := by
  induction n generalizing s i with
  | zero => exact h
  | succ n ih =>
    unfold State.deliverMany
    split
    · exact h
    · split
      next e => exact h.deliverElem.of_fst e
      next e => exact ih (h.deliverElem.of_fst e)

theorem Keeps.execCopyJobDelivery {job elements} (h : Keeps o s) :
    KeepsNext o (execCopyJobDelivery job elements s) := by
  unfold Machine.execCopyJobDelivery
  refine Keeps.next ?_
  split
  · exact h
  · extract_lets c
    split
    · exact h
    · split
      next e2 =>
        extract_lets j' s2 s3
        have hs2 : Keeps o s2 := by
          unfold s2
          have hu := h.deliverMany.of_fst e2
          exact { hu with jobs := fun ho => Tbl.sorted_put (hu.jobs ho) job j' }
        have hs3 : Keeps o s3 := by
          unfold s3
          split
          · exact hs2.countJob
          · exact hs2
        split
        · exact hs3.modCore
        · exact hs3

theorem Keeps.execCopyJobFinish {job} (h : Keeps o s) : KeepsNext o (execCopyJobFinish job s) := by
  unfold Machine.execCopyJobFinish
  refine Keeps.next ?_
  split
  · exact h
  · split
    · exact h.finishJob
    · exact h

theorem Keeps.execCompletionRecordWrite {id} (h : Keeps o s) : KeepsNext o (execCompletionRecordWrite id s) := by
  unfold Machine.execCompletionRecordWrite
  refine Keeps.next ?_
  split
  · exact h
  · split
    · split
      · exact h
      · refine Keeps.recordDone ?_
        exact { h with heldRecords := fun ho => Tbl.sorted_del (h.heldRecords ho) id }
    · split
      · exact h
      · exact h.tryRecord

theorem Keeps.sleepOp {hd op w now k} (h : Keeps o s) (hn : ∀ k u, Keeps o u → Keeps o (now k u)) :
    Keeps o (sleepOp hd op w now k s) := by
  unfold Machine.sleepOp
  extract_lets g t
  split
  · exact h.groupMode (fun _ h1 => h1)
  · split
    · exact h.finish
    · split
      · exact hn k s h
      · exact Keeps.finish (h.modGroup (fun _ h1 => h1.await))

theorem Keeps.execSleepu {f} (h : Keeps o s) : KeepsNext o (execSleepu f s) :=
  h.withIssuer (fun _ _ h1 => h1.sleepOp (fun _ _ h2 => h2.groupMode (fun _ h3 => h3)))

theorem Keeps.missDetail {ck off} (h : Keeps o s) : Keeps o (s.missDetail ck off).1 := by
  unfold State.missDetail
  split
  next e => exact h.freeIdx.of_snd e

theorem Keeps.execSleepuChk {f} (h : Keeps o s) : KeepsNext o (execSleepuChk f s) := by
  unfold Machine.execSleepuChk
  refine h.withIssuer ?_
  intro k u h1
  extract_lets off last
  refine h1.sleepOp ?_
  intro k1 u1 h2
  extract_lets g
  split
  · exact h2.groupModeS (fun _ h3 => h3.modCore)
  · split
    next e => exact (h2.missDetail.of_fst e).trapAll

theorem Keeps.execSleepuWake {gk} (h : Keeps o s) : KeepsNext o (execSleepuWake gk s) :=
  Keeps.next (h.modGroup (fun _ h1 => h1.advanceAll))

theorem Keeps.execSleepuChkWake {gk} (h : Keeps o s) : KeepsNext o (execSleepuChkWake gk s) := by
  unfold Machine.execSleepuChkWake
  refine Keeps.next ?_
  split
  · exact h
  · extract_lets g ls
    split
    · exact Keeps.modCore (h.modGroup (fun _ h1 => h1.advanceAll))
    · split
      next e1 =>
        extract_lets s2
        have hs2 : Keeps o s2 :=
            (h.missDetail.of_fst e1).modGroup
            (fun _ h1 => sound_foldl h1 (fun _ _ h2 => h2.modThread (fun _ h3 => h3)))
        exact hs2.raiseIn

theorem Keeps.putLeaf {j va e} (h : Keeps o s) : Keeps o (s.putLeaf j va e) := by
  unfold State.putLeaf
  split
  · exact h.writeHome
  · exact h

theorem Keeps.migrationShoot {job j c} (h : Keeps o s) : Keeps o (s.migrationShoot job j c) := h.shootAsk

theorem Keeps.restoreW {j c} (h : Keeps o s) : Keeps o (s.restoreW j c) := by
  unfold State.restoreW
  refine h.foldl ?_
  intro u x h1
  extract_lets va
  exact h1.putLeaf

theorem Keeps.copyPage {j c k} (h : Keeps o s) : Keeps o (s.copyPage j c k).1 := by
  unfold State.copyPage
  extract_lets va dest who
  split
  next e =>
    refine (h.xlat.of_fst e).foldl_fst ?_
    intro x1 x2 h1
    split
    · split
      · exact h1
      · extract_lets s3
        have hs3 : Keeps o s3 := h1.l2Touch
        split
        · exact hs3
        · exact hs3.writeHome
  next e => exact h.xlat.of_fst e

theorem Keeps.abandon {job j c a} (h : Keeps o s) : Keeps o (s.abandon job j c a) := by
  unfold State.abandon
  extract_lets s1 j'
  have hs1 : Keeps o s1 := h.restoreW.migrationShoot
  exact { hs1 with jobs := fun ho => Tbl.sorted_put (hs1.jobs ho) job j' }

theorem Keeps.execPageMigration {job} (h : Keeps o s) : KeepsNext o (execPageMigration job s) := by
  unfold Machine.execPageMigration
  refine Keeps.next ?_
  split
  · exact h
  next j _ =>
    extract_lets c put ws s1 old s2
    have hput : ∀ s j, Keeps o s → Keeps o (put s j) := by
      intro s3 j1 h1
      unfold put
      exact { h1 with jobs := fun ho => Tbl.sorted_put (h1.jobs ho) job j1 }
    have hs1 : Keeps o s1 := by
      refine h.foldl ?_
      intro u x1 h1
      extract_lets va
      exact h1.putLeaf
    have hs2 : Keeps o s2 := by
      refine h.foldl ?_
      intro u x1 h1
      extract_lets va e1 pfn moved
      exact h1.putLeaf
    split
    · exact h
    · split
      · split
        · exact hput s _ h
        · split
          · exact hput s _ h
          · exact hput _ _ hs1.migrationShoot
      · split
        · exact hput s _ h
        · exact h
      · split
        · split
          next s3 e2 => exact hput s3 _ (h.copyPage.of_fst e2)
          next e2 => exact (h.copyPage.of_fst e2).abandon
        · exact hput _ _ hs2.migrationShoot
      · split
        · exact hput _ _ h.markStale
        · exact h
      · split
        · exact hput s _ h
        · exact h
      · exact h

/-! ## Control.lean -/

theorem Keeps.execNop {f} (h : Keeps o s) : KeepsNext o (execNop f s) :=
  h.withIssuer (fun _ _ h1 => h1.laneMode (fun _ _ _ _ h3 => h3))

theorem Keeps.execBra {f} (h : Keeps o s) : KeepsNext o (execBra f s) :=
  h.withIssuer (fun _ _ h1 => h1.laneMode (fun _ _ _ _ h3 => h3))

theorem Keeps.execBrx {f} (h : Keeps o s) : KeepsNext o (execBrx f s) :=
  h.withIssuer (fun _ _ h1 => h1.laneMode (fun _ _ _ _ h3 => h3))

theorem Group.sound.gotoAll {ls target} (h : g.sound) : (g.gotoAll ls target).sound :=
  sound_foldl h (fun _ _ h1 => h1.setLpc)

theorem Keeps.branchGroup {f step k} (h : Keeps o s) (hs : ∀ g, g.sound → (step g).1.sound) :
    Keeps o (branchGroup f step k s) := by
  unfold Machine.branchGroup
  extract_lets g
  split
  · split
    next e1 =>
      extract_lets g2
      refine Keeps.finish ?_
      refine { h with groups := fun ho => (h.groups ho).put ?_ }
      unfold g2
      split
      · exact (Group.sound.of_fst (hs g (h.group ho)) e1).gotoAll
      · exact (Group.sound.of_fst (hs g (h.group ho)) e1).advanceActive
  · exact h.groupMode (fun _ h1 => h1)

theorem Keeps.execBsz {f} (h : Keeps o s) : KeepsNext o (execBsz f s) :=
  h.withIssuer (fun _ _ h1 => h1.branchGroup (fun _ h2 => h2))

theorem Keeps.execBsnz {f} (h : Keeps o s) : KeepsNext o (execBsnz f s) :=
  h.withIssuer (fun _ _ h1 => h1.branchGroup (fun _ h2 => h2))

theorem Keeps.execLoop {f} (h : Keeps o s) : KeepsNext o (execLoop f s) := by
  unfold Machine.execLoop
  refine h.withIssuer (fun k u h1 => h1.branchGroup ?_)
  intro g h2
  extract_lets v
  exact h2.write

theorem frameFlight_sound {s gk r c kind} (hk : FlightKind.sound kind) : (frameFlight s gk r c kind).sound := hk

theorem Keeps.callLane {k target l p rc} (h : Keeps o s) : Keeps o (s.callLane k target l p rc).1 := by
  unfold State.callLane
  extract_lets t move
  have hmove : ∀ s u, Keeps o s → (∀ x, x.sound → (u x).sound) → Keeps o (move s u) :=
    fun s u hs hu => hs.modThread fun x hx => hu (x.doCall (target x)) hx.doCall
  clear_value move
  split
  · exact h
  · exact hmove _ _ h fun _ hx => hx
  · split
    · exact h.txAbort
    · exact hmove _ _ (h.write.foldl fun _ _ hu => hu.poisonRange) fun _ hx => hx
  · split
    · exact h
    · exact h
    · split
      · exact h.txAbort
      · extract_lets base fl s3
        have hfl : fl.sound := frameFlight_sound (spill_sound sorted_placeList)
        have hs3 : Keeps o s3 := by
          unfold s3
          split
          · exact h.modCore
          · exact h
        split
        next e =>
          have hu := (hs3.launchFlight fun _ => hfl).of_fst e
          split
          · exact hu.sendRemote.modThread fun _ hx => hx
          · exact hmove _ _ hu.sendRemote fun _ hx => hx
  · exact h

/-- A fill reads the frame back, and the window moves back to it. -/
theorem Thread.sound.filled {r n m} (h : t.sound) :
    ({ t.fillFrame r with nls := n, ngl := m } : Thread).doRet.sound := by
  have hf := h.fillFrame (r := r)
  generalize t.fillFrame r = u at hf ⊢
  have hu : ({ u with nls := n, ngl := m } : Thread).sound := hf
  exact hu.doRet

theorem Keeps.retLane {k l p rc} (h : Keeps o s) : Keeps o (s.retLane k l p rc).1 := by
  unfold State.retLane
  extract_lets t
  split
  · exact h
  · exact h.modThread fun _ hx => hx.doRet
  · split
    · exact h.txAbort
    · split
      · exact h
      · exact h.modThread fun _ hx => hx.filled
  · split
    · exact h
    · exact h
    · split
      · exact h.txAbort
      · extract_lets fl s1
        have hs1 : Keeps o s1 := by
          unfold s1
          split
          · exact h.l1Missed
          · exact h
        split
        · exact h.modCore.modThread fun _ hx => hx.filled
        · split
          next e =>
            exact ((hs1.launchFlight fun _ => frameFlight_sound fill_sound).of_fst e).sendRemote.modThread
                fun _ hx => hx
  · exact h

theorem Keeps.windowOp {call r target k} (h : Keeps o s) : Keeps o (windowOp call r target k s) := by
  unfold Machine.windowOp
  extract_lets g barred held
  split
  · extract_lets plans blocked reqs
    split
    · exact h
    · split
      next e2 => exact h.checkAll.of_fst e2
      next e2 =>
        split
        · exact h.checkAll.of_fst e2
        · extract_lets s2 rs1
          have hs2 : Keeps o s2 := (h.checkAll.of_fst e2).takeReplies.foldl (fun _ _ h1 => h1.txAbort)
          split
          next e3 =>
            extract_lets s4
            have hs4 : Keeps o s4 := by
              unfold s4
              split
              · refine Keeps.endRun (Keeps.of_fst (hs2.foldl_fst ?_) e3)
                intro x4 x5 h1
                extract_lets rc
                split
                next e5 =>
                  refine Keeps.of_fst ?_ e5
                  split
                  · exact h1.callLane
                  · exact h1.retLane
              · refine Keeps.of_fst (hs2.foldl_fst ?_) e3
                intro x4 x5 h1
                extract_lets rc
                split
                next e4 =>
                  refine Keeps.of_fst ?_ e4
                  split
                  · exact h1.callLane
                  · exact h1.retLane
            exact hs4.advanceOthers.finish
  · exact h.finish

theorem Keeps.execCall {f} (h : Keeps o s) : KeepsNext o (execCall f s) := h.withIssuer (fun _ _ h1 => h1.windowOp)

theorem Keeps.execCallx {f} (h : Keeps o s) : KeepsNext o (execCallx f s) := h.withIssuer (fun _ _ h1 => h1.windowOp)

theorem Keeps.execRet {f} (h : Keeps o s) : KeepsNext o (execRet f s) := h.withIssuer (fun _ _ h1 => h1.windowOp)

theorem Keeps.execJopen {f} (h : Keeps o s) : KeepsNext o (execJopen f s) := by
  unfold Machine.execJopen
  refine h.withIssuer ?_
  intro k u h1
  extract_lets g
  split
  · exact h1
  · split
    · exact h1.groupMode (fun _ h2 => h2)
    · split
      · exact h1.trapAll
      · exact h1.groupMode (fun _ h2 => h2)

theorem Keeps.execJoin {f} (h : Keeps o s) : KeepsNext o (execJoin f s) := by
  unfold Machine.execJoin
  refine h.withIssuer ?_
  intro k u h1
  extract_lets g
  split
  · exact h1
  · split
    · exact h1.groupMode (fun _ h2 => h2)
    · split
      · refine Keeps.finish ?_
        exact { h1 with groups := fun ho => (h1.groups ho).put (h1.group ho) }
      · exact h1.trapAll

theorem Group.sound.joinComplete (h : g.sound) : g.joinComplete.sound := by
  unfold Group.joinComplete
  split
  · exact Group.sound.gotoAll h
  · exact h

theorem Keeps.execJoinCompletion {gk} (h : Keeps o s) : KeepsNext o (execJoinCompletion gk s) := by
  unfold Machine.execJoinCompletion
  refine Keeps.next ?_
  split
  · exact h.syncLanes.modGroup (fun _ h1 => h1.joinComplete)
  · exact h

theorem Keeps.execTrapEntryPop {gk} (h : Keeps o s) : KeepsNext o (execTrapEntryPop gk s) := by
  unfold Machine.execTrapEntryPop
  refine Keeps.next ?_
  split
  · exact Keeps.reap (h.modGroup (fun _ h1 => h1.popTrap))
  · exact h

theorem Group.sound.modJoinAt {i u} (h : g.sound) : (g.modJoinAt i u).sound := h

theorem Keeps.ejectLane {k target order entry l} (h : Keeps o s) : Keeps o (s.ejectLane k target order entry l) := by
  unfold State.ejectLane
  split
  · exact h
  next x found =>
    extract_lets th c tk
    have hx (ho : o.tablesKept) : x.sound := (h.group ho).get? found
    have hth (ho : o.tablesKept) : th.sound := hx ho
    refine Keeps.modGroup ?_ fun _ hg => Tbl.Each.del hg
    exact { h with teams := fun ho => (h.teams ho).modify fun _ ht => conts_append ht (hth ho) }

theorem Keeps.execEject {f} (h : Keeps o s) : KeepsNext o (execEject f s) := by
  unfold Machine.execEject
  refine h.withIssuer ?_
  intro k u h1
  extract_lets g xs all s1 order i s2
  have hs1 : Keeps o s1 := h1.advanceOthers
  have hs2 : Keeps o s2 := hs1.foldl (fun _ _ h2 => h2.ejectLane)
  split
  · exact h1
  · split
    · exact hs1.finish
    · split
      · exact hs1.finish
      · split
        · split
          · exact hs1.finish
          · exact Keeps.finish (hs2.modGroup (fun _ h2 => h2.modJoinAt))
        · exact hs1.finish

theorem Keeps.rejoinLane {k l x hm} (h : Keeps o s) (hx : o.tablesKept → x.sound) :
    Keeps o (s.rejoinLane k l x hm) := by
  unfold State.rejoinLane
  extract_lets s1 home tgt
  have hs1 : Keeps o s1 := h.modGroup fun _ hg => Tbl.Each.del hg
  refine hs1.modGroup_of fun ho g hg => Group.sound.modJoinAt ?_
  exact Tbl.Each.put hg (v := { x with home := none, lpc := tgt, wait := .none }) (hx ho)

theorem Keeps.execRejoin {f} (h : Keeps o s) : KeepsNext o (execRejoin f s) := by
  unfold Machine.execRejoin
  refine h.withIssuer ?_
  intro k u h1
  extract_lets g cs depth
  split
  · exact h1
  · split
    next e =>
      refine Keeps.finish (Keeps.advanceOthers (Keeps.of_fst (h1.foldl_fst ?_) e))
      intro x1 x2 h2
      extract_lets t bad
      split
      · exact h2
      · split
        · exact h2
        · split
          · exact h2
          · exact h2.rejoinLane h2.thread

theorem Keeps.exitLane {k l} (h : Keeps o s) : Keeps o (s.exitLane k l) := by
  unfold State.exitLane
  extract_lets g t s1 s2 s3 s4 s5 s6
  have hs1 : Keeps o s1 := h.modGroup (fun _ h1 => h1)
  have hs2 : Keeps o s2 := by
    unfold s2
    split
    · exact hs1.modGroup (fun _ h2 => h2.modJoinAt)
    · exact hs1
  have hs3 : Keeps o s3 := by
    unfold s3
    split
    · exact hs2.modGroup (fun _ h1 => h1)
    · exact hs2
  have hs4 : Keeps o s4 := hs3.dropToken
  have hs5 : Keeps o s5 := hs4.modThread (fun _ h1 => h1)
  have hs6 : Keeps o s6 := hs5.collectAgain
  split
  · exact hs6.collectAgain
  · exact hs6

theorem Group.sound.popEmpty (h : g.sound) : g.popEmpty.sound := by
  unfold Group.popEmpty
  split
  · split
    · exact h.popTrap
    · exact h
  · exact h

theorem Keeps.execExit {f} (h : Keeps o s) : KeepsNext o (execExit f s) := by
  unfold Machine.execExit
  refine h.withIssuer ?_
  intro k u h1
  extract_lets g cs homes s1
  have hs1 : Keeps o s1 := Keeps.modGroup (h1.foldl (fun _ _ h2 => h2.exitLane)) (fun _ h2 => h2.popEmpty)
  exact hs1.advanceOthers.finish.foldl (fun _ _ h2 => h2.reap)

theorem Keeps.execEnrol {f} (h : Keeps o s) : KeepsNext o (execEnrol f s) := by
  unfold Machine.execEnrol
  refine h.withIssuer ?_
  intro k u h1
  extract_lets n
  exact h1.lanesOver (fun _ _ h2 => Keeps.stepLane (h2.modGroup (fun _ h3 => h3)) (fun _ h3 => h3))

theorem Keeps.execBwaitm {f} (h : Keeps o s) : KeepsNext o (execBwaitm f s) := by
  unfold Machine.execBwaitm
  refine h.withIssuer ?_
  intro k u h1
  extract_lets n
  split
  · exact h1
  · refine h1.lanesOver ?_
    intro u1 l h2
    split
    · exact h2.modThread (fun _ h3 => h3)
    · exact h2.stepLane (fun _ h3 => h3)

theorem Keeps.execBwaitmRelease {gk n} (h : Keeps o s) : KeepsNext o (execBwaitmRelease gk n s) := by
  unfold Machine.execBwaitmRelease
  refine Keeps.next ?_
  split
  · exact h.syncLanes.modGroup (fun _ h1 => h1.advanceAll)
  · exact h

/-! ## Regroup.lean -/

theorem startGroup_sound {tk t p gid j} : (startGroup tk t p gid j).sound := by
  unfold Machine.startGroup
  extract_lets spillb g
  have hg : g.sound := Tbl.each_nil
  exact hg.setScalars.setScalar.setScalar

theorem Keeps.arrive {k home mask keys} (h : Keeps o s) : Keeps o (s.arrive k home mask keys) := by
  unfold State.arrive
  extract_lets g core slot s1
  have hs1 : Keeps o s1 := by
    refine h.modTeam ?_
    intro t h1
    split <;> exact h1
  refine hs1.modGroup (fun g1 h1 => h1.map (fun e => by dsimp only; split <;> rfl) ?_)
  intro e h2
  split <;> exact h2

theorem Keeps.regroupOp {home f k} (h : Keeps o s) : Keeps o (regroupOp home f k s) := by
  unfold Machine.regroupOp
  extract_lets g poisoned
  split
  · exact h.groupMode (fun _ h1 => h1)
  · split
    · exact h.finish
    · split
      · exact h.finish
      · split
        · exact h.finish
        · split
          · exact h
          · exact h.arrive.endRun.finish

theorem Keeps.execRegroup {f} (h : Keeps o s) : KeepsNext o (execRegroup f s) :=
  h.withIssuer (fun _ _ h1 => h1.regroupOp)

theorem Keeps.execRegroupHome {f} (h : Keeps o s) : KeepsNext o (execRegroupHome f s) :=
  h.withIssuer (fun _ _ h1 => h1.regroupOp)

theorem Keeps.takeHomes {tk r} (h : Keeps o s) : Keeps o (s.takeHomes tk r) := by
  unfold State.takeHomes
  split
  · exact h
  · extract_lets wanted
    refine h.foldl fun u x hu => ?_
    split
    · extract_lets n
      have hn : n.sound := startGroup_sound
      exact { hu with groups := fun ho => (hu.groups ho).put hn }
    · exact hu

theorem Keeps.rdvComplete {tk r} (h : Keeps o s) : Keeps o (s.rdvComplete tk r) := by
  unfold State.rdvComplete
  extract_lets s1 s2
  have hs1 : Keeps o s1 := h.syncLanes
  have hs2 : Keeps o s2 := hs1.modTeam (fun _ h1 => h1)
  refine { hs2 with groups := fun ho => (hs2.groups ho).map (fun e => by dsimp only; split <;> rfl) ?_ }
  intro e h1
  split <;> exact h1

theorem Keeps.takeAllHomes (h : Keeps o s) : Keeps o s.takeAllHomes := h.foldl (fun _ _ h1 => h1.takeHomes)

theorem Keeps.execRegroupCompletion {tk core} (h : Keeps o s) : KeepsNext o (execRegroupCompletion tk core s) := by
  unfold Machine.execRegroupCompletion
  refine Keeps.next ?_
  split
  · refine h.foldl ?_
    intro u x1 h1
    extract_lets s1
    have hs1 : Keeps o s1 := h1.takeHomes
    split
    · exact hs1.rdvComplete
    · exact hs1
  · exact h

theorem Keeps.execRegroupTimeout {tk core} (h : Keeps o s) : KeepsNext o (execRegroupTimeout tk core s) := by
  unfold Machine.execRegroupTimeout
  refine Keeps.next ?_
  split
  · refine h.foldl ?_
    intro u x1 h1
    split
    · exact h1.rdvComplete
    · exact h1
  · exact h

theorem Thread.sound.moved {mask} (h : t.sound) : (t.moved mask).sound := h

theorem packed_sound {mask ts} (hts : ∀ e ∈ ts, e.2.sound) : (g.packed mask ts).sound := by
  unfold Group.packed
  split
  · exact Tbl.each_nil
  · exact Tbl.each_zip fun e he => Thread.sound.setPred (hts e he).moved

theorem rdvThreads_sound {r} (h : Keeps o s) (ho : o.tablesKept) : ∀ e ∈ s.rdvThreads r, e.2.sound := by
  intro e he
  obtain ⟨k, -, inGroup⟩ := List.mem_flatMap.1 he
  obtain ⟨x, hx, rfl⟩ := List.mem_map.1 inGroup
  exact (h.group ho).2 x (List.mem_filter.1 hx).1

/-- Sorting threads by key, cutting them into pieces and packing the runs only move them. -/
theorem keyRuns_sound {l} (hl : ∀ e ∈ l, Thread.sound e.2) : ∀ r ∈ keyRuns l, ∀ t ∈ r.2, t.sound := by
  induction l with
  | nil => exact fun _ hr => nomatch hr
  | cons e rest ih =>
    have he := hl e (List.mem_cons_self ..)
    have hrest := ih fun x hx => hl x (List.mem_cons_of_mem _ hx)
    have single : ∀ t ∈ [e.2], Thread.sound t := fun t ht => by rw [List.mem_singleton.1 ht]; exact he
    unfold keyRuns
    split
    next k' ts more runs =>
      rw [runs] at hrest
      split
      · refine List.forall_mem_cons.2 ⟨List.forall_mem_cons.2 ⟨he, hrest _ (List.mem_cons_self ..)⟩, fun r hr => ?_⟩
        exact hrest r (List.mem_cons_of_mem _ hr)
      · exact List.forall_mem_cons.2 ⟨single, hrest⟩
    · exact List.forall_mem_cons.2 ⟨single, fun _ hr => nomatch hr⟩

theorem pieces_sound {n} {l : List (Nat × Thread)} (hl : ∀ e ∈ l, e.2.sound) :
    ∀ p ∈ pieces n l, ∀ e ∈ p, e.2.sound := by
  induction n generalizing l with
  | zero => exact fun _ hp => nomatch hp
  | succ n ih =>
    cases l with
    | nil => exact fun _ hp => nomatch hp
    | cons x l =>
      refine List.forall_mem_cons.2
          ⟨fun e he => hl e (List.mem_of_mem_take he), ih fun e he => hl e (List.mem_of_mem_drop he)⟩

theorem packRuns_sound {total used l} (hl : ∀ r ∈ l, ∀ t ∈ r.2, Thread.sound t) :
    ∀ p ∈ packRuns total used l, ∀ e ∈ p, e.2.sound := by
  induction l generalizing used with
  | nil => exact fun _ hp => nomatch hp
  | cons r rest ih =>
    obtain ⟨k, ts⟩ := r
    have hrest := fun x hx => hl x (List.mem_cons_of_mem _ hx)
    have mine : ∀ e ∈ ts.map fun t => (k, t), e.2.sound := by
      intro e he
      obtain ⟨t, ht, rfl⟩ := List.mem_map.1 he
      exact hl _ (List.mem_cons_self ..) t ht
    unfold packRuns
    extract_lets need others own
    split
    · intro p hp
      rcases List.mem_append.1 hp with first | later
      · exact pieces_sound mine p first
      · exact ih hrest p later
    · refine pieces_sound fun e he => ?_
      rcases List.mem_append.1 he with first | later
      · exact mine e first
      · obtain ⟨x, hx, later⟩ := List.mem_flatMap.1 later
        obtain ⟨t, ht, rfl⟩ := List.mem_map.1 later
        exact hrest x hx t ht

theorem Keeps.packThreads {r} (h : Keeps o s) : Keeps o (s.packThreads r) := by
  unfold State.packThreads
  extract_lets slots packs
  have hpacks (ho : o.tablesKept) : ∀ p ∈ packs, ∀ e ∈ p, e.2.sound :=
    packRuns_sound (keyRuns_sound fun e he => rdvThreads_sound h ho e (List.mem_mergeSort.1 he))
  refine h.foldl fun u i hu => Keeps.reap (hu.modGroup_of fun ho _ _ => packed_sound ?_)
  rcases lt_or_ge i packs.length with inside | outside
  · rw [List.getD_eq_getElem _ _ inside]
    exact hpacks ho _ (List.getElem_mem inside)
  · rw [List.getD_eq_default _ _ outside]
    exact fun _ he => nomatch he

theorem Group.sound.homed {r arrived ts} (h : g.sound) (hts : ∀ t ∈ ts, Thread.sound t) :
    (g.homed r arrived ts).sound := by
  unfold Group.homed
  extract_lets mine stay
  have hstay : Tbl.Each Thread.sound stay := by
    unfold stay
    split
    · exact Tbl.each_nil
    · exact h
  split
  · exact hstay
  · refine List.foldlRecOn (motive := fun m => Tbl.Each Thread.sound m) mine _ hstay fun m hm t ht => ?_
    exact hm.put (hts t (List.mem_filter.1 ht).1).moved

theorem Keeps.homeLeft {tk r gk} (h : Keeps o s) : Keeps o (s.homeLeft tk r gk) := by
  unfold State.homeLeft
  extract_lets g remains
  split
  · exact h
  · exact Keeps.reap (h.modGroup (fun _ h1 => h1))

theorem Keeps.homeThreads {tk r} (h : Keeps o s) : Keeps o (s.homeThreads tk r) := by
  unfold State.homeThreads
  extract_lets ts gks s1
  have hts (ho : o.tablesKept) : ∀ t ∈ ts, Thread.sound t := by
    intro t ht
    obtain ⟨e, he, rfl⟩ := List.mem_map.1 ht
    exact rdvThreads_sound h ho e he
  have hs1 : Keeps o s1 := h.foldl fun _ _ hu => hu.modGroup_of fun ho _ hg => hg.homed (hts ho)
  exact hs1.foldl fun _ _ hu => hu.homeLeft

theorem Keeps.execRelocationEnd {tk core} (h : Keeps o s) : KeepsNext o (execRelocationEnd tk core s) := by
  unfold Machine.execRelocationEnd
  refine Keeps.next ?_
  split
  · extract_lets s1
    have hs1 : Keeps o s1 := h.modTeam (fun _ h1 => h1)
    refine hs1.foldl ?_
    intro u x1 h1
    split
    · exact h1.homeThreads
    · exact h1.packThreads
  · exact h

/-- The continuations that form a group come from a team's. -/
theorem contClass_sound {core tk gk cs} (h : Keeps o s) (ho : o.tablesKept)
    (found : s.contClass core = some (tk, gk, cs)) :
    ∀ c ∈ cs, c.th.sound := by
  have queued : ∀ e ∈ s.contQueue core, e.2.th.sound := by
    intro e he
    obtain ⟨x, hx, inTeam⟩ := List.mem_flatMap.1 (List.mem_mergeSort.1 he)
    obtain ⟨c, hc, rfl⟩ := List.mem_map.1 inTeam
    exact (h.teams ho).2 x hx c (List.mem_filter.1 hc).1
  unfold State.contClass at found
  split at found
  · cases found
  next tk' c' rest queue =>
    rw [queue] at queued
    extract_lets cls at found
    split at found
    · split at found
      · cases found
        intro c hc
        obtain ⟨e, he, rfl⟩ := List.mem_map.1 (List.mem_mergeSort.1 (List.mem_of_mem_take hc))
        exact queued e (List.mem_filter.1 he).1
      · cases found
    · cases found

theorem Keeps.execContinuationGroupForm {core} (h : Keeps o s) : KeepsNext o (execContinuationGroupForm core s) := by
  unfold Machine.execContinuationGroupForm
  refine Keeps.next ?_
  split
  next tk gk cs found =>
    split
    · extract_lets from' fpois g g1 s1 s2
      have hg1 (ho : o.tablesKept) : g1.sound :=
        Tbl.each_zip (f := fun c : Cont => { c.th with wait := .none }) (contClass_sound h ho found)
      have hs1 : Keeps o s1 := h.modTeam fun _ ht => conts_filter ht
      have hs2 : Keeps o s2 := hs1.orphan
      exact { hs2 with groups := fun ho => (hs2.groups ho).put (hg1 ho) }
    · exact h
  · exact h

theorem Keeps.execCqstat {f} (h : Keeps o s) : KeepsNext o (execCqstat f s) := by
  unfold Machine.execCqstat
  refine h.withIssuer ?_
  intro k u h1
  extract_lets g core queued running
  exact h1.groupMode (fun _ h2 => h2.write)

/-! ## Preempt.lean -/

theorem Keeps.takeRange {ck off n} (h : Keeps o s) : Keeps o (s.takeRange ck off n) := by
  unfold State.takeRange
  extract_lets s1 c hwm
  have hs1 : Keeps o s1 := h.modCtx
  exact hs1.writePhys.writePhys

theorem Keeps.requestSave {tk t g} (h : Keeps o s) : Keeps o (s.requestSave tk t g) := by
  unfold State.requestSave
  extract_lets n
  split
  · exact h.takeRange.modTeam (fun _ h1 => h1)
  · exact h.event

theorem Keeps.moveResidencies {tk old new} (h : Keeps o s) : Keeps o (s.moveResidencies tk old new) :=
  { h with residencies := fun ho => Tbl.sorted_map (h.residencies ho) (fun e => by dsimp only; split <;> rfl) }

theorem Keeps.unplace {tk t} (h : Keeps o s) : Keeps o (s.unplace tk t) := by
  unfold State.unplace
  split
  · refine Keeps.moveResidencies ?_
    exact { h with teams := fun ho => (h.teams ho).del, groups := fun ho => (h.groups ho).filter }
  · exact h.removeTeam.modGrid

theorem Keeps.preemptTeam {tk} (h : Keeps o s) : Keeps o (s.preemptTeam tk) := by
  unfold State.preemptTeam
  split
  · split
    · exact h
    · split
      · exact h.modTeam (fun _ h1 => h1)
      · exact h.requestSave
  · exact h

theorem Keeps.preemptWhole {gk} (h : Keeps o s) : Keeps o (s.preemptWhole gk) := by
  unfold State.preemptWhole
  extract_lets tks t
  have ht : Keeps o t := h.foldl (fun _ _ h1 => h1.preemptTeam)
  split
  · exact ht
  · exact h

theorem Keeps.preemptTeams {tks} (h : Keeps o s) : Keeps o (s.preemptTeams tks) := by
  unfold State.preemptTeams
  extract_lets whole
  exact Keeps.foldl (h.foldl (fun _ _ h1 => h1.preemptTeam)) (fun _ _ h1 => h1.preemptWhole)

end Sys2Proof.Machine

end

section
/-! SUPPORT. What placement, launches, issue slots, saves and the host keep of the two invariants (O59, O60). -/

namespace Sys2Proof.Machine

variable {o s : State} {g : Group} {t : Thread}

/-! ## Placing.lean -/

theorem Keeps.takeCore {tk p fn b w j c} (h : Keeps o s) : Keeps o (s.takeCore tk p fn b w j c) := by
  unfold State.takeCore
  split
  · exact h
  · extract_lets s1
    have hs1 : Keeps o s1 := h.modTeam (fun _ h1 => h1)
    exact { hs1 with groups := fun ho => each_foldl (hs1.groups ho) (fun _ _ h1 => h1.put Tbl.each_nil) }

theorem Keeps.putTeam {tk t p fn d w cores b} (h : Keeps o s) : Keeps o (s.putTeam tk t p fn d w cores b) := by
  unfold State.putTeam
  extract_lets bars t1 slot s1
  have hs1 : Keeps o s1 := by
    unfold s1
    exact { h with teams := fun ho => (h.teams ho).put (fun _ hc => nomatch hc) }
  exact hs1.foldl (fun _ _ h1 => h1.takeCore)

theorem newTeam_sound {gk idx} : (newTeam gk idx).sound := fun _ hc => nomatch hc

theorem Keeps.team_getD {k d} (ho : o.tablesKept) (h : Keeps o s) (hd : d.sound) : ((s.teams.get? k).getD d).sound :=
  (h.teams ho).getD hd

theorem Keeps.emptied {p fn} (h : Keeps o s) : Keeps o (s.emptied p fn) :=
  { h with
    grids := fun ho => Tbl.sorted_put (h.grids ho) _ _
    teams := fun _ => Tbl.each_nil
    savedTeams := fun _ => Tbl.all_nil
    groups := fun _ => Tbl.each_nil }

theorem Keeps.admitTeams {gk p fn dies block l} (h : Keeps o s) :
    KeepsSome o (s.admitTeams gk p fn dies block l) := by
  induction l generalizing s with
  | nil => exact h.some
  | cons e rest ih =>
    obtain ⟨idx, saved⟩ := e
    unfold State.admitTeams
    extract_lets w at?
    clear_value at? w
    rcases at? with _ | ⟨d, cores, b⟩
    · exact keepsSome_none o
    · rcases saved with _ | ⟨tk, t⟩
      · exact ih h.fresh.putTeam
      · exact ih h.putTeam

theorem Keeps.fitWhole {gk p fn block ts r} (h : Keeps o s) (fit : s.fitWhole gk p fn block ts = Option.some r) :
    Keeps o r.1 := by
  obtain ⟨u, admitted, fits⟩ := Option.bind_eq_some_iff.1 fit
  split at fits
  · cases fits
    exact h.admitTeams u admitted
  · cases fits

theorem Keeps.startTimers {d ms} (h : Keeps o s) : Keeps o (s.startTimers d ms) := h.foldl (fun _ _ h1 => h1.modGrid)

theorem Keeps.restartTimer {d gk} (h : Keeps o s) : Keeps o (s.restartTimer d gk) := by
  unfold State.restartTimer
  extract_lets s1
  have hs1 : Keeps o s1 := h.modGrid
  split <;> exact hs1

theorem Keeps.stopTimers {d} (h : Keeps o s) : Keeps o (s.stopTimers d) :=
  { h with grids := fun ho => Tbl.sorted_map (h.grids ho) (fun e => by dsimp only; split <;> rfl) }

theorem Keeps.execTeamClaim {d grid} (h : Keeps o s) : KeepsNext o (execTeamClaim d grid s) := by
  unfold Machine.execTeamClaim
  refine Keeps.next ?_
  split
  · split
    · exact h
    · extract_lets b
      exact h.modGrid
  · exact h

theorem Keeps.placeSaved {tk t p fn d w cores b} (h : Keeps o s) : Keeps o (s.placeSaved tk t p fn d w cores b) :=
  h.putTeam.moveResidencies

theorem Keeps.execAgeingLimitReached {d} (h : Keeps o s) : KeepsNext o (execAgeingLimitReached d s) := by
  unfold Machine.execAgeingLimitReached
  refine Keeps.next ?_
  split <;> exact h

theorem Keeps.placeWhole {gk gr} (h : Keeps o s) : KeepsSome o (s.placeWhole gk gr) := by
  unfold State.placeWhole
  extract_lets fn
  split
  · exact keepsSome_none o
  · intro v found
    obtain ⟨ts, -, placed⟩ := Option.bind_eq_some_iff.1 found
    split at placed
    · obtain ⟨u, admitted, rfl⟩ := Option.map_eq_some_iff.1 placed
      refine (h.admitTeams u admitted).foldl fun w e hw => ?_
      split
      · extract_lets new
        exact Keeps.moveResidencies (hw.modTeam fun _ ht => ht)
      · exact hw
    · obtain ⟨r, fits, rfl⟩ := Option.map_eq_some_iff.1 placed
      have hr := h.fitWhole fits
      exact Keeps.modGrid hr

theorem Keeps.preemptOthers {d misses} (h : Keeps o s) : Keeps o (s.preemptOthers d misses) := by
  unfold State.preemptOthers
  split
  · exact h
  · extract_lets needs
    split
    · exact h
    · exact h.preemptTeams

theorem Keeps.andThen {es} (h : Keeps o s) : Keeps o (s.andThen es) := h

theorem Keeps.execTeamPlacement {d} (h : Keeps o s) : KeepsNext o (execTeamPlacement d s) := by
  unfold Machine.execTeamPlacement
  refine Keeps.next ?_
  extract_lets s1 t s2
  have hs1 : Keeps o s1 := h.stopTimers
  have hs2 : Keeps o s2 := hs1.startTimers
  split
  · split
    · exact hs2
    · extract_lets fn w
      split
      · exact hs2.andThen
      · split
        next e2 =>
          extract_lets s4
          have hs4 : Keeps o s4 := (hs2.fresh.of_snd e2).putTeam
          exact hs4.modGrid.restartTimer.andThen
      · exact hs2.placeSaved.modGrid.restartTimer.andThen
  · exact hs2.preemptOthers

theorem Keeps.execCoresidentPlacement {grid} (h : Keeps o s) : KeepsNext o (execCoresidentPlacement grid s) := by
  unfold Machine.execCoresidentPlacement
  refine Keeps.next ?_
  split
  · split
    next e1 => exact (h.placeWhole _ e1).modGrid
    · exact h.modGrid
  · exact h

theorem Keeps.zeroPad {core a n} (h : Keeps o s) : Keeps o (s.zeroPad core a n) := by
  unfold State.zeroPad
  extract_lets lo u
  have hu : Keeps o u := h.forget
  exact { hu with scratch := fun ho => dropRange_wf (h.scratch ho) lo _ }

theorem Keeps.zeroTile {core tile} (h : Keeps o s) : Keeps o (s.zeroTile core tile) := h

theorem Keeps.zeroTeam {t p} (h : Keeps o s) : Keeps o (s.zeroTeam t p) := by
  unfold State.zeroTeam
  extract_lets s1
  have hs1 : Keeps o s1 := h.foldl (fun _ _ h1 => h1.zeroPad.foldl (fun _ _ h2 => h2.zeroTile))
  exact hs1.foldl (fun _ _ h1 => h1.zeroPad)

theorem Keeps.startAcquire {t ck} (h : Keeps o s) : Keeps o (s.startAcquire t ck) := by
  unfold State.startAcquire
  extract_lets s1
  have hs1 : Keeps o s1 := h.foldl (fun _ _ h1 => h1.modCore)
  exact hs1

/-- A group starts with its threads in order of their lanes. -/
theorem startThreads_sound {p gid} : (startThreads p gid).Each Thread.sound := by
  refine ⟨?_, fun e he => ?_⟩
  · unfold startThreads
    rw [Tbl.sorted_iff, List.map_map]
    exact (List.pairwise_lt_range.filter _).map _ fun _ _ h => h
  · obtain ⟨l, -, rfl⟩ := List.mem_map.1 he
    exact fresh_sound

theorem Keeps.startTeam {tk tm gr} (h : Keeps o s) : Keeps o (s.startTeam tk tm gr) := by
  unfold State.startTeam
  extract_lets seen s1 s2 s3 gk
  have hs1 : Keeps o s1 := h.zeroTeam.startAcquire
  have hs2 : Keeps o s2 := by
    unfold s2
    refine { hs1 with groups := fun ho => (hs1.groups ho).map (fun e => by dsimp only; split <;> rfl) ?_ }
    intro e h1
    split
    · exact startThreads_sound.map (fun _ => rfl) (fun _ h2 => h2.sees)
    · exact h1
  have hs3 : Keeps o s3 := hs2.modTeam (fun _ _ _ hc => nomatch hc)
  exact hs3.trace

theorem Keeps.execTeamStart {team} (h : Keeps o s) : KeepsNext o (execTeamStart team s) := by
  unfold Machine.execTeamStart
  refine Keeps.next ?_
  split
  · split
    · exact h
    · exact h.foldl (fun _ _ h1 => h1.startTeam)
  · exact h

theorem Keeps.execTeamRetire {team} (h : Keeps o s) : KeepsNext o (execTeamRetire team s) := by
  unfold Machine.execTeamRetire
  refine Keeps.next ?_
  split
  · split
    · exact h
    · extract_lets s1 s2 s3
      have hs1 : Keeps o s1 := by
        unfold s1
        split
        · exact h.freeRange
        · exact h
      have hs2 : Keeps o s2 := hs1.trace
      have hs3 : Keeps o s3 := hs2.removeTeam.modGrid
      exact hs3.gridRecord
  · exact h

theorem Keeps.execGridRetire {grid} (h : Keeps o s) : KeepsNext o (execGridRetire grid s) := by
  unfold Machine.execGridRetire
  refine Keeps.next ?_
  split
  · split
    · exact h.endGrid
    · exact h
  · exact h

/-! ## Launching.lean -/

theorem Keeps.enterGrid {g} (h : Keeps o s) : Keeps o (s.enterGrid g).1 := by
  unfold State.enterGrid
  split
  next k _ e =>
    have hu := h.fresh.of_snd e
    exact { hu with grids := fun ho => Tbl.sorted_put (hu.grids ho) k g }

theorem Keeps.readFails {qk st r} (h : Keeps o s) : Keeps o (s.readFails qk st r) := by
  unfold State.readFails
  extract_lets ck
  exact h.modQueue.postEvent

theorem Keeps.readEnds {qk r b} (h : Keeps o s) : Keeps o (s.readEnds qk r b) := by
  unfold State.readEnds
  extract_lets ck p s1 st
  have hs1 : Keeps o s1 := h.modQueue
  split
  next e =>
    split
    · exact hs1.enterGrid.of_fst e
    · exact (hs1.enterGrid.of_fst e).endGrid

theorem Keeps.execPacketFetch {qk} (h : Keeps o s) : KeepsNext o (execPacketFetch qk s) := by
  unfold Machine.execPacketFetch
  refine Keeps.next ?_
  split
  · split
    · exact h.modQueue
    · exact h
  · split
    next e1 =>
      split
      next e2 => exact ((h.freeIdx.of_snd e1).devRead.of_fst e2).readFails
      next e2 =>
        split
        · exact ((h.freeIdx.of_snd e1).devRead.of_fst e2).modQueue
        · exact ((h.freeIdx.of_snd e1).devRead.of_fst e2).readEnds

theorem Keeps.execWaitConditionCheck {grid} (h : Keeps o s) : KeepsNext o (execWaitConditionCheck grid s) := by
  unfold Machine.execWaitConditionCheck
  refine Keeps.next ?_
  split
  · exact h
  · split
    · exact h
    · split
      next e2 => exact (h.devRead.of_fst e2).endGrid
      next e2 =>
        split
        · exact (h.devRead.of_fst e2).modGrid
        · exact h.devRead.of_fst e2

theorem Keeps.execGridRelease {grid} (h : Keeps o s) : KeepsNext o (execGridRelease grid s) := by
  unfold Machine.execGridRelease
  refine Keeps.next ?_
  split
  · exact h
  · split
    · exact h
    · extract_lets s1 st
      have hs1 : Keeps o s1 := h.modCtx
      split
      · exact hs1.endGrid
      · split
        next e1 => exact (hs1.fresh.of_snd e1).modGrid

theorem Keeps.submitLaunch {gk x st} (h : Keeps o s) : Keeps o (s.submitLaunch gk x st) := by
  unfold State.submitLaunch
  extract_lets g p s1
  have hs1 : Keeps o s1 := h.modGroup (fun _ h1 => h1.deliver)
  split
  · exact h
  · split
    · split
      next e1 => exact (hs1.enterGrid.of_fst e1).endGrid
    · split
      next e1 => exact (hs1.enterGrid.of_fst e1).modCtx

theorem Keeps.beginLaunch {gk b d st} (h : Keeps o s) : Keeps o (s.beginLaunch gk b d st) :=
  Keeps.modGroup h (fun _ h1 => h1.hold)

theorem Keeps.execLaunch {f} (h : Keeps o s) : KeepsNext o (execLaunch f s) := by
  unfold Machine.execLaunch
  refine h.withIssuer ?_
  intro k u h1
  extract_lets g a b
  split
  · exact h1.groupMode (fun _ h2 => h2)
  · split
    · exact h1
    · split
      · exact h1.trapAll
      · split
        · exact Keeps.finish (Keeps.endRun (h1.beginLaunch.modGroup (fun _ h2 => h2.await)))
        · exact h1.groupModeS (fun _ h2 => h2.beginLaunch)

theorem Keeps.roomLaunch {gk x rest} (h : Keeps o s) : Keeps o (s.roomLaunch gk x rest) := by
  unfold State.roomLaunch
  extract_lets st
  exact Keeps.wakeAll (h.modGroup (fun _ h1 => h1))

theorem Keeps.execDeviceQueueEnqueue {gk} (h : Keeps o s) : KeepsNext o (execDeviceQueueEnqueue gk s) := by
  unfold Machine.execDeviceQueueEnqueue
  refine Keeps.next ?_
  split
  · exact h
  · split
    · split
      · exact h
      · exact h.roomLaunch
    · split
      · exact h
      · exact Keeps.reap (Keeps.submitLaunch (h.modGroup (fun _ h1 => h1)))

/-! ## Turn.lean -/

theorem Keeps.dropFailed {gk idx} (h : Keeps o s) : Keeps o (s.dropFailed gk idx) := h

theorem Keeps.slotTeam {core slot gk} (h : Keeps o s) : Keeps o (s.slotTeam core slot gk) := by
  unfold State.slotTeam
  split
  · exact h.modCore
  · exact h

theorem Keeps.slotDid {core slot code g} (h : Keeps o s) : Keeps o (s.slotDid core slot code g) := h.modCore

theorem Keeps.setRun {core slot r} (h : Keeps o s) : Keeps o (s.setRun core slot r) := h.modCore

theorem Keeps.cutRun {core slot gk} (h : Keeps o s) : Keeps o (s.cutRun core slot gk) := by
  unfold State.cutRun
  extract_lets s1
  have hs1 : Keeps o s1 := h.setRun.endRun
  exact hs1

theorem Keeps.occupied {core slot r} (h : Keeps o s) : Keeps o (s.occupied core slot r) := by
  unfold State.occupied
  extract_lets s1
  have hs1 : Keeps o s1 := h.slotTeam.slotDid.setRun
  split
  · exact hs1.endRun
  · exact hs1

theorem Keeps.occupy {core slot r w} (h : Keeps o s) : Keeps o (s.occupy core slot r w) := h.slotTeam.setRun

theorem Keeps.clearSkips {k} (h : Keeps o s) : Keeps o (s.clearSkips k) := by
  unfold State.clearSkips
  refine h.foldl ?_
  intro u x h1
  extract_lets t
  split
  · exact h1.modThread (fun _ h2 => h2)
  · exact h1

theorem Keeps.blockStream {k} (h : Keeps o s) : Keeps o (s.blockStream k) := by
  unfold State.blockStream
  refine Keeps.modGroup h ?_
  intro g h1
  split <;> exact h1

theorem Keeps.issueEnd {core slot k} (h : Keeps o s) : Keeps o (s.issueEnd core slot k) := by
  unfold State.issueEnd
  split
  · extract_lets s1 u
    have hs1 : Keeps o s1 := h.blockStream
    have hu : Keeps o u := hs1.setRun
    split
    · exact hu
    · exact hs1.cutRun
  · extract_lets s1 g
    have hs1 : Keeps o s1 := h.clearSkips.slotDid
    split
    · exact hs1
    · split
      · exact hs1
      · split
        · exact hs1.endRun
        · exact hs1.setRun

theorem Keeps.issueStart {core slot} (h : Keeps o s) : Keeps o (s.issueStart core slot).1 := by
  unfold State.issueStart
  split
  · exact h
  · split
    · exact h.occupied
    · split
      · exact h.cutRun
      · split
        · exact h.cutRun
        · extract_lets cu
          exact h.dropFailed.finish.issueEnd
        · extract_lets cu
          split
          next e2 =>
            split
            · exact (h.occupy.prepare.of_fst e2).cutRun
            · exact (h.occupy.prepare.of_fst e2).issueEnd
          next e2 => exact h.occupy.prepare.of_fst e2

theorem Keeps.probeHeld {core slot k} (h : Keeps o s) : Keeps o (s.probeHeld core slot k) := by
  unfold State.probeHeld
  extract_lets s1
  have hs1 : Keeps o s1 := h.blockStream
  split
  · exact hs1
  · exact hs1.cutRun

/-! ## Saving.lean -/

theorem Keeps.execSliceExpiry (h : Keeps o s) : KeepsNext o (execSliceExpiry s) := by
  unfold Machine.execSliceExpiry
  refine Keeps.next ?_
  split
  · exact h
  · split
    · exact h
    · extract_lets f s'
      have hs' : Keeps o s' := h
      clear_value f
      split
      · exact hs'
      · split
        · exact hs'
        · exact hs'.preemptTeams

theorem Keeps.stopFull {gk} (h : Keeps o s) : Keeps o (s.stopFull gk) := by
  unfold State.stopFull
  extract_lets g s1
  have hs1 : Keeps o s1 := by
    unfold s1
    split
    · exact h.setThr
    · exact h
  exact Keeps.endRun (hs1.modGroup (fun _ h1 => h1))

theorem Keeps.execGroupSave {gk} (h : Keeps o s) : KeepsNext o (execGroupSave gk s) := by
  unfold Machine.execGroupSave
  refine Keeps.next ?_
  split
  · exact h.stopFull
  · exact h

theorem Keeps.execPreemptGraceExpiry {team} (h : Keeps o s) : KeepsNext o (execPreemptGraceExpiry team s) := by
  unfold Machine.execPreemptGraceExpiry
  refine Keeps.next ?_
  split
  · split
    · exact h.foldl (fun _ _ h1 => h1.stopFull)
    · exact h
  · exact h

theorem Thread.sound.save {hint parked} (h : t.sound) : (t.save hint parked).sound := h

theorem Group.sound.save (h : g.sound) : g.save.sound := by
  unfold Group.save
  extract_lets hint
  exact h.map (fun _ => rfl) (fun _ h1 => h1.save)

theorem savedTeam_sound {tk tm p r} (ho : o.tablesKept) (h : Keeps o s) (ht : tm.sound) :
    (s.savedTeam tk tm p r).sound := by
  refine ⟨fun x hx => ?_, ht⟩
  obtain ⟨e, he, rfl⟩ := List.mem_map.1 hx
  exact Group.sound.save ((h.groups ho).2 e (List.mem_filter.1 he).1)

theorem Keeps.abortAct {tk} (h : Keeps o s) : Keeps o (s.abortAct tk) :=
  h.foldl (fun _ _ h1 => h1.foldl (fun _ _ h2 => h2.txAbort))

theorem Keeps.detach {tk} (h : Keeps o s) : Keeps o (s.detach tk) := by
  unfold State.detach
  extract_lets mine watches holds tokens s1
  have hs1 : Keeps o s1 := h.removeTeam
  exact { hs1 with residencies := fun ho => sorted_foldl (hs1.residencies ho) (fun _ _ e => Tbl.sorted_put e _ _) }

theorem Keeps.unplaceAfter {t} (h : Keeps o s) : Keeps o (s.unplaceAfter t) := h.foldl (fun _ _ h1 => h1.unplace)

theorem Keeps.execTeamSave {team} (h : Keeps o s) : KeepsNext o (execTeamSave team s) := by
  unfold Machine.execTeamSave
  refine Keeps.next ?_
  split
  next e _ =>
    split
    · exact h.unplace.unplaceAfter
    · split
      · exact h
      · split
        · exact h
        · extract_lets s1 v h1
          have hs1 : Keeps o s1 := h.abortAct
          split
          next e3 =>
            extract_lets s3 s4 s5
            have hs3 : Keeps o s3 := (hs1.freeIdx.of_snd e3).writePhys
            have hs4 : Keeps o s4 := hs3.writePhys
            have hs5 : Keeps o s5 := hs4.detach.trace
            refine Keeps.setThr (Keeps.unplaceAfter ?_)
            exact { hs5 with
              savedTeams := fun ho => (hs5.savedTeams ho).put
                  (savedTeam_sound ho hs1 (Keeps.team_getD ho hs1 ((h.teams ho).get? e))) }
  · exact h

theorem Thread.sound.resettled {m old new} (h : t.sound) : (t.resettled m old new).sound := h

theorem Team.sound.moved {tm : Team} {m old} (h : old.sound) : (tm.moved m old).sound := by
  intro c hc
  obtain ⟨c', hc', rfl⟩ := List.mem_map.1 hc
  exact Thread.sound.resettled (h c' hc')

theorem Keeps.restore {t p v} (h : Keeps o s) : Keeps o (s.restore t p v) := by
  unfold State.restore
  extract_lets core slice tile word pads
  exact { h with
    scratch := fun ho => wf_foldl (wf_foldl (h.scratch ho) (fun _ _ e => wf_write e)) (fun _ _ e => wf_write e) }

theorem Keeps.resumeTeam {tk tm gr v} (h : Keeps o s) (hv : o.tablesKept → v.sound) :
    Keeps o (s.resumeTeam tk tm gr v) := by
  unfold State.resumeTeam
  extract_lets s1 m back rest s2 s3
  have hs1 : Keeps o s1 := h.zeroTeam.restore.startAcquire
  have hback : ∀ g, g.sound → (back g).sound := fun g hg => Tbl.Each.map hg (fun _ => rfl) fun _ ht => ht.resettled
  have hm (ho : o.tablesKept) : ∀ e ∈ m, e.2.2.sound := by
    intro e he
    obtain ⟨j, -, inCore⟩ := List.mem_flatMap.1 he
    obtain ⟨x, hx, rfl⟩ := List.mem_map.1 inCore
    exact (hv ho).1 x.1 (List.mem_filter.1 (List.of_mem_zip hx).1).1
  have hs2 : Keeps o s2 :=
    { hs1 with
      groups := fun ho => List.foldlRecOn (motive := fun m => Tbl.Each Group.sound m) m _ (hs1.groups ho).filter
        fun x hx e he => hx.put (hback _ (hm ho e he)) }
  have hs3 : Keeps o s3 := hs2.modTeam_of fun ho _ _ => Team.sound.moved (hv ho).2
  have hs4 := hs3.freeRange (ck := gr.ck) (off := v.off) (size := v.size) (saved := true)
  exact { hs4 with savedTeams := fun ho => (hs3.savedTeams ho).del }

theorem Keeps.execTeamResume {team} (h : Keeps o s) : KeepsNext o (execTeamResume team s) := by
  unfold Machine.execTeamResume
  refine Keeps.next ?_
  split
  · split
    · exact h
    · refine h.foldl fun u e hu => ?_
      split
      next found => exact hu.resumeTeam fun ho => (hu.savedTeams ho).get? found
      · exact hu
  · exact h

theorem Keeps.execChaltHalt {ck} (h : Keeps o s) : KeepsNext o (execChaltHalt ck s) := h.modCtx.next

theorem Keeps.execChaltRelease {ck} (h : Keeps o s) : KeepsNext o (execChaltRelease ck s) := h.modCtx.next

theorem Keeps.execContextStopped {ck} (h : Keeps o s) : KeepsNext o (execContextStopped ck s) := by
  unfold Machine.execContextStopped
  refine Keeps.next ?_
  split
  · exact h.modCtx
  · exact h

theorem Keeps.execChaltDump {ck} (h : Keeps o s) : KeepsNext o (execChaltDump ck s) := by
  unfold Machine.execChaltDump
  refine Keeps.next ?_
  extract_lets s1 c h1 n hwm
  have hs1 : Keeps o s1 := h.modCtx
  split
  · split
    next e1 => exact (hs1.freeIdx.of_snd e1).writePhys
  · exact hs1.event

/-! ## Host.lean -/

theorem Keeps.execQtailWrite {qk v} (h : Keeps o s) : KeepsNext o (execQtailWrite qk v s) := h.modQueue.next

theorem Keeps.execQueueEnable {qk v} (h : Keeps o s) : KeepsNext o (execQueueEnable qk v s) := h.modQueue.next

theorem Keeps.execQueueDisable {qk v} (h : Keeps o s) : KeepsNext o (execQueueDisable qk v s) := h.modQueue.next

theorem Keeps.execQstatFltClear {qk} (h : Keeps o s) : KeepsNext o (execQstatFltClear qk s) := h.modQueue.next

theorem Keeps.execQstatOvrClear {qk} (h : Keeps o s) : KeepsNext o (execQstatOvrClear qk s) := h.modQueue.next

theorem Keeps.execMbinWrite {fn v} (h : Keeps o s) : KeepsNext o (execMbinWrite fn v s) := by
  unfold Machine.execMbinWrite
  refine Keeps.next ?_
  split
  · exact h.modFn
  · exact h

theorem Keeps.execMboutPost {fn} (h : Keeps o s) : KeepsNext o (execMboutPost fn s) := h.modFn.msix.next

theorem Keeps.hostRefused {fn ck va status count} (h : Keeps o s) :
    Keeps o (s.hostRefused fn ck va status count) := by
  unfold State.hostRefused
  split
  next e => exact (h.freeIdx.of_snd e).send.modFn.event

theorem Keeps.hostXlat {ck va need} (h : Keeps o s) : Keeps o (s.hostXlat ck va need).1 := by
  unfold State.hostXlat
  split
  · exact h
  · split
    next e => exact h.xlat.of_fst e
    next e => exact h.xlat.of_fst e
    next e => exact h.xlat.of_fst e

theorem hostAccess_sound {fn ck leaf loc n chk} : (hostAccess fn ck leaf loc n chk).sound := rfl

theorem Keeps.hostWriteLine {fn ck leaf bytes} (h : Keeps o s) : Keeps o (s.hostWriteLine fn ck leaf bytes) := by
  unfold State.hostWriteLine
  split
  · extract_lets u f mixed s1
    have hs1 : Keeps o s1 := h.l2Touch.write
    split
    · exact h
    · exact hs1.blur.overlapNote.strongNote
  · exact h

theorem Keeps.execHostWindowWrite {fn off data} (h : Keeps o s) :
    KeepsNext o (execHostWindowWrite fn off data s) := by
  unfold Machine.execHostWindowWrite
  refine Keeps.next ?_
  split
  · split
    · exact h
    · split
      next e1 => exact (h.hostXlat.of_fst e1).hostRefused
      next e1 =>
        extract_lets bytes
        exact (h.hostXlat.of_fst e1).foldl (fun _ _ h1 => h1.hostWriteLine)

theorem Keeps.execHostWindowRead {fn off n} (h : Keeps o s) : KeepsNext o (execHostWindowRead fn off n s) := by
  unfold Machine.execHostWindowRead
  refine Keeps.next ?_
  split
  · split
    · exact h
    · split
      next e1 => exact (h.hostXlat.of_fst e1).hostRefused
      next e1 =>
        split
        · exact (h.hostXlat.of_fst e1).hostRefused
        · extract_lets s2
          have hs2 : Keeps o s2 := (h.hostXlat.of_fst e1).blurRead
          exact hs2.l2Touch.send

theorem Keeps.execEventRingEnable {fn v} (h : Keeps o s) : KeepsNext o (execEventRingEnable fn v s) := h.modFn.next

theorem Keeps.execErstatWrite {fn} (h : Keeps o s) : KeepsNext o (execErstatWrite fn s) := h.modFn.next

theorem Keeps.execEventRingDrain {fn} (h : Keeps o s) : KeepsNext o (execEventRingDrain fn s) := by
  unfold Machine.execEventRingDrain
  refine Keeps.next ?_
  split
  · split
    · exact h.modFn.writeEvent
    · exact h
  · exact h

theorem Keeps.execContextDisable {ck} (h : Keeps o s) : KeepsNext o (execContextDisable ck s) := h.disableCtx.next

theorem Keeps.execOvchkWrite {ck v} (h : Keeps o s) : KeepsNext o (execOvchkWrite ck v s) := by
  unfold Machine.execOvchkWrite
  refine Keeps.next ?_
  split <;> exact h

theorem Keeps.execLmapWrite {ck i v} (h : Keeps o s) : KeepsNext o (execLmapWrite ck i v s) := h.modCtx.next

theorem Keeps.execXsGrantWrite {ck d v} (h : Keeps o s) : KeepsNext o (execXsGrantWrite ck d v s) := by
  unfold Machine.execXsGrantWrite
  refine Keeps.next ?_
  split
  · exact h
  · exact h.modCtx

theorem Keeps.execVfEnable (h : Keeps o s) : KeepsNext o (execVfEnable s) := by
  unfold Machine.execVfEnable
  refine Keeps.next ?_
  split
  · exact h
  · exact h.foldl (fun _ _ h1 => h1.modFn)

theorem Keeps.clearFn {fn} (h : Keeps o s) : Keeps o (s.clearFn fn) := by
  unfold State.clearFn
  extract_lets s1 s2
  have hs1 : Keeps o s1 := h.abortGrids
  have hs2 : Keeps o s2 := hs1.foldl (fun _ _ h1 => h1.stripGrid)
  exact { hs2 with
    grids := fun ho => Tbl.sorted_filter (hs2.grids ho) _
    jobs := fun ho => Tbl.sorted_filter (hs2.jobs ho) _
    heldRecords := fun ho => Tbl.sorted_filter (hs2.heldRecords ho) _ }

theorem Keeps.resetFn {fn} (h : Keeps o s) : Keeps o (s.resetFn fn) := by
  unfold State.resetFn
  extract_lets s1 f fresh
  have hs1 : Keeps o s1 := h.clearFn
  exact hs1

theorem Keeps.resetDispatcher (h : Keeps o s) : Keeps o s.resetDispatcher := h

theorem Keeps.execFunctionLevelReset {fn} (h : Keeps o s) : KeepsNext o (execFunctionLevelReset fn s) := by
  unfold Machine.execFunctionLevelReset
  refine Keeps.next ?_
  split
  · exact h
  · split
    · exact h.resetFn
    · extract_lets s1 s2
      have hs1 : Keeps o s1 := h.foldl (fun _ _ h1 => h1.resetFn)
      have hs2 : Keeps o s2 := hs1.foldl (fun _ _ h1 => h1.modFn)
      exact hs2.resetDispatcher

end Sys2Proof.Machine

end

section
/-! SUPPORT. What dies, power, boot, links, registers, the clock, upsets, system instructions, events and lane exchanges keep
of the two invariants (O59, O60). -/

namespace Sys2Proof.Machine

variable {o s : State} {g : Group} {t : Thread}

/-! ## Dies.lean -/

theorem Keeps.cancelJob {k j} (h : Keeps o s) : Keeps o (s.cancelJob k j) := by
  unfold State.cancelJob
  extract_lets r u
  have hu : Keeps o u := h.redirect
  exact { hu with
    jobs := fun ho => Tbl.sorted_del (h.jobs ho) k
    heldRecords := fun ho => Tbl.sorted_filter (h.heldRecords ho) _ }

theorem Keeps.loseJobs {d} (h : Keeps o s) : Keeps o (s.loseJobs d) := by
  unfold State.loseJobs
  refine h.foldl ?_
  intro u x h1
  split
  next e =>
    split
    · have hu := h1.freeIdx.of_snd e
      exact { hu with jobs := fun ho => Tbl.sorted_del (hu.jobs ho) _ }
    · split
      · exact (h1.freeIdx.of_snd e).cancelJob
      · exact h1.freeIdx.of_snd e

theorem Keeps.loseFlights {d} (h : Keeps o s) : Keeps o (s.loseFlights d) := by
  unfold State.loseFlights
  split
  next e =>
    extract_lets out
    have hu := h.freeIdx.of_snd e
    exact { hu with flights := fun ho => (hu.flights ho).filter }

theorem Keeps.breakSlots {d} (h : Keeps o s) : Keeps o (s.breakSlots d) := by
  unfold State.breakSlots
  extract_lets stands
  refine h.foldl ?_
  intro u x h1
  split
  · exact h1.breakSlot
  · exact h1

theorem Keeps.wipeDie {d} (h : Keeps o s) : Keeps o (s.wipeDie d) := by
  unfold State.wipeDie
  extract_lets lo pad
  exact { h with scratch := fun ho => dropRange_wf (h.scratch ho) pad _ }

theorem Keeps.keepJobs {v d} (h : Keeps o s) (hv : Keeps o v) : Keeps o (s.keepJobs v d) := by
  unfold State.keepJobs
  extract_lets gone s1 runs
  have hs1 : Keeps o s1 := h.foldl fun _ _ hu => by
    split
    · exact hu.modCore
    · exact hu
  exact { hs1 with
    jobs := fun ho => hv.jobs ho
    heldRecords := fun ho => sorted_foldl (hs1.heldRecords ho) fun _ _ hm => Tbl.sorted_put hm .. }

theorem Keeps.loseDie {p} (h : Keeps o s) : Keeps o (s.loseDie p) := by
  unfold State.loseDie
  extract_lets d hit t u
  have ht : Keeps o t := Keeps.keepJobs (h.breakSlots.foldl (fun _ _ h1 => h1.abortGrid)) h
  have hu : Keeps o u := ht.loseJobs.loseFlights.wipeDie
  split
  · exact h
  · exact hu

theorem Keeps.losePorts {p} (h : Keeps o s) : Keeps o (s.losePorts p) :=
  { h with links := fun ho => Tbl.sorted_dropRange (h.links ho) }

theorem Keeps.setDie {p x} (h : Keeps o s) : Keeps o (s.setDie p x) := h.modDie

theorem Keeps.execDieFenceRelease {p} (h : Keeps o s) : KeepsNext o (execDieFenceRelease p s) := by
  unfold Machine.execDieFenceRelease
  refine Keeps.next ?_
  split
  · exact h.setDie
  · exact h

theorem Keeps.execDieReset {p} (h : Keeps o s) : KeepsNext o (execDieReset p s) := by
  unfold Machine.execDieReset
  refine Keeps.next ?_
  split
  · exact h
  · split
    · exact h
    · exact h.setDie
    · exact h.loseDie.losePorts.setDie

theorem Keeps.execDieFence {p} (h : Keeps o s) : KeepsNext o (execDieFence p s) := by
  unfold Machine.execDieFence
  refine Keeps.next ?_
  split
  · exact h
  · exact h
  · exact h.loseDie.losePorts.setDie

theorem Keeps.execDieDrop {p} (h : Keeps o s) : KeepsNext o (execDieDrop p s) := by
  unfold Machine.execDieDrop
  refine Keeps.next ?_
  split
  · exact h
  · split
    · exact h
    · exact h.setDie
    · exact h.loseDie.losePorts.setDie

theorem Keeps.fenceFatal {p} (h : Keeps o s) : Keeps o (s.fenceFatal p) := by
  unfold State.fenceFatal
  split
  · exact h
  · exact h
  · extract_lets l
    exact h.loseDie.losePorts.setDie.event

theorem Keeps.execDieFatalError {p} (h : Keeps o s) : KeepsNext o (execDieFatalError p s) := h.fenceFatal.next

theorem Keeps.execDieSelfTestEnd {p pass} (h : Keeps o s) : KeepsNext o (execDieSelfTestEnd p pass s) := by
  unfold Machine.execDieSelfTestEnd
  refine Keeps.next ?_
  split
  · exact h.setDie
  · exact h

theorem Keeps.execBaseFatalError (h : Keeps o s) : KeepsNext o (execBaseFatalError s) := Keeps.next h

/-! ## Power.lean -/

theorem Keeps.execDopWrite {p v} (h : Keeps o s) : KeepsNext o (execDopWrite p v s) := by
  unfold Machine.execDopWrite
  refine Keeps.next ?_
  split
  · exact h
  · exact h.modDie

theorem Keeps.execClockRelockComplete {p} (h : Keeps o s) : KeepsNext o (execClockRelockComplete p s) := h.modDie.next

theorem Keeps.execPassWrite {k v} (h : Keeps o s) : KeepsNext o (execPassWrite k v s) := by
  unfold Machine.execPassWrite
  refine Keeps.next ?_
  split
  · exact h
  · exact h.modCluster

theorem Keeps.execSwalWrite {k v} (h : Keeps o s) : KeepsNext o (execSwalWrite k v s) := by
  unfold Machine.execSwalWrite
  refine Keeps.next ?_
  extract_lets m
  split
  · exact h
  · exact h.modCluster

theorem Keeps.execSlewWrite {k v} (h : Keeps o s) : KeepsNext o (execSlewWrite k v s) := by
  unfold Machine.execSlewWrite
  refine Keeps.next ?_
  extract_lets m n
  exact h.modCluster

theorem Keeps.execPowerCapControl {k pass bits} (h : Keeps o s) :
    KeepsNext o (execPowerCapControl k pass bits s) := by
  unfold Machine.execPowerCapControl
  refine Keeps.next ?_
  split
  · exact h.modCluster
  · exact h

theorem Keeps.heat {d on} (h : Keeps o s) : Keeps o (s.heat d on) := by
  unfold State.heat
  split
  next e =>
    extract_lets pass bits
    exact (h.freeIdx.of_snd e).foldl (fun _ _ h1 => h1.modCluster)

theorem Keeps.execThermalThreshold {p temp} (h : Keeps o s) : KeepsNext o (execThermalThreshold p temp s) := by
  unfold Machine.execThermalThreshold
  refine Keeps.next ?_
  extract_lets s1 limit d
  have hs1 : Keeps o s1 := h.modDie
  split
  · exact hs1.modDie.fenceFatal
  · split
    · exact hs1
    · split
      · exact hs1.heat
      · split
        · exact hs1.heat
        · exact hs1

theorem Keeps.execLeakDetected (h : Keeps o s) : KeepsNext o (execLeakDetected s) := Keeps.next h

theorem Keeps.execLeakCleared (h : Keeps o s) : KeepsNext o (execLeakCleared s) := Keeps.next h

theorem Keeps.execMainEnHigh (h : Keeps o s) : KeepsNext o (execMainEnHigh s) := Keeps.next h

/-! ## Boot.lean -/

theorem Keeps.outside (h : Keeps o s) : Keeps o s.outside :=
  { h with
    links := fun _ => rfl
    grids := fun _ => rfl
    teams := fun _ => Tbl.each_nil
    savedTeams := fun _ => Tbl.all_nil
    groups := fun _ => Tbl.each_nil
    flights := fun _ => Tbl.each_nil
    strongs := fun _ => rfl
    rels := fun _ => rfl
    hazy := fun _ => rfl
    residencies := fun _ => rfl
    jobs := fun _ => rfl
    heldRecords := fun _ => rfl
    mem := fun _ => rfl
    scratch := fun _ => rfl
    chip := fun _ => rfl }

theorem Keeps.coldReset (h : Keeps o s) : Keeps o s.coldReset := by
  unfold State.coldReset
  split
  next e => exact ((h.freeIdx.of_snd e).outside :)

theorem Keeps.execColdReset (h : Keeps o s) : KeepsNext o (execColdReset s) := h.coldReset.next

theorem Keeps.leaseReset (h : Keeps o s) : Keeps o s.leaseReset := by
  unfold State.leaseReset
  extract_lets u
  have hu : Keeps o u := h.outside
  exact { hu with mem := h.mem, scratch := h.scratch, chip := h.chip }

theorem Keeps.execLeaseNAssert (h : Keeps o s) : KeepsNext o (execLeaseNAssert s) := h.leaseReset.next

theorem Keeps.execBctlLrst (h : Keeps o s) : KeepsNext o (execBctlLrst s) := h.leaseReset.next

theorem Keeps.execSmbusLeaseReset (h : Keeps o s) : KeepsNext o (execSmbusLeaseReset s) := h.leaseReset.next

theorem Keeps.execRailsInRegulation (h : Keeps o s) : KeepsNext o (execRailsInRegulation s) := Keeps.next h.coldReset

theorem Keeps.execMainInputDropout (h : Keeps o s) : KeepsNext o (execMainInputDropout s) := by
  unfold Machine.execMainInputDropout
  refine Keeps.next ?_
  exact { h with
    grids := fun _ => rfl
    teams := fun _ => Tbl.each_nil
    savedTeams := fun _ => Tbl.all_nil
    groups := fun _ => Tbl.each_nil
    flights := fun _ => Tbl.each_nil
    residencies := fun _ => rfl
    jobs := fun _ => rfl
    heldRecords := fun _ => rfl
    scratch := fun _ => rfl }

theorem Keeps.execBootSelfTestComplete {map} (h : Keeps o s) : KeepsNext o (execBootSelfTestComplete map s) := by
  unfold Machine.execBootSelfTestComplete
  refine Keeps.next ?_
  split
  · exact h
  · extract_lets s1 s2
    have hs1 : Keeps o s1 := h
    have hs2 : Keeps o s2 := hs1.foldl (fun _ _ h1 => h1.modLink)
    exact hs2.foldl (fun _ _ h1 => h1.modDie)

theorem Keeps.execScrubComplete (h : Keeps o s) : KeepsNext o (execScrubComplete s) := by
  unfold Machine.execScrubComplete
  refine Keeps.next ?_
  split
  · exact h
  · extract_lets u s1 s2
    have hu : Keeps o u := h.outside
    have hs1 : Keeps o s1 := by
      unfold s1
      exact { hu with links := h.links }
    have hs2 : Keeps o s2 := hs1
    split
    · exact hs2
    · exact hs2.foldl (fun _ _ h1 => h1.modCluster)

theorem Keeps.execBctlGo (h : Keeps o s) : KeepsNext o (execBctlGo s) := by
  unfold Machine.execBctlGo
  refine Keeps.next ?_
  split <;> exact h

theorem Keeps.measured {err} (h : Keeps o s) : Keeps o (s.measured err) := h

theorem Keeps.startFirmware {b} (h : Keeps o s) : Keeps o (s.startFirmware b) := by
  unfold State.startFirmware
  extract_lets m s1
  have hs1 : Keeps o s1 := h
  exact hs1.foldl (fun _ _ h1 => h1.modFn)

theorem Keeps.execImageMeasured {image} (h : Keeps o s) : KeepsNext o (execImageMeasured image s) := by
  unfold Machine.execImageMeasured
  refine Keeps.next ?_
  split
  · exact h
  · extract_lets bad
    split
    · exact h.measured
    · extract_lets s1 e1
      have hs1 : Keeps o s1 := h
      refine Keeps.measured ?_
      split
      · exact hs1.startFirmware
      · exact hs1

theorem Keeps.execSmbusWriteLimits {bytes} (h : Keeps o s) : KeepsNext o (execSmbusWriteLimits bytes s) := by
  unfold Machine.execSmbusWriteLimits
  refine Keeps.next ?_
  split <;> exact h

theorem Keeps.execSmbusReadRecord (h : Keeps o s) : KeepsNext o (execSmbusReadRecord s) := h.send.next

theorem Keeps.execSmbusReadLimits (h : Keeps o s) : KeepsNext o (execSmbusReadLimits s) := h.send.next

theorem Keeps.execSmbusReadCoolant (h : Keeps o s) : KeepsNext o (execSmbusReadCoolant s) := by
  unfold Machine.execSmbusReadCoolant
  refine Keeps.next ?_
  split
  next e =>
    extract_lets w
    exact (h.freeIdx.of_snd e).send

/-! ## Links.lean -/

theorem Keeps.execCellReceive {port cell} (h : Keeps o s) : KeepsNext o (execCellReceive port cell s) :=
  h.modLink.strain.next

theorem Keeps.execCellNakReceive {port aseq} (h : Keeps o s) : KeepsNext o (execCellNakReceive port aseq s) :=
  h.modLink.strain.next

theorem Keeps.execLinkRetrain {link lanes} (h : Keeps o s) : KeepsNext o (execLinkRetrain link lanes s) := by
  unfold Machine.execLinkRetrain
  refine Keeps.next ?_
  split
  · exact h.linkDown
  · exact h.modLink

theorem Keeps.execDiePortDown {p port} (h : Keeps o s) : KeepsNext o (execDiePortDown p port s) :=
  h.linkDown.modDie.next

theorem Keeps.execLinkTraining {link lanes} (h : Keeps o s) : KeepsNext o (execLinkTraining link lanes s) := by
  unfold Machine.execLinkTraining
  refine Keeps.next ?_
  extract_lets n
  split
  · exact h
  · exact h.modLink

theorem Keeps.replyTo {peer r cause data} (h : Keeps o s) : Keeps o (s.replyTo peer r cause data) := h.send.linkSend

theorem Keeps.peerWrote {peer core} (h : Keeps o s) : Keeps o (s.peerWrote peer core) := h

theorem Keeps.peerAccess {peer r} (h : Keeps o s) : Keeps o (s.peerAccess peer r) := by
  unfold State.peerAccess
  extract_lets ck s1
  have hs1 : Keeps o s1 := by
    unfold s1
    split
    · exact h
    · exact h.peerWrote
  split
  · exact hs1.replyTo
  · split
    next e => exact (hs1.xlat.of_fst e).replyTo
    next e => exact (hs1.xlat.of_fst e).replyTo
    next e => exact (hs1.xlat.of_fst e).replyTo
    next e =>
      extract_lets s3 s4 x1
      have hs3 : Keeps o s3 := (hs1.xlat.of_fst e).l2Touch
      have hs4 : Keeps o s4 := hs3.write
      split
      · refine Keeps.replyTo ?_
        split
        · exact hs4.poisonRange
        · exact hs4
      · split
        · exact hs3.replyTo
        · split
          · exact hs3.replyTo
          · refine Keeps.replyTo ?_
            split
            · exact hs3.write
            · exact hs3

theorem Keeps.drainPeers {n} (h : Keeps o s) : Keeps o (s.drainPeers n) := by
  induction n generalizing s with
  | zero => exact h
  | succ n ih =>
    unfold State.drainPeers
    split
    next e _ =>
      exact ih (Keeps.peerAccess (s := { s with peerHeld := s.peerHeld.erase e }) h)
    · exact h

theorem Keeps.execRemoteAccessReceive {peer r} (h : Keeps o s) : KeepsNext o (execRemoteAccessReceive peer r s) := by
  unfold Machine.execRemoteAccessReceive
  refine Keeps.next ?_
  split
  · exact h
  · split
    · exact h
    · exact h.peerAccess.drainPeers

/-! ## Registers.lean -/

theorem Keeps.nextOr {a} (h : Keeps o s) (ha : KeepsNext o a) : Keeps o (nextOr s a) := by
  unfold Machine.nextOr
  split
  · exact ha _ rfl
  · exact h

theorem Keeps.firstThat_nil (h : Keeps o s) : Keeps o (firstThat s []) := h

/-- The first thing that is due is done. -/
theorem Keeps.firstThat_cons {b f l} (hf : Keeps o (f ())) (hl : Keeps o (firstThat s l)) :
    Keeps o (firstThat s ((b, f) :: l)) := by
  cases b
  · exact hl
  · exact hf

theorem Keeps.queueReg {qk p v} (h : Keeps o s) : Keeps o (s.queueReg qk p v) := by
  unfold State.queueReg
  extract_lets w s1 s2
  have hs1 : Keeps o s1 := by
    unfold s1
    split
    · exact h.nextOr h.execQstatFltClear
    · exact h
  have hs2 : Keeps o s2 := by
    unfold s2
    split
    · exact hs1.nextOr hs1.execQstatOvrClear
    · exact hs1
  split
  · exact h.modQueue
  · exact h.modQueue
  · exact h.nextOr h.execQtailWrite
  · split
    · exact hs2.modQueue
    · exact hs2
  · exact h

theorem Keeps.bar0Reg {fn off v} (h : Keeps o s) : Keeps o (s.bar0Reg fn off v) := by
  unfold State.bar0Reg
  split
  · exact h
  · split
    · exact h
    · split
      · exact h.queueReg
      · split
        · exact h.nextOr h.execMbinWrite
        · split
          · exact h.modFn
          · split
            · exact h.modFn
            · split
              · exact h.modFn
              · exact h

theorem Keeps.bar2Reg {off v} (h : Keeps o s) : Keeps o (s.bar2Reg off v) := by
  unfold State.bar2Reg
  split
  · exact h
  · split
    · exact h
    · split
      · split
        · exact h.leaseReset
        · split
          · exact h.nextOr h.execBctlGo
          · exact h
      · split <;> exact h

theorem Keeps.ctxReg {ck p v} (h : Keeps o s) : Keeps o (s.ctxReg ck p v) := by
  unfold State.ctxReg
  split
  · exact h.modCtx
  · exact h.modCtx
  · exact h.modCtx
  · split
    · exact h.modCtx
    · split
      · exact h.disableCtx
      · exact h
  · exact h

theorem Keeps.ringReg {fn p w} (h : Keeps o s) : Keeps o (s.ringReg fn p w) := by
  unfold State.ringReg
  split
  · exact h.modFn
  · exact h.modFn
  · exact h.modFn
  · exact h.nextOr h.execErstatWrite
  · exact h

theorem Keeps.chaltReg {ck w} (h : Keeps o s) : Keeps o (s.chaltReg ck w) := by
  unfold State.chaltReg
  extract_lets s1 u
  have hs1 : Keeps o s1 := by
    unfold s1
    split
    · exact h.nextOr h.execChaltHalt
    · exact h.nextOr h.execChaltRelease
  have hu : Keeps o u := hs1.modCtx
  split
  · exact hs1
  · exact hu

theorem Keeps.fnReg {fn off v} (h : Keeps o s) : Keeps o (s.fnReg fn off v) := by
  unfold State.fnReg
  extract_lets w ck inside
  exact h.ctxReg.firstThat_cons
      (h.ringReg.firstThat_cons
      ((h.nextOr h.execXsGrantWrite).firstThat_cons
      (h.modCtx.firstThat_cons
      ((h.nextOr h.execShootDownStart).firstThat_cons
      ((h.nextOr h.execOvchkWrite).firstThat_cons
      (h.modCtx.firstThat_cons
      (h.chaltReg.firstThat_cons
      (h.modCtx.firstThat_cons
      (h.modCtx.firstThat_cons
      ((h.nextOr h.execLmapWrite).firstThat_cons (h.modFn.firstThat_cons h.firstThat_nil)))))))))))

theorem Keeps.diectl {p w} (h : Keeps o s) : Keeps o (s.diectl p w) := by
  unfold State.diectl
  split
  · exact h.nextOr h.execDieDrop
  · split
    · exact h.nextOr h.execDieFence
    · split
      · exact h.nextOr h.execDieReset
      · exact h.nextOr h.execDieFenceRelease

theorem Keeps.dispatcherReg {off v} (h : Keeps o s) : Keeps o (s.dispatcherReg off v) := by
  unfold State.dispatcherReg
  extract_lets w inside
  exact Keeps.firstThat_cons h
      (Keeps.firstThat_cons h
      (h.diectl.firstThat_cons
      (Keeps.firstThat_cons h
      ((h.nextOr h.execPassWrite).firstThat_cons
      ((h.nextOr h.execSwalWrite).firstThat_cons
      ((h.nextOr h.execSlewWrite).firstThat_cons
      ((h.nextOr h.execDopWrite).firstThat_cons
      (Keeps.firstThat_cons h (h.modCore.firstThat_cons h.firstThat_nil)))))))))

theorem Keeps.msixReg {fn off v} (h : Keeps o s) : Keeps o (s.msixReg fn off v) := by
  unfold State.msixReg
  extract_lets n w
  split
  · exact h
  · split
    · exact h.modFn
    · exact h.modFn
    · exact h.modFn.sendPending
    · exact h

theorem Keeps.configReg {fn off w} (h : Keeps o s) : Keeps o (s.configReg fn off w) := by
  unfold State.configReg
  split
  · exact h.send
  · split
    · exact h.modFn.sendPending
    · exact h.modFn
    · exact h.modFn
    · exact h.modFn
    · exact h.modFn
    · exact h.modFn
    · exact h

theorem Keeps.execRegisterWrite {space off v} (h : Keeps o s) : KeepsNext o (execRegisterWrite space off v s) := by
  unfold Machine.execRegisterWrite
  refine Keeps.next ?_
  split
  · exact h.bar0Reg
  · exact h.bar2Reg
  · exact h.fnReg
  · exact h.dispatcherReg
  · exact h.msixReg
  · exact h.configReg

/-! ## Clock.lean -/

theorem Keeps.execSlotArbitration {core slot} (h : Keeps o s) : KeepsNext o (execSlotArbitration core slot s) := by
  unfold Machine.execSlotArbitration
  refine Keeps.next ?_
  split
  · exact h
  · extract_lets g s1
    have hs1 : Keeps o s1 := h.modCore
    clear_value g
    split
    · exact hs1.slotDid
    · exact hs1.slotDid.setRun

theorem Keeps.execLlWindowEnd {core} (h : Keeps o s) : KeepsNext o (execLlWindowEnd core s) := h.modCore.next

theorem Keeps.execSlewWindowEnd {core} (h : Keeps o s) : KeepsNext o (execSlewWindowEnd core s) := h.modCore.next

theorem engineOwed_sound {gk} (ho : o.tablesKept) (h : Keeps o s) : (s.engineOwed gk).sound :=
  (h.group ho (gk := gk)).map (fun _ => rfl) fun _ ht => ht

theorem Keeps.charge {core slot} (h : Keeps o s) : Keeps o (s.charge core slot) := by
  unfold State.charge
  split
  · exact h
  · extract_lets s1
    have hs1 : Keeps o s1 := h.modCore
    split
    · exact hs1.modTeam (fun _ h1 => h1)
    · exact hs1

theorem Keeps.execIssueSlotCharge (h : Keeps o s) : KeepsNext o (execIssueSlotCharge s) := by
  unfold Machine.execIssueSlotCharge
  refine Keeps.next ?_
  extract_lets busy still cs
  exact h.foldl (fun _ _ h1 => h1.charge.charge.modCore)

/-! ## Errors.lean -/

theorem Thread.sound.spoil {n origin} (h : t.sound) : (t.spoil n origin).sound := h

theorem Keeps.spoilRegister {n} (h : Keeps o s) : Keeps o (s.spoilRegister n) := by
  unfold State.spoilRegister
  split
  · exact h
  · split
    · exact h.modGroup (fun _ h1 => h1)
    · split
      · exact h.modGroup (fun _ h1 => h1)
      · exact h.modThread (fun _ h1 => h1.spoil)

theorem conts_spoil {l : List Cont} {p : Nat × Cont → Prop} [DecidablePred p] {n origin} (h : ∀ c ∈ l, c.th.sound) :
    ∀ c ∈ ((List.range l.length).zip l).map fun e => if p e then { e.2 with th := e.2.th.spoil n origin } else e.2,
      c.th.sound := by
  intro c hc
  obtain ⟨e, he, rfl⟩ := List.mem_map.1 hc
  have hth := h e.2 (List.of_mem_zip he).2
  split
  · exact Thread.sound.spoil hth
  · exact hth

theorem Keeps.spoilMove {n} (h : Keeps o s) : Keeps o (s.spoilMove n) := by
  unfold State.spoilMove
  split
  · exact h
  · split
    · split
      · exact h
      · extract_lets gk
        split
        · exact h.modThread fun _ ht => ht.spoil
        · exact h
    · exact h.modTeam fun _ ht => conts_spoil ht

theorem Keeps.spoilWeights {n} (h : Keeps o s) : Keeps o (s.spoilWeights n) := by
  unfold State.spoilWeights
  split
  · exact h
  · exact { h with residencies := fun ho => Tbl.sorted_modify (h.residencies ho) }

theorem Keeps.spoilJob {n} (h : Keeps o s) : Keeps o (s.spoilJob n) := by
  unfold State.spoilJob
  split
  · exact h
  next k _ _ =>
    extract_lets c
    split
    · exact h
    · split
      · exact h
      · extract_lets j'
        refine Keeps.modCore ?_
        exact { h with jobs := fun ho => Tbl.sorted_put (h.jobs ho) k j' }

theorem Keeps.upset (h : Keeps o s) : Keeps o s.upset := by
  unfold State.upset
  split
  next e =>
    extract_lets n
    split
    · exact (h.freeIdx.of_snd e :)
    · exact (h.freeIdx.of_snd e :)
    · exact (h.freeIdx.of_snd e :)
    · exact (h.freeIdx.of_snd e :)
    · exact (h.freeIdx.of_snd e).spoilRegister
    · exact (h.freeIdx.of_snd e).spoilMove
    · exact (h.freeIdx.of_snd e).spoilWeights
    · exact (h.freeIdx.of_snd e).spoilJob
    · exact h.freeIdx.of_snd e

/-! ## System.lean -/

theorem Keeps.execTrap {f} (h : Keeps o s) : KeepsNext o (execTrap f s) :=
  h.withIssuer (fun _ _ h1 => h1.laneMode (fun _ _ _ _ _ => trivial))

theorem Keeps.execBkpt {f} (h : Keeps o s) : KeepsNext o (execBkpt f s) :=
  h.withIssuer (fun _ _ h1 => h1.laneMode (fun _ _ _ _ _ => trivial))

theorem Group.sound.trapReturn {m skip} (h : g.sound) : (g.trapReturn m skip).sound := h

theorem Keeps.execTret {f} (h : Keeps o s) : KeepsNext o (execTret f s) := by
  unfold Machine.execTret
  refine h.withIssuer ?_
  intro k u h1
  extract_lets g cs depth fail s1
  have hs1 : Keeps o s1 := h1.advanceOthers
  split
  · exact hs1.finish
  · split
    · exact hs1.finish
    · exact Keeps.finish (hs1.leaveWindows.modGroup (fun _ h2 => h2.trapReturn))

theorem Keeps.execMrs {f} (h : Keeps o s) : KeepsNext o (execMrs f s) := by
  unfold Machine.execMrs
  refine h.withIssuer ?_
  intro k u h1
  extract_lets idx n cs s1
  have hs1 : Keeps o s1 := by
    unfold s1
    clear_value cs
    split
    · exact h1.modGroup (fun _ h2 => h2.write)
    · exact h1
  split
  · exact Keeps.finish (hs1.modGroup (fun _ h2 => h2.advanceActive))
  · exact h1.laneMode (fun _ _ _ _ h3 => h3.write)

theorem Group.sound.setSpecial {idx v} (h : g.sound) : (g.setSpecial idx v).sound := by
  unfold Group.setSpecial
  split <;> exact h

theorem Keeps.execMsr {f} (h : Keeps o s) : KeepsNext o (execMsr f s) := by
  unfold Machine.execMsr
  refine h.withIssuer ?_
  intro k u h1
  extract_lets g idx n cs val m s1 s2
  have hs1 : Keeps o s1 := by
    unfold s1
    split
    · exact h1.foldl (fun _ _ h2 => h2.modThread (fun _ h3 => h3))
    · split
      · exact h1.clearThr
      · exact h1
  have hs2 : Keeps o s2 := Keeps.finish (hs1.modGroup (fun _ h2 => h2.advanceActive))
  split
  · exact hs2.modGroup (fun _ h2 => h2.setSpecial)
  · exact hs2

theorem Keeps.execHalt {f} (h : Keeps o s) : KeepsNext o (execHalt f s) := by
  unfold Machine.execHalt
  refine h.withIssuer ?_
  intro k u h1
  extract_lets g ck
  refine h1.groupModeS ?_
  intro u1 h2
  extract_lets s1
  have hs1 : Keeps o s1 := h2.modCtx
  split
  · exact hs1.event
  · exact hs1

theorem Keeps.execTlbinv {f} (h : Keeps o s) : KeepsNext o (execTlbinv f s) := by
  unfold Machine.execTlbinv
  refine h.withIssuer ?_
  intro k u h1
  extract_lets g a b
  split
  · exact h1.groupMode (fun _ h2 => h2)
  · split
    next e =>
      extract_lets x1 s2
      have hs2 : Keeps o s2 := (h1.fresh.of_snd e).foldl (fun _ _ h2 => h2.modThread (fun _ h3 => h3))
      exact hs2.shootAsk.finish

theorem Keeps.execYieldl {f} (h : Keeps o s) : KeepsNext o (execYieldl f s) := by
  unfold Machine.execYieldl
  refine h.withIssuer ?_
  intro k u h1
  extract_lets g here a
  refine h1.groupModeS ?_
  intro u1 h2
  split
  · extract_lets hint
    exact Keeps.endRun (h2.modGroup (fun _ h3 => h3))
  · exact h2

theorem Keeps.execPcnt {f} (h : Keeps o s) : KeepsNext o (execPcnt f s) := by
  unfold Machine.execPcnt
  refine h.withIssuer ?_
  intro k u h1
  extract_lets v
  exact h1.groupMode (fun _ h2 => h2.write)

theorem Keeps.execTrc {f} (h : Keeps o s) : KeepsNext o (execTrc f s) := by
  unfold Machine.execTrc
  refine h.withIssuer ?_
  intro k u h1
  extract_lets g
  exact h1.groupModeS (fun _ h2 => h2.trace)

theorem Keeps.execWpt {f} (h : Keeps o s) : KeepsNext o (execWpt f s) := by
  unfold Machine.execWpt
  refine h.withIssuer (fun k u h1 => h1.laneMode ?_)
  intro g l t h2 h3
  extract_lets b
  exact h3

/-! ## Agenda.lean -/

theorem Keeps.perform {a} (h : Keeps o s) : KeepsNext o (s.perform a) := by
  unfold State.perform
  split
  · exact h.execTrapEntryPop
  · exact h.execJoinCompletion
  · exact h.execBwaitmRelease
  · exact h.execContinuationGroupForm
  · exact h.execRegroupCompletion
  · exact h.execRegroupTimeout
  · exact h.execRelocationEnd
  · exact h.execSlotArbitration
  · exact h.execLlWindowEnd
  · exact h.execSlewWindowEnd
  · exact h.execSleepuWake
  · exact h.execSleepuChkWake
  · exact h.execLoadDataReturn
  · exact h.execStorePerform
  · exact h.execAtomicPerform
  · exact h.execReleaseMarkerMet
  · exact h.execSpillFillComplete
  · exact h.execPageWalkComplete
  · exact h.execTransactionCommit
  · exact h.execTransactionTimeout
  · exact h.execTokenGrant
  · exact h.execCopyJobDelivery
  · exact h.execCopyJobFinish
  · exact h.execPageMigration
  · exact h.execCompletionRecordWrite
  · exact h.execCoreBarrierPhaseComplete
  · exact h.execBarrierSlotComplete
  · exact h.execMatrixOpExecute
  · exact h.execMatrixOpRetire
  · exact h.execResidencyRefill
  · exact h.execRloadFillComplete
  · exact h.execMwaitComplete
  · exact h.execPacketFetch
  · exact h.execWaitConditionCheck
  · exact h.execGridRelease
  · exact h.execDeviceQueueEnqueue
  · exact h.execTeamClaim
  · exact h.execTeamPlacement
  · exact h.execCoresidentPlacement
  · exact h.execTeamStart
  · exact h.execAgeingLimitReached
  · exact h.execSliceExpiry
  · exact h.execPreemptGraceExpiry
  · exact h.execGroupSave
  · exact h.execTeamSave
  · exact h.execTeamResume
  · exact h.execTeamRetire
  · exact h.execGridRetire
  · exact h.execEventRingDrain
  · exact h.execShootDownComplete
  · exact h.execContextStopped
  · exact h.execChaltDump
  · exact h.execInstructionFetch
  · exact h.execIssueSlotCharge

theorem Team.sound.tick {tm : Team} {b f} (h : tm.sound) : (tm.tick b f).sound := by
  intro c hc
  obtain ⟨c', hc', rfl⟩ := List.mem_map.1 hc
  split
  · exact h c' hc'
  · exact h c' hc'

theorem Keeps.tick (h : Keeps o s) : Keeps o s.tick := by
  unfold State.tick
  extract_lets s1 delivered halted slice late slow s2 s3
  have hs1 : Keeps o s1 := Keeps.sweepRevoked (Keeps.sweepJobs h)
  have hs2 : Keeps o s2 := by
    unfold s2
    refine { hs1 with
      grids := fun ho => Tbl.sorted_map (hs1.grids ho) (fun e => by dsimp only; split <;> rfl)
      teams := fun ho => (hs1.teams ho).map (fun _ => rfl) (fun e h1 => Team.sound.tick ?_)
      groups := fun ho => (hs1.groups ho).map (fun _ => rfl) ?_ }
    · exact fun _ h1 => h1
    · exact h1
  have hs3 : Keeps o s3 := hs2.foldl (fun _ _ h1 => h1.setThr)
  split
  · exact hs1
  · exact hs3.foldl (fun _ _ h1 => h1.setThr)

theorem Keeps.closeClock (h : Keeps o s) : Keeps o s.closeClock := h

theorem Keeps.bringReplies {i} (h : Keeps o s) : Keeps o (s.bringReplies i) := h.foldl (fun _ _ h1 => h1.nextReply)

theorem Keeps.openClock (h : Keeps o s) : Keeps o s.openClock := by
  unfold State.openClock
  extract_lets u s1
  have hu : Keeps o u := h.tick
  have hs1 : Keeps o s1 := hu
  split
  · exact hu
  · split
    next e =>
      extract_lets s3
      have hs3 : Keeps o s3 := (hs1.upset.freeIdx.of_snd e).bringReplies.takeAllHomes
      exact hs3

theorem Keeps.nextClock (h : Keeps o s) : Keeps o s.nextClock := by
  unfold State.nextClock
  split
  · exact h.openClock
  · exact h.closeClock

/-! ## Lanes.lean -/

theorem Keeps.execVtos {f} (h : Keeps o s) : KeepsNext o (execVtos f s) := by
  unfold Machine.execVtos
  refine h.withIssuer ?_
  intro k u h1
  extract_lets g n j own idx
  split
  · exact h1.groupMode (fun _ h2 => h2)
  · split
    · exact h1
    · split
      · exact h1.finish
      · exact h1.groupMode (fun _ h2 => h2.write)

theorem Keeps.execStov {f} (h : Keeps o s) : KeepsNext o (execStov f s) := by
  unfold Machine.execStov
  refine h.withIssuer (fun k u h1 => h1.groupMode ?_)
  intro g h2
  extract_lets m v
  exact sound_foldl h2 (fun _ _ h3 => h3.modThread (fun _ h4 => h4.write))

theorem exchangeLane_sound {f k p src l} (h : t.sound) : (exchangeLane f k p src g l t).sound := by
  unfold Machine.exchangeLane
  extract_lets n j
  split
  · exact trivial
  · exact h.write

theorem Keeps.exchange {f by' src} (h : Keeps o s) : KeepsNext o (exchange f by' src s) :=
  h.withIssuer (fun _ _ h1 => h1.laneMode (fun _ _ _ _ => exchangeLane_sound))

theorem Keeps.execVshfl {f} (h : Keeps o s) : KeepsNext o (execVshfl f s) := h.exchange

theorem Keeps.execVbfly {f} (h : Keeps o s) : KeepsNext o (execVbfly f s) := h.exchange

theorem Keeps.execVbcast {f} (h : Keeps o s) : KeepsNext o (execVbcast f s) := h.exchange

theorem maskLane_sound {f k n m l} (h : t.sound) : (maskLane f k n m g l t).sound := by
  unfold Machine.maskLane
  extract_lets cs
  split
  · exact trivial
  · exact h.write

theorem Keeps.execVballot {f} (h : Keeps o s) : KeepsNext o (execVballot f s) :=
  h.withIssuer (fun _ _ h1 => h1.laneMode (fun _ _ _ _ => maskLane_sound))

theorem Keeps.execVmatch {f} (h : Keeps o s) : KeepsNext o (execVmatch f s) :=
  h.withIssuer (fun _ _ h1 => h1.laneMode (fun _ _ _ _ => maskLane_sound))

theorem Keeps.reduce {f op empty} (h : Keeps o s) : KeepsNext o (reduce f op empty s) := by
  unfold Machine.reduce
  refine h.withIssuer ?_
  intro k u h1
  extract_lets g n p v s1
  have hs1 : Keeps o s1 := by
    unfold s1
    clear_value p
    split
    · exact { h1 with groups := fun ho => (h1.groups ho).put (h1.group ho).write }
    · exact h1
  refine hs1.laneMode ?_
  intro g1 l t h2 h3
  clear_value p
  split
  · exact trivial
  · exact h3.write

theorem Keeps.scan {f op} (h : Keeps o s) : KeepsNext o (scan f op s) := by
  unfold Machine.scan
  refine h.withIssuer ?_
  intro k u h1
  extract_lets n
  refine h1.laneMode ?_
  intro g l t h2 h3
  split
  · exact trivial
  · exact h3.write

theorem Keeps.execVredAdd {f} (h : Keeps o s) : KeepsNext o (execVredAdd f s) := h.reduce

theorem Keeps.execVredMin {f} (h : Keeps o s) : KeepsNext o (execVredMin f s) := h.reduce

theorem Keeps.execVredMax {f} (h : Keeps o s) : KeepsNext o (execVredMax f s) := h.reduce

theorem Keeps.execVredAnd {f} (h : Keeps o s) : KeepsNext o (execVredAnd f s) := h.reduce

theorem Keeps.execVredOr {f} (h : Keeps o s) : KeepsNext o (execVredOr f s) := h.reduce

theorem Keeps.execVredXor {f} (h : Keeps o s) : KeepsNext o (execVredXor f s) := h.reduce

theorem Keeps.execVscanAdd {f} (h : Keeps o s) : KeepsNext o (execVscanAdd f s) := h.scan

theorem Keeps.execVscanMin {f} (h : Keeps o s) : KeepsNext o (execVscanMin f s) := h.scan

theorem Keeps.execVscanMax {f} (h : Keeps o s) : KeepsNext o (execVscanMax f s) := h.scan

end Sys2Proof.Machine

end

section
/-! PROOFS. Every step keeps the memories canonical (O59) and the tables in order (O60). -/

namespace Sys2Proof.Machine

variable {o s : State}

/-! ## Dispatch.lean -/

theorem Keeps.exec {i} (h : Keeps o s) : KeepsNext o (exec i s) := by
  cases i
  case mov | add | sub | mul | mulhi | mad | madhi | div | rem | min | max | abs | neg | adds | subs | and | or |
      xor | not | shl | shr | sar | rot | bfx | bfi | popc | clz | ctz | brev | bswp | lea | fma | rcp | rsq | sqrt |
      exp2 | log2 | sin | cos | tanh | frnd | fcls | csgn | scl | dp2 | cmpEq | cmpNe | cmpLt | cmpLe | cmpGt |
      cmpGe | cmpNum | cmpNan | sel | cvt | pack | unpk => exact h.scalarOp
  case vmov | vadd | vsub | vmul | vmulhi | vmad | vmadhi | vdiv | vrem | vmin | vmax | vabs | vneg | vadds | vsubs |
      vand | vor | vxor | vnot | vshl | vshr | vsar | vrot | vbfx | vbfi | vpopc | vclz | vctz | vbrev | vbswp |
      vlea | vfma | vrcp | vrsq | vsqrt | vexp2 | vlog2 | vsin | vcos | vtanh | vfrnd | vfcls | vcsgn | vscl | vdp2 |
      vcmpEq | vcmpNe | vcmpLt | vcmpLe | vcmpGt | vcmpGe | vcmpNum | vcmpNan | vsel | vcvt | vpack | vunpk | pand |
      por | pxor | pnot => exact h.vectorOp
  case vtos => exact h.execVtos
  case stov => exact h.execStov
  case vshfl => exact h.execVshfl
  case vbfly => exact h.execVbfly
  case vbcast => exact h.execVbcast
  case vballot => exact h.execVballot
  case vmatch => exact h.execVmatch
  case vredAdd => exact h.execVredAdd
  case vredMin => exact h.execVredMin
  case vredMax => exact h.execVredMax
  case vredAnd => exact h.execVredAnd
  case vredOr => exact h.execVredOr
  case vredXor => exact h.execVredXor
  case vscanAdd => exact h.execVscanAdd
  case vscanMin => exact h.execVscanMin
  case vscanMax => exact h.execVscanMax
  case ldScalar => exact h.execLdScalar
  case ldVector => exact h.execLdVector
  case ldNr => exact h.execLdNr
  case stScalar => exact h.execStScalar
  case stVector => exact h.execStVector
  case pfScalar => exact h.execPfScalar
  case pfVector => exact h.execPfVector
  case pgreqScalar => exact h.execPgreqScalar
  case pgreqVector => exact h.execPgreqVector
  case cinv => exact h.execCinv
  case cdem => exact h.execCdem
  case atomAdd => exact h.execAtomAdd
  case atomMin => exact h.execAtomMin
  case atomMax => exact h.execAtomMax
  case atomAnd => exact h.execAtomAnd
  case atomOr => exact h.execAtomOr
  case atomXor => exact h.execAtomXor
  case atomExch => exact h.execAtomExch
  case atomCas => exact h.execAtomCas
  case aredAdd => exact h.execAredAdd
  case aredMin => exact h.execAredMin
  case aredMax => exact h.execAredMax
  case aredAnd => exact h.execAredAnd
  case aredOr => exact h.execAredOr
  case aredXor => exact h.execAredXor
  case xbegin => exact h.execXbegin
  case xend => exact h.execXend
  case xabort => exact h.execXabort
  case xstat => exact h.execXstat
  case mma => exact h.execMma
  case mmaN2 => exact h.execMmaN2
  case mmaK2 => exact h.execMmaK2
  case mmt => exact h.execMmt
  case mmtN2 => exact h.execMmtN2
  case mmtK2 => exact h.execMmtK2
  case mzero => exact h.execMzero
  case mld => exact h.execMld
  case mst => exact h.execMst
  case mrow => exact h.execMrow
  case mwait => exact h.execMwait
  case tmset => exact h.execTmset
  case tmget => exact h.execTmget
  case ralloc => exact h.execRalloc
  case rloadMap => exact h.execRloadMap
  case rloadGlobal => exact h.execRloadGlobal
  case rpin => exact h.execRpin
  case runpin => exact h.execRunpin
  case rrev => exact h.execRrev
  case rstat => exact h.execRstat
  case rquota => exact h.execRquota
  case cpy => exact h.execCpy
  case sleepu => exact h.execSleepu
  case sleepuChk => exact h.execSleepuChk
  case barx => exact h.execBarx
  case bar => exact h.execBar
  case barc => exact h.execBarc
  case bart => exact h.execBart
  case barg => exact h.execBarg
  case nop => exact h.execNop
  case bra => exact h.execBra
  case brx => exact h.execBrx
  case call => exact h.execCall
  case callx => exact h.execCallx
  case ret => exact h.execRet
  case jopen => exact h.execJopen
  case join => exact h.execJoin
  case eject => exact h.execEject
  case rejoin => exact h.execRejoin
  case enrol => exact h.execEnrol
  case bwaitm => exact h.execBwaitm
  case bsz => exact h.execBsz
  case bsnz => exact h.execBsnz
  case loop => exact h.execLoop
  case exit => exact h.execExit
  case launch => exact h.execLaunch
  case fence => exact h.execFence
  case regroup => exact h.execRegroup
  case regroupHome => exact h.execRegroupHome
  case cqstat => exact h.execCqstat
  case trap => exact h.execTrap
  case tret => exact h.execTret
  case yieldl => exact h.execYieldl
  case mrs => exact h.execMrs
  case msr => exact h.execMsr
  case bkpt => exact h.execBkpt
  case wpt => exact h.execWpt
  case pcnt => exact h.execPcnt
  case trc => exact h.execTrc
  case halt => exact h.execHalt
  case tlbinv => exact h.execTlbinv
  case trapEntryPop => exact h.execTrapEntryPop
  case joinCompletion => exact h.execJoinCompletion
  case bwaitmRelease => exact h.execBwaitmRelease
  case continuationGroupForm => exact h.execContinuationGroupForm
  case regroupCompletion => exact h.execRegroupCompletion
  case regroupTimeout => exact h.execRegroupTimeout
  case relocationEnd => exact h.execRelocationEnd
  case slotArbitration => exact h.execSlotArbitration
  case llWindowEnd => exact h.execLlWindowEnd
  case slewWindowEnd => exact h.execSlewWindowEnd
  case sleepuWake => exact h.execSleepuWake
  case sleepuChkWake => exact h.execSleepuChkWake
  case loadDataReturn => exact h.execLoadDataReturn
  case storePerform => exact h.execStorePerform
  case atomicPerform => exact h.execAtomicPerform
  case releaseMarkerMet => exact h.execReleaseMarkerMet
  case spillFillComplete => exact h.execSpillFillComplete
  case pageWalkComplete => exact h.execPageWalkComplete
  case transactionCommit => exact h.execTransactionCommit
  case transactionTimeout => exact h.execTransactionTimeout
  case tokenGrant => exact h.execTokenGrant
  case copyJobDelivery => exact h.execCopyJobDelivery
  case copyJobFinish => exact h.execCopyJobFinish
  case pageMigration => exact h.execPageMigration
  case completionRecordWrite => exact h.execCompletionRecordWrite
  case coreBarrierPhaseComplete => exact h.execCoreBarrierPhaseComplete
  case barrierSlotComplete => exact h.execBarrierSlotComplete
  case matrixOpExecute => exact h.execMatrixOpExecute
  case matrixOpRetire => exact h.execMatrixOpRetire
  case residencyRefill => exact h.execResidencyRefill
  case rloadFillComplete => exact h.execRloadFillComplete
  case mwaitComplete => exact h.execMwaitComplete
  case packetFetch => exact h.execPacketFetch
  case waitConditionCheck => exact h.execWaitConditionCheck
  case gridRelease => exact h.execGridRelease
  case deviceQueueEnqueue => exact h.execDeviceQueueEnqueue
  case teamClaim => exact h.execTeamClaim
  case teamPlacement => exact h.execTeamPlacement
  case coresidentPlacement => exact h.execCoresidentPlacement
  case teamStart => exact h.execTeamStart
  case ageingLimitReached => exact h.execAgeingLimitReached
  case sliceExpiry => exact h.execSliceExpiry
  case preemptGraceExpiry => exact h.execPreemptGraceExpiry
  case groupSave => exact h.execGroupSave
  case teamSave => exact h.execTeamSave
  case teamResume => exact h.execTeamResume
  case teamRetire => exact h.execTeamRetire
  case gridRetire => exact h.execGridRetire
  case qtailWrite => exact h.execQtailWrite
  case queueEnable => exact h.execQueueEnable
  case queueDisable => exact h.execQueueDisable
  case qstatFltClear => exact h.execQstatFltClear
  case qstatOvrClear => exact h.execQstatOvrClear
  case mbinWrite => exact h.execMbinWrite
  case mboutPost => exact h.execMboutPost
  case hostWindowWrite => exact h.execHostWindowWrite
  case hostWindowRead => exact h.execHostWindowRead
  case functionLevelReset => exact h.execFunctionLevelReset
  case contextDisable => exact h.execContextDisable
  case eventRingEnable => exact h.execEventRingEnable
  case erstatWrite => exact h.execErstatWrite
  case eventRingDrain => exact h.execEventRingDrain
  case shootDownStart => exact h.execShootDownStart
  case shootDownComplete => exact h.execShootDownComplete
  case ovchkWrite => exact h.execOvchkWrite
  case lmapWrite => exact h.execLmapWrite
  case xsGrantWrite => exact h.execXsGrantWrite
  case chaltHalt => exact h.execChaltHalt
  case chaltRelease => exact h.execChaltRelease
  case chaltDump => exact h.execChaltDump
  case contextStopped => exact h.execContextStopped
  case dieReset => exact h.execDieReset
  case dieFence => exact h.execDieFence
  case dieFenceRelease => exact h.execDieFenceRelease
  case dieDrop => exact h.execDieDrop
  case dieFatalError => exact h.execDieFatalError
  case dieSelfTestEnd => exact h.execDieSelfTestEnd
  case baseFatalError => exact h.execBaseFatalError
  case cellReceive => exact h.execCellReceive
  case cellNakReceive => exact h.execCellNakReceive
  case linkRetrain => exact h.execLinkRetrain
  case diePortDown => exact h.execDiePortDown
  case remoteAccessReceive => exact h.execRemoteAccessReceive
  case dopWrite => exact h.execDopWrite
  case clockRelockComplete => exact h.execClockRelockComplete
  case passWrite => exact h.execPassWrite
  case swalWrite => exact h.execSwalWrite
  case slewWrite => exact h.execSlewWrite
  case powerCapControl => exact h.execPowerCapControl
  case thermalThreshold => exact h.execThermalThreshold
  case leakDetected => exact h.execLeakDetected
  case leakCleared => exact h.execLeakCleared
  case mainEnHigh => exact h.execMainEnHigh
  case railsInRegulation => exact h.execRailsInRegulation
  case mainInputDropout => exact h.execMainInputDropout
  case coldReset => exact h.execColdReset
  case leaseNAssert => exact h.execLeaseNAssert
  case bctlLrst => exact h.execBctlLrst
  case bctlGo => exact h.execBctlGo
  case bootSelfTestComplete => exact h.execBootSelfTestComplete
  case scrubComplete => exact h.execScrubComplete
  case imageMeasured => exact h.execImageMeasured
  case smbusLeaseReset => exact h.execSmbusLeaseReset
  case smbusWriteLimits => exact h.execSmbusWriteLimits
  case smbusReadRecord => exact h.execSmbusReadRecord
  case smbusReadLimits => exact h.execSmbusReadLimits
  case smbusReadCoolant => exact h.execSmbusReadCoolant
  case registerWrite => exact h.execRegisterWrite
  case instructionFetch => exact h.execInstructionFetch
  case issueSlotCharge => exact h.execIssueSlotCharge
  case linkTraining => exact h.execLinkTraining
  case vfEnable => exact h.execVfEnable

/-! ## The step -/

theorem Keeps.step (h : Keeps o s) : KeepsNext o (step s) := by
  have popped {r} : Keeps o { s with agenda := r } := h
  unfold Machine.step
  split
  · exact h.nextClock.next
  · exact popped.perform
  · exact popped.exec
  next c n r _ =>
    extract_lets s1
    have hs1 : Keeps o s1 := h
    split
    · exact hs1.next
    next s2 i e =>
      have hs2 := hs1.issueStart.of_fst e
      split
      next t e1 =>
        refine Keeps.next ?_
        split
        · exact (hs2.exec t e1).probeHeld
        · exact hs1
      · exact fun _ e => nomatch e
      · exact fun _ e => nomatch e
  next c n r _ =>
    split
    next s1 e => exact (popped.issueStart.of_fst e).next
    next s1 i e =>
      have hs1 := popped.issueStart.of_fst e
      split
      next t e1 => exact (hs1.exec t e1).issueEnd.next
      · exact fun _ e => nomatch e
      · exact fun _ e => nomatch e

/-- Settles O59: whatever a step changes in a memory, it writes and drops bytes of a canonical one. -/
theorem memoriesStayCanonical : Obligations.MemoriesStayCanonical := by
  intro s t wf next
  exact ((Keeps.refl s).step t next).memoriesWf wf

/-- Settles O60: every table is changed by putting, dropping or changing entries, and a window base moves by a frame. -/
theorem tablesStayInOrder : Obligations.TablesStayInOrder := by
  intro s t kept next
  exact ((Keeps.refl s).step t next).tablesKept kept

end Sys2Proof.Machine

end
section
/-! SUPPORT and PROOFS. What a write of a destination does, and the two instructions between lanes and scalars (O6). -/

namespace Sys2Proof.Machine

/-! ## Window registers -/

theorem setRegs_succ (t : Thread) (h : Bool) (i n v : Nat) :
    t.setRegs h i (n + 1) v = (t.setReg h i (BitVec.ofNat 32 v)).setRegs h (i + 1) n (v / 2 ^ 32) := rfl

/-- A write of window registers changes nothing else of its thread. -/
theorem setRegs_rest (t : Thread) (h : Bool) (i n v : Nat) :
    t.setRegs h i n v = { t with stack := (t.setRegs h i n v).stack, poison := (t.setRegs h i n v).poison } := by
  induction n generalizing t i v with
  | zero => rfl
  | succ n ih =>
    rw [setRegs_succ, ih]
    rfl

@[simp] theorem setReg_entry (t : Thread) (h : Bool) (i j : Nat) (v : Word) : (t.setReg h i v).entry h j = t.entry h j := rfl

@[simp] theorem setRegs_entry (t : Thread) (h : Bool) (i n j v : Nat) : (t.setRegs h i n v).entry h j = t.entry h j := by
  rw [setRegs_rest]
  rfl

/-- Registers less than a stack apart have entries of their own. -/
theorem entry_inj (t : Thread) (h : Bool) {i j : Nat} (hi : i < 96) (hj : j < 96) : t.entry h i = t.entry h j ↔ i = j := by
  unfold Thread.entry
  omega

theorem setRegs_elsewhere (t : Thread) (h : Bool) {i n e : Nat} (v : Nat)
    (others : ∀ j, i ≤ j → j < i + n → t.entry h j ≠ e) :
    (t.setRegs h i n v).stack.read 0 e = t.stack.read 0 e ∧ (t.setRegs h i n v).poison.get? e = t.poison.get? e := by
  induction n generalizing t i v with
  | zero => exact ⟨rfl, rfl⟩
  | succ n ih =>
    have first : t.entry h i ≠ e := others i le_rfl (by omega)
    obtain ⟨stack, poison⟩ := ih (t.setReg h i (BitVec.ofNat 32 v)) (i := i + 1) (v / 2 ^ 32) fun j low high =>
      others j (by omega) (by omega)
    rw [setRegs_succ, stack, poison, setReg_stack, setReg_poison]
    exact ⟨Tbl.read_write_other _ _ _ first, by rw [Tbl.get?_del, if_neg first]⟩

theorem reg_setRegs_other (t : Thread) (h : Bool) {i n j : Nat} (v : Nat) (bound : i + n ≤ 32) (hj : j < 32)
    (other : ¬(i ≤ j ∧ j < i + n)) : (t.setRegs h i n v).reg h j = t.reg h j := by
  unfold Thread.reg
  rw [setRegs_entry]
  refine (setRegs_elsewhere t h v fun k low high same => other ?_).1
  rw [entry_inj t h (by omega) (by omega)] at same
  omega

theorem poison_setRegs (t : Thread) (h : Bool) {i n e : Nat} (v : Nat)
    (written : ∃ j, i ≤ j ∧ j < i + n ∧ t.entry h j = e) : (t.setRegs h i n v).poison.get? e = none := by
  induction n generalizing t i v with
  | zero =>
    obtain ⟨j, low, high, -⟩ := written
    omega
  | succ n ih =>
    rw [setRegs_succ]
    by_cases later : ∃ j, i + 1 ≤ j ∧ j < i + 1 + n ∧ t.entry h j = e
    · exact ih (t.setReg h i (BitVec.ofNat 32 v)) (v / 2 ^ 32) later
    · obtain ⟨j, low, high, rfl⟩ := written
      obtain rfl : j = i := by
        by_contra ne
        exact later ⟨j, by omega, by omega, rfl⟩
      have others : ∀ k, j + 1 ≤ k → k < j + 1 + n → (t.setReg h j (BitVec.ofNat 32 v)).entry h k ≠ t.entry h j :=
        fun k klow khigh same => later ⟨k, klow, khigh, same⟩
      rw [(setRegs_elsewhere _ h (v / 2 ^ 32) others).2, setReg_poison, Tbl.get?_del_same]

/-- The registers written read as the low bits of the value. -/
theorem regs_setRegs (t : Thread) (h : Bool) {i n : Nat} (v : Nat) (bound : i + n ≤ 32) :
    (t.setRegs h i n v).regs h i n = v % 2 ^ (32 * n) := by
  induction n generalizing t i v with
  | zero => exact (Nat.mod_one v).symm
  | succ n ih =>
    have low : (t.setRegs h i (n + 1) v).reg h i = BitVec.ofNat 32 v := by
      rw [setRegs_succ, reg_setRegs_other _ h _ (by omega) (by omega) (by omega)]
      exact Tbl.read_write_same ..
    have high := ih (t.setReg h i (BitVec.ofNat 32 v)) (i := i + 1) (v / 2 ^ 32) (by omega)
    rw [← setRegs_succ] at high
    rw [Thread.regs, low, high, BitVec.toNat_ofNat, show 32 * (n + 1) = 32 + 32 * n by omega, Nat.pow_add, Nat.mod_mul]

/-! ## Predicates -/

theorem pred_zero (t : Thread) : t.pred 0 = true := rfl

theorem setPred_zero (t : Thread) (b : Bool) : t.setPred 0 b = t := rfl

theorem pred_setPred (t : Thread) {i j : Nat} (b : Bool) (hi : i ≠ 0) (hj : j < 8) :
    (t.setPred i b).pred j = if j = i then b else t.pred j := by
  unfold Thread.setPred Thread.pred bitOf
  rw [if_neg hi]
  by_cases same : j = i
  · subst same
    cases b
    all_goals simp [hi, hj]
  · cases b
    all_goals
      rw [if_neg same]
      simp [hj]
      grind

theorem setPred_rest (t : Thread) (i : Nat) (b : Bool) :
    t.setPred i b = { t with preds := (t.setPred i b).preds, poison := (t.setPred i b).poison } := by
  unfold Thread.setPred
  split <;> rfl

/-! ## Scalars -/

theorem setScalars_succ (g : Group) (i n v : Nat) :
    g.setScalars i (n + 1) v = (g.setScalar i (BitVec.ofNat 32 v)).setScalars (i + 1) n (v / 2 ^ 32) := rfl

theorem setScalars_rest (g : Group) (i n v : Nat) :
    g.setScalars i n v = { g with scal := (g.setScalars i n v).scal, spoison := (g.setScalars i n v).spoison } := by
  induction n generalizing g i v with
  | zero => rfl
  | succ n ih =>
    rw [setScalars_succ, ih]
    rfl

theorem scalar_setScalars_other (g : Group) {i n j : Nat} (v : Nat) (other : ¬(i ≤ j ∧ j < i + n)) :
    (g.setScalars i n v).scalar j = g.scalar j := by
  induction n generalizing g i v with
  | zero => rfl
  | succ n ih =>
    rw [setScalars_succ, ih _ _ (by omega)]
    exact Tbl.read_write_other _ _ _ (by omega)

theorem scalars_setScalars (g : Group) (i n v : Nat) : (g.setScalars i n v).scalars i n = v % 2 ^ (32 * n) := by
  induction n generalizing g i v with
  | zero => exact (Nat.mod_one v).symm
  | succ n ih =>
    have low : (g.setScalars i (n + 1) v).scalar i = BitVec.ofNat 32 v := by
      rw [setScalars_succ, scalar_setScalars_other _ _ (by omega)]
      exact Tbl.read_write_same ..
    have high := ih (g.setScalar i (BitVec.ofNat 32 v)) (i + 1) (v / 2 ^ 32)
    rw [← setScalars_succ] at high
    rw [Group.scalars, low, high, BitVec.toNat_ofNat, show 32 * (n + 1) = 32 + 32 * n by omega, Nat.pow_add, Nat.mod_mul]

/-! ## Between lanes and scalars -/

/-- An instruction of the group that may change lanes: each lane that executes is changed, then advances. -/
theorem groupMode_lanes {s : State} {k : Cursor} {g : Group} {h : Head} {f : Group → Group} {r : Nat → Thread → Thread}
    (hi : Issuing s k g) (rest : f g = { g with lanes := (f g).lanes })
    (live : ∀ l t, (r l t).exited = t.exited)
    (runs : ∀ l t, l ∈ lanesOf k.active → g.lanes.get? l = some t → (f g).lanes.get? l = some (r l t))
    (others : ∀ l, l ∉ lanesOf k.active → (f g).lanes.get? l = g.lanes.get? l) :
    ∃ g', groupMode h f k s = s.issued k g' ∧
      LanesBecome k g g' fun l t => { (if guardG g h k then r l t else t).step with wait := .none } := by
  obtain ⟨l, hl, t, at_l, alive⟩ := hi.lane
  have become : LanesBecome k g ((if guardG g h k then f g else g).advanceActive k) fun l t =>
      { (if guardG g h k then r l t else t).step with wait := .none } := by
    split
    · obtain ⟨only, others, runs⟩ := advance_become r runs others
      exact ⟨only.trans (congrArg (fun x => { x with lanes := ((f g).advanceActive k).lanes }) rest), others, runs⟩
    · exact advance_all g
  refine ⟨_, ?_, become⟩
  unfold groupMode
  rw [group_of hi.group]
  refine hi.finish (become.runs l t hl at_l) ?_
  show (if guardG g h k then r l t else t).exited = false
  split
  · exact (live l t).trans alive
  · exact alive

/-- `vtos` where it reads a lane: the scalar destination receives the register of that lane, 0 from a vacant one. -/
theorem execVtos_reads {f : Arith} {s : State} {k : Cursor} {g : Group} (hi : Issuing s k g) {i : Nat} (ha : f.a = .win i)
    (free : g.usePending (g.inHandler (groupVal g .b32 1 f.b % 32)) [groupVal g .b32 1 f.b % 32] (0, i, f.ty.regs) = false)
    (clean : g.usePoison (g.inHandler (groupVal g .b32 1 f.b % 32)) (groupVal g .b32 1 f.b % 32) (0, i, f.ty.regs) = none) :
    execVtos f s = .next (groupMode f.h (fun g' => g'.write f.ty.regs f.d
      (laneOperand g (g.inHandler (groupVal g .b32 1 f.b % 32)) f.ty f.ty.regs f.a (groupVal g .b32 1 f.b % 32))) k s) := by
  unfold execVtos withIssuer
  simp only [hi.cur, group_of hi.group, ha, free, operandPoison, clean]
  cases runs : guardG g f.h k
  · simp [groupMode, group_of hi.group, runs]
  · simp [groupMode, group_of hi.group, runs]

/-- What `stov` does to its group where its guard holds. -/
def stovGroup (f : Arith) (k : Cursor) (g : Group) : Group :=
  ((lanesOf k.active).filter fun l => (groupVal g .b32 1 f.b).testBit l).foldl
    (fun g' l => g'.modThread l fun t => t.write k.handler f.ty.regs f.d (groupVal g f.ty f.ty.regs f.a)) g

theorem execStov_eq {f : Arith} {s : State} {k : Cursor} (cur : s.cur = some k) :
    execStov f s = .next (groupMode f.h (stovGroup f k) k s) := by
  unfold execStov withIssuer
  rw [cur]
  rfl

theorem stovGroup_rest (f : Arith) (k : Cursor) (g : Group) :
    stovGroup f k g = { g with lanes := (stovGroup f k g).lanes } := foldl_modThread_rest _ g fun _ => _

theorem stovGroup_lane (f : Arith) (k : Cursor) (g : Group) (l : Nat) :
    (stovGroup f k g).lanes.get? l =
      if l ∈ lanesOf k.active ∧ (groupVal g .b32 1 f.b).testBit l then
        (g.lanes.get? l).map fun t => t.write k.handler f.ty.regs f.d (groupVal g f.ty f.ty.regs f.a)
      else g.lanes.get? l := by
  refine (foldl_modThread _ g (fun _ => _) l ((lanesOf_nodup _).filter _)).trans ?_
  simp only [List.mem_filter]

/-- `stov`: the masked lanes of `active` receive the scalar. -/
theorem execStov_writes (f : Arith) {s : State} {k : Cursor} {g : Group} (hi : Issuing s k g) :
    ∃ g', execStov f s = .next (s.issued k g') ∧ LanesBecome k g g' fun l t =>
      { (if guardG g f.h k && (groupVal g .b32 1 f.b).testBit l then
          t.write k.handler f.ty.regs f.d (groupVal g f.ty f.ty.regs f.a) else t).step with wait := .none } := by
  obtain ⟨g', issued, become⟩ := groupMode_lanes (h := f.h) (f := stovGroup f k)
    (r := fun l t =>
      if (groupVal g .b32 1 f.b).testBit l then t.write k.handler f.ty.regs f.d (groupVal g f.ty f.ty.regs f.a) else t)
    hi (stovGroup_rest f k g)
    (fun l t => by
      split
      · exact write_exited ..
      · rfl)
    (fun l t hl at_l => by
      rw [stovGroup_lane, at_l]
      by_cases bit : (groupVal g .b32 1 f.b).testBit l = true
      · rw [if_pos ⟨hl, bit⟩, if_pos bit]
        rfl
      · rw [if_neg fun masked => bit masked.2, if_neg bit])
    (fun l hl => by rw [stovGroup_lane, if_neg fun masked => hl masked.1])
  refine ⟨g', (execStov_eq hi.cur).trans (congrArg _ issued), ?_⟩
  simpa only [Bool.and_eq_true, ite_and] using become

/-- Settles O6: a write goes register by register, and both instructions run in the group's turn. -/
theorem destinationsAndScalars : Obligations.DestinationsAndScalars := by
  refine ⟨⟨?_, ?_, ?_, fun _ _ _ _ _ => ⟨rfl, rfl⟩⟩, ?_⟩
  · intro t h i n v bound
    exact ⟨setRegs_rest t h i n v, regs_setRegs t h v bound, fun j hj other => reg_setRegs_other t h v bound hj other,
      fun j low high => poison_setRegs t h v ⟨j, low, high, rfl⟩, fun e others => setRegs_elsewhere t h v others⟩
  · intro t h i n v hi
    refine ⟨?_, pred_zero _, fun ne => ?_, fun j hj ne => ?_, setPred_rest t i _⟩
    · rintro rfl
      rfl
    · exact (pred_setPred t _ ne hi).trans (if_pos rfl)
    · by_cases zero : i = 0
      · rw [zero]
        rfl
      · exact (pred_setPred t _ zero hj).trans (if_neg ne)
  · intro g i n v
    exact ⟨setScalars_rest g i n v, scalars_setScalars g i n v, fun j other => scalar_setScalars_other g v other⟩
  · intro f s k g hi
    refine ⟨fun i ha free clean => ?_, execStov_writes f hi⟩
    refine ⟨_, laneOperand g (g.inHandler (groupVal g .b32 1 f.b % 32)) f.ty f.ty.regs f.a (groupVal g .b32 1 f.b % 32),
      ?_, advance_all _, ?_⟩
    · exact (execVtos_reads hi ha free clean).trans (congrArg _ (groupMode_clean hi f.h _ (write_lanes ..)))
    · rw [laneOperand, ha]
      rfl

end Sys2Proof.Machine
end

section
/-! SUPPORT. What the accesses of the device's own agents, its messages and its event records leave of the work that the device
has: translation, reads and writes of engines, records and signals reach no group, team, queue, grid, job or held record. -/

namespace Sys2Proof.Machine

/-! ## The work of the device -/

/-- The work that a device has: what serving an access or sending a message leaves. -/
structure Work where
  groups : Tbl Group
  teams : Tbl Team
  queues : Tbl Queue
  grids : Tbl Grid
  jobs : Tbl Job
  heldRecords : Tbl HeldRecord

/-- The work that the device has. -/
def State.work (s : State) : Work := ⟨s.groups, s.teams, s.queues, s.grids, s.jobs, s.heldRecords⟩

section

variable {s t : State}

theorem groups_of_work (h : t.work = s.work) : t.groups = s.groups := congrArg Work.groups h

theorem teams_of_work (h : t.work = s.work) : t.teams = s.teams := congrArg Work.teams h

theorem queues_of_work (h : t.work = s.work) : t.queues = s.queues := congrArg Work.queues h

theorem grids_of_work (h : t.work = s.work) : t.grids = s.grids := congrArg Work.grids h

theorem jobs_of_work (h : t.work = s.work) : t.jobs = s.jobs := congrArg Work.jobs h

theorem queue_of_work (h : t.work = s.work) (qk : Nat) : t.queue qk = s.queue qk :=
  congrArg (fun m : Tbl Queue => (m.get? qk).getD {}) (queues_of_work h)

/-- A loop whose every turn leaves a part of the state leaves that part. -/
theorem foldl_leaves {α β : Type} (part : State → β) {f : State → α → State} (each : ∀ s a, part (f s a) = part s)
    (l : List α) (s : State) : part (l.foldl f s) = part s := by
  induction l generalizing s with
  | nil => rfl
  | cons a l ih => rw [List.foldl_cons, ih, each]

end

/-! ## The L2 and translation -/

/-- An access reaches a slice: what no change of the ways of the L2 and no counter of its team touches, it leaves. -/
theorem l2Touch_leaves {α : Type} (part : State → α) {who : Option (Nat × Nat)}
    (ways : ∀ (u : State) m, part { u with l2 := m } = part u) (count : ∀ u sel, part (State.count u who sel) = part u)
    (s : State) (line slice : Nat) (v : Option Nat) (ck : Nat) (wr : Bool) :
    part (s.l2Touch line slice v ck who wr) = part s := by
  unfold State.l2Touch
  extract_lets base set s1 top raised
  have missed : part s1 = part s := count s 0x20
  split
  · split
    · exact (count ..).trans (ways ..)
    · rfl
  · split
    · exact missed
    · split
      · extract_lets s2
        refine (ways ..).trans ?_
        unfold s2
        split
        · split
          · exact (count ..).trans missed
          · exact missed
        · exact missed
      · exact missed

/-- A change of the ways of the L2 and of the counters of teams, and of nothing else. -/
def Touched (s t : State) : Prop := ∃ l2 teams, t = { s with l2 := l2, teams := teams }

theorem Touched.trans {s t u : State} (h : Touched s t) (h' : Touched t u) : Touched s u := by
  obtain ⟨l2, teams, rfl⟩ := h
  obtain ⟨l2', teams', rfl⟩ := h'
  exact ⟨l2', teams', rfl⟩

theorem touched_l2Touch (s : State) (line slice : Nat) (v : Option Nat) (ck : Nat) (who : Option (Nat × Nat)) (wr : Bool) :
    Touched s (s.l2Touch line slice v ck who wr) := by
  have rest := l2Touch_leaves (fun u => { u with l2 := [], teams := [] }) (fun _ _ => rfl)
    (fun u sel => by cases who <;> rfl) s line slice v ck (who := who) wr
  exact ⟨_, _, congrArg (fun u : State => { u with
    l2 := (s.l2Touch line slice v ck who wr).l2, teams := (s.l2Touch line slice v ck who wr).teams }) rest⟩

/-- The state with no ways in its L2: what an access made for no team leaves. -/
def State.lessL2 (s : State) : State := { s with l2 := [] }

theorem lessL2_l2Touch (s : State) (line slice : Nat) (v : Option Nat) (ck : Nat) (wr : Bool) :
    (s.l2Touch line slice v ck none wr).lessL2 = s.lessL2 :=
  l2Touch_leaves State.lessL2 (fun _ _ => rfl) (fun _ _ => rfl) s line slice v ck wr

theorem eq_of_lessL2 {s t : State} (h : t.lessL2 = s.lessL2) : t = { s with l2 := t.l2 } :=
  congrArg (fun u : State => { u with l2 := t.l2 }) h

theorem lessL2_walkTouch (s : State) (ck va : Nat) : (s.walkTouch ck va).lessL2 = s.lessL2 := by
  unfold State.walkTouch
  dsimp only
  split
  · rfl
  · exact foldl_leaves State.lessL2 (fun _ _ => lessL2_l2Touch ..) _ s

/-! ## What a translation depends on -/

theorem bytes_congr {s t : State} {p : Place} {a n : Nat} (h : ∀ x, a ≤ x → x < a + n → t.byte p x = s.byte p x) :
    t.bytes p a n = s.bytes p a n := by
  induction n generalizing a with
  | zero => rfl
  | succ n ih =>
    rw [State.bytes, State.bytes, h a le_rfl (by omega), ih fun x low high => h x (by omega) (by omega)]

/-- Two states with the same memory, the same contexts and the same map of units. -/
structure SamePages (s t : State) : Prop where
  mem : t.mem = s.mem
  memPoison : t.memPoison = s.memPoison
  ctxs : t.ctxs = s.ctxs
  unitMap : t.unitMap = s.unitMap

namespace SamePages

variable {s t : State}

theorem bytes (h : SamePages s t) (a n : Nat) : t.bytes .mem a n = s.bytes .mem a n :=
  bytes_congr fun b _ _ => by simp only [State.byte, h.mem]

theorem load (h : SamePages s t) (a n : Nat) : t.load .mem a n = s.load .mem a n := congrArg ofBytes (h.bytes a n)

theorem poisoned (h : SamePages s t) (a n : Nat) : t.poisoned .mem a n = s.poisoned .mem a n := by
  simp only [State.poisoned, State.poisons, h.memPoison]

theorem ctx (h : SamePages s t) (ck : Nat) : t.ctx ck = s.ctx ck := by
  simp only [State.ctx, h.ctxs]

theorem absentRun (h : SamePages s t) (pfn n : Nat) : t.absentRun pfn n = s.absentRun pfn n := by
  simp only [State.absentRun, h.unitMap]

theorem walkFrom (h : SamePages s t) (ck va a : Nat) (levels : List Nat) :
    t.walkFrom ck va a levels = s.walkFrom ck va a levels := by
  induction levels generalizing a with
  | nil => rfl
  | cons lvl levels ih =>
    rw [State.walkFrom, State.walkFrom]
    simp only [h.load, h.poisoned, h.absentRun, ih]

theorem walk (h : SamePages s t) (ck va : Nat) : t.walk ck va = s.walk ck va := by
  simp only [State.walk, h.ctx, h.walkFrom]

theorem remoteOf (h : SamePages s t) (ck va : Nat) : t.remoteOf ck va = s.remoteOf ck va := by
  simp only [State.remoteOf, h.ctx]

theorem xlatNow (h : SamePages s t) (ck va : Nat) (need : Need) : t.xlatNow ck va need = s.xlatNow ck va need := by
  simp only [State.xlatNow, h.walk, h.remoteOf]

end SamePages

/-- A translation changes the ways of the L2 alone, and its answer is that of a walk made now. -/
theorem xlat_eq (s : State) (ck va : Nat) (need : Need) :
    ∃ l2, s.xlat ck va need = ({ s with l2 := l2 }, s.xlatNow ck va need) := by
  have same (l2 : Tbl L2Way) : SamePages s { s with l2 := l2 } := ⟨rfl, rfl, rfl, rfl⟩
  unfold State.xlat
  dsimp only
  split
  · exact ⟨s.l2, rfl⟩
  · refine ⟨(s.walkTouch ck va).l2, ?_⟩
    rw [← (same (s.walkTouch ck va).l2).xlatNow, ← eq_of_lessL2 (lessL2_walkTouch s ck va)]

/-! ## Writes -/

/-- A write leaves what none of its parts touches: bytes and poison of its place, release sequences, and watching blocks. -/
theorem write_leaves {α : Type} (part : State → α) {p : Place} (byte : ∀ u a v, part (State.setByte u p a v) = part u)
    (poison : ∀ u l, part (State.setPoisons u p l) = part u) (rels : ∀ (u : State) m, part { u with rels := m } = part u)
    (stale : p = .mem → ∀ u lines cause, part (State.markStale u lines cause) = part u) (s : State) (bs : Tbl Byte) :
    part (s.write p bs) = part s := by
  have dropped (u : State) : part (u.dropRels p bs) = part u := by
    unfold State.dropRels
    split
    · rfl
    · exact rels ..
  unfold State.write
  rw [foldl_leaves part fun u _ => byte u _ _, dropped, State.clearPoison, poison]
  cases p
  · exact stale rfl ..
  · rfl
  · rfl

theorem setByte_work (s : State) (p : Place) (a : Nat) (v : Byte) : (s.setByte p a v).work = s.work := by
  cases p <;> rfl

theorem markStale_work (s : State) (lines : List Nat) (cause : Nat) : (s.markStale lines cause).work = s.work := by
  unfold State.markStale
  refine foldl_leaves State.work ?_ _ s
  exact fun _ _ => rfl

theorem write_work (s : State) (p : Place) (bs : Tbl Byte) : (s.write p bs).work = s.work :=
  write_leaves State.work (fun u _ _ => setByte_work u p _ _) (fun _ _ => by cases p <;> rfl) (fun _ _ => rfl)
    (fun _ => markStale_work) s bs

/-- A write to a scratchpad changes its bytes, their poison and the release sequences that it ends. -/
theorem write_pad_eq (s : State) (bs : Tbl Byte) :
    ∃ scratch poison rels, s.write .pad bs = { s with scratch := scratch, scratchPoison := poison, rels := rels } := by
  have rest := write_leaves (p := .pad) (fun u => { u with scratch := [], scratchPoison := [], rels := [] })
    (fun _ _ _ => rfl) (fun _ _ => rfl) (fun _ _ => rfl) nofun s bs
  exact ⟨_, _, _, congrArg (fun u : State => { u with
    scratch := (s.write .pad bs).scratch, scratchPoison := (s.write .pad bs).scratchPoison, rels := (s.write .pad bs).rels }) rest⟩

theorem l2Touch_work (s : State) (line slice : Nat) (v : Option Nat) (ck : Nat) (wr : Bool) :
    (s.l2Touch line slice v ck none wr).work = s.work :=
  l2Touch_leaves State.work (fun _ _ => rfl) (fun _ _ => rfl) s line slice v ck wr

theorem writeHome_work (s : State) (ck pa : Nat) (leaf : DWord) (b : List Byte) :
    (s.writeHome ck pa leaf none b).work = s.work :=
  (foldl_leaves State.work (fun _ _ => l2Touch_work ..) _ _).trans (write_work ..)

/-! ## Requests to a peer -/

theorem sendPeer_work (s : State) (ck e : Nat) (bulk : Bool) (r : RemoteReq) : (s.sendPeer ck e bulk r).work = s.work := by
  unfold State.sendPeer State.linkSend
  extract_lets m peer k r' u ks
  have hu : u.work = s.work := by
    unfold u
    split <;> rfl
  split <;> exact hu

theorem askPeer_work (s : State) (ck e va n kind : Nat) (data : List Byte) :
    (s.askPeer ck e va n kind data).work = s.work := sendPeer_work ..

/-! ## Reads and writes of the device -/

theorem devRead_work (s : State) (ck va n : Nat) (need : Need) : (s.devRead ck va n need).1.work = s.work := by
  obtain ⟨l2, e⟩ := xlat_eq s ck va need
  unfold State.devRead
  rw [e]
  cases s.xlatNow ck va need with
  | ok pa leaf => rfl
  | fault cls cause => rfl
  | poison => rfl
  | remote i =>
    dsimp only
    split
    · exact askPeer_work ..
    · rfl

theorem devWrite_work (s : State) (ck va : Nat) (b : List Byte) : (s.devWrite ck va b).1.work = s.work := by
  obtain ⟨l2, e⟩ := xlat_eq s ck va .write
  unfold State.devWrite
  rw [e]
  cases s.xlatNow ck va .write with
  | ok pa leaf => exact writeHome_work ..
  | fault cls cause => rfl
  | poison => rfl
  | remote i =>
    dsimp only
    split
    · exact askPeer_work ..
    · rfl

/-! ## Messages and event records -/

/-- What a message or an event record changes: the registers of functions, and what is sent. -/
def Notified (s t : State) : Prop := ∃ fns sent, t = { s with fns := fns, sent := sent }

theorem Notified.trans {s t u : State} (h : Notified s t) (h' : Notified t u) : Notified s u := by
  obtain ⟨fns, sent, rfl⟩ := h
  obtain ⟨fns', sent', rfl⟩ := h'
  exact ⟨fns', sent', rfl⟩

theorem Notified.work {s t : State} (h : Notified s t) : t.work = s.work := by
  obtain ⟨fns, sent, rfl⟩ := h
  rfl

theorem notified_queueMsix (s : State) (ck q : Nat) (cmp : Bool) : Notified s (s.queueMsix ck q cmp) := by
  obtain unsent | ⟨vec, sent⟩ := queueMsix_cases s ck q cmp
  · rw [unsent]
    exact ⟨s.fns, s.sent, rfl⟩
  · rw [sent]
    by_cases h : (s.fn (ck / 16)).sends vec
    · rw [msix_of_sends h]
      exact ⟨_, _, rfl⟩
    · rw [msix_of_not_sends h]
      exact ⟨_, _, rfl⟩

/-- An event record that no `pgreq` waits for wakes no lane. -/
theorem notified_postEvent {r : EventRecord} (untagged : r.tag = 0) (s : State) (fn : Nat) :
    Notified s (s.postEvent fn r) := by
  have recorded : Notified s (s.recorded fn r) := by
    rw [State.recorded, untagged, pgreqDone_zero]
    exact ⟨_, _, rfl⟩
  unfold State.postEvent
  dsimp only
  split
  · obtain ⟨-, e⟩ | ⟨ck, q, -, e⟩ := writeEvent_cases s fn r
    · rw [e]
      exact recorded
    · rw [e]
      exact recorded.trans (notified_queueMsix ..)
  · exact ⟨_, _, rfl⟩

theorem notified_event (s : State) (ck kind status cls id count detail : Nat) :
    Notified s (s.event ck kind status cls id count detail) := notified_postEvent rfl s _

theorem notified_redirect (s : State) (ck : Nat) (r : List Byte) (id detail done : Nat) :
    Notified s (s.redirect ck r id detail done) := (notified_event ..).trans (notified_postEvent rfl _ _)

/-! ## Signals and rings -/

theorem signal_work (s : State) (k : Nat) (g : Grid) : (s.signal k g).work = s.work := by
  unfold State.signal
  split
  · rfl
  extract_lets add va fail
  have failed (u : State) (st : Nat) : (fail u st).work = u.work := (notified_event ..).work
  obtain ⟨l2, e⟩ := xlat_eq s g.ck va (if add then .both else .write)
  rw [e]
  cases s.xlatNow g.ck va (if add then .both else .write) with
  | ok pa leaf =>
    dsimp only
    split
    · exact failed ..
    · exact writeHome_work ..
  | fault cls cause => exact failed ..
  | poison => exact failed ..
  | remote i =>
    dsimp only
    split
    · split
      · exact (failed ..).trans (askPeer_work ..)
      · exact (failed ..).trans (askPeer_work ..)
      · exact askPeer_work ..
    · exact failed ..

theorem ringRead_work (s : State) (ck : Nat) (core : Option Nat) (a : Nat) : (s.ringRead ck core a).1.work = s.work := by
  cases core with
  | none => exact devRead_work ..
  | some c => rfl

theorem ringStore_work (s : State) (ck : Nat) (core : Option Nat) (a : Nat) (b : List Byte) :
    (s.ringStore ck core a b).1.work = s.work := by
  cases core with
  | none => exact devWrite_work ..
  | some c => exact write_work ..

/-- Writing a record leaves what reading the ring's header and storing to the ring leave. -/
theorem ringWrite_leaves {α : Type} (part : State → α) {ck : Nat} {core : Option Nat}
    (read : ∀ u a, part (State.ringRead u ck core a).1 = part u)
    (store : ∀ u a b, part (State.ringStore u ck core a b).1 = part u) (s : State) (ring lo hi : Nat) (r : List Byte) :
    part (s.ringWrite ck core ring lo hi r).1 = part s := by
  have header := read s ring
  unfold State.ringWrite
  extract_lets r' maxE
  split
  · rfl
  · split
    next u x e => rw [e] at header; exact header
    next u b e =>
      rw [e] at header
      extract_lets f w ents slot
      have stored := store u slot (withPhase r' w ents)
      split
      · exact header
      · split
        · exact header
        · split
          · exact header
          · split
            next v st e' => rw [e'] at stored; exact stored.trans header
            next v e' =>
              rw [e'] at stored
              exact (store ..).trans (stored.trans header)

theorem ringWrite_work (s : State) (ck : Nat) (core : Option Nat) (ring lo hi : Nat) (r : List Byte) :
    (s.ringWrite ck core ring lo hi r).1.work = s.work :=
  ringWrite_leaves State.work (fun _ _ => ringRead_work ..) (fun _ _ _ => ringStore_work ..) s ring lo hi r

theorem recordNote_work (s : State) (h : HeldRecord) (slot : Nat) : (s.recordNote h slot).work = s.work := by
  unfold State.recordNote
  split <;> rfl

end Sys2Proof.Machine
end

section
/-! SUPPORT and PROOFS. From a packet in a queue to a released grid (O33): what the end of a grid leaves, what a read of the device
gives, and the turns of a packet's read, of a wait condition and of a release. -/

namespace Sys2Proof.Machine

/-! ## The end of a grid -/

/-- The end of grid `k` since `o`: teams and queues stand as they stood, and the grid has ended where it is still listed. -/
structure Ended (o : State) (k : Nat) (s : State) : Prop where
  teams : s.teams = o.teams
  queues : s.queues = o.queues
  ended : ∀ g, s.grids.get? k = some g → g.stage = .ended

namespace Ended

variable {o s t : State} {k : Nat}

theorem of_work (h : Ended o k s) (w : t.work = s.work) : Ended o k t where
  teams := (teams_of_work w).trans h.teams
  queues := (queues_of_work w).trans h.queues
  ended := by rw [grids_of_work w]; exact h.ended

theorem held (h : Ended o k s) (m : Tbl HeldRecord) : Ended o k { s with heldRecords := m } := ⟨h.teams, h.queues, h.ended⟩

theorem jobs (h : Ended o k s) (m : Tbl Job) : Ended o k { s with jobs := m } := ⟨h.teams, h.queues, h.ended⟩

theorem drop (h : Ended o k s) (k' : Nat) : Ended o k { s with grids := s.grids.del k' } where
  teams := h.teams
  queues := h.queues
  ended g found := by
    rw [Tbl.get?_del] at found
    split at found
    · cases found
    · exact h.ended g found

theorem modGrid (h : Ended o k s) (k' : Nat) {f : Grid → Grid} (stage : ∀ g, (f g).stage = g.stage) :
    Ended o k (s.modGrid k' f) where
  teams := h.teams
  queues := h.queues
  ended g found := by
    rw [State.modGrid, Tbl.get?_modify] at found
    split at found
    · obtain ⟨g', found', rfl⟩ := Option.map_eq_some_iff.1 found
      exact (stage g').trans (h.ended g' found')
    · exact h.ended g found

theorem gridComplete (h : Ended o k s) (k' : Nat) : Ended o k (s.gridComplete k') := by
  unfold State.gridComplete
  split
  · exact h
  next g _ =>
    have signalled := h.of_work (signal_work s k' g)
    extract_lets s1 s2
    have told : Ended o k s2 := by
      unfold s2
      split
      · exact signalled
      · exact signalled.of_work (notified_queueMsix ..).work
    exact (told.of_work (t := s2.modCtx g.ck _) rfl).drop k'

theorem recordDone (h : Ended o k s) (r : HeldRecord) : Ended o k (s.recordDone r) := by
  unfold State.recordDone
  extract_lets s1
  have done : Ended o k s1 := by
    unfold s1
    split
    · exact h.gridComplete _
    · exact h
  split
  · split
    · extract_lets s2
      have s2done : Ended o k s2 := done.jobs _
      split
      · exact s2done.of_work (notified_event ..).work
      · exact s2done
    · exact done
  · exact done

theorem moveRecord (h : Ended o k s) (n : Nat) (r : HeldRecord) (bytes : List Byte) (detail : Nat) :
    Ended o k (s.moveRecord n r bytes detail) := by
  unfold State.moveRecord
  extract_lets s1 lost s2
  have moved : Ended o k s1 := h.of_work (notified_redirect ..).work
  split
  · exact moved.held _
  · refine recordDone ?_ r
    split
    · exact (moved.held _).modGrid _ fun _ => rfl
    · exact moved.held _

theorem tryRecord (h : Ended o k s) (n : Nat) (r : HeldRecord) : Ended o k (s.tryRecord n r) := by
  unfold State.tryRecord
  split
  next lo hi _ =>
    have tried := h.of_work (ringWrite_work s r.ck r.inCore r.ring lo hi r.bytes)
    split
    next u e => rw [e] at tried; exact tried.held _
    next u b d e => rw [e] at tried; exact tried.moveRecord ..
    next u slot e =>
      rw [e] at tried
      exact ((tried.held _).of_work (recordNote_work ..)).recordDone r

theorem putRecord (h : Ended o k s) (r : HeldRecord) : Ended o k (s.putRecord r) := by
  have counted : Ended o k { s with nextId := s.nextId + 1 } := h.of_work rfl
  unfold State.putRecord State.fresh
  dsimp only
  split
  · exact counted.held _
  · exact counted.tryRecord ..

end Ended

theorem ended_closeGrid (s : State) (k : Nat) (rejected : Bool) : Ended s k (s.closeGrid k rejected) := by
  unfold State.closeGrid
  split
  next none => exact ⟨rfl, rfl, fun g found => by rw [none] at found; cases found⟩
  next g found =>
    extract_lets s1
    have same : s1.work = s.work := by
      unfold s1
      split <;> rfl
    have teams : s1.teams = s.teams := teams_of_work same
    have queues : s1.queues = s.queues := queues_of_work same
    refine ⟨teams, queues, fun g' found' => ?_⟩
    rw [State.modGrid, Tbl.get?_modify, if_pos rfl, grids_of_work same, found] at found'
    cases found'
    rfl

/-- A grid that ends waits for its record at most, and its end changes no team and no queue (02 R47; 18 R419). -/
theorem ended_endGrid (s : State) (k status detail : Nat) (behind : List Nat) :
    Ended s k (s.endGrid k status detail behind) := by
  unfold State.endGrid
  split
  next none => exact ⟨rfl, rfl, fun g found => by rw [none] at found; cases found⟩
  · exact (ended_closeGrid s k _).putRecord _

/-! ## A read of the device -/

theorem bytes_length (s : State) (p : Place) (a n : Nat) : (s.bytes p a n).length = n := by
  induction n generalizing a with
  | zero => rfl
  | succ n ih => rw [State.bytes, List.length_cons, ih]

section

variable {s : State} {ck va : Nat} {need : Need}

theorem devRead_of_ok {pa : Nat} {leaf : DWord} (h : s.xlatNow ck va need = .ok pa leaf) (n : Nat) :
    ∃ l2, s.devRead ck va n need =
      ({ s with l2 := l2 }, if s.poisoned .mem pa n then .error 8 else .ok (s.bytes .mem pa n)) := by
  obtain ⟨l2, e⟩ := xlat_eq s ck va need
  have same : SamePages s { s with l2 := l2 } := ⟨rfl, rfl, rfl, rfl⟩
  refine ⟨l2, ?_⟩
  rw [State.devRead, e, h]
  dsimp only
  rw [same.bytes, same.poisoned]

theorem devRead_of_poison (h : s.xlatNow ck va need = .poison) (n : Nat) :
    ∃ l2, s.devRead ck va n need = ({ s with l2 := l2 }, .error 8) := by
  obtain ⟨l2, e⟩ := xlat_eq s ck va need
  exact ⟨l2, by rw [State.devRead, e, h]⟩

theorem devRead_of_fault {cls cause : Nat} (h : s.xlatNow ck va need = .fault cls cause) (n : Nat) :
    ∃ l2, s.devRead ck va n need = ({ s with l2 := l2 }, .error 7) := by
  obtain ⟨l2, e⟩ := xlat_eq s ck va need
  exact ⟨l2, by rw [State.devRead, e, h]⟩

end

/-! ## The read of a packet -/

theorem modQueue_queue_same (s : State) (qk : Nat) (f : Queue → Queue) : (s.modQueue qk f).queue qk = f (s.queue qk) := by
  simp [State.modQueue, State.queue]

theorem take_bounds {r : PacketRead} (h : r.bytes.length < 128) (i : Nat) :
    1 ≤ r.take i ∧ r.bytes.length + r.take i ≤ 128 := by
  unfold PacketRead.take
  omega

/-- A step of a packet's read where no read goes on: it begins one, or nothing changes (03 R61). -/
theorem packetFetch_of_idle {s : State} {qk : Nat} (idle : (s.queue qk).read = none) :
    exec (.packetFetch qk) s = .next (if s.fetchable qk then s.modQueue qk (·.startRead) else s) := by
  rw [exec_packetFetch, execPacketFetch, idle]

section

variable {s : State} {qk : Nat} {r : PacketRead}

/-- What the device gives to a step of a packet's read that goes on: the bytes from where the read stands. -/
def State.packetBytes (s : State) (qk : Nat) (r : PacketRead) : State × Except Nat (List Byte) :=
  s.freeIdx.2.devRead (qk / 64) (r.va + r.bytes.length) (r.take s.freeCount) .read

theorem packetFetch_of_error (reads : (s.queue qk).read = some r) {u : State} {st : Nat}
    (h : s.packetBytes qk r = (u, .error st)) : exec (.packetFetch qk) s = .next (u.readFails qk st r) := by
  unfold State.packetBytes at h
  rw [exec_packetFetch, execPacketFetch, reads]
  simp only [State.freeIdx] at h ⊢
  rw [h]

theorem packetFetch_of_bytes (reads : (s.queue qk).read = some r) {u : State} {b : List Byte}
    (h : s.packetBytes qk r = (u, .ok b)) :
    exec (.packetFetch qk) s = .next (
      if r.bytes.length + b.length < 128 then u.modQueue qk fun q => { q with read := some { r with bytes := r.bytes ++ b } }
      else u.readEnds qk r (r.bytes ++ b)) := by
  unfold State.packetBytes at h
  rw [exec_packetFetch, execPacketFetch, reads]
  simp only [State.freeIdx] at h ⊢
  rw [h]

theorem samePages_freeIdx (s : State) : SamePages s s.freeIdx.2 := ⟨rfl, rfl, rfl, rfl⟩

theorem packetBytes_of_ok {pa : Nat} {leaf : DWord}
    (h : s.xlatNow (qk / 64) (r.va + r.bytes.length) .read = .ok pa leaf) :
    ∃ l2, s.packetBytes qk r = ({ s with l2 := l2, freeCount := s.freeCount + 1 },
      if s.poisoned .mem pa (r.take s.freeCount) then .error 8 else .ok (s.bytes .mem pa (r.take s.freeCount))) := by
  have same := samePages_freeIdx s
  obtain ⟨l2, e⟩ := devRead_of_ok ((same.xlatNow ..).trans h) (r.take s.freeCount)
  rw [same.bytes, same.poisoned] at e
  exact ⟨l2, e⟩

theorem packetBytes_of_poison (h : s.xlatNow (qk / 64) (r.va + r.bytes.length) .read = .poison) :
    ∃ u, s.packetBytes qk r = (u, .error 8) := by
  obtain ⟨l2, e⟩ := devRead_of_poison (((samePages_freeIdx s).xlatNow ..).trans h) (r.take s.freeCount)
  exact ⟨_, e⟩

theorem packetBytes_of_fault {cls cause : Nat}
    (h : s.xlatNow (qk / 64) (r.va + r.bytes.length) .read = .fault cls cause) :
    ∃ u, s.packetBytes qk r = (u, .error 7) := by
  obtain ⟨l2, e⟩ := devRead_of_fault (((samePages_freeIdx s).xlatNow ..).trans h) (r.take s.freeCount)
  exact ⟨_, e⟩

theorem readFails_faults (u : State) (qk st : Nat) (r : PacketRead) :
    let t := u.readFails qk st r
    t.grids = u.grids ∧ t.teams = u.teams ∧ t.queue qk = { u.queue qk with
      flt := true, unc := (u.queue qk).unc || st = 8, fault := BitVec.ofNat 64 r.va, read := none } := by
  intro t
  have noted := (notified_postEvent rfl _ _ : Notified _ t).work
  have grids := grids_of_work noted
  have teams := teams_of_work noted
  exact ⟨grids, teams, (queue_of_work noted qk).trans (modQueue_queue_same u qk _)⟩

/-- A packet read that fails faults its queue, whose head stays (03 R65). -/
theorem packetFetch_fails (reads : (s.queue qk).read = some r) {u : State} {st : Nat}
    (h : s.packetBytes qk r = (u, .error st)) :
    ∃ t, exec (.packetFetch qk) s = .next t ∧ t.grids = s.grids ∧ t.teams = s.teams ∧
      t.queue qk = { s.queue qk with
        flt := true, unc := (s.queue qk).unc || st = 8, fault := BitVec.ofNat 64 r.va, read := none } := by
  have same : u.work = s.work :=
    (congrArg (fun x => x.1.work) h).symm.trans (devRead_work s.freeIdx.2 _ _ (r.take s.freeCount) .read)
  obtain ⟨grids, teams, queue⟩ := readFails_faults u qk st r
  rw [queue_of_work same] at queue
  exact ⟨_, packetFetch_of_error reads h, grids.trans (grids_of_work same), teams.trans (teams_of_work same), queue⟩

/-- A packet read in full passes the head of its queue (03 R61, R63). -/
def State.packetRead (s : State) (qk : Nat) (r : PacketRead) : State :=
  s.modQueue qk fun q => { q with read := none, head := if r.anew then q.head else q.head + 1 }

theorem readEnds_of_valid {u : State} {qk : Nat} {r : PacketRead} {b : List Byte}
    (valid : (u.packetRead qk r).validate (Packet.parse b) (qk / 64 / 16) = 0) :
    let v := u.packetRead qk r
    u.readEnds qk r b = { v with
      grids := v.grids.put v.nextId (newGrid (Packet.parse b) (qk / 64) (qk % 64) false 1 none)
      nextId := v.nextId + 1 } := if_pos valid

theorem readEnds_of_invalid {u : State} {qk : Nat} {r : PacketRead} {b : List Byte}
    (invalid : (u.packetRead qk r).validate (Packet.parse b) (qk / 64 / 16) ≠ 0) :
    let v := u.packetRead qk r
    let t := u.readEnds qk r b
    t.teams = v.teams ∧ t.queue qk = v.queue qk ∧ ∀ g, t.grids.get? v.nextId = some g → g.stage = .ended := by
  intro v t
  have ends : Ended _ v.nextId t := (if_neg invalid : t = _) ▸ ended_endGrid _ v.nextId _ _ []
  obtain ⟨teams, queues, ended⟩ := ends
  exact ⟨teams, congrArg (fun m : Tbl Queue => (m.get? qk).getD {}) queues, ended⟩

end

/-! ## Wait conditions and release -/

theorem waitCondition_of_none {s : State} {k : Nat} {g : Grid} (found : s.grids.get? k = some g) (none : g.condition = none) :
    exec (.waitConditionCheck k) s = .next s := by
  rw [exec_waitConditionCheck, execWaitConditionCheck, found]
  simp only [none]

section

variable {s u : State} {k : Nat} {g : Grid} {n : Nat} {va v : DWord}

theorem waitCondition_of_error (found : s.grids.get? k = some g) (cond : g.condition = some (n, va, v)) {st : Nat}
    (h : s.devRead g.ck va.toNat 8 .read = (u, .error st)) :
    exec (.waitConditionCheck k) s = .next (u.endGrid k st va.toNat []) := by
  rw [exec_waitConditionCheck, execWaitConditionCheck, found]
  simp only [cond, h]

theorem waitCondition_of_bytes (found : s.grids.get? k = some g) (cond : g.condition = some (n, va, v)) {b : List Byte}
    (h : s.devRead g.ck va.toNat 8 .read = (u, .ok b)) :
    exec (.waitConditionCheck k) s = .next (if v.toNat ≤ ofBytes b then u.modGrid k (·.meetCondition n) else u) := by
  rw [exec_waitConditionCheck, execWaitConditionCheck, found]
  simp only [cond, h]

end

theorem modGrid_of {s : State} {k : Nat} {g : Grid} (found : s.grids.get? k = some g) (f : Grid → Grid) :
    s.modGrid k f = { s with grids := s.grids.put k (f g) } := by
  simp only [State.modGrid, Tbl.modify, found]

theorem meetCondition_of_first {g : Grid} (w0 : g.pkt.w0v = true) (w1 : g.pkt.w1v = false) :
    (g.meetCondition 0).stage = .met := by
  simp [Grid.meetCondition, w0, w1]

/-- The state of a release before its grid is validated: the grid has left the device queue. -/
def State.leaveQueue (s : State) (k : Nat) (g : Grid) : State := s.modCtx g.ck fun c => { c with devq := dropFrom c.devq k }

/-- The status of a release: a grid from a device queue still has steps 3 to 5 of R43 before it (03 R76). -/
def State.releaseStatus (s : State) (k : Nat) (g : Grid) : Nat :=
  if g.dev then (s.leaveQueue k g).validateFit g.pkt (g.ck / 16) else 0

section

variable {s : State} {k : Nat} {g : Grid}

theorem releaseStatus_eq_zero :
    s.releaseStatus k g = 0 ↔ (g.dev = true → (s.leaveQueue k g).validateFit g.pkt (g.ck / 16) = 0) := by
  unfold State.releaseStatus
  split
  next dev => simp [dev]
  next dev => simp [dev]

theorem gridRelease_of_held (found : s.grids.get? k = some g) (held : s.releasable k g = false) :
    exec (.gridRelease k) s = .next s := by
  rw [exec_gridRelease, execGridRelease, found]
  simp only [held, Bool.not_false, if_true]

theorem gridRelease_of_releasable (found : s.grids.get? k = some g) (free : s.releasable k g = true) :
    let v := s.leaveQueue k g
    exec (.gridRelease k) s = .next (
      if s.releaseStatus k g ≠ 0 then v.endGrid k (s.releaseStatus k g) g.pkt.corrid.toNat []
      else { v with grids := s.grids.put k { g with stage := .released, order := s.nextId }, nextId := s.nextId + 1 }) := by
  rw [exec_gridRelease, execGridRelease, found]
  have listed : ({ s.leaveQueue k g with nextId := s.nextId + 1 } : State).grids.get? k = some g := found
  have released := modGrid_of listed fun g => { g with stage := .released, order := s.nextId }
  simp only [free, Bool.not_true, Bool.false_eq_true, if_false]
  exact congrArg (fun x => Host.Outcome.next (if s.releaseStatus k g ≠ 0 then _ else x)) released

end

/-- Settles O33: each turn is one read of the device or one update, and a grid that fails ends by `ended_endGrid`. -/
theorem packetsBecomeReleasedGrids : Obligations.PacketsBecomeReleasedGrids := by
  refine ⟨fun qk s => ⟨fun idle closed => ?_, fun idle opened => ?_, fun r reads short => ?_⟩,
    fun k s g found => ⟨waitCondition_of_none found, fun n va v cond => ⟨fun pa leaf ok clean => ?_, fun cls cause bad => ?_⟩,
      gridRelease_of_held found, fun free => ⟨fun good => ?_, fun bad => ?_⟩⟩⟩
  · rw [packetFetch_of_idle idle, if_neg]
    simpa [State.fetchable, idle, and_assoc] using closed
  · rw [packetFetch_of_idle idle, if_pos]
    · rfl
    · simpa [State.fetchable, idle, and_assoc] using opened
  · refine ⟨r.take s.freeCount, (take_bounds short _).1, (take_bounds short _).2, fun pa leaf ok clean => ?_,
      fun pa leaf ok bad => ?_, fun bad => ?_, fun cls cause bad => ?_⟩
    · obtain ⟨l2, e⟩ := packetBytes_of_ok ok
      rw [clean] at e
      have run := packetFetch_of_bytes reads e
      rw [← List.length_append] at run
      refine ⟨fun part => ⟨_, run.trans (congrArg _ (if_pos part)), rfl⟩, fun whole => ?_⟩
      have run := run.trans (congrArg _ (if_neg (Nat.not_lt.2 whole.ge)))
      exact ⟨_, _, rfl, rfl, fun valid => run.trans (congrArg _ (readEnds_of_valid valid)),
        fun invalid => ⟨_, run, readEnds_of_invalid invalid⟩⟩
    · obtain ⟨l2, e⟩ := packetBytes_of_ok ok
      rw [bad] at e
      exact packetFetch_fails reads e
    · obtain ⟨u, e⟩ := packetBytes_of_poison bad
      exact packetFetch_fails reads e
    · obtain ⟨u, e⟩ := packetBytes_of_fault bad
      exact packetFetch_fails reads e
  · obtain ⟨l2, e⟩ := devRead_of_ok ok 8
    rw [clean] at e
    refine ⟨_, waitCondition_of_bytes found cond e, fun below => ?_, fun reached => ?_, fun w0 w1 first => ?_⟩
    · have not : ¬v.toNat ≤ ofBytes (s.bytes .mem pa 8) := Nat.not_le.2 below
      rw [if_neg not]
    · have yes : v.toNat ≤ ofBytes (s.bytes .mem pa 8) := reached
      rw [if_pos yes, modGrid_of (by exact found)]
    · subst first
      exact meetCondition_of_first w0 w1
  · obtain ⟨l2, e⟩ := devRead_of_fault bad 8
    have ends := ended_endGrid { s with l2 := l2 } k 7 va.toNat []
    exact ⟨_, waitCondition_of_error found cond e, ends.teams, ends.ended⟩
  · rw [gridRelease_of_releasable found free, if_neg (not_not.2 (releaseStatus_eq_zero.2 good))]
    rfl
  · have ends := ended_endGrid (s.leaveQueue k g) k (s.releaseStatus k g) g.pkt.corrid.toNat []
    refine ⟨_, (gridRelease_of_releasable found free).trans (congrArg _ (if_pos ?_)), ends.teams, ends.ended⟩
    exact fun zero => bad (releaseStatus_eq_zero.1 zero)

end Sys2Proof.Machine
end

section
/-! SUPPORT. Bytes read back after they are stored, objects of a core barrier read back after they are counted on, and what a copy
engine's reads and writes give (O31). -/

namespace Sys2Proof

theorem ofBytes_bytesOf (n k : Nat) : ofBytes (bytesOf n k) = n % 256 ^ k := by
  induction k generalizing n with
  | zero => simp [ofBytes, bytesOf, Nat.mod_one]
  | succ k ih => simp [ofBytes, bytesOf, ih, pow_succ', Nat.mod_mul]

end Sys2Proof

namespace Sys2Proof.Machine

/-! ## Stored bytes -/

theorem write_byte_place (s : State) {p q : Place} (h : p ≠ q) (bs : Tbl Byte) (b : Nat) :
    (s.write p bs).byte q b = s.byte q b :=
  write_leaves (fun u => u.byte q b) (fun u _ _ => setByte_byte_place u h _ _ _) (fun u _ => setPoisons_byte u p q _ b)
    (fun _ _ => by cases q <;> rfl) (fun _ u _ _ => markStale_byte u _ _ q b) s bs

/-- Bytes of a list stored from an address on: they stand there, and every other byte stays. -/
theorem write_placeList_byte (s : State) (p : Place) (a : Nat) (l : List Byte) (q : Place) (b : Nat) :
    (s.write p (placeList a l)).byte q b = if q = p ∧ a ≤ b ∧ b < a + l.length then l.getD (b - a) 0 else s.byte q b := by
  by_cases hp : p = q
  · subst hp
    by_cases hb : a ≤ b ∧ b < a + l.length
    · rw [if_pos ⟨rfl, hb⟩]
      refine write_byte_same s p _ ?_ (List.mem_map.2 ⟨b - a, List.mem_range.2 (by omega), ?_⟩)
      · simp only [placeList, List.map_map]
        exact List.Nodup.map (fun x y h => by simpa using h) List.nodup_range
      · rw [Nat.add_sub_cancel' hb.1]
    · rw [if_neg fun h => hb h.2]
      refine write_byte_other s p _ b fun e he => ?_
      obtain ⟨i, hi, rfl⟩ := List.mem_map.1 he
      have := List.mem_range.1 hi
      dsimp only
      omega
  · rw [if_neg fun h => hp h.1.symm, write_byte_place s hp]

theorem bytes_eq_bytesOf {s : State} {p : Place} {a n v : Nat}
    (h : ∀ i < n, s.byte p (a + i) = BitVec.ofNat 8 (v / 256 ^ i)) : s.bytes p a n = bytesOf v n := by
  induction n generalizing a v with
  | zero => rfl
  | succ n ih =>
    rw [State.bytes, bytesOf, ih (v := v / 256) fun i hi => ?_]
    · rw [show s.byte p a = BitVec.ofNat 8 v by simpa using h 0 (by omega)]
    · rw [show a + 1 + i = a + (i + 1) by omega, h (i + 1) (by omega), pow_succ', Nat.div_div_eq_div_mul]

/-- A number whose bytes stand in a memory is loaded from there. -/
theorem load_of_bytes {s : State} {p : Place} {a n v : Nat}
    (h : ∀ i < n, s.byte p (a + i) = BitVec.ofNat 8 (v / 256 ^ i)) : s.load p a n = v % 256 ^ n := by
  rw [State.load, bytes_eq_bytesOf h, ofBytes_bytesOf]

theorem drop_bytes (s : State) (p : Place) (a i n : Nat) : (s.bytes p a (i + n)).drop i = s.bytes p (a + i) n := by
  induction i generalizing a with
  | zero => rw [Nat.zero_add]; rfl
  | succ i ih => rw [Nat.succ_add, State.bytes, List.drop_succ_cons, ih, show a + 1 + i = a + (i + 1) by omega]

theorem take_bytes (s : State) (p : Place) (a m n : Nat) : (s.bytes p a (m + n)).take m = s.bytes p a m := by
  induction m generalizing a with
  | zero => rfl
  | succ m ih => rw [Nat.succ_add, State.bytes, List.take_succ_cons, ih, State.bytes]

/-- Some of the bytes of an interval are the bytes from there on. -/
theorem take_drop_bytes (s : State) (p : Place) (a : Nat) {i m n : Nat} (h : i + m ≤ n) :
    ((s.bytes p a n).drop i).take m = s.bytes p (a + i) m := by
  obtain ⟨k, rfl⟩ := Nat.exists_eq_add_of_le h
  rw [Nat.add_assoc, drop_bytes, take_bytes]

theorem place_eq_placeList (a n v : Nat) : place a n v = placeList a (bytesOf v n) := by
  unfold place placeList
  rw [bytesOf_length]
  refine List.map_congr_left fun i hi => ?_
  rw [bytesOf_getD _ _ _ (List.mem_range.1 hi)]

/-! ## Objects of a core barrier -/

/-- A byte of a core barrier's object (11 R281). -/
def inObject (core off : Nat) (q : Place) (x : Nat) : Prop := q = .pad ∧ 2 ^ 19 * core + off ≤ x ∧ x < 2 ^ 19 * core + off + 8

/-- Updating an object stores its word, and the agenda may change. -/
theorem setBar_leaves {α : Type} (part : State → α) (agenda : ∀ (u : State) a, part { u with agenda := a } = part u)
    (s : State) (core off : Nat) (o : BarObj) :
    part (s.setBar core off o) = part (s.write .pad (placeList (2 ^ 19 * core + off) (bytesOf o.word 8))) := by
  unfold State.setBar
  rw [place_eq_placeList]
  generalize s.write .pad _ = u
  dsimp only
  split
  · rfl
  · exact agenda ..

theorem setBar_byte (s : State) (core off : Nat) (o : BarObj) (q : Place) (x : Nat) :
    (s.setBar core off o).byte q x = (s.write .pad (placeList (2 ^ 19 * core + off) (bytesOf o.word 8))).byte q x :=
  setBar_leaves (fun u => u.byte q x) (fun _ _ => by cases q <;> rfl) s core off o

theorem setBar_byte_other (s : State) {core off : Nat} (o : BarObj) {q : Place} {x : Nat} (h : ¬inObject core off q x) :
    (s.setBar core off o).byte q x = s.byte q x := by
  rw [setBar_byte, write_placeList_byte, if_neg (by rw [bytesOf_length]; exact h)]

theorem setBar_work (s : State) (core off : Nat) (o : BarObj) : (s.setBar core off o).work = s.work :=
  (setBar_leaves State.work (fun _ _ => rfl) s core off o).trans (write_work ..)

theorem write_pad_mem (s : State) (bs : Tbl Byte) : (s.write .pad bs).mem = s.mem :=
  write_leaves (p := .pad) State.mem (fun _ _ _ => rfl) (fun _ _ => rfl) (fun _ _ => rfl) nofun s bs

theorem setBar_mem (s : State) (core off : Nat) (o : BarObj) : (s.setBar core off o).mem = s.mem :=
  (setBar_leaves State.mem (fun _ _ => rfl) s core off o).trans (write_pad_mem ..)

/-- An object whose counts fit their fields is read back from its word. -/
theorem barObj_of_word {o : BarObj} (expa : o.expa < 2 ^ 11) (arrc : o.arrc < 2 ^ 11) (bytes : o.bytes < 2 ^ 38) :
    BarObj.of (o.word % 256 ^ 8) = o := by
  obtain ⟨phase, bc, posted, err, e, a, b⟩ := o
  simp only [BarObj.of, BarObj.word, Nat.testBit_eq_decide_div_mod_eq] at *
  rw [Nat.mod_eq_of_lt expa, Nat.mod_eq_of_lt arrc, Nat.mod_eq_of_lt bytes]
  cases phase <;> cases bc <;> cases posted <;> cases err <;> simp <;> omega

theorem barObj_setBar (s : State) (core off : Nat) {o : BarObj} (expa : o.expa < 2 ^ 11) (arrc : o.arrc < 2 ^ 11)
    (bytes : o.bytes < 2 ^ 38) : (s.setBar core off o).barObj core off = o := by
  rw [State.barObj, load_of_bytes (v := o.word) fun i hi => ?_, barObj_of_word expa arrc bytes]
  rw [setBar_byte, write_placeList_byte, if_pos ⟨rfl, by omega, by rw [bytesOf_length]; omega⟩, Nat.add_sub_cancel_left,
    bytesOf_getD _ _ _ hi]

theorem barObj_bounds (s : State) (core off : Nat) :
    (s.barObj core off).expa < 2 ^ 11 ∧ (s.barObj core off).arrc < 2 ^ 11 ∧ (s.barObj core off).bytes < 2 ^ 38 :=
  ⟨Nat.mod_lt _ (by norm_num), Nat.mod_lt _ (by norm_num), Nat.mod_lt _ (by norm_num)⟩

/-! ## Bytes counted on objects -/

theorem countJob_work (s : State) (cores : List Nat) (off n : Nat) (err : Bool) :
    (s.countJob cores off n err).work = s.work := foldl_leaves State.work (fun _ _ => setBar_work ..) cores s

theorem countJob_mem (s : State) (cores : List Nat) (off n : Nat) (err : Bool) :
    (s.countJob cores off n err).mem = s.mem := foldl_leaves State.mem (fun _ _ => setBar_mem ..) cores s

theorem countJob_byte_other (s : State) (cores : List Nat) (off n : Nat) (err : Bool) {q : Place} {x : Nat}
    (h : ∀ core ∈ cores, ¬inObject core off q x) : (s.countJob cores off n err).byte q x = s.byte q x := by
  induction cores generalizing s with
  | nil => rfl
  | cons core cores ih =>
    exact (ih _ fun c hc => h c (List.mem_cons_of_mem _ hc)).trans (setBar_byte_other s _ (h core (List.mem_cons_self ..)))

theorem countJob_barObj (s : State) (core off n : Nat) :
    (s.countJob [core] off n false).barObj core off =
      { s.barObj core off with bytes := ((s.barObj core off).bytes + 2 ^ 38 - n % 2 ^ 38) % 2 ^ 38 } := by
  obtain ⟨expa, arrc, bytes⟩ := barObj_bounds s core off
  refine (barObj_setBar s core off ?_ ?_ ?_).trans (by rw [Bool.or_false])
  · exact expa
  · exact arrc
  · exact Nat.mod_lt _ (by norm_num)

/-! ## Reads and writes of a copy engine -/

namespace Touched

variable {s t : State}

theorem byte (h : Touched s t) (q : Place) (x : Nat) : t.byte q x = s.byte q x := by
  obtain ⟨l2, teams, rfl⟩ := h
  cases q <;> rfl

theorem bytes (h : Touched s t) (p : Place) (a n : Nat) : t.bytes p a n = s.bytes p a n := bytes_congr fun x _ _ => h.byte p x

theorem poisoned (h : Touched s t) (p : Place) (a n : Nat) : t.poisoned p a n = s.poisoned p a n := by
  obtain ⟨l2, teams, rfl⟩ := h
  cases p <;> rfl

theorem hazyFor (h : Touched s t) (p : Place) (a : Nat) (v : Option (Tbl Nat)) : t.hazyFor p a v = s.hazyFor p a v := by
  obtain ⟨l2, teams, rfl⟩ := h
  rfl

theorem groups (h : Touched s t) : t.groups = s.groups := by
  obtain ⟨l2, teams, rfl⟩ := h
  rfl

theorem pages (h : Touched s t) : SamePages s t := by
  obtain ⟨l2, teams, rfl⟩ := h
  exact ⟨rfl, rfl, rfl, rfl⟩

end Touched

/-- A translation by an engine: its answer is that of a walk made now. -/
theorem xlat_touched (s : State) (ck va : Nat) (need : Need) :
    ∃ t, Touched s t ∧ s.xlat ck va need = (t, s.xlatNow ck va need) := by
  obtain ⟨l2, e⟩ := xlat_eq s ck va need
  exact ⟨_, ⟨l2, s.teams, rfl⟩, e⟩

/-- Bytes that nothing left undefined are read as they stand (14 R347). -/
theorem blurRead_of_known {s : State} {p : Place} {a n : Nat} (known : ∀ x < n, s.hazyFor p (a + x) none = false) :
    s.blurRead p a n = s := by
  have none : ((List.range n).map (a + ·)).filter (fun b => s.hazyFor p b Option.none) = [] := by
    simpa [List.filter_eq_nil_iff] using known
  unfold State.blurRead
  split
  · rfl
  · rw [none]
    rfl

theorem blurRead_work (s : State) (p : Place) (a n : Nat) : (s.blurRead p a n).work = s.work := by
  unfold State.blurRead State.blur State.freeIdx
  split
  · rfl
  · dsimp only
    split
    · rfl
    · exact foldl_leaves State.work (fun _ _ => setByte_work ..) _ _

section

variable {s : State} {j : Job} {a n : Nat}

theorem engineRead_of_ok {pa : Nat} {leaf : DWord} (h : s.xlatNow j.ck a .read = .ok pa leaf)
    (known : ∀ x < n, s.hazyFor .mem (pa + x) none = false) :
    ∃ t, Touched s t ∧
      s.engineRead j 0 a n = (t, if s.poisoned .mem pa n then .error (8, a) else .ok (s.bytes .mem pa n)) := by
  obtain ⟨u, walked, e⟩ := xlat_touched s j.ck a .read
  have read := walked.trans (touched_l2Touch u (pa / 128) (homeSlice pa leaf) (insertV j.rdh) j.ck (some (j.team, j.core)) false)
  refine ⟨_, read, ?_⟩
  rw [State.engineRead, if_pos rfl, e, h]
  dsimp only
  rw [blurRead_of_known fun x hx => (read.hazyFor ..).trans (known x hx), read.bytes, read.poisoned]

theorem engineRead_of_poison (h : s.xlatNow j.ck a .read = .poison) :
    ∃ t, Touched s t ∧ s.engineRead j 0 a n = (t, .error (8, a)) := by
  obtain ⟨u, walked, e⟩ := xlat_touched s j.ck a .read
  exact ⟨u, walked, by rw [State.engineRead, if_pos rfl, e, h]⟩

theorem engineRead_of_fault {cls cause : Nat} (h : s.xlatNow j.ck a .read = .fault cls cause) :
    ∃ t, Touched s t ∧ s.engineRead j 0 a n = (t, .error (7, a)) := by
  obtain ⟨u, walked, e⟩ := xlat_touched s j.ck a .read
  exact ⟨u, walked, by rw [State.engineRead, if_pos rfl, e, h]⟩

theorem engineRead_of_local {space : Nat} (h : space ≠ 0)
    (known : ∀ x < n, s.hazyFor (jobPlace j.core space a).1 ((jobPlace j.core space a).2 + x) none = false) :
    s.engineRead j space a n =
      (s, if s.poisoned (jobPlace j.core space a).1 (jobPlace j.core space a).2 n then .error (8, a)
        else .ok (s.bytes (jobPlace j.core space a).1 (jobPlace j.core space a).2 n)) := by
  rw [State.engineRead, if_neg h]
  dsimp only
  rw [blurRead_of_known known]

theorem engineWrite_of_ok {pa : Nat} {leaf : DWord} (h : s.xlatNow j.ck a .write = .ok pa leaf) (core : Nat) (b : List Byte) :
    ∃ t, Touched s t ∧ s.engineWrite j core 0 a b = (t.write .mem (placeList pa b), none) := by
  obtain ⟨u, walked, e⟩ := xlat_touched s j.ck a .write
  refine ⟨_, walked.trans (touched_l2Touch u (pa / 128) (homeSlice pa leaf) (insertV 0) j.ck (some (j.team, j.core)) true), ?_⟩
  rw [State.engineWrite, if_pos rfl, e, h]

theorem engineWrite_of_local {space : Nat} (h : space ≠ 0) (core : Nat) (b : List Byte) :
    s.engineWrite j core space a b =
      (s.write (jobPlace core space a).1 (placeList (jobPlace core space a).2 b), none) := by
  rw [State.engineWrite, if_neg h]

end

theorem engineRead_groups (s : State) (j : Job) (space a n : Nat) : (s.engineRead j space a n).1.groups = s.groups := by
  unfold State.engineRead
  split
  · obtain ⟨u, walked, e⟩ := xlat_touched s j.ck a .read
    rw [e]
    cases s.xlatNow j.ck a .read with
    | ok pa leaf =>
      exact (groups_of_work (blurRead_work ..)).trans ((touched_l2Touch u ..).groups.trans walked.groups)
    | fault cls cause => exact walked.groups
    | poison => exact walked.groups
    | remote i =>
      dsimp only
      split
      · exact (groups_of_work (askPeer_work ..)).trans walked.groups
      · exact walked.groups
  · exact groups_of_work (blurRead_work ..)

theorem engineWrite_groups (s : State) (j : Job) (core space a : Nat) (b : List Byte) :
    (s.engineWrite j core space a b).1.groups = s.groups := by
  unfold State.engineWrite
  split
  · obtain ⟨u, walked, e⟩ := xlat_touched s j.ck a .write
    rw [e]
    cases s.xlatNow j.ck a .write with
    | ok pa leaf =>
      exact (groups_of_work (write_work ..)).trans ((touched_l2Touch u ..).groups.trans walked.groups)
    | fault cls cause => exact walked.groups
    | poison => exact walked.groups
    | remote i =>
      dsimp only
      split
      · exact (groups_of_work (askPeer_work ..)).trans walked.groups
      · exact walked.groups
  · exact groups_of_work (write_work ..)

end Sys2Proof.Machine
end

section
/-! SUPPORT. The delivery of a copy job's elements, the end of a job, and held records (O31). -/

namespace Sys2Proof.Tbl

variable {β : Type} {m : Tbl β} {k : Nat} {v : β}

theorem get?_of_mem (sorted : m.sorted = true) (h : (k, v) ∈ m) : m.get? k = some v := by
  induction m with
  | nil => cases h
  | cons e m ih =>
    obtain ⟨above, rest⟩ := (sorted_cons e m).1 sorted
    rcases List.mem_cons.1 h with rfl | later
    · simp [get?]
    · have := above _ later
      rw [get?, if_neg (by dsimp only at this; omega), ih rest later]

/-- A value that a filter drops is not listed after it. -/
theorem get?_filter_none (sorted : m.sorted = true) (found : m.get? k = some v) {p : Nat × β → Bool}
    (dropped : p (k, v) = false) : get? (m.filter p) k = none := by
  cases h : get? (m.filter p) k with
  | none => rfl
  | some v' =>
    obtain ⟨listed, kept⟩ := List.mem_filter.1 (mem_of_get? h)
    rw [get?_of_mem sorted listed] at found
    cases found
    rw [kept] at dropped
    cases dropped

/-- Putting the value that is listed changes nothing. -/
theorem put_get? (sorted : m.sorted = true) (found : m.get? k = some v) : m.put k v = m := by
  induction m with
  | nil => cases found
  | cons e m ih =>
    obtain ⟨above, rest⟩ := (sorted_cons e m).1 sorted
    obtain ⟨k', v'⟩ := e
    by_cases same : k' = k
    · subst same
      simp [get?] at found
      simp [put, found]
    · have later : get? m k = some v := by simpa [get?, same] using found
      have : k' < k := above _ (mem_of_get? later)
      rw [put, if_neg (by omega), if_neg (by omega), ih rest later]

end Sys2Proof.Tbl

namespace Sys2Proof.Machine

/-! ## The element of a job -/

/-- The index that a job's list gives to an element (02 R52). -/
def State.listIndex (s : State) (core : Nat) (c : Card) (i : Nat) : Nat := s.load .pad (2 ^ 19 * core + (c.aux + 4 * i)) 4

/-- The address of an element at its source. -/
def State.elemSource (s : State) (core : Nat) (c : Card) (i : Nat) : Nat :=
  if c.kind = 4 then (c.src + s.listIndex core c i * c.e) % 2 ^ 64 else c.dense c.src c.ssy c.ssz i

/-- The address of an element at its destination. -/
def State.elemDest (s : State) (core : Nat) (c : Card) (i : Nat) : Nat :=
  if c.kind = 5 then (c.dst + s.listIndex core c i * c.e) % 2 ^ 64 else c.dense c.dst c.dsy c.dsz i

section

variable {s : State} {core i : Nat} {c : Card}

/-- The list of a gather or a scatter gives the element its index, unless it is poisoned or outside the bound (02 R52). -/
theorem jobElem_of_list (lists : c.kind = 4 ∨ c.kind = 5) :
    s.jobElem core c i =
      if s.poisoned .pad (2 ^ 19 * core + (c.aux + 4 * i)) 4 then .error (8, c.aux + 4 * i)
      else if c.bound < s.listIndex core c i * c.e + c.e then .error (10, c.aux + 4 * i)
      else .ok (s.elemSource core c i, s.elemDest core c i) := by
  have pair : (s.elemSource core c i, s.elemDest core c i) =
      if c.kind = 4 then ((c.src + s.listIndex core c i * c.e) % 2 ^ 64, c.dense c.dst c.dsy c.dsz i)
      else (c.dense c.src c.ssy c.ssz i, (c.dst + s.listIndex core c i * c.e) % 2 ^ 64) := by
    unfold State.elemSource State.elemDest
    rcases lists with gather | scatter
    · rw [if_pos gather, if_pos gather, if_neg (by omega)]
    · rw [if_pos scatter, if_neg (by omega), if_neg (by omega)]
  rw [pair]
  exact if_pos (by simpa using lists)

theorem jobElem_of_dense (dense : ¬(c.kind = 4 ∨ c.kind = 5)) :
    s.jobElem core c i = .ok (s.elemSource core c i, s.elemDest core c i) := by
  unfold State.elemSource State.elemDest
  rw [if_neg (by omega), if_neg (by omega)]
  exact if_neg (by simpa using dense)

theorem jobElem_of_listed
    (listed : c.kind = 4 ∨ c.kind = 5 → s.poisoned .pad (2 ^ 19 * core + (c.aux + 4 * i)) 4 = false ∧
      s.listIndex core c i * c.e + c.e ≤ c.bound) :
    s.jobElem core c i = .ok (s.elemSource core c i, s.elemDest core c i) := by
  by_cases lists : c.kind = 4 ∨ c.kind = 5
  · obtain ⟨clean, inside⟩ := listed lists
    rw [jobElem_of_list lists, clean, if_neg Bool.false_ne_true, if_neg (Nat.not_lt.2 inside)]
  · exact jobElem_of_dense lists

end

/-! ## An element stored -/

/-- Since `s` the bytes `b` have been stored at each of the places, and no other byte has changed. -/
structure StoredAt (s t : State) (ds : List (Place × Nat)) (b : List Byte) : Prop where
  inside : ∀ d ∈ ds, ∀ x < b.length, t.byte d.1 (d.2 + x) = b.getD x 0
  outside : ∀ q x, ¬(∃ d ∈ ds, q = d.1 ∧ d.2 ≤ x ∧ x < d.2 + b.length) → t.byte q x = s.byte q x

theorem storedAt_write (s : State) (p : Place) (a : Nat) (b : List Byte) :
    StoredAt s (s.write p (placeList a b)) [(p, a)] b where
  inside d hd x hx := by
    obtain rfl := List.mem_singleton.1 hd
    rw [write_placeList_byte, if_pos ⟨rfl, by omega, by omega⟩, Nat.add_sub_cancel_left]
  outside q x h := by
    rw [write_placeList_byte, if_neg fun hx => h ⟨(p, a), List.mem_singleton_self _, hx⟩]

theorem StoredAt.of_touched {s u t : State} {ds : List (Place × Nat)} {b : List Byte} (h : StoredAt u t ds b)
    (touched : Touched s u) : StoredAt s t ds b where
  inside := h.inside
  outside q x hx := (h.outside q x hx).trans (touched.byte q x)

/-- Storing an element at its offset in the scratchpad of each core of a list (11 R269). -/
def State.multicast (s : State) (j : Job) (a : Nat) (b : List Byte) (qs : List Nat) : State :=
  qs.foldl (fun s q => (s.engineWrite j q 1 a b).1) s

section

variable {j : Job} {a : Nat} {b : List Byte}

theorem storedAt_engineWrite (s : State) (q : Nat) :
    StoredAt s (s.engineWrite j q 1 a b).1 [(.pad, 2 ^ 19 * q + a)] b := by
  rw [engineWrite_of_local one_ne_zero]
  exact storedAt_write s .pad (2 ^ 19 * q + a) b

theorem engineWrite_byte_other (s : State) {q : Nat} {p : Place} {x : Nat}
    (h : ¬(p = .pad ∧ 2 ^ 19 * q + a ≤ x ∧ x < 2 ^ 19 * q + a + b.length)) :
    (s.engineWrite j q 1 a b).1.byte p x = s.byte p x := by
  refine (storedAt_engineWrite s q).outside p x ?_
  rintro ⟨d, hd, hx⟩
  obtain rfl := List.mem_singleton.1 hd
  exact h hx

theorem multicast_byte_other (qs : List Nat) (s : State) {p : Place} {x : Nat}
    (h : ∀ q ∈ qs, ¬(p = .pad ∧ 2 ^ 19 * q + a ≤ x ∧ x < 2 ^ 19 * q + a + b.length)) :
    (s.multicast j a b qs).byte p x = s.byte p x := by
  induction qs generalizing s with
  | nil => rfl
  | cons q qs ih =>
    exact (ih _ fun q' hq => h q' (List.mem_cons_of_mem _ hq)).trans (engineWrite_byte_other s (h q (List.mem_cons_self ..)))

/-- A byte of the element stands in a core once it is stored there: a later store of the multicast names another core, or puts
the same byte there. -/
theorem multicast_byte (room : a + b.length ≤ 2 ^ 19) {q x : Nat} (hx : x < b.length) (qs : List Nat) (s : State)
    (h : q ∈ qs ∨ s.byte .pad (2 ^ 19 * q + a + x) = b.getD x 0) :
    (s.multicast j a b qs).byte .pad (2 ^ 19 * q + a + x) = b.getD x 0 := by
  induction qs generalizing s with
  | nil => exact h.resolve_left List.not_mem_nil
  | cons q' qs ih =>
    refine ih (s.engineWrite j q' 1 a b).1 ?_
    by_cases same : q = q'
    · subst same
      exact .inr ((storedAt_engineWrite s q).inside _ (List.mem_singleton_self _) x hx)
    · refine h.imp (fun mem => (List.mem_cons.1 mem).resolve_left same) fun stands => ?_
      rw [engineWrite_byte_other s (by omega), stands]

theorem storedAt_multicast (room : a + b.length ≤ 2 ^ 19) (qs : List Nat) (s : State) :
    StoredAt s (s.multicast j a b qs) (qs.map fun q => (.pad, 2 ^ 19 * q + a)) b where
  inside d hd x hx := by
    obtain ⟨q, hq, rfl⟩ := List.mem_map.1 hd
    exact multicast_byte room hx qs s (.inl hq)
  outside p x h := multicast_byte_other qs s fun q hq hx => h ⟨_, List.mem_map.2 ⟨q, hq, rfl⟩, hx⟩

end

/-! ## The delivery of one element -/

/-- The bytes of an element at its source, where they can be read and nothing left them undefined. -/
def State.ElemReads (s : State) (j : Job) (space a n : Nat) (b : List Byte) : Prop :=
  (space = 0 ∧ ∃ pa leaf, s.xlatNow j.ck a .read = .ok pa leaf ∧ s.poisoned .mem pa n = false ∧
    (∀ x < n, s.hazyFor .mem (pa + x) none = false) ∧ b = s.bytes .mem pa n) ∨
  (space ≠ 0 ∧ (let x := jobPlace j.core space a
    s.poisoned x.1 x.2 n = false ∧ (∀ y < n, s.hazyFor x.1 (x.2 + y) none = false) ∧ b = s.bytes x.1 x.2 n))

/-- The places at which an element is stored, where its destination translates. -/
def State.ElemLands (s : State) (j : Job) (c : Card) (a : Nat) (ds : List (Place × Nat)) : Prop :=
  (c.kind ≠ 6 ∧ c.dsp = 0 ∧ ∃ pa leaf, s.xlatNow j.ck a .write = .ok pa leaf ∧ ds = [(.mem, pa)]) ∨
  (c.kind ≠ 6 ∧ c.dsp ≠ 0 ∧ ds = [jobPlace j.core c.dsp a]) ∨
  (c.kind = 6 ∧ a + c.e ≤ 2 ^ 19 ∧ ds = (c.targets j.core).map fun q => (.pad, 2 ^ 19 * q + a))

section

variable {s : State} {j : Job} {c : Card}

theorem engineRead_of_reads {space a n : Nat} {b : List Byte} (h : s.ElemReads j space a n b) :
    ∃ t, Touched s t ∧ s.engineRead j space a n = (t, .ok b) := by
  rcases h with ⟨rfl, pa, leaf, ok, clean, known, rfl⟩ | ⟨local', clean, known, rfl⟩
  · obtain ⟨t, touched, e⟩ := engineRead_of_ok ok known
    rw [clean] at e
    exact ⟨t, touched, e⟩
  · have e := engineRead_of_local local' known
    rw [clean] at e
    exact ⟨s, ⟨s.l2, s.teams, rfl⟩, e⟩

/-- An element's bytes reach each of its places, after its read. -/
theorem elemStored {u : State} (touched : Touched s u) {a : Nat} {ds : List (Place × Nat)} (lands : s.ElemLands j c a ds)
    {b : List Byte} (length : b.length = c.e) :
    ∃ t, (if c.kind = 6 then (u.multicast j a b (c.targets j.core), none)
        else u.engineWrite j j.core c.dsp a b) = (t, none) ∧ StoredAt s t ds b := by
  rcases lands with ⟨kind, dsp, pa, leaf, ok, rfl⟩ | ⟨kind, dsp, rfl⟩ | ⟨kind, room, rfl⟩
  · rw [if_neg kind, dsp]
    obtain ⟨v, touched', e⟩ := engineWrite_of_ok ((touched.pages.xlatNow ..).trans ok) j.core b
    exact ⟨_, e, (storedAt_write v .mem pa b).of_touched (touched.trans touched')⟩
  · rw [if_neg kind, engineWrite_of_local dsp]
    exact ⟨_, rfl, (storedAt_write u _ _ b).of_touched touched⟩
  · rw [if_pos kind]
    exact ⟨_, rfl, (storedAt_multicast (length ▸ room) _ u).of_touched touched⟩

theorem deliverElem_of_error {i : Nat} {e : Nat × Nat} (elem : s.jobElem j.core c i = .error e) :
    s.deliverElem j c i = (s, some e) := by
  rw [State.deliverElem, elem]

theorem deliverElem_of_unread {i sa da : Nat} (elem : s.jobElem j.core c i = .ok (sa, da)) {t : State} {e : Nat × Nat}
    (read : s.engineRead j c.ssp sa c.e = (t, .error e)) : s.deliverElem j c i = (t, some e) := by
  rw [State.deliverElem, elem]
  dsimp only
  rw [read]

theorem deliverElem_of_read {i sa da : Nat} (elem : s.jobElem j.core c i = .ok (sa, da)) {b : List Byte}
    (reads : s.ElemReads j c.ssp sa c.e b) {ds : List (Place × Nat)} (lands : s.ElemLands j c da ds)
    (length : b.length = c.e) : ∃ t, s.deliverElem j c i = (t, none) ∧ StoredAt s t ds b := by
  obtain ⟨u, touched, read⟩ := engineRead_of_reads reads
  obtain ⟨t, e, stored⟩ := elemStored touched lands length
  refine ⟨t, ?_, stored⟩
  rw [State.deliverElem, elem]
  dsimp only
  rw [read]
  exact e

end

theorem ElemReads.length {s : State} {j : Job} {space a n : Nat} {b : List Byte} (h : s.ElemReads j space a n b) :
    b.length = n := by
  rcases h with ⟨-, pa, leaf, -, -, -, rfl⟩ | ⟨-, -, -, rfl⟩
  · exact bytes_length ..
  · exact bytes_length ..

/-! ## The delivery of several elements -/

theorem deliverElem_groups (s : State) (j : Job) (c : Card) (i : Nat) : (s.deliverElem j c i).1.groups = s.groups := by
  unfold State.deliverElem
  split
  · rfl
  next sa da _ =>
    have read := engineRead_groups s j c.ssp sa c.e
    split
    next u e he => rw [he] at read; exact read
    next u b he =>
      rw [he] at read
      split
      · exact (foldl_leaves State.groups (fun _ _ => engineWrite_groups ..) _ u).trans read
      · exact (engineWrite_groups ..).trans read

/-- Elements are delivered one by one from `i` on, at most `n`, up to the last or to one that fails. -/
theorem deliverMany_spec (j : Job) (c : Card) (n : Nat) (s : State) {i : Nat} (h : i ≤ c.total) :
    let r := s.deliverMany j c n i
    r.1.groups = s.groups ∧ i ≤ r.2.1 ∧ r.2.1 ≤ i + n ∧ r.2.1 ≤ c.total ∧ (r.2.2 = none → r.2.1 = min (i + n) c.total) := by
  induction n generalizing s i with
  | zero => exact ⟨rfl, le_rfl, le_rfl, h, fun _ => (min_eq_left h).symm⟩
  | succ n ih =>
    have groups := deliverElem_groups s j c i
    unfold State.deliverMany
    split
    next last => exact ⟨rfl, le_rfl, Nat.le_add_right .., h, fun _ => by dsimp only; omega⟩
    · split
      next u e he =>
        rw [he] at groups
        exact ⟨groups, le_rfl, Nat.le_add_right .., h, fun none => by cases none⟩
      next u he =>
        rw [he] at groups
        obtain ⟨rest, low, high, total, all⟩ := ih u (i := i + 1) (by omega)
        exact ⟨rest.trans groups, by omega, by omega, total, fun none => by rw [all none]; omega⟩

theorem deliverMany_one {s t : State} {j : Job} {c : Card} {i : Nat} {e : Option (Nat × Nat)} (h : i < c.total)
    (elem : s.deliverElem j c i = (t, e)) : s.deliverMany j c 1 i = (t, if e = none then i + 1 else i, e) := by
  rw [State.deliverMany, if_neg (by omega), elem]
  cases e <;> rfl

end Sys2Proof.Machine
end

section
/-! PROOFS. The turns of copy jobs and of held records (O31). -/

namespace Sys2Proof.Machine

/-! ## A turn of delivery -/

/-- A job that has delivered up to element `i`, and how it failed. -/
def Job.delivered (j : Job) (i : Nat) (e : Option (Nat × Nat)) : Job :=
  let c := Card.of j.card
  { j with
    done := i, counted := if c.sb then i * c.e else 0
    status := e.map (·.1), detail := BitVec.ofNat 64 ((e.map (·.2)).getD 0) }

/-- The bytes of the elements delivered, counted on the objects of their barriers (11 R285). -/
def State.countDelivered (s : State) (j : Job) (i : Nat) : State :=
  let c := Card.of j.card
  if c.sb && j.done < i then s.countJob (c.barCores j.core) c.barOff ((i - j.done) * c.e) false else s

/-- The state with a job in the place of the one of its number. -/
def State.putJob (s : State) (id : Nat) (j : Job) : State := { s with jobs := s.jobs.put id j }

/-- What follows the elements of a turn: the job notes them, its objects count their bytes, and its footprint stops reading. -/
def State.afterDelivery (s : State) (id : Nat) (j : Job) (i : Nat) (e : Option (Nat × Nat)) : State :=
  let s := (s.putJob id (j.delivered i e)).countDelivered j i
  if e.isSome || (Card.of j.card).total ≤ i then s.modCore j.core (·.footRead j.foot) else s

section

variable {s : State} {id : Nat} {j : Job}

/-- A job goes on with its delivery: it moves no pages, has not failed, is held by nothing and has elements left. -/
def State.delivers (s : State) (j : Job) : Prop :=
  (Card.of j.card).kind ≠ 7 ∧ j.status = none ∧ s.jobReady j = true ∧ j.done < (Card.of j.card).total

theorem delivers_iff :
    ¬(j.status.isSome || (Card.of j.card).kind = 7 || !s.jobReady j || (Card.of j.card).total ≤ j.done) = true ↔
      s.delivers j := by
  unfold State.delivers
  simp only [Bool.or_eq_true, Option.isSome_iff_ne_none, decide_eq_true_eq, Bool.not_eq_true', not_or, not_not,
    Bool.not_eq_false, Nat.not_le]
  tauto

theorem copyJobDelivery_of_idle (found : s.jobs.get? id = some j) (idle : ¬s.delivers j) (n : Nat) :
    exec (.copyJobDelivery id n) s = .next s := by
  rw [exec_copyJobDelivery, execCopyJobDelivery, found]
  exact congrArg _ (if_pos (not_not.1 fun runs => idle (delivers_iff.1 runs)))

theorem copyJobDelivery_of_delivers (found : s.jobs.get? id = some j) (goes : s.delivers j) (n : Nat) :
    let r := s.deliverMany j (Card.of j.card) n j.done
    exec (.copyJobDelivery id n) s = .next (r.1.afterDelivery id j r.2.1 r.2.2) := by
  rw [exec_copyJobDelivery, execCopyJobDelivery, found]
  exact congrArg _ (if_neg (delivers_iff.2 goes))

end

theorem countDelivered_work (s : State) (j : Job) (i : Nat) : (s.countDelivered j i).work = s.work := by
  unfold State.countDelivered
  dsimp only
  split
  · exact countJob_work ..
  · rfl

theorem countDelivered_same (s : State) (j : Job) : s.countDelivered j j.done = s := by
  simp [State.countDelivered]

/-- A byte of an object on which a job counts. -/
def Job.inObjects (j : Job) (q : Place) (x : Nat) : Prop :=
  let c := Card.of j.card
  c.sb = true ∧ q = .pad ∧ ∃ n ∈ c.barCores j.core, 2 ^ 19 * n + c.barOff ≤ x ∧ x < 2 ^ 19 * n + c.barOff + 8

theorem countDelivered_byte (s : State) (j : Job) (i : Nat) {q : Place} {x : Nat} (h : ¬j.inObjects q x) :
    (s.countDelivered j i).byte q x = s.byte q x := by
  unfold State.countDelivered
  dsimp only
  split
  next counts =>
    have sb : (Card.of j.card).sb = true := by
      rw [Bool.and_eq_true] at counts
      exact counts.1
    exact countJob_byte_other _ _ _ _ _ fun core hc hx => h ⟨sb, hx.1, core, hc, hx.2⟩
  · rfl

/-- What a turn of delivery leaves: its changes to the job, the objects and the footprint reach nothing else. -/
theorem afterDelivery_leaves {α : Type} (part : State → α) (cores : ∀ (u : State) m, part { u with cores := m } = part u)
    (s : State) (id : Nat) (j : Job) (i : Nat) (e : Option (Nat × Nat)) :
    part (s.afterDelivery id j i e) = part ((s.putJob id (j.delivered i e)).countDelivered j i) := by
  unfold State.afterDelivery
  generalize (s.putJob id (j.delivered i e)).countDelivered j i = u
  dsimp only
  split
  · exact cores ..
  · rfl

theorem putJob_byte (s : State) (id : Nat) (j : Job) (q : Place) (x : Nat) : (s.putJob id j).byte q x = s.byte q x := by
  cases q <;> rfl

section

variable (s : State) (id : Nat) (j : Job) (i : Nat) (e : Option (Nat × Nat))

theorem afterDelivery_groups : (s.afterDelivery id j i e).groups = s.groups := by
  rw [afterDelivery_leaves State.groups (fun _ _ => rfl), groups_of_work (countDelivered_work ..)]
  rfl

theorem afterDelivery_job : (s.afterDelivery id j i e).jobs.get? id = some (j.delivered i e) := by
  rw [afterDelivery_leaves State.jobs (fun _ _ => rfl), jobs_of_work (countDelivered_work ..)]
  exact Tbl.get?_put_same ..

theorem afterDelivery_byte {q : Place} {x : Nat} (h : ¬j.inObjects q x) :
    (s.afterDelivery id j i e).byte q x = s.byte q x := by
  rw [afterDelivery_leaves (fun u => u.byte q x) (fun _ _ => by cases q <;> rfl), countDelivered_byte _ _ _ h, putJob_byte]

theorem afterDelivery_byte_of_none (q : Place) (x : Nat) : (s.afterDelivery id j j.done e).byte q x = s.byte q x := by
  rw [afterDelivery_leaves (fun u => u.byte q x) (fun _ _ => by cases q <;> rfl), countDelivered_same, putJob_byte]

theorem barObj_congr {s t : State} {core off : Nat} (h : ∀ x, inObject core off .pad x → t.byte .pad x = s.byte .pad x) :
    t.barObj core off = s.barObj core off :=
  congrArg (fun b => BarObj.of (ofBytes b)) (bytes_congr fun x low high => h x ⟨rfl, low, high⟩)

theorem afterDelivery_barObj (sb : (Card.of j.card).sb = true) (kind : (Card.of j.card).kind ≠ 6) :
    let c := Card.of j.card
    (s.afterDelivery id j (j.done + 1) e).barObj j.core c.barOff =
      { s.barObj j.core c.barOff with
        bytes := ((s.barObj j.core c.barOff).bytes + 2 ^ 38 - c.e % 2 ^ 38) % 2 ^ 38 } := by
  intro c
  have own : (Card.of j.card).barCores j.core = [j.core] := if_neg kind
  have put : (s.putJob id (j.delivered (j.done + 1) e)).barObj j.core c.barOff = s.barObj j.core c.barOff :=
    barObj_congr fun x _ => putJob_byte ..
  have after (x : Nat) := afterDelivery_leaves (fun u => u.byte .pad x) (fun _ _ => rfl) s id j (j.done + 1) e
  rw [barObj_congr fun x _ => after x]
  unfold State.countDelivered
  rw [if_pos (by simp [sb]), own, Nat.add_sub_cancel_left, Nat.one_mul]
  rw [countJob_barObj, put]

end

/-! ## One element delivered, and one that fails -/

section

variable {s t : State} {id : Nat} {j : Job}

theorem copyJobDelivery_one (found : s.jobs.get? id = some j) (goes : s.delivers j) {e : Option (Nat × Nat)}
    (elem : s.deliverElem j (Card.of j.card) j.done = (t, e)) :
    exec (.copyJobDelivery id 1) s = .next (t.afterDelivery id j (if e = none then j.done + 1 else j.done) e) := by
  have ⟨_, _, _, left⟩ := goes
  rw [copyJobDelivery_of_delivers found goes, deliverMany_one left elem]

/-- An element that fails ends its job, and changes no byte (11 R271). -/
theorem copyJobDelivery_fails (found : s.jobs.get? id = some j) (goes : s.delivers j) {st a : Nat}
    (elem : s.deliverElem j (Card.of j.card) j.done = (t, some (st, a))) (bytes : ∀ q x, t.byte q x = s.byte q x) :
    let c := Card.of j.card
    ∃ u, exec (.copyJobDelivery id 1) s = .next u ∧ u.groups = s.groups ∧
      u.jobs.get? id = some { j with
        counted := if c.sb then j.done * c.e else 0, status := some st, detail := BitVec.ofNat 64 a } ∧
      ∀ q x, u.byte q x = s.byte q x := by
  have run := copyJobDelivery_one found goes elem
  rw [if_neg (by simp)] at run
  have groups : t.groups = s.groups := by
    have kept := deliverElem_groups s j (Card.of j.card) j.done
    rw [elem] at kept
    exact kept
  exact ⟨_, run, (afterDelivery_groups ..).trans groups, afterDelivery_job ..,
    fun q x => (afterDelivery_byte_of_none ..).trans (bytes q x)⟩

/-- An element delivered stands at each of its places; its bytes are counted on the objects, and no other byte changes. -/
theorem copyJobDelivery_stores (found : s.jobs.get? id = some j) (goes : s.delivers j)
    (elem : s.deliverElem j (Card.of j.card) j.done = (t, none)) {ds : List (Place × Nat)} {b : List Byte}
    (stored : StoredAt s t ds b)
    (apart : ∀ q x, (∃ d ∈ ds, q = d.1 ∧ d.2 ≤ x ∧ x < d.2 + b.length) → ¬j.inObjects q x) :
    let c := Card.of j.card
    ∃ u, exec (.copyJobDelivery id 1) s = .next u ∧ u.jobs.get? id = some (j.delivered (j.done + 1) none) ∧
      (∀ d ∈ ds, ∀ x < b.length, u.byte d.1 (d.2 + x) = b.getD x 0) ∧
      (∀ q x, ¬(∃ d ∈ ds, q = d.1 ∧ d.2 ≤ x ∧ x < d.2 + b.length) → ¬j.inObjects q x → u.byte q x = s.byte q x) ∧
      (c.sb = true → c.kind ≠ 6 →
        u.barObj j.core c.barOff = { s.barObj j.core c.barOff with
          bytes := ((s.barObj j.core c.barOff).bytes + 2 ^ 38 - c.e % 2 ^ 38) % 2 ^ 38 }) := by
  intro c
  have run := copyJobDelivery_one found goes elem
  rw [if_pos rfl] at run
  refine ⟨_, run, afterDelivery_job .., fun d hd x hx => ?_, fun q x out free => ?_,
    fun sb kind => ?_⟩
  · rw [afterDelivery_byte _ _ _ _ _ (apart d.1 (d.2 + x) ⟨d, hd, rfl, by omega, by omega⟩)]
    exact stored.inside d hd x hx
  · rw [afterDelivery_byte _ _ _ _ _ free]
    exact stored.outside q x out
  · have own : j.core ∈ c.barCores j.core := by
      rw [Card.barCores, if_neg kind]
      exact List.mem_singleton_self _
    have kept : t.barObj j.core c.barOff = s.barObj j.core c.barOff := barObj_congr fun x hx =>
      stored.outside .pad x fun within => apart .pad x within ⟨sb, rfl, j.core, own, hx.2⟩
    exact (afterDelivery_barObj t id j none sb kind).trans (by rw [kept])

end

/-! ## The end of a job -/

theorem fullCount_eq (s : State) (c : Card) : ∃ n i, s.fullCount c = (n, { s with freeCount := i }) := by
  unfold State.fullCount State.freeIdx
  split
  · exact ⟨_, s.freeCount, rfl⟩
  · exact ⟨_, _, rfl⟩

/-- What the last barrier updates of a job leave. -/
theorem endBarrier_leaves {α : Type} (part : State → α) (free : ∀ (u : State) i, part { u with freeCount := i } = part u)
    (count : ∀ (u : State) cores off n err, part (u.countJob cores off n err) = part u) (s : State) (j : Job) (c : Card) :
    part (s.endBarrier j c) = part s := by
  obtain ⟨n, i, e⟩ := fullCount_eq s c
  unfold State.endBarrier
  dsimp only
  split
  · rw [e]
    exact (count ..).trans (free ..)
  · rfl

theorem endBarrier_work (s : State) (j : Job) (c : Card) : (s.endBarrier j c).work = s.work :=
  endBarrier_leaves State.work (fun _ _ => rfl) (fun _ _ _ _ _ => countJob_work ..) s j c

theorem endBarrier_mem (s : State) (j : Job) (c : Card) : (s.endBarrier j c).mem = s.mem :=
  endBarrier_leaves State.mem (fun _ _ => rfl) (fun _ _ _ _ _ => countJob_mem ..) s j c

/-- A completed job whose pages are not abandoned, or that counts on no object, has no barrier updates left. -/
theorem endBarrier_of_complete {s : State} {j : Job} {c : Card} (status : j.status.getD 0 = 0)
    (counted : c.kind ≠ 7 ∨ c.sb = false) : s.endBarrier j c = s := by
  unfold State.endBarrier
  rcases counted with kind | sb
  · simp [status, kind]
  · simp [sb]

/-- The record of job `k` has been taken: it is held, or the job is over (02 R53; 11 R272). -/
structure RecordTaken (s : State) (k : Nat) (b : Job) (t : State) : Prop where
  groups : t.groups = s.groups
  mem : t.mem = s.mem
  job : (t.jobs.get? k = some b ∧ ∃ h ∈ t.heldRecords, h.2.job = some k) ∨ t.jobs.get? k = some { b with recorded := true }

section

variable {s u : State} {h : HeldRecord} {k : Nat} {b : Job}

/-- A change that the record of a job takes on its way leaves the groups, the memory and the jobs. -/
structure RecordMoves (s u : State) : Prop where
  groups : u.groups = s.groups
  mem : u.mem = s.mem
  jobs : u.jobs = s.jobs

theorem RecordMoves.putJob (moves : RecordMoves s u) (k : Nat) (b : Job) : RecordMoves (s.putJob k b) (u.putJob k b) :=
  ⟨moves.groups, moves.mem, congrArg (fun m : Tbl Job => m.put k b) moves.jobs⟩

theorem RecordMoves.held (moves : RecordMoves s u) (found : s.jobs.get? k = some b) {n : Nat} (of : h.job = some k) :
    RecordTaken s k b { u with heldRecords := u.heldRecords.put n h } where
  groups := moves.groups
  mem := moves.mem
  job := .inl ⟨(congrArg (Tbl.get? · k) moves.jobs).trans found, (n, h), Tbl.mem_of_get? (Tbl.get?_put_same ..), of⟩

/-- A job whose record is written is over (11 R272). -/
theorem RecordMoves.recordDone (moves : RecordMoves s u) (found : s.jobs.get? k = some b) (of : h.job = some k)
    (alone : h.grid = none) :
    (u.recordDone h).groups = s.groups ∧ (u.recordDone h).mem = s.mem ∧
      (u.recordDone h).jobs.get? k = some { b with recorded := true } := by
  have listed : u.jobs.get? k = some b := (congrArg (Tbl.get? · k) moves.jobs).trans found
  have ends : (u.putJob k { b with recorded := true }).jobs.get? k = some { b with recorded := true } := Tbl.get?_put_same ..
  unfold State.recordDone
  simp only [alone, of, listed]
  split
  · obtain ⟨fns, sent, e⟩ := notified_event (u.putJob k { b with recorded := true }) b.ck 0x13 0x0E 0 b.rid b.done b.detail.toNat
    exact e ▸ ⟨moves.groups, moves.mem, ends⟩
  · exact ⟨moves.groups, moves.mem, ends⟩

theorem RecordMoves.done (moves : RecordMoves s u) (found : s.jobs.get? k = some b) (of : h.job = some k)
    (alone : h.grid = none) : RecordTaken s k b (u.recordDone h) :=
  have ⟨groups, mem, job⟩ := moves.recordDone found of alone
  ⟨groups, mem, .inr job⟩

theorem RecordMoves.moveRecord (moves : RecordMoves s u) (found : s.jobs.get? k = some b) (of : h.job = some k)
    (alone : h.grid = none) (n : Nat) (bytes : List Byte) (detail : Nat) :
    RecordTaken s k b (u.moveRecord n h bytes detail) := by
  obtain ⟨fns, sent, e⟩ := notified_redirect u h.ck bytes h.id detail n
  unfold State.moveRecord
  rw [e]
  dsimp only
  split
  · exact RecordMoves.held (u := { u with fns := fns, sent := sent }) ⟨moves.groups, moves.mem, moves.jobs⟩ found of
  · rw [alone]
    exact RecordMoves.done (u := { u with fns := fns, sent := sent, heldRecords := _ })
      ⟨moves.groups, moves.mem, moves.jobs⟩ found of alone

end

/-! ## A ring in a scratchpad -/

/-- The address of a ring in the scratchpad of a core. -/
def ringAt (core ring : Nat) : Nat := 2 ^ 19 * core + ring

/-- The write index of a ring in a scratchpad (02 R53). -/
def State.ringW (s : State) (core ring : Nat) : Nat := s.load .pad (ringAt core ring) 4

/-- A ring in a scratchpad holds 2^ENTS records (02 R53). -/
def State.ringEnts (s : State) (core ring : Nat) : Nat := s.load .pad (ringAt core ring + 8) 1

/-- Every record of a ring is yet to be read. -/
def State.ringFull (s : State) (core ring : Nat) : Prop :=
  (s.ringW core ring + 2 ^ 32 - s.load .pad (ringAt core ring + 4) 4) % 2 ^ 32 = 2 ^ s.ringEnts core ring

/-- The header of a ring in a scratchpad can be read, and is legal (02 R53). -/
structure State.RingLegal (s : State) (core ring : Nat) : Prop where
  clean : s.poisoned .pad (ringAt core ring) 32 = false
  low : 1 ≤ s.ringEnts core ring
  high : s.ringEnts core ring ≤ 12
  reserved : ∀ i < 23, s.byte .pad (ringAt core ring + 9 + i) = 0

/-- The offset of the slot of the write index. -/
def State.ringSlot (s : State) (core ring : Nat) : Nat := ring + 32 + 32 * (s.ringW core ring % 2 ^ s.ringEnts core ring)

/-- The state with a record in the slot of the write index, which rises by one. -/
def State.ringPush (s : State) (core ring : Nat) (r : List Byte) : State :=
  (s.write .pad (placeList (ringAt core (s.ringSlot core ring)) (withPhase r (s.ringW core ring) (s.ringEnts core ring)))).write .pad
    (placeList (ringAt core ring) (bytesOf (s.ringW core ring + 1) 4))

section

variable {s : State} {ck core ring lo hi : Nat} {r : List Byte}

/-- A record for a legal ring in a scratchpad: it is held while the ring is full, and written to its slot within the bounds. -/
theorem ringWrite_of_legal (legal : s.RingLegal core ring) (inside : lo ≤ s.ringSlot core ring ∧ s.ringSlot core ring + 32 ≤ hi) :
    s.ringWrite ck (some core) ring lo hi r =
      if (s.ringW core ring + 2 ^ 32 - s.load .pad (ringAt core ring + 4) 4) % 2 ^ 32 = 2 ^ s.ringEnts core ring then (s, .full)
      else (s.ringPush core ring (stamped r (s.ctx ck).ctime), .written (s.ringSlot core ring)) := by
  obtain ⟨clean, low, high, reserved⟩ := legal
  have field (i n : Nat) (h : i + n ≤ 32) :
      ofBytes (((s.bytes .pad (ringAt core ring) 32).drop i).take n) = s.load .pad (ringAt core ring + i) n :=
    congrArg ofBytes (take_drop_bytes s .pad _ h)
  have w : ofBytes (((s.bytes .pad (ringAt core ring) 32).drop 0).take 4) = s.ringW core ring := field 0 4 (by omega)
  have ents : ofBytes (((s.bytes .pad (ringAt core ring) 32).drop 8).take 1) = s.ringEnts core ring := field 8 1 (by omega)
  have zero : ofBytes (((s.bytes .pad (ringAt core ring) 32).drop 9).take 23) = 0 :=
    (field 9 23 (by omega)).trans (load_of_bytes (v := 0) fun i hi => by
      rw [reserved i hi, Nat.zero_div]
      rfl)
  have read : s.ringRead ck (some core) ring = (s, .ok (s.bytes .pad (ringAt core ring) 32)) := by
    unfold State.ringRead
    exact congrArg (Prod.mk s) (if_neg (by rw [← ringAt, clean]; exact Bool.false_ne_true))
  unfold State.ringWrite
  rw [read]
  simp only [w, ents, zero, field 4 4 (by omega)]
  rw [if_neg (by simp), if_neg (by simp; omega)]
  refine if_congr Iff.rfl rfl (if_neg ?_)
  unfold State.ringSlot at inside
  simp [inside]

end

/-- A record for a ring in a scratchpad changes nothing in global memory. -/
theorem ringWrite_mem (s : State) (ck core ring lo hi : Nat) (r : List Byte) :
    (s.ringWrite ck (some core) ring lo hi r).1.mem = s.mem :=
  ringWrite_leaves (core := some core) State.mem (fun _ _ => rfl) (fun _ _ _ => write_pad_mem ..) s ring lo hi r

section

variable {s u : State} {h : HeldRecord} {k : Nat} {b : Job}

theorem RecordMoves.tryRecord (moves : RecordMoves s u) (found : s.jobs.get? k = some b) (of : h.job = some k)
    (alone : h.grid = none) {core : Nat} (inCore : h.inCore = some core) (n : Nat) :
    RecordTaken s k b (u.tryRecord n h) := by
  unfold State.tryRecord
  split
  next lo hi _ =>
    have work := ringWrite_work u h.ck (some core) h.ring lo hi h.bytes
    have mem := ringWrite_mem u h.ck core h.ring lo hi h.bytes
    rw [inCore]
    have tried (v : State) (a : RingAnswer) (e : u.ringWrite h.ck (some core) h.ring lo hi h.bytes = (v, a)) :
        RecordMoves s v := by
      rw [e] at work mem
      exact ⟨(groups_of_work work).trans moves.groups, mem.trans moves.mem, (jobs_of_work work).trans moves.jobs⟩
    split
    next v e => exact (tried v _ e).held found of
    next v bytes detail e => exact (tried v _ e).moveRecord found of alone n bytes detail
    next v slot e =>
      have noted : ({ v with heldRecords := v.heldRecords.del n } : State).recordNote h slot =
          { v with heldRecords := v.heldRecords.del n } := by
        unfold State.recordNote
        rw [alone]
      rw [noted]
      have ⟨groups, mem, jobs⟩ := tried v _ e
      exact RecordMoves.done (u := { v with heldRecords := v.heldRecords.del n }) ⟨groups, mem, jobs⟩ found of alone

theorem RecordMoves.putRecord (moves : RecordMoves s u) (found : s.jobs.get? k = some b) (of : h.job = some k)
    (alone : h.grid = none) {core : Nat} (inCore : h.inCore = some core) : RecordTaken s k b (u.putRecord h) := by
  have counted : RecordMoves s u.fresh.2 := ⟨moves.groups, moves.mem, moves.jobs⟩
  unfold State.putRecord
  dsimp only
  split
  · exact counted.held found of
  · exact counted.tryRecord found of alone inCore _

end

/-- The record of a job (02 R53, R54). -/
def State.recordOf (s : State) (id : Nat) (j : Job) : HeldRecord :=
  { inCore := some j.core, ck := j.ck, ring := (Card.of j.card).ringOff, bytes := s.jobRecord j (j.status.getD 0)
    job := some id, grid := none, team := some j.team, id := j.rid }

section

variable {s : State} {id : Nat} {j : Job}

theorem copyJobFinish_of_busy (found : s.jobs.get? id = some j) (busy : s.jobDone j = false) :
    exec (.copyJobFinish id) s = .next s := by
  rw [exec_copyJobFinish, execCopyJobFinish, found]
  simp only [busy, Bool.false_eq_true, if_false]

theorem copyJobFinish_of_done (found : s.jobs.get? id = some j) (done : s.jobDone j = true) :
    exec (.copyJobFinish id) s = .next (
      if ((Card.of j.card).cr || j.status.getD 0 ≠ 0) = true then
        ((s.endBarrier j (Card.of j.card)).putJob id { j with waiting := true }).putRecord (s.recordOf id j)
      else (s.endBarrier j (Card.of j.card)).recordDone (s.recordOf id j)) := by
  rw [exec_copyJobFinish, execCopyJobFinish, found]
  simp only [done, if_true, State.finishJob, found]
  rfl

theorem endBarrier_moves (s : State) (j : Job) : RecordMoves s (s.endBarrier j (Card.of j.card)) :=
  have work := endBarrier_work s j (Card.of j.card)
  ⟨groups_of_work work, endBarrier_mem .., jobs_of_work work⟩

/-- A job with no record to write is over at once (11 R272). -/
theorem copyJobFinish_silent (found : s.jobs.get? id = some j) (done : s.jobDone j = true)
    (cr : (Card.of j.card).cr = false) (status : j.status.getD 0 = 0)
    (counted : (Card.of j.card).kind ≠ 7 ∨ (Card.of j.card).sb = false) :
    exec (.copyJobFinish id) s = .next { s with jobs := s.jobs.put id { j with recorded := true } } := by
  have kept : j.status ≠ some 0x0E := fun abandoned => by rw [abandoned] at status; cases status
  rw [copyJobFinish_of_done found done, if_neg (by simp [cr, status]), endBarrier_of_complete status counted]
  refine congrArg _ ?_
  unfold State.recordDone State.recordOf
  simp only [found, if_neg kept]

/-- A job that ends is over once its record is written; while its record is held it waits (02 R53; 11 R272). -/
theorem copyJobFinish_ends (found : s.jobs.get? id = some j) (done : s.jobDone j = true) :
    ∃ t j', exec (.copyJobFinish id) s = .next t ∧ t.groups = s.groups ∧ t.mem = s.mem ∧ t.jobs.get? id = some j' ∧
      j' = { j with waiting := j'.waiting, recorded := j'.recorded } ∧
      (j'.recorded = false → ((Card.of j.card).cr = true ∨ j.status.getD 0 ≠ 0) ∧ j'.waiting = true ∧
        ∃ h ∈ t.heldRecords, h.2.job = some id) := by
  have run := copyJobFinish_of_done found done
  have moves := endBarrier_moves s j
  by_cases asks : ((Card.of j.card).cr || j.status.getD 0 ≠ 0) = true
  · rw [if_pos asks] at run
    have waits : (s.putJob id { j with waiting := true }).jobs.get? id = some { j with waiting := true } := Tbl.get?_put_same ..
    obtain ⟨groups, mem, job⟩ := (moves.putJob id { j with waiting := true }).putRecord (h := s.recordOf id j) waits rfl rfl rfl
    rcases job with ⟨job, held⟩ | job
    · exact ⟨_, _, run, groups, mem, job, rfl, fun _ => ⟨by simpa using asks, rfl, held⟩⟩
    · exact ⟨_, _, run, groups, mem, job, rfl, fun stays => by cases stays⟩
  · rw [if_neg asks] at run
    obtain ⟨groups, mem, job⟩ := moves.recordDone (h := s.recordOf id j) found rfl rfl
    exact ⟨_, _, run, groups, mem, job, rfl, fun stays => by cases stays⟩

end

/-! ## Jobs that are over -/

theorem foldl_foots (l : Tbl Job) (s : State) (core foot : Nat)
    (h : (∃ e ∈ l, e.2.core = core ∧ e.2.foot = foot) ∨ (s.core core).foots.get? foot = none) :
    ((l.foldl (fun s e => s.modCore e.2.core fun c => { c with foots := c.foots.del e.2.foot }) s).core core).foots.get? foot =
      none := by
  induction l generalizing s with
  | nil => exact h.resolve_left (by simp)
  | cons e l ih =>
    refine ih _ ?_
    rw [modCore_core]
    by_cases own : e.2.core = core ∧ e.2.foot = foot
    · right
      rw [if_pos own.1, ← own.2]
      exact Tbl.get?_del_same ..
    · refine h.imp (fun ⟨x, mem, hx⟩ => ⟨x, (List.mem_cons.1 mem).resolve_left fun same => own (same ▸ hx), hx⟩) fun gone => ?_
      split
      next same => rw [Tbl.get?_del, same, gone, ite_self]
      · exact gone

/-- A job whose record is written is gone at the end of the clock, and so is its entry of the footprint table (11 R272). -/
theorem sweepJobs_drops {s : State} {id : Nat} {j : Job} (found : s.jobs.get? id = some j) (recorded : j.recorded = true)
    (sorted : s.jobs.sorted = true) :
    s.sweepJobs.jobs.get? id = none ∧ (s.sweepJobs.core j.core).foots.get? j.foot = none := by
  constructor
  · have jobs : s.sweepJobs.jobs = s.jobs.filter fun e => !e.2.recorded := by
      unfold State.sweepJobs
      dsimp only
      rw [foldl_leaves State.jobs fun _ _ => modCore_jobs ..]
    rw [jobs]
    exact Tbl.get?_filter_none sorted found (by simp [recorded])
  · exact foldl_foots _ s _ _ (.inl ⟨(id, j), List.mem_filter.2 ⟨Tbl.mem_of_get? found, recorded⟩, rfl, rfl⟩)

/-! ## Held records -/

section

variable {s : State} {id : Nat} {h : HeldRecord}

theorem recordWrite_of_barred (found : s.heldRecords.get? id = some h) (stays : h.moved = false)
    (barred : s.mayWrite id h = false) : exec (.completionRecordWrite id) s = .next s := by
  rw [exec_completionRecordWrite, execCompletionRecordWrite, found]
  simp only [stays, barred, Bool.false_eq_true, Bool.not_false, if_false, if_true]

theorem recordWrite_of_waiting (found : s.heldRecords.get? id = some h) (moved : h.moved = true)
    (waits : s.eventHeld h.ck id = true) : exec (.completionRecordWrite id) s = .next s := by
  rw [exec_completionRecordWrite, execCompletionRecordWrite, found]
  simp only [moved, waits, if_true]

theorem recordWrite_of_written (found : s.heldRecords.get? id = some h) (moved : h.moved = true)
    (written : s.eventHeld h.ck id = false) :
    exec (.completionRecordWrite id) s = .next (State.recordDone { s with heldRecords := s.heldRecords.del id } h) := by
  rw [exec_completionRecordWrite, execCompletionRecordWrite, found]
  simp only [moved, written, if_true, Bool.false_eq_true, if_false]

theorem recordWrite_tries (found : s.heldRecords.get? id = some h) (stays : h.moved = false)
    (may : s.mayWrite id h = true) : exec (.completionRecordWrite id) s = .next (s.tryRecord id h) := by
  rw [exec_completionRecordWrite, execCompletionRecordWrite, found]
  simp only [stays, may, Bool.false_eq_true, Bool.not_true, if_false]

theorem tryRecord_of_full (found : s.heldRecords.get? id = some h) (sorted : s.heldRecords.sorted = true) {core : Nat}
    (inCore : h.inCore = some core) (legal : s.RingLegal core h.ring)
    (inside : (s.ringBounds h.team).1 ≤ s.ringSlot core h.ring ∧ s.ringSlot core h.ring + 32 ≤ (s.ringBounds h.team).2)
    (full : s.ringFull core h.ring) : s.tryRecord id h = s := by
  have answer := (ringWrite_of_legal (ck := h.ck) (r := h.bytes) legal inside).trans (if_pos full)
  unfold State.tryRecord
  dsimp only
  rw [inCore, answer]
  dsimp only
  rw [Tbl.put_get? sorted found]

theorem tryRecord_of_room {core : Nat} (inCore : h.inCore = some core) (legal : s.RingLegal core h.ring)
    (inside : (s.ringBounds h.team).1 ≤ s.ringSlot core h.ring ∧ s.ringSlot core h.ring + 32 ≤ (s.ringBounds h.team).2)
    (room : ¬s.ringFull core h.ring) (job : h.job = none) (grid : h.grid = none) :
    s.tryRecord id h =
      { s.ringPush core h.ring (stamped h.bytes (s.ctx h.ck).ctime) with
        heldRecords := (s.ringPush core h.ring (stamped h.bytes (s.ctx h.ck).ctime)).heldRecords.del id } := by
  have answer := (ringWrite_of_legal (ck := h.ck) (r := h.bytes) legal inside).trans (if_neg room)
  unfold State.tryRecord
  dsimp only
  rw [inCore, answer]
  unfold State.recordDone State.recordNote
  simp only [job, grid]

end

/-- A record in its ring changes the scratchpad alone, with its poison and the release sequences that it ends. -/
theorem ringPush_eq (s : State) (core ring : Nat) (r : List Byte) :
    ∃ scratch poison rels, s.ringPush core ring r = { s with scratch := scratch, scratchPoison := poison, rels := rels } := by
  obtain ⟨_, _, _, e⟩ :=
    write_pad_eq s (placeList (ringAt core (s.ringSlot core ring)) (withPhase r (s.ringW core ring) (s.ringEnts core ring)))
  unfold State.ringPush
  rw [e]
  obtain ⟨scratch, poison, rels, e'⟩ := write_pad_eq _ (placeList (ringAt core ring) (bytesOf (s.ringW core ring + 1) 4))
  exact ⟨scratch, poison, rels, e'⟩

/-- The bytes of a scratchpad once a record stands in its ring: the write index, the slot, and the others as they were. -/
theorem ringPush_byte {r : List Byte} (length : r.length = 32) (s : State) (core ring x : Nat) :
    (s.ringPush core ring r).byte .pad x =
      if ringAt core ring ≤ x ∧ x < ringAt core ring + 4 then (bytesOf (s.ringW core ring + 1) 4).getD (x - ringAt core ring) 0
      else if ringAt core (s.ringSlot core ring) ≤ x ∧ x < ringAt core (s.ringSlot core ring) + 32 then
        (withPhase r (s.ringW core ring) (s.ringEnts core ring)).getD (x - ringAt core (s.ringSlot core ring)) 0
      else s.byte .pad x := by
  unfold State.ringPush
  rw [write_placeList_byte, write_placeList_byte, bytesOf_length, withPhase_length, length]
  simp only [true_and]

section

variable {r : List Byte} (length : r.length = 32) (s : State) (core ring : Nat)

include length

/-- The write index of a ring rises by one with each record (02 R53). -/
theorem ringPush_index : (s.ringPush core ring r).load .pad (ringAt core ring) 4 = (s.ringW core ring + 1) % 2 ^ 32 :=
  load_of_bytes fun i hi => by
    rw [ringPush_byte length, if_pos (by omega), Nat.add_sub_cancel_left, bytesOf_getD _ _ _ hi]

/-- The record stands in its slot with its PHASE (02 R53, R54). -/
theorem ringPush_slot {i : Nat} (hi : i < 32) :
    (s.ringPush core ring r).byte .pad (ringAt core (s.ringSlot core ring) + i) =
      if i = 2 then r.getD 2 0 ||| BitVec.ofNat 8 (1 - s.ringW core ring / 2 ^ s.ringEnts core ring % 2) else r.getD i 0 := by
  have above : ringAt core ring + 32 ≤ ringAt core (s.ringSlot core ring) := by
    unfold ringAt State.ringSlot
    omega
  rw [ringPush_byte length, if_neg (by omega), if_pos (by omega), Nat.add_sub_cancel_left, withPhase_getD (by omega)]

theorem ringPush_elsewhere {x : Nat} (index : ¬(ringAt core ring ≤ x ∧ x < ringAt core ring + 4))
    (slot : ¬(ringAt core (s.ringSlot core ring) ≤ x ∧ x < ringAt core (s.ringSlot core ring) + 32)) :
    (s.ringPush core ring r).byte .pad x = s.byte .pad x := by
  rw [ringPush_byte length, if_neg index, if_neg slot]

end

/-- A held record whose ring has room: its 32 bytes, with the time of the writing and the phase of their turn, reach the slot of
the write index, which rises by one (02 R53, R54). -/
theorem tryRecord_pushes {s : State} {id : Nat} {h : HeldRecord} {core : Nat} (inCore : h.inCore = some core)
    (legal : s.RingLegal core h.ring)
    (inside : (s.ringBounds h.team).1 ≤ s.ringSlot core h.ring ∧ s.ringSlot core h.ring + 32 ≤ (s.ringBounds h.team).2)
    (room : ¬s.ringFull core h.ring) (job : h.job = none) (grid : h.grid = none) (length : h.bytes.length = 32) :
    ∃ t, s.tryRecord id h = t ∧
      t = { s with heldRecords := s.heldRecords.del id, scratch := t.scratch, scratchPoison := t.scratchPoison, rels := t.rels } ∧
      t.load .pad (ringAt core h.ring) 4 = (s.ringW core h.ring + 1) % 2 ^ 32 ∧
      (∀ i < 32, t.byte .pad (ringAt core (s.ringSlot core h.ring) + i) =
        if i = 2 then h.bytes.getD 2 0 ||| BitVec.ofNat 8 (1 - s.ringW core h.ring / 2 ^ s.ringEnts core h.ring % 2)
        else if 8 ≤ i ∧ i < 16 then BitVec.ofNat 8 ((s.ctx h.ck).ctime.toNat / 256 ^ (i - 8)) else h.bytes.getD i 0) ∧
      ∀ a, ¬(ringAt core h.ring ≤ a ∧ a < ringAt core h.ring + 4) →
        ¬(ringAt core (s.ringSlot core h.ring) ≤ a ∧ a < ringAt core (s.ringSlot core h.ring) + 32) →
        t.byte .pad a = s.byte .pad a := by
  have stampedLength : (stamped h.bytes (s.ctx h.ck).ctime).length = 32 := by rw [stamped_length (by omega), length]
  have run := tryRecord_of_room (id := id) inCore legal inside room job grid
  have index := ringPush_index stampedLength s core h.ring
  have slot (i : Nat) (hi : i < 32) := ringPush_slot stampedLength s core h.ring hi
  have elsewhere (a : Nat) := ringPush_elsewhere stampedLength s core h.ring (x := a)
  simp only [stamped_getD (show 16 ≤ h.bytes.length by omega), show ¬(8 ≤ 2 ∧ 2 < 16) by omega, if_false] at slot
  obtain ⟨scratch, poison, rels, pushed⟩ := ringPush_eq s core h.ring (stamped h.bytes (s.ctx h.ck).ctime)
  rw [pushed] at run index slot elsewhere
  refine ⟨_, run, rfl, ?_, slot, elsewhere⟩
  rw [← index]
  exact congrArg ofBytes (bytes_congr fun _ _ _ => rfl)

/-! ## Jobs and held records -/

/-- Settles O31: one element is read and stored as `copyJobDelivery_stores` and `copyJobDelivery_fails` say, several one by one
(`deliverMany_spec`); a job ends with its record, and a held record is pushed onto its ring. -/
theorem jobsAndHeldRecordsEnd : Obligations.JobsAndHeldRecordsEnd := by
  refine ⟨fun id s j found => ?_, fun id s h found => ?_⟩
  · intro c i at' pad list idx sa da listed ready fails known
    have elem (h : listed) : s.jobElem j.core c i = .ok (sa, da) := jobElem_of_listed h
    refine ⟨copyJobDelivery_of_idle found, fun goes n => ?_, fun goes lists b reads ds lands => ?_,
      fun goes lists poisoned => ?_, fun goes lists clean outside => ?_, fun goes lists global => ⟨?_, ?_, ?_⟩,
      fun goes lists local' known poisoned => ?_, copyJobFinish_of_busy found, fun done => ⟨copyJobFinish_silent found done,
        copyJobFinish_ends found done⟩, fun recorded sorted => sweepJobs_drops found recorded sorted⟩
    · have ⟨_, _, _, left⟩ := goes
      obtain ⟨groups, low, high, total, all⟩ := deliverMany_spec j c n s left.le
      exact ⟨_, _, copyJobDelivery_of_delivers found goes n, (afterDelivery_groups ..).trans groups, afterDelivery_job .., rfl,
        rfl, low, high, total, fun none => all (Option.map_eq_none_iff.1 none)⟩
    · intro within object apart
      have length : b.length = c.e := ElemReads.length reads
      obtain ⟨t, e, stored⟩ := deliverElem_of_read (elem lists) reads lands length
      have stores := copyJobDelivery_stores found goes e stored (length ▸ apart)
      rw [length] at stores
      exact stores
    · exact copyJobDelivery_fails found goes (deliverElem_of_error ((jobElem_of_list lists).trans (if_pos poisoned)))
        fun _ _ => rfl
    · refine copyJobDelivery_fails found goes (deliverElem_of_error ((jobElem_of_list lists).trans ?_)) fun _ _ => rfl
      exact (if_neg (by rw [clean]; exact Bool.false_ne_true)).trans (if_pos outside)
    · intro cls cause bad
      obtain ⟨t, touched, e⟩ := engineRead_of_fault (n := c.e) bad
      exact copyJobDelivery_fails found goes (deliverElem_of_unread (elem lists) (global ▸ e)) touched.byte
    · intro bad
      obtain ⟨t, touched, e⟩ := engineRead_of_poison (n := c.e) bad
      exact copyJobDelivery_fails found goes (deliverElem_of_unread (elem lists) (global ▸ e)) touched.byte
    · intro pa leaf ok known poisoned
      obtain ⟨t, touched, e⟩ := engineRead_of_ok ok known
      rw [poisoned] at e
      exact copyJobDelivery_fails found goes (deliverElem_of_unread (elem lists) (global ▸ e)) touched.byte
    · have e := engineRead_of_local local' known
      rw [poisoned] at e
      exact copyJobDelivery_fails found goes (deliverElem_of_unread (elem lists) e) fun _ _ => rfl
  · refine ⟨recordWrite_of_barred found, recordWrite_of_waiting found, recordWrite_of_written found, ?_⟩
    intro core stays sorted may inCore job grid length at' w r ents slot bounds clean low high reserved first last
    have legal : s.RingLegal core h.ring := ⟨clean, low, high, reserved⟩
    have tries := recordWrite_tries found stays may
    refine ⟨fun full => ?_, fun room => ?_⟩
    · rw [tries, tryRecord_of_full found sorted inCore legal ⟨first, last⟩ full]
    · have place : slot = ringAt core (s.ringSlot core h.ring) := by
        simp only [slot, at', w, ents, ringAt, State.ringSlot, State.ringW, State.ringEnts]
        omega
      obtain ⟨t, e, pushed⟩ := tryRecord_pushes inCore legal ⟨first, last⟩ room job grid length
      rw [← place] at pushed
      exact ⟨t, tries.trans (congrArg _ e), pushed⟩

end Sys2Proof.Machine
end

section
/-! PROOFS. The state after a cold reset (O58). -/

namespace Sys2Proof.Machine

/-- Right after reset every table is empty, so it is in order. -/
theorem reset_tablesKept : State.reset.tablesKept := by
  have sorted {β : Type} : Tbl.sorted ([] : Tbl β) = true := rfl
  exact ⟨sorted, sorted, sorted, List.forall_mem_nil _, List.forall_mem_nil _, List.forall_mem_nil _, List.forall_mem_nil _,
    ⟨sorted, sorted, sorted⟩, sorted, sorted, sorted, sorted, sorted⟩

/-- After a cold reset function 0 alone is enabled (23 R474). -/
theorem reset_fn_enabled (n : Nat) : (State.reset.fn n).enabled = decide (n = 0) := by
  cases n <;> rfl

/-- Settles O58: the reset state lists nothing but function 0, so every register reads as its default. -/
theorem resetState : Obligations.ResetState :=
  ⟨rfl, rfl, rfl, rfl, reset_fn_enabled, fun _ => rfl, fun _ => rfl, rfl, fun _ => rfl, fun _ => rfl, fun _ => rfl, rfl, rfl,
    rfl, rfl, rfl, rfl, rfl, fun _ => ⟨rfl, rfl, rfl⟩, rfl, reset_memoriesWf, reset_tablesKept⟩

end Sys2Proof.Machine
end

section
/-! SUPPORT and PROOFS. What a write to each register does, and what a read of each gives (O46). -/

namespace Sys2Proof.Machine

/-! ## Register blocks -/

/-- A condition that does not hold passes the choice on. -/
theorem firstThat_skip {s : State} {b : Bool} {f : Unit → State} {r : List (Bool × (Unit → State))} (h : b = false) :
    firstThat s ((b, f) :: r) = firstThat s r := by
  rw [h]; rfl

/-- A condition that holds makes the choice. -/
theorem firstThat_take {s : State} {b : Bool} {f : Unit → State} {r : List (Bool × (Unit → State))} (h : b = true) :
    firstThat s ((b, f) :: r) = f () := by
  rw [h]; rfl

section

variable (s : State) (fn : Nat) (v : DWord) {c q d i o k p : Nat}

/-! ## Writes of BAR0 -/

theorem bar0Reg_gone {off : Nat} (h : (s.fn fn).enabled = false ∨ 0x20000 ≤ off) : s.bar0Reg fn off v = s := by
  unfold State.bar0Reg
  rcases h with disabled | past
  · rw [disabled]; rfl
  · simp only [past, if_true, ite_self]

theorem bar0Reg_queue (on : (s.fn fn).enabled = true) (hc : c < 16) (hq : q < 64) (ho : o < 64) :
    s.bar0Reg fn (0x10000 + 0x1000 * c + 64 * q + o) v = s.queueReg (64 * (16 * fn + c) + q) o v := by
  unfold State.bar0Reg
  rw [on, if_neg (by decide), if_neg (by omega), if_pos (by omega)]
  congr 1 <;> omega

theorem bar0Reg_mbin (on : (s.fn fn).enabled = true) :
    s.bar0Reg fn 0x008 v = nextOr s (execMbinWrite fn (v.setWidth 32) s) := by
  unfold State.bar0Reg
  rw [on]
  rfl

/-! ## Writes of the function register block -/

theorem fnReg_ctx (hc : c < 16) (ho : o < 32) : s.fnReg fn (32 * c + o) v = s.ctxReg (16 * fn + c) o v := by
  unfold State.fnReg
  extract_lets w ck inside
  rw [firstThat_take (by simp [inside]; omega)]
  simp only [ck]
  congr 1 <;> omega

theorem fnReg_ring (ho : o < 0x14) : s.fnReg fn (0x200 + o) v = s.ringReg fn (0x200 + o) (v.setWidth 32) := by
  unfold State.fnReg
  extract_lets w ck inside
  rw [firstThat_skip, firstThat_take]
  all_goals simp [inside]
  omega

theorem fnReg_grant (hc : c < 16) (hd : d < 8) :
    s.fnReg fn (0x400 + 32 * c + 4 * d) v = nextOr s (execXsGrantWrite (16 * fn + c) d (v.setWidth 32) s) := by
  unfold State.fnReg
  extract_lets w ck inside
  rw [firstThat_skip, firstThat_skip, firstThat_take]
  · simp only [ck]
    congr 2 <;> omega
  all_goals simp [inside]; omega

theorem fnReg_shoot (hc : c < 16) :
    s.fnReg fn (0x800 + 16 * c + 8) v = nextOr s (execShootDownStart (16 * fn + c) (v.setWidth 32) s) := by
  unfold State.fnReg
  extract_lets w ck inside
  rw [firstThat_skip, firstThat_skip, firstThat_skip, firstThat_skip, firstThat_take]
  · simp only [ck]
    congr 2; omega
  all_goals simp [inside]; omega

theorem fnReg_ovchk (hc : c < 16) :
    s.fnReg fn (0x900 + 4 * c) v = nextOr s (execOvchkWrite (16 * fn + c) (v.setWidth 32) s) := by
  unfold State.fnReg
  extract_lets w ck inside
  rw [firstThat_skip, firstThat_skip, firstThat_skip, firstThat_skip, firstThat_skip, firstThat_take]
  · simp only [ck]
    congr 2; omega
  all_goals simp [inside] <;> omega

theorem fnReg_chalt (hc : c < 16) : s.fnReg fn (0xC00 + 4 * c) v = s.chaltReg (16 * fn + c) (v.setWidth 32) := by
  unfold State.fnReg
  extract_lets w ck inside
  rw [firstThat_skip, firstThat_skip, firstThat_skip, firstThat_skip, firstThat_skip, firstThat_skip, firstThat_skip,
    firstThat_take]
  · simp only [ck]
    congr 1; omega
  all_goals simp [inside] <;> omega

theorem fnReg_lmap (hc : c < 16) (hi : i < 4) :
    s.fnReg fn (0xE00 + 32 * c + 8 * i) v = nextOr s (execLmapWrite (16 * fn + c) i v s) := by
  unfold State.fnReg
  extract_lets w ck inside
  rw [firstThat_skip, firstThat_skip, firstThat_skip, firstThat_skip, firstThat_skip, firstThat_skip, firstThat_skip,
    firstThat_skip, firstThat_skip, firstThat_skip, firstThat_take]
  · simp only [ck]
    congr 2 <;> omega
  all_goals simp [inside]; omega

/-! ## Writes of the dispatcher register block -/

theorem dispatcherReg_pgrace : s.dispatcherReg 0x40 v = { s with pgrace := v.setWidth 32 } := rfl

theorem dispatcherReg_die (hp : p < 8) : s.dispatcherReg (0x80 + 4 * p) v = s.diectl p (v.setWidth 32) := by
  unfold State.dispatcherReg
  extract_lets w inside
  rw [firstThat_skip, firstThat_skip, firstThat_take]
  · congr 1; omega
  all_goals simp [inside]; omega

theorem dispatcherReg_pass (hk : k < 16) :
    s.dispatcherReg (0x300 + 16 * k) v = nextOr s (execPassWrite k (v.setWidth 32) s) := by
  unfold State.dispatcherReg
  extract_lets w inside
  rw [firstThat_skip, firstThat_skip, firstThat_skip, firstThat_skip, firstThat_take]
  · congr 2; omega
  all_goals simp [inside] <;> omega

theorem dispatcherReg_swal (hk : k < 16) :
    s.dispatcherReg (0x304 + 16 * k) v = nextOr s (execSwalWrite k (v.setWidth 32) s) := by
  unfold State.dispatcherReg
  extract_lets w inside
  rw [firstThat_skip, firstThat_skip, firstThat_skip, firstThat_skip, firstThat_skip, firstThat_take]
  · congr 2; omega
  all_goals simp [inside] <;> omega

theorem dispatcherReg_slew (hk : k < 16) :
    s.dispatcherReg (0x308 + 16 * k) v = nextOr s (execSlewWrite k (v.setWidth 32) s) := by
  unfold State.dispatcherReg
  extract_lets w inside
  rw [firstThat_skip, firstThat_skip, firstThat_skip, firstThat_skip, firstThat_skip, firstThat_skip, firstThat_take]
  · congr 2; omega
  all_goals simp [inside] <;> omega

/-- PSTAT is read only (23 R483). -/
theorem dispatcherReg_pstat (hk : k < 16) : s.dispatcherReg (0x30C + 16 * k) v = s := by
  unfold State.dispatcherReg
  extract_lets w inside
  rw [firstThat_skip, firstThat_skip, firstThat_skip, firstThat_skip, firstThat_skip, firstThat_skip, firstThat_skip,
    firstThat_skip, firstThat_skip, firstThat_skip]
  · rfl
  all_goals simp [inside] <;> omega

theorem dispatcherReg_dop (hp : p < 8) :
    s.dispatcherReg (0x400 + 4 * p) v = nextOr s (execDopWrite p (v.setWidth 32) s) := by
  unfold State.dispatcherReg
  extract_lets w inside
  rw [firstThat_skip, firstThat_skip, firstThat_skip, firstThat_skip, firstThat_skip, firstThat_skip, firstThat_skip,
    firstThat_take]
  · congr 2; omega
  all_goals simp [inside] <;> omega

/-! ## Writes of BAR2 -/

theorem bar2Reg_lrst (h : bitOf v 1 = true) : s.bar2Reg 0x014 v = s.leaseReset := by
  unfold State.bar2Reg
  rw [h]
  rfl

end

/-! ## Reads -/

theorem readAt_skip {o : Nat} {r : RegAt} {rest : List RegAt} (h : o < r.base ∨ r.base + r.size ≤ o) :
    readAt o (r :: rest) = readAt o rest := by
  rw [readAt, if_neg (by simp; omega)]

/-- A register read from its first byte on. -/
theorem readAt_first {b n o x : Nat} {rest : List RegAt} (hb : b = o) (hn : 0 < n) :
    readAt o (⟨b, n, x⟩ :: rest) = BitVec.ofNat 64 (x % 2 ^ (8 * n)) := by
  subst hb
  rw [readAt, if_pos (by simp; omega), Nat.sub_self, Nat.mul_zero, Nat.pow_zero, Nat.div_one]

theorem readAt_dword {b n o : Nat} {x : DWord} {rest : List RegAt} (hb : b = o) (hn : n = 8) :
    readAt o (⟨b, n, x.toNat⟩ :: rest) = x := by
  rw [readAt_first hb (by omega), hn, Nat.mod_eq_of_lt x.isLt, BitVec.ofNat_toNat, BitVec.setWidth_eq]

theorem readAt_word {b n o : Nat} {x : Word} {rest : List RegAt} (hb : b = o) (hn : n = 4) :
    readAt o (⟨b, n, x.toNat⟩ :: rest) = x.setWidth 64 := by
  rw [readAt_first hb (by omega), hn, Nat.mod_eq_of_lt x.isLt, BitVec.ofNat_toNat]

theorem readAt_flag {b n o : Nat} {x : Bool} {rest : List RegAt} (hb : b = o) (hn : n = 4) :
    readAt o (⟨b, n, flagAt x 0⟩ :: rest) = if x then 1 else 0 := by
  rw [readAt_first hb (by omega), hn]
  cases x <;> rfl

/-- An offset outside a block of registers, or outside a register's place in its stride of the block. -/
theorem readAt_skip_block {base stride n inner size value o : Nat} {rest : List RegAt}
    (h : o < base ∨ base + stride * n ≤ o ∨ o < base + (o - base) / stride * stride + inner ∨
      base + (o - base) / stride * stride + inner + size ≤ o) :
    readAt o (⟨base + (o - base) / stride * stride + inner, if base ≤ o && o < base + stride * n then size else 0, value⟩ :: rest) =
      readAt o rest := by
  refine readAt_skip ?_
  dsimp only
  by_cases inside : base ≤ o ∧ o < base + stride * n
  · rw [if_pos (by simpa using inside)]
    omega
  · rw [if_neg (by simpa using inside)]
    omega

section

variable (s : State) (fn : Nat) {c q d i o n : Nat}

/-! ## Reads of BAR0 -/

theorem readQueue_reserved (qk : Nat) (ho : 0x20 ≤ o) : s.readQueue qk o = 0 := by
  unfold State.readQueue
  iterate 6 rw [readAt_skip (by dsimp only; omega)]
  rfl

theorem readQueue_base (qk : Nat) : s.readQueue qk 0 = (s.queue qk).base := readAt_dword rfl rfl

theorem readQueue_tail (qk : Nat) : s.readQueue qk 0x0C = (s.queue qk).tail.setWidth 64 := by
  unfold State.readQueue
  iterate 2 rw [readAt_skip (by dsimp only; omega)]
  exact readAt_word rfl rfl

theorem readQueue_head (qk : Nat) : s.readQueue qk 0x10 = (s.queue qk).head.setWidth 64 := by
  unfold State.readQueue
  iterate 3 rw [readAt_skip (by dsimp only; omega)]
  exact readAt_word rfl rfl

theorem readQueue_fault (qk : Nat) : s.readQueue qk 0x18 = (s.queue qk).fault := by
  unfold State.readQueue
  iterate 5 rw [readAt_skip (by dsimp only; omega)]
  exact readAt_dword rfl rfl

theorem readBar0_queue (hc : c < 16) (hq : q < 64) (ho : o < 64) :
    s.readBar0 fn (0x10000 + 0x1000 * c + 64 * q + o) = s.readQueue (64 * (16 * fn + c) + q) o := by
  unfold State.readBar0
  rw [if_pos (by simp; omega)]
  congr 1 <;> omega

/-- FID reads as the number of the function (03 R57). -/
theorem readBar0_fid : s.readBar0 fn 0x000 = BitVec.ofNat 64 (fn % 2 ^ 32) := by
  unfold State.readBar0
  rw [if_neg (by decide), readAt_first rfl (by decide)]

theorem readBar0_reserved : s.readBar0 fn 0x004 = 0 := by
  unfold State.readBar0
  rw [if_neg (by decide)]
  iterate 5 rw [readAt_skip (by dsimp only; omega)]
  rfl

theorem readBar0_mbout : s.readBar0 fn 0x00C = if (s.fn fn).mbout then 1 else 0 := by
  unfold State.readBar0
  rw [if_neg (by decide)]
  iterate 2 rw [readAt_skip (by dsimp only; omega)]
  exact readAt_flag rfl rfl

theorem readBar0_hwin (hc : c < 16) : s.readBar0 fn (0x100 + 8 * c) = (s.fn fn).hwin.read 0 c := by
  unfold State.readBar0
  rw [if_neg (by simp; omega)]
  iterate 3 rw [readAt_skip (by dsimp only; omega)]
  rw [readAt_dword (by omega) (by rw [if_pos (by omega)])]
  congr 1
  omega

theorem readBar0_past {off : Nat} (h : 0x20000 ≤ off) : s.readBar0 fn off = 0 := by
  unfold State.readBar0
  rw [if_neg (by simp; omega), if_neg (by omega)]
  iterate 5 rw [readAt_skip (by dsimp only; omega)]
  rfl

/-! ## Reads of the function register block -/

theorem readFn_ptbase (hc : c < 16) : s.readFn fn (32 * c) = (s.ctx (16 * fn + c)).ptbase := by
  unfold State.readFn
  rw [readAt_dword (by omega) (by simp; omega)]
  simp only [show (32 * c - 0) / 32 = c by omega]

theorem readFn_en (hc : c < 16) : s.readFn fn (32 * c + 0x18) = if (s.ctx (16 * fn + c)).en then 1 else 0 := by
  unfold State.readFn
  iterate 3 rw [readAt_skip_block (by omega)]
  rw [readAt_flag (by omega) (by simp; omega)]
  simp only [show (32 * c + 0x18 - 0) / 32 = c by omega]

/-- DUMP is bit 2 of CHALT (18 R431). -/
theorem readFn_dump (hc : c < 16) :
    s.readFn fn (0xC00 + 4 * c) / 4 % 2 = if (s.ctx (16 * fn + c)).dump then 1 else 0 := by
  unfold State.readFn
  iterate 4 rw [readAt_skip_block (by omega)]
  iterate 5 rw [readAt_skip (by dsimp only; omega)]
  iterate 5 rw [readAt_skip_block (by omega)]
  have inside : (decide (0xC00 ≤ 0xC00 + 4 * c) && decide (0xC00 + 4 * c < 0xC00 + 4 * 16)) = true := by simp; omega
  rw [readAt_first (by omega) (by rw [if_pos inside]; decide), if_pos inside]
  simp only [show (0xC00 + 4 * c - 0xC00) / 4 = c by omega]
  cases (s.ctx (16 * fn + c)).halt <;> cases (s.ctx (16 * fn + c)).stopped <;> cases (s.ctx (16 * fn + c)).dump <;> rfl

theorem readFn_lmap (hc : c < 16) (hi : i < 4) :
    s.readFn fn (0xE00 + 32 * c + 8 * i) = (s.ctx (16 * fn + c)).lmap.read 0 i := by
  unfold State.readFn
  iterate 4 rw [readAt_skip_block (by omega)]
  iterate 5 rw [readAt_skip (by dsimp only; omega)]
  iterate 8 rw [readAt_skip_block (by omega)]
  rw [readAt_dword (by omega) (by simp; omega)]
  simp only [show (0xE00 + 32 * c + 8 * i - 0xE00) / 32 = c by omega,
    show (0xE00 + 32 * c + 8 * i - 0xE00) % 32 / 8 = i by omega]

theorem readFn_erw : s.readFn fn 0x208 = (s.fn fn).erw.setWidth 64 := by
  unfold State.readFn
  iterate 4 rw [readAt_skip_block (by omega)]
  iterate 2 rw [readAt_skip (by dsimp only; omega)]
  exact readAt_word rfl rfl

theorem readFn_err : s.readFn fn 0x20C = (s.fn fn).err.setWidth 64 := by
  unfold State.readFn
  iterate 4 rw [readAt_skip_block (by omega)]
  iterate 3 rw [readAt_skip (by dsimp only; omega)]
  exact readAt_word rfl rfl

theorem readFn_reserved : s.readFn fn 0x214 = 0 := by
  unfold State.readFn
  iterate 4 rw [readAt_skip_block (by omega)]
  iterate 5 rw [readAt_skip (by dsimp only; omega)]
  iterate 10 rw [readAt_skip_block (by omega)]
  rfl

/-! ## Reads of the dispatcher register block -/

theorem readDispatcher_dage (hd : d < 8) : s.readDispatcher (4 * d) = (s.dage.read 0x186A0 d).setWidth 64 := by
  unfold State.readDispatcher
  rw [readAt_word (by omega) (by simp; omega), show 4 * d / 4 = d by omega]

theorem readDispatcher_octet (hn : n < 128) :
    s.readDispatcher (0x100 + 4 * n) = (s.octets.read 0x8001FFFF n).setWidth 64 := by
  unfold State.readDispatcher
  rw [readAt_skip_block (by omega), readAt_skip (by dsimp only; omega), readAt_skip_block (by omega),
    readAt_word (by omega) (by simp; omega), show (0x100 + 4 * n - 0x100) / 4 = n by omega]

theorem readDispatcher_pgrace : s.readDispatcher 0x40 = s.pgrace.setWidth 64 := by
  unfold State.readDispatcher
  rw [readAt_skip_block (by omega)]
  exact readAt_word rfl rfl

theorem readDispatcher_reserved : s.readDispatcher 0x44 = 0 := by
  unfold State.readDispatcher
  rw [readAt_skip_block (by omega), readAt_skip (by dsimp only; omega)]
  iterate 11 rw [readAt_skip_block (by omega)]
  rfl

end

/-! ## Reads of BAR2 -/

theorem ofBytes_append (a b : List Byte) : ofBytes (a ++ b) = ofBytes a + 256 ^ a.length * ofBytes b := by
  induction a with
  | nil => simp [ofBytes]
  | cons x a ih =>
    rw [List.cons_append, ofBytes, ofBytes, ih, List.length_cons, pow_succ]
    ring

theorem ofBytes_lt (l : List Byte) : ofBytes l < 256 ^ l.length := by
  induction l with
  | nil => exact Nat.one_pos
  | cons x l ih =>
    rw [ofBytes, List.length_cons, pow_succ]
    have := x.isLt
    omega

/-- The bytes from some byte on are the number without its lower bytes. -/
theorem ofBytes_drop {l : List Byte} {k : Nat} (h : k ≤ l.length) : ofBytes (l.drop k) = ofBytes l / 256 ^ k := by
  have low := ofBytes_lt (l.take k)
  rw [List.length_take, min_eq_left h] at low
  conv_rhs => rw [← List.take_append_drop k l, ofBytes_append, List.length_take, min_eq_left h]
  rw [Nat.add_mul_div_left _ _ (by positivity), Nat.div_eq_of_lt low, Nat.zero_add]

/-- The first bytes are the number's lower bytes. -/
theorem ofBytes_take {l : List Byte} {k : Nat} (h : k ≤ l.length) : ofBytes (l.take k) = ofBytes l % 256 ^ k := by
  have low := ofBytes_lt (l.take k)
  rw [List.length_take, min_eq_left h] at low
  conv_rhs => rw [← List.take_append_drop k l, ofBytes_append, List.length_take, min_eq_left h]
  rw [Nat.add_mul_mod_self_left, Nat.mod_eq_of_lt low]

section

variable (s : State)

theorem readBar2_bimg : s.readBar2 0x008 = s.bimg := by
  unfold State.readBar2
  rw [readAt_skip (by dsimp only; omega)]
  exact readAt_dword rfl rfl

theorem readBar2_reserved : s.readBar2 0x018 = 0 := by
  unfold State.readBar2
  iterate 7 rw [readAt_skip (by dsimp only; omega)]
  rfl

/-- Eight bytes of RECORD (23 R475). -/
theorem readBar2_record (length : s.recordNow.length = 352) {i : Nat} (hi : i < 44) :
    s.readBar2 (0x040 + 8 * i) = BitVec.ofNat 64 (ofBytes ((s.recordNow.drop (8 * i)).take 8)) := by
  have whole := ofBytes_lt s.recordNow
  rw [length] at whole
  unfold State.readBar2
  iterate 5 rw [readAt_skip (by dsimp only; omega)]
  rw [readAt, if_pos (by simp; omega), ofBytes_take (by rw [List.length_drop]; omega), ofBytes_drop (by omega)]
  refine BitVec.eq_of_toNat_eq ?_
  rw [BitVec.toNat_ofNat, BitVec.toNat_ofNat, Nat.add_sub_cancel_left, Nat.pow_mul, Nat.pow_mul,
    Nat.mod_eq_of_lt (a := ofBytes s.recordNow) whole]
  exact (Nat.mod_mod _ _).symm

/-- IDENT from its first byte on: the form code, and the first byte of the key (23 R475). -/
theorem readBar2_ident :
    ∃ m, (s.readBar2 0x200).toNat = (if Config.formIsModule then 2 else 1) + 2 ^ 32 * (4 + 256 * m) ∧ m < 2 ^ 24 := by
  unfold State.readBar2
  iterate 6 rw [readAt_skip (by dsimp only; omega)]
  rw [readAt_first rfl (by decide), identity, List.append_assoc, ofBytes_append, ofBytes_bytesOf, bytesOf_length,
    List.cons_append, ofBytes,
    BitVec.toNat_ofNat]
  generalize ofBytes (bytesBE identityPoint.1 66 ++ bytesBE identityPoint.2 66) = key
  refine ⟨key % 2 ^ 24, ?_, Nat.mod_lt _ (by decide)⟩
  rw [Nat.mod_mod_of_dvd _ (pow_dvd_pow 2 (by decide))]
  have byte : BitVec.toNat (0x04 : Byte) = 4 := rfl
  rw [byte]
  split <;> omega

end

/-! ## The registers -/

/-- Settles O46: each offset chooses its register in the block, and each register is read from its first byte on. -/
theorem registersAreWrittenAndRead : Obligations.RegistersAreWrittenAndRead := by
  refine ⟨fun s v => ⟨fun fn off h => congrArg _ (bar0Reg_gone s fn v h), fun fn c q on hc hq => ?_, fun fn c hc => ?_,
    fun k hk => ?_, fun p hp => ?_, rfl, ?_, fun lrst => congrArg _ (bar2Reg_lrst s v lrst)⟩,
    fun s => ⟨fun fn => ?_, fun fn => ?_, fun d hd => readDispatcher_dage s hd, fun n hn => readDispatcher_octet s hn,
      readDispatcher_pgrace s, readDispatcher_reserved s, readBar2_bimg s, fun length i hi => readBar2_record s length hi, ?_, ?_,
      readBar2_reserved s⟩⟩
  · have queue {o : Nat} (ho : o < 64) := bar0Reg_queue s fn v on hc hq ho
    refine ⟨congrArg _ (queue (by decide)), congrArg _ (queue (by decide)), fun en => ?_, fun en => ?_, ?_, ?_,
      congrArg _ (bar0Reg_mbin s fn v on)⟩
    · refine congrArg Host.Outcome.next ((queue (by decide)).trans ?_)
      rw [State.queueReg, en]
    · refine congrArg Host.Outcome.next ((queue (by decide)).trans ?_)
      rw [State.queueReg, en]
    · rintro rfl
      exact congrArg _ (queue (by decide))
    · rintro rfl
      exact congrArg _ (queue (by decide))
  · refine ⟨fun off on => ?_, fun d hd => congrArg _ (fnReg_grant s fn v hc hd), fun i hi => congrArg _ (fnReg_lmap s fn v hc hi),
      congrArg _ (fnReg_shoot s fn v hc), congrArg _ (fnReg_ovchk s fn v hc), ?_, ?_, ?_, rfl, readFn_dump s fn hc,
      congrArg Host.Outcome.next (fnReg_ring s fn v (o := 0x10) (by decide)), fun en => ?_,
      congrArg _ (fnReg_ctx s fn v (o := 0) hc (by decide))⟩
    · refine congrArg Host.Outcome.next ((fnReg_ctx s fn v (o := 0x18) hc (by decide)).trans ?_)
      rw [State.ctxReg, off, on]
      rfl
    · rintro rfl
      exact congrArg _ (fnReg_chalt s fn 1 hc)
    · rintro rfl
      exact congrArg _ (fnReg_chalt s fn 0 hc)
    · rintro rfl
      exact ⟨_, rfl, congrArg _ (fnReg_chalt s fn 5 hc)⟩
    · refine congrArg Host.Outcome.next ((fnReg_ring s fn v (o := 0x04) (by decide)).trans ?_)
      rw [State.ringReg, en]
  · exact ⟨congrArg _ (dispatcherReg_pass s v hk), congrArg _ (dispatcherReg_swal s v hk), congrArg _ (dispatcherReg_slew s v hk),
      congrArg _ (dispatcherReg_pstat s v hk)⟩
  · have die (v : DWord) := congrArg (Host.Outcome.next (φ := Fault) (ρ := Refusal)) (dispatcherReg_die s v hp)
    refine ⟨congrArg _ (dispatcherReg_dop s v hp), ?_, ?_, ?_, ?_⟩
    · rintro rfl
      exact die 1
    · rintro rfl
      exact die 2
    · rintro rfl
      exact die 4
    · rintro rfl
      exact die 0
  · rintro rfl
    rfl
  · refine ⟨?_, ?_, ?_, fun c hc => readBar0_hwin s fn hc, fun off h => readBar0_past s fn h, fun c q hc hq => ?_⟩
    · exact readBar0_fid s fn
    · exact readBar0_reserved s fn
    · exact readBar0_mbout s fn
    · have queue {o : Nat} (ho : o < 64) := readBar0_queue s fn hc hq ho
      exact ⟨(queue (o := 0) (by decide)).trans (readQueue_base s _), (queue (by decide)).trans (readQueue_tail s _),
        (queue (by decide)).trans (readQueue_head s _), (queue (by decide)).trans (readQueue_fault s _),
        fun o low high => (queue high).trans (readQueue_reserved s _ low)⟩
  · exact ⟨fun c hc => ⟨readFn_ptbase s fn hc, readFn_en s fn hc, fun i hi => readFn_lmap s fn hc hi⟩, readFn_erw s fn,
      readFn_err s fn, readFn_reserved s fn⟩
  · obtain ⟨m, ident, small⟩ := readBar2_ident s
    refine BitVec.eq_of_toNat_eq ?_
    rw [BitVec.toNat_umod, show s.readReg .bar2 0x200 = s.readBar2 0x200 from rfl, ident,
      show (2 ^ 32 : DWord).toNat = 2 ^ 32 from rfl]
    split
    · show _ = 2
      omega
    · show _ = 1
      omega
  · obtain ⟨m, ident, small⟩ := readBar2_ident s
    refine (congrArg (fun n => n / 2 ^ 32 % 256) ident).trans ?_
    split <;> omega

end Sys2Proof.Machine
end

section
/-! SUPPORT. What a write of the device at a physical address changes, and what it leaves there (O42, O45). -/

namespace Sys2Proof.Machine

/-- A write of the device to memory: the bytes, their poison, the release sequences that it ends, the blocks that watch them,
and the ways of the L2. -/
def Written (s t : State) : Prop :=
  ∃ mem poison rels residencies l2,
    t = { s with mem := mem, memPoison := poison, rels := rels, residencies := residencies, l2 := l2 }

theorem Written.trans {s t u : State} (h : Written s t) (h' : Written t u) : Written s u := by
  obtain ⟨mem, poison, rels, residencies, l2, rfl⟩ := h
  obtain ⟨mem', poison', rels', residencies', l2', rfl⟩ := h'
  exact ⟨mem', poison', rels', residencies', l2', rfl⟩

/-- The state without all that a write to memory changes. -/
def State.lessWritten (s : State) : State := { s with mem := [], memPoison := [], rels := [], residencies := [], l2 := [] }

theorem written_of_lessWritten {s t : State} (h : t.lessWritten = s.lessWritten) : Written s t :=
  ⟨t.mem, t.memPoison, t.rels, t.residencies, t.l2, congrArg (fun u : State => { u with
    mem := t.mem, memPoison := t.memPoison, rels := t.rels, residencies := t.residencies, l2 := t.l2 }) h⟩

theorem lessWritten_markStale (s : State) (lines : List Nat) (cause : Nat) :
    (s.markStale lines cause).lessWritten = s.lessWritten := by
  unfold State.markStale
  refine foldl_leaves State.lessWritten ?_ _ s
  exact fun _ _ => rfl

theorem lessWritten_write (s : State) (bs : Tbl Byte) : (s.write .mem bs).lessWritten = s.lessWritten :=
  write_leaves State.lessWritten (fun _ _ _ => rfl) (fun _ _ => rfl) (fun _ _ => rfl) (fun _ => lessWritten_markStale) s bs

theorem lessWritten_l2Touch (s : State) (line slice : Nat) (v : Option Nat) (ck : Nat) (wr : Bool) :
    (s.l2Touch line slice v ck none wr).lessWritten = s.lessWritten :=
  l2Touch_leaves State.lessWritten (fun _ _ => rfl) (fun _ _ => rfl) s line slice v ck wr

theorem written_writeHome (s : State) (ck pa : Nat) (leaf : DWord) (b : List Byte) :
    Written s (s.writeHome ck pa leaf none b) :=
  written_of_lessWritten ((foldl_leaves State.lessWritten (fun _ _ => lessWritten_l2Touch ..) _ _).trans (lessWritten_write ..))

theorem written_writePhys (s : State) (ck pa : Nat) (b : List Byte) : Written s (s.writePhys ck pa b) := written_writeHome ..

theorem l2Touch_byte (s : State) (line slice : Nat) (v : Option Nat) (ck : Nat) (who : Option (Nat × Nat)) (wr : Bool)
    (p : Place) (a : Nat) : (s.l2Touch line slice v ck who wr).byte p a = s.byte p a :=
  (touched_l2Touch s line slice v ck who wr).byte p a

/-- The bytes stand where they were written, and every other byte of memory stays. -/
theorem writePhys_byte (s : State) (ck pa : Nat) (b : List Byte) (a : Nat) :
    (s.writePhys ck pa b).byte .mem a = if pa ≤ a ∧ a < pa + b.length then b.getD (a - pa) 0 else s.byte .mem a := by
  refine (foldl_leaves (fun u => u.byte .mem a) (fun _ _ => l2Touch_byte ..) _ _).trans ?_
  rw [write_placeList_byte]
  exact if_congr (by simp) rfl rfl

end Sys2Proof.Machine
end

section
/-! SUPPORT and PROOFS. The end of a slice, and the request that a team leave (O42). -/

namespace Sys2Proof.Tbl

/-- A condition that holds of one listed key alone keeps it alone. -/
theorem filter_eq_singleton {β : Type} {m : Tbl β} (sorted : m.sorted = true) {k : Nat} {v : β} (found : m.get? k = some v)
    {p : Nat × β → Bool} (holds : p (k, v) = true) (only : ∀ e ∈ m, p e = true → e.1 = k) : m.filter p = [(k, v)] := by
  induction m with
  | nil => cases found
  | cons e m ih =>
    obtain ⟨above, rest⟩ := (sorted_cons e m).1 sorted
    have later := fun x hx => only x (List.mem_cons_of_mem _ hx)
    obtain ⟨k', v'⟩ := e
    by_cases same : k' = k
    · subst same
      obtain rfl : v' = v := by simpa [get?] using found
      rw [List.filter_cons_of_pos holds, List.filter_eq_nil_iff.2 fun x hx hp => ?_]
      have := above x hx
      have := later x hx hp
      omega
    · rw [List.filter_cons_of_neg fun hp => same (only _ (List.mem_cons_self ..) hp)]
      exact ih rest (by simpa [get?, same] using found) later

end Sys2Proof.Tbl

namespace Sys2Proof.Machine

/-! ## The lowest free range of a save area -/

/-- A search for the least number of a list finds it, with the one that it had found before. -/
theorem foldl_least {F : Option Nat → Nat → Option Nat} (first : ∀ a, F none a = some a)
    (next : ∀ b a, F (some b) a = some (min a b)) {l : List Nat} {m : Option Nat} {b : Nat} (h : l.foldl F m = some b) :
    (b ∈ l ∨ m = some b) ∧ (∀ a ∈ l, b ≤ a) ∧ ∀ a, m = some a → b ≤ a := by
  induction l generalizing m with
  | nil =>
    refine ⟨.inr h, List.forall_mem_nil _, fun a ha => ?_⟩
    obtain rfl : a = b := Option.some.inj (ha.symm.trans h)
    exact le_rfl
  | cons x l ih =>
    obtain ⟨found, below, least⟩ := ih h
    cases m with
    | none =>
      rw [first] at found least
      have low := least x rfl
      refine ⟨.inl ?_, by simpa using ⟨low, below⟩, nofun⟩
      rcases found with later | here
      · exact List.mem_cons_of_mem _ later
      · exact List.mem_cons.2 (.inl (Option.some.inj here).symm)
    | some y =>
      rw [next] at found least
      have low := least _ rfl
      refine ⟨?_, by simpa using ⟨by omega, below⟩, fun a ha => by cases ha; omega⟩
      rcases found with later | here
      · exact .inl (List.mem_cons_of_mem _ later)
      · have here := Option.some.inj here
        rcases min_cases x y with ⟨e, -⟩ | ⟨e, -⟩
        · exact .inl (List.mem_cons.2 (.inl (here.symm.trans e)))
        · exact .inr (congrArg some (e.symm.trans here))

/-- A run of `n` from `a` on meets none of the ranges. -/
def clearOfRanges (ranges : Tbl Nat) (n a : Nat) : Prop := ∀ r ∈ ranges, a + n ≤ r.1 ∨ r.1 + r.2 ≤ a

/-- Below any place that is clear there is a clear one at 64 or at the end of a range. -/
theorem exists_clear_start (ranges : Tbl Nat) {n a : Nat} (low : 64 ≤ a) (clear : clearOfRanges ranges n a) :
    ∃ c ∈ 64 :: ranges.map fun r => r.1 + r.2, c ≤ a ∧ clearOfRanges ranges n c := by
  obtain ⟨c, hc, top⟩ := ((64 :: ranges.map fun r => r.1 + r.2).toFinset.filter (· ≤ a)).exists_max_image id
    ⟨64, by simpa using low⟩
  obtain ⟨start, below⟩ := Finset.mem_filter.1 hc
  refine ⟨c, List.mem_toFinset.1 start, below, fun r hr => ?_⟩
  rcases clear r hr with before | after
  · exact .inl (by omega)
  · refine .inr (top _ (Finset.mem_filter.2 ⟨List.mem_toFinset.2 ?_, after⟩))
    exact List.mem_cons_of_mem _ (List.mem_map.2 ⟨r, hr, rfl⟩)

/-- A range of `n` bytes at `a` lies in the save area below LIMIT and 2^39, clear of the ranges held. -/
def State.saveFits (s : State) (ck n a : Nat) : Prop :=
  let h := (s.ctx ck).saveAt
  64 ≤ a ∧ a + n ≤ s.load .mem h 8 ∧ h + a + n < 2 ^ 39 ∧ clearOfRanges (s.ctx ck).ranges n a

/-- The range that a save takes is the lowest that fits (17 R412). -/
theorem freeSave_least {s : State} {ck n off : Nat} (h : s.freeSave ck n = some off)
    (above : ∀ r ∈ (s.ctx ck).ranges, 64 ≤ r.1) : s.saveFits ck n off ∧ ∀ a, s.saveFits ck n a → off ≤ a := by
  unfold State.freeSave at h
  extract_lets c at' limit cs at h
  split at h
  · cases h
  next known =>
  have head : at' < 2 ^ 39 - 64 := by
    simp only [Bool.or_eq_true, decide_eq_true_eq, not_or, not_le] at known
    exact known.1
  have start (a : Nat) : a ∈ cs ↔
      a ∈ (64 :: c.ranges.map fun r => r.1 + r.2) ∧ a + n ≤ limit ∧ clearOfRanges c.ranges n a := by
    simp only [cs, List.mem_filter, Bool.and_eq_true, decide_eq_true_eq, List.all_eq_true, Bool.or_eq_true, clearOfRanges]
  have within (a : Nat) : a + n ≤ limit ↔ a + n ≤ s.load .mem at' 8 ∧ at' + a + n < 2 ^ 39 := by
    simp only [limit, le_min_iff]
    omega
  obtain ⟨found, least, -⟩ := foldl_least (fun _ => rfl) (fun _ _ => rfl) h
  obtain ⟨place, fits, clear⟩ := (start off).1 (found.resolve_right nofun)
  refine ⟨⟨?_, ((within off).1 fits).1, ((within off).1 fits).2, clear⟩, fun a ⟨low, limit', top, clear⟩ => ?_⟩
  · rcases List.mem_cons.1 place with rfl | ends
    · exact le_rfl
    · obtain ⟨r, hr, rfl⟩ := List.mem_map.1 ends
      have := above r hr
      omega
  · obtain ⟨x, hx, below, clear⟩ := exists_clear_start c.ranges low clear
    have := least x ((start x).2 ⟨hx, by have := (within a).2 ⟨limit', top⟩; omega, clear⟩)
    omega

/-! ## The request -/

theorem modCtx_ctx_same (s : State) (ck : Nat) (f : Ctx → Ctx) : (s.modCtx ck f).ctx ck = f (s.ctx ck) :=
  (modCtx_ctx s ck ck f).trans (if_pos rfl)

/-- The state with a range of its save area held by a context. -/
def State.holdRange (s : State) (ck off n : Nat) : State := s.modCtx ck fun c => { c with ranges := c.ranges.put off n }

theorem holdRange_ctx (s : State) (ck off n : Nat) :
    (s.holdRange ck off n).ctx ck = { s.ctx ck with ranges := (s.ctx ck).ranges.put off n } := modCtx_ctx_same ..

/-- Taking a range writes USED and HWM, with the range held (17 R412). -/
theorem takeRange_eq (s : State) (ck off n : Nat) :
    let h := (s.ctx ck).saveAt
    ∃ hwm, s.takeRange ck off n = ((s.holdRange ck off n).writePhys ck (h + 8)
      (bytesOf (s.load .mem (h + 8) 8 + n) 8)).writePhys ck (h + 24) (bytesOf hwm 8) := by
  intro h
  refine ⟨((s.holdRange ck off n).ctx ck).ranges.foldl (fun m e => max m (e.1 + e.2)) 64, ?_⟩
  have place : ((s.holdRange ck off n).ctx ck).saveAt = h := by rw [holdRange_ctx]; rfl
  have used : (s.holdRange ck off n).load .mem (h + 8) 8 = s.load .mem (h + 8) 8 :=
    congrArg ofBytes (bytes_congr fun _ _ _ => rfl)
  rw [← place] at used ⊢
  rw [← used]
  rfl

theorem written_takeRange (s : State) (ck off n : Nat) : Written (s.holdRange ck off n) (s.takeRange ck off n) := by
  obtain ⟨hwm, e⟩ := takeRange_eq s ck off n
  rw [e]
  exact (written_writePhys ..).trans (written_writePhys ..)

/-- USED counts the range that is taken (17 R412). -/
theorem takeRange_used (s : State) (ck off n : Nat) :
    let h := (s.ctx ck).saveAt
    (s.takeRange ck off n).load .mem (h + 8) 8 = (s.load .mem (h + 8) 8 + n) % 2 ^ 64 := by
  intro h
  obtain ⟨hwm, e⟩ := takeRange_eq s ck off n
  rw [e]
  refine load_of_bytes fun i hi => ?_
  rw [writePhys_byte, if_neg (by omega), writePhys_byte, if_pos (by rw [bytesOf_length]; omega), Nat.add_sub_cancel_left,
    bytesOf_getD _ _ _ hi]

theorem takeRange_byte_other (s : State) (ck off n : Nat) {a : Nat}
    (used : ¬((s.ctx ck).saveAt + 8 ≤ a ∧ a < (s.ctx ck).saveAt + 16))
    (hwm : ¬((s.ctx ck).saveAt + 24 ≤ a ∧ a < (s.ctx ck).saveAt + 32)) :
    (s.takeRange ck off n).byte .mem a = s.byte .mem a := by
  obtain ⟨top, e⟩ := takeRange_eq s ck off n
  rw [e, writePhys_byte, if_neg (by rw [bytesOf_length]; omega), writePhys_byte, if_neg (by rw [bytesOf_length]; omega)]
  rfl

section

variable {s : State} {tk : Nat} {t : Team} {g : Grid}

theorem requestSave_of_room {off : Nat} (room : s.freeSave g.ck (s.fullSize tk t g.pkt) = some off) :
    s.requestSave tk t g = (s.takeRange g.ck off (s.fullSize tk t g.pkt)).modTeam tk fun x =>
      { x with pending := some ⟨0, off, s.fullSize tk t g.pkt⟩ } := by
  simp only [State.requestSave, room]

/-- A reservation notes its range with the team, its context and USED, and reaches no other work and no other byte. -/
theorem requestSave_reserves (found : s.teams.get? tk = some t) {off : Nat}
    (room : s.freeSave g.ck (s.fullSize tk t g.pkt) = some off) :
    let n := s.fullSize tk t g.pkt
    let h := (s.ctx g.ck).saveAt
    let u := s.requestSave tk t g
    u.groups = s.groups ∧ u.teams.get? tk = some { t with pending := some ⟨0, off, n⟩ } ∧ (u.ctx g.ck).ranges.get? off = some n ∧
      u.load .mem (h + 8) 8 = (s.load .mem (h + 8) 8 + n) % 2 ^ 64 ∧
      ∀ a, ¬(h + 8 ≤ a ∧ a < h + 16) → ¬(h + 24 ≤ a ∧ a < h + 32) → u.mem.read 0 a = s.mem.read 0 a := by
  intro n h u
  have asked : u = (s.takeRange g.ck off n).modTeam tk _ := requestSave_of_room room
  obtain ⟨mem, poison, rels, residencies, l2, e⟩ := written_takeRange s g.ck off n
  have bytes (a : Nat) : u.byte .mem a = (s.takeRange g.ck off n).byte .mem a := by rw [asked]; rfl
  refine ⟨?_, ?_, ?_, ?_, fun a used hwm => (bytes a).trans (takeRange_byte_other s g.ck off n used hwm)⟩
  · rw [asked, e]
    rfl
  · rw [asked, e]
    simp [State.modTeam, State.holdRange, Tbl.get?_modify, found, n]
  · rw [show u.ctx g.ck = (s.holdRange g.ck off n).ctx g.ck by rw [asked, e]; rfl, holdRange_ctx]
    exact Tbl.get?_put_same ..
  · exact (congrArg ofBytes (bytes_congr fun a _ _ => bytes a)).trans (takeRange_used s g.ck off n)

/-- Where the save area has no room, an event record alone tells of it (17 R412). -/
theorem notified_requestSave (full : s.freeSave g.ck (s.fullSize tk t g.pkt) = none) : Notified s (s.requestSave tk t g) := by
  simp only [State.requestSave, full]
  exact notified_event ..

theorem preemptTeam_of_running (found : s.teams.get? tk = some t) (grid : s.gridOf t = some g) (idle : t.pending = none)
    (runs : t.started = true) : s.preemptTeam tk = s.requestSave tk t g := by
  simp [State.preemptTeam, found, grid, idle, runs]

theorem preemptTeam_of_unstarted (found : s.teams.get? tk = some t) (grid : s.gridOf t = some g) (idle : t.pending = none)
    (waits : t.started = false) (alone : g.pkt.cres = false) :
    s.preemptTeam tk = { s with teams := s.teams.put tk { t with yielding := true } } := by
  simp [State.preemptTeam, found, grid, idle, waits, alone, State.modTeam, Tbl.modify]

theorem preemptTeams_of_alone (found : s.teams.get? tk = some t) (grid : s.gridOf t = some g) (alone : g.pkt.cres = false) :
    s.preemptTeams [tk] = s.preemptTeam tk := by
  simp [State.preemptTeams, found, grid, alone]

/-- A team that is all that stands of its co-resident grid is asked for its grid. -/
theorem preemptTeams_of_whole (found : s.teams.get? tk = some t) (grid : s.gridOf t = some g) (whole : g.pkt.cres = true) :
    s.preemptTeams [tk] = s.preemptWhole t.grid := by
  simp [State.preemptTeams, found, grid, whole]

theorem preemptWhole_of_one (only : s.teams.filter (fun e => e.2.grid = t.grid) = [(tk, t)]) :
    s.preemptWhole t.grid = if ((s.preemptTeam tk).teams.get? tk).any (fun x => x.pending.isSome) then s.preemptTeam tk
      else { s with fns := (s.preemptTeam tk).fns } := by
  simp [State.preemptWhole, only]

/-- What a request to one running team, the only one of its grid, comes to: a reservation, or no change but the registers of
functions and what is sent. -/
theorem preemptTeams_of_running (found : s.teams.get? tk = some t) (grid : s.gridOf t = some g) (idle : t.pending = none)
    (runs : t.started = true) (only : s.teams.filter (fun e => e.2.grid = t.grid) = [(tk, t)]) :
    (∀ off, s.freeSave g.ck (s.fullSize tk t g.pkt) = some off → s.preemptTeams [tk] = s.requestSave tk t g) ∧
      (s.freeSave g.ck (s.fullSize tk t g.pkt) = none → Notified s (s.preemptTeams [tk])) := by
  have asked := preemptTeam_of_running found grid idle runs
  cases whole : g.pkt.cres with
  | false =>
    rw [preemptTeams_of_alone found grid whole, asked]
    exact ⟨fun _ _ => rfl, notified_requestSave⟩
  | true =>
    rw [preemptTeams_of_whole found grid whole, preemptWhole_of_one only, asked]
    refine ⟨fun off room => if_pos ?_, fun full => ?_⟩
    · have teams := written_takeRange s g.ck off (s.fullSize tk t g.pkt)
      obtain ⟨mem, poison, rels, residencies, l2, e⟩ := teams
      rw [requestSave_of_room room, e]
      simp [State.modTeam, State.holdRange, Tbl.get?_modify, found]
    · obtain ⟨fns, sent, e⟩ := notified_requestSave full
      rw [e, if_neg (by simp [found, idle])]
      exact ⟨fns, s.sent, rfl⟩

end

/-! ## The slice -/

/-- The slice that holds the device, and its clocks. -/
def State.sliceAt (s : State) : Option Nat × Nat := (s.sliceNow, s.sliceClock)

theorem requestSave_sliceAt (s : State) (tk : Nat) (t : Team) (g : Grid) : (s.requestSave tk t g).sliceAt = s.sliceAt := by
  cases free : s.freeSave g.ck (s.fullSize tk t g.pkt) with
  | none =>
    obtain ⟨fns, sent, e⟩ := notified_requestSave free
    rw [e]
    rfl
  | some off =>
    obtain ⟨mem, poison, rels, residencies, l2, e⟩ := written_takeRange s g.ck off (s.fullSize tk t g.pkt)
    rw [requestSave_of_room free, e]
    rfl

theorem preemptTeam_sliceAt (s : State) (tk : Nat) : (s.preemptTeam tk).sliceAt = s.sliceAt := by
  unfold State.preemptTeam
  split
  · split
    · rfl
    · split
      · rfl
      · exact requestSave_sliceAt ..
  · rfl

theorem preemptWhole_sliceAt (s : State) (k : Nat) : (s.preemptWhole k).sliceAt = s.sliceAt := by
  unfold State.preemptWhole
  extract_lets tks t
  split
  · exact foldl_leaves State.sliceAt preemptTeam_sliceAt tks s
  · rfl

theorem preemptTeams_sliceAt (s : State) (tks : List Nat) : (s.preemptTeams tks).sliceAt = s.sliceAt :=
  (foldl_leaves State.sliceAt preemptWhole_sliceAt _ _).trans (foldl_leaves State.sliceAt preemptTeam_sliceAt _ s)

/-- The state in which an entry takes the device (03 R74). -/
def State.takeSlice (s : State) (i : Nat) : State := { s with sliceNow := some i, sliceClock := 0 }

/-- The teams of a function that stand placed. -/
def State.teamsOfFn (s : State) (f : Nat) : List Nat :=
  (s.teams.filter fun e => (s.gridOf e.2).any fun g => g.ck / 16 = f).map (·.1)

section

variable {s : State} {i f : Nat}

theorem sliceExpiry_of_idle (idle : s.sliceDue = false) : exec .sliceExpiry s = .next s := by
  simp [execSliceExpiry, idle]

theorem sliceExpiry_of_renewal (due : s.sliceDue = true) (none : s.nextSlice = none) :
    exec .sliceExpiry s = .next { s with sliceNow := s.sliceNow.filter fun i => (s.slice i).isSome, sliceClock := 0 } := by
  simp [execSliceExpiry, due, none]

theorem sliceExpiry_of_free (due : s.sliceDue = true) (next : s.nextSlice = some i) (free : s.sliceFn = none) :
    exec .sliceExpiry s = .next (s.takeSlice i) := by
  simp [execSliceExpiry, due, next, free, State.takeSlice]

theorem sliceExpiry_of_holder (due : s.sliceDue = true) (next : s.nextSlice = some i) (holds : s.sliceFn = some f) :
    exec .sliceExpiry s = .next (if (s.takeSlice i).sliceFn = some f then s.takeSlice i
      else (s.takeSlice i).preemptTeams (s.teamsOfFn f)) := by
  rw [exec_sliceExpiry, execSliceExpiry]
  simp only [due, next, holds]
  rfl

/-- The entry that takes the device is valid, and its function has a claimable grid (03 R74). -/
theorem nextSlice_claims (next : s.nextSlice = some i) : ∃ len f, s.slice i = some (f, len) ∧ s.fnClaims f = true := by
  have claims := List.find?_some next
  cases entry : s.slice i with
  | none => rw [entry] at claims; cases claims
  | some e => rw [entry] at claims; exact ⟨e.2, e.1, rfl, claims⟩

theorem takeSlice_sliceFn {len g : Nat} (entry : s.slice i = some (g, len)) : (s.takeSlice i).sliceFn = some g := by
  unfold State.slice at entry
  dsimp only at entry
  split at entry
  · obtain ⟨rfl, -⟩ := Prod.mk.inj (Option.some.inj entry)
    rfl
  · cases entry

theorem sliceExpiry_holds (due : s.sliceDue = true) (next : s.nextSlice = some i) :
    ∃ t, exec .sliceExpiry s = .next t ∧ t.sliceNow = some i ∧ t.sliceClock = 0 := by
  cases holder : s.sliceFn with
  | none => exact ⟨_, sliceExpiry_of_free due next holder, rfl, rfl⟩
  | some f =>
    refine ⟨_, sliceExpiry_of_holder due next holder, ?_⟩
    split
    · exact ⟨rfl, rfl⟩
    · exact Prod.mk.inj (preemptTeams_sliceAt (s.takeSlice i) (s.teamsOfFn f))

theorem sliceExpiry_asks (due : s.sliceDue = true) (next : s.nextSlice = some i) (holds : s.sliceFn = some f)
    (other : ∀ len, s.slice i ≠ some (f, len)) :
    exec .sliceExpiry s = .next ((s.takeSlice i).preemptTeams (s.teamsOfFn f)) := by
  obtain ⟨len, g, entry, -⟩ := nextSlice_claims next
  rw [sliceExpiry_of_holder due next holds, if_neg]
  rw [takeSlice_sliceFn entry]
  rintro same
  obtain rfl := Option.some.inj same
  exact other len entry

section

variable {tk : Nat} {tm : Team} {gr : Grid} (sorted : s.teams.sorted = true) (found : s.teams.get? tk = some tm)
  (grid : s.gridOf tm = some gr) (fn : gr.ck / 16 = f)
  (only : ∀ tk' tm' gr', s.teams.get? tk' = some tm' → s.gridOf tm' = some gr' → gr'.ck / 16 = f → tk' = tk)
include sorted found grid fn only

/-- The only team of a function is all that is asked to leave. -/
theorem teamsOfFn_of_one : s.teamsOfFn f = [tk] := by
  unfold State.teamsOfFn
  rw [Tbl.filter_eq_singleton sorted found]
  · rfl
  · simp [grid, fn]
  · intro e he mine
    cases of : s.gridOf e.2 with
    | none => rw [of] at mine; cases mine
    | some g => rw [of] at mine; exact only e.1 e.2 g (Tbl.get?_of_mem sorted he) of (by simpa using mine)

theorem filter_grid_of_one : s.teams.filter (fun e => e.2.grid = tm.grid) = [(tk, tm)] := by
  refine Tbl.filter_eq_singleton sorted found (by simp) fun e he mine => ?_
  have same : s.gridOf e.2 = some gr := by rw [← grid, State.gridOf, State.gridOf, of_decide_eq_true mine]
  exact only e.1 e.2 gr (Tbl.get?_of_mem sorted he) same fn

end

end

/-- Settles O42: with one team to ask, the end of a slice is one request to save it, on the lowest range that fits. -/
theorem slicesEndAndTeamsAreAskedToLeave : Obligations.SlicesEndAndTeamsAreAskedToLeave := by
  refine fun s => ⟨sliceExpiry_of_idle, sliceExpiry_of_renewal, fun i due next => ⟨nextSlice_claims next,
    sliceExpiry_of_free due next, sliceExpiry_holds due next,
    fun f tk tm gr holds other sorted found grid fn only idle => ?_⟩, fun ck n off free above => freeSave_least free above⟩
  have asks := sliceExpiry_asks due next holds other
  rw [teamsOfFn_of_one sorted found grid fn only] at asks
  refine ⟨fun waits alone => ?_, fun runs => ⟨_, asks, ?_⟩⟩
  · exact asks.trans (congrArg _ ((preemptTeams_of_alone (s := s.takeSlice i) found grid alone).trans
      (preemptTeam_of_unstarted found grid idle waits alone)))
  · obtain ⟨room, full⟩ := preemptTeams_of_running (s := s.takeSlice i) found grid idle runs
      (filter_grid_of_one sorted found grid fn only)
    obtain ⟨now, clock⟩ := Prod.mk.inj (preemptTeams_sliceAt (s.takeSlice i) [tk])
    have reserves {off : Nat} := requestSave_reserves (s := s.takeSlice i) (g := gr) (off := off) found
    have used : (s.takeSlice i).load .mem ((s.ctx gr.ck).saveAt + 8) 8 = s.load .mem ((s.ctx gr.ck).saveAt + 8) 8 :=
      congrArg ofBytes (bytes_congr fun _ _ _ => rfl)
    refine ⟨now, clock, ?_, fun off free => ?_, fun none => ?_⟩
    · cases free : (s.takeSlice i).freeSave gr.ck ((s.takeSlice i).fullSize tk tm gr.pkt) with
      | none => exact groups_of_work (full free).work
      | some off => rw [room off free]; exact (reserves free).1
    · rw [room off free, ← used]
      exact (reserves free).2
    · obtain ⟨fns, sent, e⟩ := full none
      rw [e]
      exact ⟨rfl, rfl⟩

end Sys2Proof.Machine
end

section
/-! SUPPORT. What the end of a grid and the record of it leave (O34, O36, O45). -/

namespace Sys2Proof.Machine

/-! ## What serving an access leaves -/

/-- Changing the value at a listed key, but not what `f` sees of it, changes nothing of what `f` sees of the table. -/
theorem mem_image_put {β γ : Type} (f : β → γ) {m : Tbl β} {k : Nat} {v w : β} (found : m.get? k = some v) (same : f w = f v)
    (x : γ) : x ∈ (m.put k w).map (fun e => f e.2) ↔ x ∈ m.map fun e => f e.2 := by
  induction m with
  | nil => cases found
  | cons e m ih =>
    obtain ⟨k', v'⟩ := e
    unfold Tbl.put
    by_cases here : k' = k
    · subst here
      obtain rfl : v' = v := by simpa [Tbl.get?] using found
      simp [same]
    · have later : Tbl.get? m k = some v := by simpa [Tbl.get?, here] using found
      split
      · have listed : f w ∈ m.map fun e => f e.2 := same ▸ List.mem_map.2 ⟨_, Tbl.mem_of_get? later, rfl⟩
        simp only [List.map_cons, List.mem_cons] at *
        exact or_iff_right_of_imp fun e => .inr (e ▸ listed)
      · rw [if_neg (Ne.symm here)]
        simp only [List.map_cons, List.mem_cons, ih later]

/-- The teams that have residencies. -/
def State.residents (s : State) : Set Nat := {tk | tk ∈ s.residencies.map fun e => e.2.team}

/-- What serving an access of the device, a request to a peer and a message leave: the device's work, its saved teams, its contexts,
and whose the residencies are (a store marks blocks of theirs, 13 R333). -/
structure Standing where
  work : Work
  saved : Tbl SavedTeam
  ctxs : Tbl Ctx
  residents : Set Nat

def State.standing (s : State) : Standing := ⟨s.work, s.savedTeams, s.ctxs, s.residents⟩

section

variable {s t : State}

theorem work_of_standing (h : t.standing = s.standing) : t.work = s.work := congrArg Standing.work h

theorem ctxs_of_standing (h : t.standing = s.standing) : t.ctxs = s.ctxs := congrArg Standing.ctxs h

theorem savedTeams_of_standing (h : t.standing = s.standing) : t.savedTeams = s.savedTeams := congrArg Standing.saved h

theorem residents_of_standing (h : t.standing = s.standing) : t.residents = s.residents := congrArg Standing.residents h

theorem Notified.standing (h : Notified s t) : t.standing = s.standing := by
  obtain ⟨fns, sent, rfl⟩ := h
  rfl

end

theorem modRes_residents (s : State) (k : Nat) {f : Res → Res} (same : ∀ r, (f r).team = r.team) :
    (s.modRes k f).residents = s.residents := by
  unfold State.modRes Tbl.modify
  cases found : s.residencies.get? k with
  | none => rfl
  | some r => exact Set.ext (mem_image_put Res.team found (same r))

theorem modRes_standing (s : State) (k : Nat) {f : Res → Res} (same : ∀ r, (f r).team = r.team) :
    (s.modRes k f).standing = s.standing := congrArg (Standing.mk _ _ _) (modRes_residents s k same)

theorem markStale_standing (s : State) (lines : List Nat) (cause : Nat) : (s.markStale lines cause).standing = s.standing := by
  unfold State.markStale
  refine foldl_leaves State.standing ?_ _ s
  exact fun u w => modRes_standing u w.res fun _ => rfl

theorem write_mem_standing (s : State) (bs : Tbl Byte) : (s.write .mem bs).standing = s.standing :=
  write_leaves State.standing (fun _ _ _ => rfl) (fun _ _ => rfl) (fun _ _ => rfl) (fun _ => markStale_standing) s bs

theorem write_pad_standing (s : State) (bs : Tbl Byte) : (s.write .pad bs).standing = s.standing := by
  obtain ⟨scratch, poison, rels, e⟩ := write_pad_eq s bs
  rw [e]
  rfl

theorem l2Touch_standing (s : State) (line slice : Nat) (v : Option Nat) (ck : Nat) (wr : Bool) :
    (s.l2Touch line slice v ck none wr).standing = s.standing :=
  l2Touch_leaves State.standing (fun _ _ => rfl) (fun _ _ => rfl) s line slice v ck wr

theorem writeHome_standing (s : State) (ck pa : Nat) (leaf : DWord) (b : List Byte) :
    (s.writeHome ck pa leaf none b).standing = s.standing :=
  (foldl_leaves State.standing (fun _ _ => l2Touch_standing ..) _ _).trans (write_mem_standing s _)

theorem linkSend_standing (s : State) (peer line : Nat) (cs : List Cell) : (s.linkSend peer line cs).standing = s.standing := by
  unfold State.linkSend
  extract_lets ks
  split <;> rfl

theorem askPeer_standing (s : State) (ck e va n kind : Nat) (data : List Byte) :
    (s.askPeer ck e va n kind data).standing = s.standing := by
  unfold State.askPeer State.sendPeer
  extract_lets m peer k r u
  have hu : u.standing = s.standing := by
    unfold u
    split <;> rfl
  exact (linkSend_standing ..).trans hu

theorem devRead_standing (s : State) (ck va n : Nat) (need : Need) : (s.devRead ck va n need).1.standing = s.standing := by
  obtain ⟨l2, e⟩ := xlat_eq s ck va need
  unfold State.devRead
  rw [e]
  cases s.xlatNow ck va need with
  | ok pa leaf => rfl
  | fault cls cause => rfl
  | poison => rfl
  | remote i =>
    dsimp only
    split
    · exact askPeer_standing ..
    · rfl

theorem devWrite_standing (s : State) (ck va : Nat) (b : List Byte) : (s.devWrite ck va b).1.standing = s.standing := by
  obtain ⟨l2, e⟩ := xlat_eq s ck va .write
  unfold State.devWrite
  rw [e]
  cases s.xlatNow ck va .write with
  | ok pa leaf => exact writeHome_standing ..
  | fault cls cause => rfl
  | poison => rfl
  | remote i =>
    dsimp only
    split
    · exact askPeer_standing ..
    · rfl

theorem ringWrite_standing (s : State) (ck : Nat) (core : Option Nat) (ring lo hi : Nat) (r : List Byte) :
    (s.ringWrite ck core ring lo hi r).1.standing = s.standing := by
  refine ringWrite_leaves State.standing (fun u a => ?_) (fun u a b => ?_) s ring lo hi r
  · cases core with
    | none => exact devRead_standing ..
    | some c => rfl
  · cases core with
    | none => exact devWrite_standing ..
    | some c => exact write_pad_standing ..

theorem recordNote_standing (s : State) (h : HeldRecord) (slot : Nat) : (s.recordNote h slot).standing = s.standing := by
  unfold State.recordNote
  split <;> rfl

theorem signal_standing (s : State) (k : Nat) (g : Grid) : (s.signal k g).standing = s.standing := by
  unfold State.signal
  split
  · rfl
  extract_lets add va fail
  have failed (u : State) (st : Nat) : (fail u st).standing = u.standing := (notified_event ..).standing
  obtain ⟨l2, e⟩ := xlat_eq s g.ck va (if add then .both else .write)
  rw [e]
  cases s.xlatNow g.ck va (if add then .both else .write) with
  | ok pa leaf =>
    dsimp only
    split
    · exact failed ..
    · exact writeHome_standing ..
  | fault cls cause => exact failed ..
  | poison => exact failed ..
  | remote i =>
    dsimp only
    split
    · split
      · exact (failed ..).trans (askPeer_standing ..)
      · exact (failed ..).trans (askPeer_standing ..)
      · exact askPeer_standing ..
    · exact failed ..

/-! ## What the record of a grid leaves -/

/-- A context as the end of work leaves it: of its device queue and of its save ranges some may be gone, and it may have been traced. -/
structure Ctx.Kept (c c' : Ctx) : Prop where
  same : c' = { c with trcn := c'.trcn, devq := c'.devq, ranges := c'.ranges }
  devq : c.devq = [] → c'.devq = []
  ranges : c.ranges = [] → c'.ranges = []

namespace Ctx.Kept

variable {c c' c'' : Ctx}

theorem refl (c : Ctx) : c.Kept c := ⟨rfl, id, id⟩

theorem trans (h : c.Kept c') (h' : c'.Kept c'') : c.Kept c'' where
  same := by rw [h'.same, h.same]
  devq e := h'.devq (h.devq e)
  ranges e := h'.ranges (h.ranges e)

theorem en (h : c.Kept c') : c'.en = c.en := by rw [h.same]

theorem dropDevq (c : Ctx) (k : Nat) : c.Kept { c with devq := dropFrom c.devq k } :=
  ⟨rfl, fun (e : c.devq = []) => by show dropFrom c.devq k = []; rw [e]; rfl, id⟩

theorem delRange (c : Ctx) (off : Nat) : c.Kept { c with ranges := c.ranges.del off } :=
  ⟨rfl, id, fun (e : c.ranges = []) => by show c.ranges.del off = []; rw [e]; rfl⟩

end Ctx.Kept

/-- A record since `o` that grid `k`, if any, completes with: groups, teams, queues and the other grids stand as they stood, whose the
residencies are, and what contexts keep. -/
structure Recorded (o : State) (k : Option Nat) (s : State) : Prop where
  groups : s.groups = o.groups
  teams : s.teams = o.teams
  saved : s.savedTeams = o.savedTeams
  queues : s.queues = o.queues
  residents : s.residents = o.residents
  ctxs : ∀ ck, (o.ctx ck).Kept (s.ctx ck)
  others : ∀ k', k ≠ some k' → s.grids.get? k' = o.grids.get? k'

namespace Recorded

variable {o s t : State} {k : Option Nat}

theorem refl (s : State) (k : Option Nat) : Recorded s k s := ⟨rfl, rfl, rfl, rfl, rfl, fun _ => .refl _, fun _ _ => rfl⟩

theorem trans (h : Recorded o k s) (h' : Recorded s k t) : Recorded o k t where
  groups := h'.groups.trans h.groups
  teams := h'.teams.trans h.teams
  queues := h'.queues.trans h.queues
  residents := h'.residents.trans h.residents
  saved := h'.saved.trans h.saved
  ctxs ck := (h.ctxs ck).trans (h'.ctxs ck)
  others k' other := (h'.others k' other).trans (h.others k' other)

theorem of_standing (same : t.standing = s.standing) (k : Option Nat) : Recorded s k t where
  groups := groups_of_work (work_of_standing same)
  teams := teams_of_work (work_of_standing same)
  queues := queues_of_work (work_of_standing same)
  residents := residents_of_standing same
  saved := savedTeams_of_standing same
  ctxs ck := by
    rw [show t.ctx ck = s.ctx ck from congrArg (fun m : Tbl Ctx => (m.get? ck).getD {}) (ctxs_of_standing same)]
    exact .refl _
  others k' _ := congrArg (Tbl.get? · k') (grids_of_work (work_of_standing same))

theorem held (s : State) (k : Option Nat) (m : Tbl HeldRecord) : Recorded s k { s with heldRecords := m } :=
  ⟨rfl, rfl, rfl, rfl, rfl, fun _ => .refl _, fun _ _ => rfl⟩

theorem modGrid (s : State) (k : Nat) (f : Grid → Grid) : Recorded s (some k) (s.modGrid k f) where
  groups := rfl
  teams := rfl
  queues := rfl
  residents := rfl
  saved := rfl
  ctxs _ := .refl _
  others k' other := by rw [State.modGrid, Tbl.get?_modify, if_neg fun e => other (congrArg some e)]

theorem modCtx (s : State) (k : Option Nat) (ck : Nat) {f : Ctx → Ctx} (kept : ∀ c : Ctx, c.Kept (f c)) :
    Recorded s k (s.modCtx ck f) where
  groups := rfl
  teams := rfl
  queues := rfl
  residents := rfl
  saved := rfl
  ctxs ck' := by
    rw [modCtx_ctx]
    split
    next here => exact here ▸ kept _
    next => exact .refl _
  others _ _ := rfl

theorem drop (s : State) (k : Nat) : Recorded s (some k) { s with grids := s.grids.del k } where
  groups := rfl
  teams := rfl
  queues := rfl
  residents := rfl
  saved := rfl
  ctxs _ := .refl _
  others k' other := by rw [Tbl.get?_del, if_neg fun e => other (congrArg some e)]

end Recorded

theorem gridComplete_recorded (s : State) (k : Nat) : Recorded s (some k) (s.gridComplete k) := by
  unfold State.gridComplete
  split
  · exact .refl ..
  next g _ =>
    extract_lets s1 s2
    have told : s2.standing = s.standing := by
      unfold s2
      split
      · exact signal_standing ..
      · exact (notified_queueMsix ..).standing.trans (signal_standing ..)
    have left := (Recorded.of_standing told (some k)).trans
      (.modCtx s2 _ g.ck (f := fun c => { c with devq := dropFrom c.devq k }) fun c => .dropDevq c k)
    exact left.trans (.drop _ k)

theorem gridComplete_gone (s : State) (k : Nat) : (s.gridComplete k).grids.get? k = none := by
  unfold State.gridComplete
  split
  next none => exact none
  · exact Tbl.get?_del_same ..

section

variable (s : State) {h : HeldRecord}

theorem recordDone_of_none (grid : h.grid = none) (job : h.job = none) : s.recordDone h = s := by
  simp only [State.recordDone, grid, job]

theorem recordDone_of_grid {k : Nat} (grid : h.grid = some k) (job : h.job = none) : s.recordDone h = s.gridComplete k := by
  simp only [State.recordDone, grid, job]

theorem recordDone_recorded (job : h.job = none) : Recorded s h.grid (s.recordDone h) := by
  cases grid : h.grid with
  | none =>
    rw [recordDone_of_none s grid job]
    exact .refl ..
  | some k =>
    rw [recordDone_of_grid s grid job]
    exact gridComplete_recorded s k

theorem moveRecord_recorded (job : h.job = none) (n : Nat) (bytes : List Byte) (detail : Nat) :
    Recorded s h.grid (s.moveRecord n h bytes detail) := by
  unfold State.moveRecord
  extract_lets s1 lost s2
  have moved : Recorded s h.grid s1 := .of_standing (notified_redirect ..).standing _
  split
  · exact moved.trans (.held ..)
  · have listed : Recorded s h.grid s2 := moved.trans (.held ..)
    refine (listed.trans ?_).trans (recordDone_recorded _ job)
    cases h.grid with
    | none => exact .refl ..
    | some k => exact .modGrid ..

theorem tryRecord_recorded (job : h.job = none) (n : Nat) : Recorded s h.grid (s.tryRecord n h) := by
  unfold State.tryRecord
  split
  next lo hi _ =>
    have tried := ringWrite_standing s h.ck h.inCore h.ring lo hi h.bytes
    split
    next u e => rw [e] at tried; exact (Recorded.of_standing tried _).trans (.held ..)
    next u b d e => rw [e] at tried; exact (Recorded.of_standing tried _).trans (moveRecord_recorded u job ..)
    next u slot e =>
      rw [e] at tried
      exact (((Recorded.of_standing tried _).trans (.held ..)).trans (.of_standing (recordNote_standing ..) _)).trans
        (recordDone_recorded _ job)

theorem putRecord_recorded {k : Option Nat} (grid : h.grid = k) (job : h.job = none) : Recorded s k (s.putRecord h) := by
  subst grid
  have counted : Recorded s h.grid { s with nextId := s.nextId + 1 } := ⟨rfl, rfl, rfl, rfl, rfl, fun _ => .refl _, fun _ _ => rfl⟩
  unfold State.putRecord State.fresh
  dsimp only
  split
  · exact counted.trans (.held ..)
  · exact counted.trans (tryRecord_recorded _ job _)

/-- Grid `k` is gone, or a record that it completes with is held. -/
def State.goneOrHeld (s : State) (k : Nat) : Prop := s.grids.get? k = none ∨ ∃ h ∈ s.heldRecords, h.2.grid = some k

theorem goneOrHeld_of_put {k : Nat} (grid : h.grid = some k) (n : Nat) {s : State} (put : s.heldRecords.get? n = some h) :
    s.goneOrHeld k := .inr ⟨_, Tbl.mem_of_get? put, grid⟩

theorem putRecord_goneOrHeld {k : Nat} (grid : h.grid = some k) (job : h.job = none) : (s.putRecord h).goneOrHeld k := by
  have done (u : State) : (u.recordDone h).goneOrHeld k := by
    rw [recordDone_of_grid u grid job]
    exact .inl (gridComplete_gone u k)
  unfold State.putRecord State.fresh
  dsimp only
  split
  · exact goneOrHeld_of_put grid _ (Tbl.get?_put_same ..)
  · unfold State.tryRecord
    split
    split
    · exact goneOrHeld_of_put grid _ (Tbl.get?_put_same ..)
    · unfold State.moveRecord
      extract_lets s1 lost s2
      split
      · exact .inr ⟨_, Tbl.mem_of_get? (Tbl.get?_put_same ..), grid⟩
      · exact done _
    · exact done _

end

theorem gridRecord_recorded (s : State) (g : Grid) (bytes : List Byte) (grid : Option Nat) (behind : List Nat) :
    Recorded s grid (s.gridRecord g bytes grid behind) := putRecord_recorded s rfl rfl

theorem closeGrid_recorded (s : State) (k : Nat) (rejected : Bool) : Recorded s (some k) (s.closeGrid k rejected) := by
  unfold State.closeGrid
  split
  · exact .refl ..
  · extract_lets s1
    have freed : s1.standing = s.standing := by
      unfold s1
      split <;> rfl
    exact (Recorded.of_standing freed _).trans (.modGrid ..)

theorem endGrid_recorded (s : State) (k status detail : Nat) (behind : List Nat) :
    Recorded s (some k) (s.endGrid k status detail behind) := by
  unfold State.endGrid
  split
  · exact .refl ..
  · exact (closeGrid_recorded ..).trans (gridRecord_recorded ..)

/-- A grid that ends is gone, or its record waits (02 R47, R53). -/
theorem endGrid_goneOrHeld (s : State) (k status detail : Nat) (behind : List Nat) :
    (s.endGrid k status detail behind).goneOrHeld k := by
  unfold State.endGrid
  split
  next none => exact .inl none
  · exact putRecord_goneOrHeld _ rfl rfl

end Sys2Proof.Machine
end

section
/-! SUPPORT and PROOFS. Teams start and retire, and their grid with them (O36). -/

namespace Sys2Proof.Tbl

variable {β : Type}

theorem read_dropRange (m : Tbl β) (d : β) (lo hi k : Nat) :
    (m.dropRange lo hi).read d k = if lo ≤ k ∧ k < hi then d else m.read d k := by
  rw [read, dropRange, get?_filter_key m (fun k => !(lo ≤ k && k < hi)) k, apply_ite (Option.getD · d)]
  by_cases inside : lo ≤ k ∧ k < hi <;> simp only [← Bool.decide_and, inside] <;> rfl

/-- A table that lists a value for each number of a list. -/
theorem get?_map_list (F : Nat → β) (ks : List Nat) (k : Nat) :
    get? (ks.map fun i => (i, F i)) k = if k ∈ ks then some (F k) else none := by
  induction ks with
  | nil => rfl
  | cons i ks ih =>
    rw [List.map_cons, get?, ih]
    by_cases here : i = k
    · simp [here]
    · simp [here, Ne.symm here]

theorem get?_isSome_of_mem {m : Tbl β} {e : Nat × β} (h : e ∈ m) : (m.get? e.1).isSome = true := by
  induction m with
  | nil => cases h
  | cons x m ih =>
    rw [get?]
    split
    · rfl
    next other =>
      rcases List.mem_cons.1 h with rfl | later
      · exact absurd rfl other
      · exact ih later

theorem del_of_none {m : Tbl β} {k : Nat} (none : m.get? k = none) : m.del k = m := by
  refine List.filter_eq_self.2 fun e listed => ?_
  have some := get?_isSome_of_mem listed
  by_cases same : e.1 = k
  · rw [same, none] at some
    cases some
  · simpa using same

end Sys2Proof.Tbl

namespace Sys2Proof.Machine

/-! ## Loops -/

section

variable {α : Type} {P Q : State → Prop} {f : State → α → State}

theorem foldl_keeps (keeps : ∀ s a, P s → P (f s a)) (l : List α) {s : State} (h : P s) : P (l.foldl f s) :=
  List.foldlRecOn l f h fun s h a _ => keeps s a h

/-- What one turn of a loop brings about and every turn keeps holds after the loop. -/
theorem foldl_sets (always : ∀ s a, Q s → Q (f s a)) (keeps : ∀ s a, P s → P (f s a)) {a : α} (sets : ∀ s, Q s → P (f s a))
    {l : List α} (turn : a ∈ l) {s : State} (h : Q s) : P (l.foldl f s) := by
  induction l generalizing s with
  | nil => cases turn
  | cons b l ih =>
    rcases List.mem_cons.1 turn with rfl | later
    · exact foldl_keeps keeps l (sets s h)
    · exact ih later (always s b h)

end

/-! ## Before a team starts -/

/-- The state without what is made ready for a team that starts. -/
def State.lessReadied (s : State) : State :=
  { s with strongs := [], rels := [], hazy := [], scratch := [], scratchPoison := [], acc := [], accPoison := [], cores := [],
           icache := [] }

/-- A scratchpad byte that reads as zero stays so while scratch is zeroed. -/
theorem zeroPad_zero {s : State} {x : Nat} (h : s.scratch.read 0 x = 0) (c a n : Nat) :
    (s.zeroPad c a n).scratch.read 0 x = 0 := by
  rw [State.zeroPad, Tbl.read_dropRange, h, ite_self]

theorem zeroPad_sets (s : State) (c : Nat) {a n x : Nat} (low : a ≤ x) (high : x < a + n) :
    (s.zeroPad c a n).scratch.read 0 (2 ^ 19 * c + x) = 0 := by
  rw [State.zeroPad, Tbl.read_dropRange, if_pos (by omega)]

theorem zeroTeam_zero {s : State} {t : Team} {p : Packet} {c x : Nat} (core : c ∈ t.cores) (low : 512 * t.b ≤ x)
    (high : x < 512 * t.b + 512 * p.granules) : (s.zeroTeam t p).scratch.read 0 (2 ^ 19 * c + x) = 0 := by
  unfold State.zeroTeam
  have tiles (c' : Nat) (u : State) (h : u.scratch.read 0 (2 ^ 19 * c + x) = 0) :
      (((t.tiles.get? c').getD []).foldl (fun u k => u.zeroTile c' k) u).scratch.read 0 (2 ^ 19 * c + x) = 0 :=
    foldl_keeps (P := fun u => u.scratch.read 0 (2 ^ 19 * c + x) = 0) (f := fun u k => u.zeroTile c' k) (fun _ _ h => h) _ h
  refine foldl_keeps (P := fun u => u.scratch.read 0 (2 ^ 19 * c + x) = 0) (fun _ _ h => zeroPad_zero h ..) _ ?_
  exact foldl_sets (P := fun u => u.scratch.read 0 (2 ^ 19 * c + x) = 0) (Q := fun _ => True) (fun _ _ _ => trivial)
    (fun _ c' h => tiles c' _ (zeroPad_zero h c' ..)) (fun u _ => tiles c _ (zeroPad_sets u c low high)) core trivial

theorem zeroTeam_lessReadied (s : State) (t : Team) (p : Packet) : (s.zeroTeam t p).lessReadied = s.lessReadied := by
  unfold State.zeroTeam
  refine (foldl_leaves State.lessReadied ?_ _ _).trans (foldl_leaves State.lessReadied ?_ _ _)
  · exact fun _ _ => rfl
  · exact fun u c => foldl_leaves State.lessReadied (f := fun u k => u.zeroTile c k) (fun _ _ => rfl) _ _

theorem startAcquire_lessReadied (s : State) (t : Team) (ck : Nat) : (s.startAcquire t ck).lessReadied = s.lessReadied := by
  unfold State.startAcquire
  refine Eq.trans ?_ (foldl_leaves State.lessReadied (f := fun u c => u.modCore c Core.l1Clear) ?_ t.cores s)
  · rfl
  · exact fun _ _ => rfl

theorem startAcquire_l1 (s : State) {t : Team} (ck : Nat) {c : Nat} (core : c ∈ t.cores) :
    ((s.startAcquire t ck).core c).l1 = [] :=
  foldl_sets (P := fun u => (u.core c).l1 = []) (Q := fun _ => True) (fun _ _ _ => trivial)
    (fun u c' h => by
      rw [modCore_core]
      split
      · rfl
      · exact h)
    (fun u _ => by
      rw [modCore_core, if_pos rfl]
      rfl)
    core trivial

theorem startAcquire_scratch (s : State) (t : Team) (ck : Nat) : (s.startAcquire t ck).scratch = s.scratch :=
  foldl_leaves State.scratch (f := fun u c => u.modCore c Core.l1Clear) (fun _ _ => rfl) t.cores s

/-! ## The start of a team -/

/-- The state in which the groups of a team that starts get their first values: scratch, tiles and L1s are ready. -/
def State.readied (s : State) (t : Team) (g : Grid) : State := (s.zeroTeam t g.pkt).startAcquire t g.ck

/-- A group as its team starts. -/
def Group.started (tk : Nat) (t : Team) (p : Packet) (seen : Tbl Nat) (x : Group) : Group :=
  { startGroup tk t p x.gid x.j with
    lanes := (startThreads p x.gid.toNat).map fun (e : Nat × Thread) => (e.1, e.2.sees seen) }

/-- A team as it starts. -/
def Team.begun (clock : Nat) (t : Team) : Team :=
  { t with started := true, startAt := clock, pc := [], rdvs := [], rdvDone := [], conts := [] }

section

variable (s : State) (tk : Nat) (t : Team) (g : Grid)

/-- The state in which a team has started, before the trace of its start. -/
def State.begun : State :=
  { s.readied t g with
    groups := s.groups.map fun e => (e.1, if e.2.team = tk then e.2.started tk t g.pkt (g.seen.join s.endedSeen) else e.2)
    teams := s.teams.modify tk (Team.begun s.clock) }

theorem readied_lessReadied : (s.readied t g).lessReadied = s.lessReadied :=
  (startAcquire_lessReadied ..).trans (zeroTeam_lessReadied ..)

/-- The trace of a team's start, in the name of its first group (18 R426). -/
def State.traceStart (tk ck : Nat) : State :=
  s.trace ck (((s.groups.find? fun e => e.2.team = tk).map (·.1)).getD 0) 0 0 4 none none

/-- Starting a team readies it, starts its groups and traces the start (04 R92). -/
theorem startTeam_eq : s.startTeam tk t g = (s.begun tk t g).traceStart tk g.ck := by
  have same := readied_lessReadied s t g
  have teams : (s.readied t g).teams = s.teams := (congrArg State.teams same :)
  have clock : (s.readied t g).clock = s.clock := (congrArg State.clock same :)
  have groups : ((s.readied t g).groups.map fun e =>
      if e.2.team = tk then (e.1, e.2.started tk t g.pkt (g.seen.join s.endedSeen)) else e) = (s.begun tk t g).groups := by
    rw [show (s.readied t g).groups = s.groups from (congrArg State.groups same :)]
    exact List.map_congr_left fun e _ => by split <;> rfl
  have begun : { s.readied t g with
      groups := (s.readied t g).groups.map fun e =>
        if e.2.team = tk then (e.1, e.2.started tk t g.pkt (g.seen.join s.endedSeen)) else e
      teams := (s.readied t g).teams.modify tk (Team.begun (s.readied t g).clock) } = s.begun tk t g := by
    rw [groups, teams, clock, State.begun]
  rw [← begun]
  rfl

theorem begun_ctx (ck : Nat) : (s.begun tk t g).ctx ck = s.ctx ck :=
  (congrArg (fun u : State => u.ctx ck) (readied_lessReadied s t g) :)

theorem begun_mem : (s.begun tk t g).mem = s.mem := (congrArg State.mem (readied_lessReadied s t g) :)

theorem begun_l1 {c : Nat} (core : c ∈ t.cores) : ((s.begun tk t g).core c).l1 = [] := startAcquire_l1 _ g.ck core

theorem begun_scratch {c a : Nat} (core : c ∈ t.cores) (low : 512 * t.b ≤ a) (high : a < 512 * t.b + 512 * g.pkt.granules) :
    (s.begun tk t g).scratch.read 0 (2 ^ 19 * c + a) = 0 := by
  rw [State.begun, State.readied, startAcquire_scratch]
  exact zeroTeam_zero core low high

theorem begun_group {gk : Nat} {x : Group} (found : s.groups.get? gk = some x) (team : x.team = tk) :
    (s.begun tk t g).groups.get? gk = some (x.started tk t g.pkt (g.seen.join s.endedSeen)) := by
  refine (Tbl.get?_map_value s.groups (fun x =>
    if x.team = tk then x.started tk t g.pkt (g.seen.join s.endedSeen) else x) gk).trans ?_
  rw [found, Option.map_some, if_pos team]

/-- A trace changes its context's count of records, and writes one. -/
theorem trace_recorded (s : State) (ck gk lane : Nat) (lpc : Word) (kind : Nat) (tag value : Option Nat) (k : Option Nat) :
    Recorded s k (s.trace ck gk lane lpc kind tag value) := by
  unfold State.trace
  extract_lets c size n u
  split
  · have counted : Recorded s k u := .modCtx s k ck fun _ => ⟨rfl, id, id⟩
    have numbered : u.freeIdx.2.standing = u.standing := rfl
    exact (counted.trans (.of_standing numbered k)).trans (.of_standing (devWrite_standing ..) k)
  · exact .refl ..

theorem traceStart_of_off {ck : Nat} (off : bitOf (s.ctx ck).trcctl 31 = false) : s.traceStart tk ck = s := by
  unfold State.traceStart State.trace
  simp only [off, Bool.false_and, Bool.false_eq_true, if_false]

theorem startTeam_teams : (s.startTeam tk t g).teams = s.teams.modify tk (Team.begun s.clock) :=
  (congrArg State.teams (startTeam_eq s tk t g)).trans (trace_recorded _ _ _ _ _ _ _ _ none).teams

end

section

variable (x : Group) (tk : Nat) (t : Team) (p : Packet) (seen : Tbl Nat)

theorem scalar_setScalar (g : Group) (i j : Nat) (v : Word) : (g.setScalar i v).scalar j = if i = j then v else g.scalar j := by
  unfold Group.scalar
  rw [setScalar_scal, Tbl.read_write]

theorem scalars_of_writes (g : Group) {v : Nat} (small : v < 2 ^ 64) (a b : Word) :
    let y := ((g.setScalars 0 2 v).setScalar 2 a).setScalar 3 b
    y.scalars 0 2 = v ∧ y.scalar 2 = a ∧ y.scalar 3 = b := by
  intro y
  have read (i : Nat) : y.scalar i = if 3 = i then b else if 2 = i then a else (g.setScalars 0 2 v).scalar i := by
    rw [scalar_setScalar, scalar_setScalar]
  refine ⟨?_, read 2, read 3⟩
  have param := scalars_setScalars g 0 2 v
  rw [Nat.mod_eq_of_lt small] at param
  rw [← param]
  simp only [Group.scalars, read]
  rfl

theorem started_lanes (l : Nat) : (x.started tk t p seen).lanes.get? l =
    if l < 32 ∧ 32 * x.gid.toNat + l < p.threads then some (Thread.sees seen { tid := 32 * x.gid.toNat + l }) else none := by
  refine (Tbl.get?_map_value (startThreads p x.gid.toNat) (Thread.sees seen) l).trans ?_
  unfold startThreads
  rw [Tbl.get?_map_list (fun l => ({ tid := 32 * x.gid.toNat + l } : Thread))]
  simp only [List.mem_filter, List.mem_range, decide_eq_true_eq]
  split <;> rfl

end

section

variable {s : State} {tk : Nat} {tm : Team} {g : Grid}

/-- A team that stands before another of its dispatcher's teams of the grid, held unplaced or saved ones among them (03 R80). -/
theorem nextToStart_eq_false (grid : s.gridOf tm = some g) : s.nextToStart tk tm = false ↔
    (∃ e ∈ s.teams, e.1 ≠ tk ∧ e.2.started = false ∧ e.2.grid = tm.grid ∧ e.2.d = tm.d ∧ e.2.idx < tm.idx) ∨
      (g.pkt.cres = false ∧ ∃ e ∈ g.held, e.1 = tm.d ∧ e.2 < tm.idx) ∨
      ∃ e ∈ s.savedTeams, e.1 ≠ tk ∧ e.2.team.grid = tm.grid ∧ e.2.team.d = tm.d ∧ e.2.team.idx < tm.idx := by
  unfold State.nextToStart
  rw [grid]
  simp only [Option.all_some, Bool.and_eq_false_iff, List.all_eq_false, Bool.or_eq_false_iff, Bool.or_eq_true, not_or,
    decide_eq_true_eq, Bool.not_eq_true, ne_eq, not_not, not_le, or_assoc]

theorem teamStart_of (found : s.teams.get? tk = some tm) (grid : s.gridOf tm = some g) : exec (.teamStart tk) s = .next (
    if tm.started || tm.yielding || (s.savedTeams.get? tk).isSome || !s.nextToStart tk tm then s
    else (s.startSet tk tm g).foldl (fun s e => s.startTeam e.1 e.2 g) s) := by
  rw [exec_teamStart, execTeamStart, found]
  dsimp only [Option.bind_some]
  rw [grid]

/-- A co-resident grid's teams start together (04 R92). -/
theorem startSet_started (whole : g.pkt.cres = true) {e : Nat × Team} (listed : e ∈ s.teams) (same : e.2.grid = tm.grid)
    (idle : e.2.started = false) (here : s.savedTeams.get? e.1 = none) :
    ∃ tm', ((s.startSet tk tm g).foldl (fun s e => s.startTeam e.1 e.2 g) s).teams.get? e.1 = some tm' ∧
      tm'.started = true := by
  have turn : e ∈ s.startSet tk tm g := by
    rw [State.startSet, if_pos whole, List.mem_filter]
    exact ⟨listed, by simp [same, idle, here]⟩
  have start (u : State) (x : Nat × Team) : (u.startTeam x.1 x.2 g).teams.get? e.1 =
      if x.1 = e.1 then (u.teams.get? e.1).map (Team.begun u.clock) else u.teams.get? e.1 := by
    rw [startTeam_teams, Tbl.get?_modify]
  refine foldl_sets (P := fun u => ∃ tm', u.teams.get? e.1 = some tm' ∧ tm'.started = true)
    (Q := fun u => ∃ tm', u.teams.get? e.1 = some tm') (fun u x h => ?_) (fun u x h => ?_) (fun u h => ?_) turn
    (Option.isSome_iff_exists.1 (Tbl.get?_isSome_of_mem listed))
  · obtain ⟨tm', h⟩ := h
    rw [start, h]
    split <;> exact ⟨_, rfl⟩
  · obtain ⟨tm', h, started⟩ := h
    rw [start, h]
    split
    · exact ⟨_, rfl, rfl⟩
    · exact ⟨_, rfl, started⟩
  · obtain ⟨tm', h⟩ := h
    rw [start, if_pos rfl, h]
    exact ⟨_, rfl, rfl⟩

theorem startSet_alone (alone : g.pkt.cres = false) (off : bitOf (s.ctx g.ck).trcctl 31 = false) :
    (s.startSet tk tm g).foldl (fun s e => s.startTeam e.1 e.2 g) s = s.begun tk tm g := by
  rw [State.startSet, if_neg (by simp [alone]), List.foldl_cons, List.foldl_nil, startTeam_eq]
  exact traceStart_of_off _ tk (by rw [begun_ctx]; exact off)

end

/-! ## A team is removed -/

section

variable (s : State) (tk : Nat)

theorem endResidency_residencies (k : Nat) : (s.endResidency k).residencies = s.residencies.del k := by
  unfold State.endResidency
  split
  next none =>
    exact (Tbl.del_of_none none).symm
  · extract_lets zeroOn s1 s2
    have zero (u : State) (c : Nat) : (zeroOn u c).residencies = u.residencies := by
      unfold zeroOn
      split <;> rfl
    have both : s2.residencies = s.residencies := by
      unfold s2 s1
      split
      · exact (zero ..).trans (zero ..)
      · exact zero ..
    exact congrArg (Tbl.del · k) both

/-- The state without residencies, their weights and watch entries, and without what cores hold. -/
def State.lessRes (s : State) : State := { s with residencies := [], watches := [], weights := [], scales := [], cores := [] }

theorem endResidency_lessRes (k : Nat) : (s.endResidency k).lessRes = s.lessRes := by
  unfold State.endResidency
  split
  · rfl
  · extract_lets zeroOn s1 s2
    have zero (u : State) (c : Nat) : (zeroOn u c).lessRes = u.lessRes := by
      unfold zeroOn
      split <;> rfl
    have both : s2.lessRes = s.lessRes := by
      unfold s2 s1
      split
      · exact (zero ..).trans (zero ..)
      · exact zero ..
    exact both

/-- After some residencies have ended, the others stand. -/
theorem endResidencies_residencies (l : Tbl Res) :
    ∀ e ∈ (l.foldl (fun s e => s.endResidency e.1) s).residencies, e ∈ s.residencies ∧ ∀ x ∈ l, e.1 ≠ x.1 := by
  refine fun e listed => ⟨?_, fun x turn => ?_⟩
  · refine foldl_keeps (P := fun u => ∀ e ∈ u.residencies, e ∈ s.residencies) (fun u x h e he => ?_) l (fun e he => he) e listed
    rw [endResidency_residencies] at he
    exact h e (List.mem_of_mem_filter he)
  · refine foldl_sets (P := fun u => ∀ e ∈ u.residencies, e.1 ≠ x.1) (Q := fun _ => True) (fun _ _ _ => trivial)
      (fun u y h e he => ?_) (fun u _ e he => ?_) turn trivial e listed
    · rw [endResidency_residencies] at he
      exact h e (List.mem_of_mem_filter he)
    · rw [endResidency_residencies] at he
      simpa using List.of_mem_filter he

/-- The residencies of a team end (13 R335). -/
def State.endResidencies : State := (s.residencies.filter fun e => e.2.team = tk).foldl (fun s e => s.endResidency e.1) s

theorem endResidencies_lessRes : (s.endResidencies tk).lessRes = s.lessRes :=
  foldl_leaves State.lessRes (f := fun u (e : Nat × Res) => u.endResidency e.1) (fun u e => endResidency_lessRes u e.1) _ s

theorem endResidencies_team : ∀ e ∈ (s.endResidencies tk).residencies, e.2.team ≠ tk := fun e listed team => by
  obtain ⟨stood, other⟩ := endResidencies_residencies s _ e listed
  exact other e (List.mem_filter.2 ⟨stood, by simpa using team⟩) rfl

/-- The state without what a team that is removed holds. -/
def State.lessHeld : State :=
  { s.lessRes with groups := [], jobs := [], heldRecords := [], barSlots := [], walks := [], tokens := [], teams := [] }

section

variable {s t : State} (h : t.lessHeld = s.lessHeld)

include h

theorem grids_of_lessHeld : t.grids = s.grids := (congrArg State.grids h :)

theorem savedTeams_of_lessHeld : t.savedTeams = s.savedTeams := (congrArg State.savedTeams h :)

theorem queues_of_lessHeld : t.queues = s.queues := (congrArg State.queues h :)

theorem ctx_of_lessHeld (ck : Nat) : t.ctx ck = s.ctx ck := (congrArg (fun u : State => u.ctx ck) h :)

end

/-- Freeing cores leaves what the end of a team's residencies left. -/
theorem freeCores_lessRes (cs : List Nat) (f : Nat → Core → Core) :
    (cs.foldl (fun u c => u.modCore c (f c)) (s.endResidencies tk)).lessRes = s.lessRes :=
  (foldl_leaves State.lessRes (f := fun u c => u.modCore c (f c)) (fun _ _ => rfl) cs _).trans (endResidencies_lessRes s tk)

theorem freeCores_residencies (cs : List Nat) (f : Nat → Core → Core) :
    ∀ e ∈ (cs.foldl (fun u c => u.modCore c (f c)) (s.endResidencies tk)).residencies, e.2.team ≠ tk := by
  rw [foldl_leaves State.residencies (f := fun u c => u.modCore c (f c)) (fun _ _ => rfl)]
  exact endResidencies_team s tk

/-- A team is removed with its groups and residencies, and what no team holds stays (04 R90; 13 R335). -/
theorem removeTeam_of {t : Team} (found : s.teams.get? tk = some t) :
    (s.removeTeam tk).teams = s.teams.del tk ∧ (s.removeTeam tk).groups = s.groups.filter (fun e => e.2.team ≠ tk) ∧
      (∀ e ∈ (s.removeTeam tk).residencies, e.2.team ≠ tk) ∧ (s.removeTeam tk).lessHeld = s.lessHeld := by
  unfold State.removeTeam
  rw [found]
  refine ⟨?_, ?_, ?_, ?_⟩
  · exact (congrArg (fun u : State => u.teams.del tk) (freeCores_lessRes s tk t.cores fun _ => _) :)
  · exact (congrArg (fun u : State => u.groups.filter (fun e => e.2.team ≠ tk)) (freeCores_lessRes s tk t.cores fun _ => _) :)
  · exact freeCores_residencies s tk t.cores fun _ => _
  · exact (congrArg State.lessHeld (freeCores_lessRes s tk t.cores fun _ => _) :)

theorem removeTeam_teams : (s.removeTeam tk).teams = s.teams.del tk := by
  cases found : s.teams.get? tk with
  | none =>
    rw [Tbl.del_of_none found, State.removeTeam, found]
  | some t => exact (removeTeam_of s tk found).1

theorem removeTeam_lessHeld : (s.removeTeam tk).lessHeld = s.lessHeld := by
  cases found : s.teams.get? tk with
  | none => rw [State.removeTeam, found]
  | some t => exact (removeTeam_of s tk found).2.2.2

end

theorem writePhys_standing (s : State) (ck pa : Nat) (b : List Byte) : (s.writePhys ck pa b).standing = s.standing :=
  writeHome_standing ..

/-- Freeing a range of a save area changes the ranges held and the header of the area (17 R412). -/
theorem freeRange_recorded (s : State) (ck off size : Nat) (saved : Bool) (k : Option Nat) :
    Recorded s k (s.freeRange ck off size saved) := by
  unfold State.freeRange
  extract_lets u c h used n hwm
  have freed : Recorded s k u := .modCtx s k ck fun c => .delRange c off
  exact freed.trans (.of_standing (((writePhys_standing ..).trans (writePhys_standing ..)).trans (writePhys_standing ..)) k)

/-! ## Retirement -/

section

variable {s : State} {tk : Nat} {tm : Team} {g : Grid}

/-- What a team's retirement begins with: its save range is free again, and the retirement is traced. -/
def State.retireTeam (s : State) (t : Team) (g : Grid) : State :=
  let s := match t.pending with
    | some p => s.freeRange g.ck p.off p.size false
    | none => s
  s.trace g.ck (32 * t.cores.headD 0) 0 0 5 none none

theorem retireTeam_recorded (s : State) (t : Team) (g : Grid) : Recorded s none (s.retireTeam t g) := by
  unfold State.retireTeam
  extract_lets u
  have freed : Recorded s none u := by
    unfold u
    split
    · exact freeRange_recorded ..
    · exact .refl ..
  exact freed.trans (trace_recorded ..)

theorem teamRetire_of_unfinished (found : s.teams.get? tk = some tm) (grid : s.gridOf tm = some g)
    (unfinished : s.teamDone tk tm = false) : exec (.teamRetire tk) s = .next s := by
  rw [exec_teamRetire, execTeamRetire, found]
  dsimp only [Option.bind_some]
  rw [grid]
  simp only [unfinished, Bool.not_false, if_true]

theorem teamRetire_of_done (found : s.teams.get? tk = some tm) (grid : s.gridOf tm = some g)
    (done : s.teamDone tk tm = true) :
    let u := ((s.retireTeam tm g).removeTeam tk).modGrid tm.grid fun g => { g with retired := g.retired + 1 }
    ∃ bytes, exec (.teamRetire tk) s = .next (u.gridRecord g bytes none []) := by
  intro u
  rw [exec_teamRetire, execTeamRetire, found]
  dsimp only [Option.bind_some]
  rw [grid]
  simp only [done, Bool.not_true, Bool.false_eq_true, if_false]
  exact ⟨_, rfl⟩

/-- A finished team retires: it is gone with what it holds, and its grid counts it (18 R418). -/
theorem teamRetire_retires (found : s.teams.get? tk = some tm) (grid : s.gridOf tm = some g)
    (done : s.teamDone tk tm = true) :
    ∃ t, exec (.teamRetire tk) s = .next t ∧ t.teams.get? tk = none ∧ (∀ e ∈ t.groups, e.2.team ≠ tk) ∧
      (∀ e ∈ t.residencies, e.2.team ≠ tk) ∧ ∃ g', t.grids.get? tm.grid = some g' ∧ g'.retired = g.retired + 1 := by
  obtain ⟨bytes, turn⟩ := teamRetire_of_done found grid done
  have begun := retireTeam_recorded s tm g
  obtain ⟨teams, groups, residencies, rest⟩ := removeTeam_of (s.retireTeam tm g) tk (begun.teams.symm ▸ found)
  have record := gridRecord_recorded (((s.retireTeam tm g).removeTeam tk).modGrid tm.grid
    fun g => { g with retired := g.retired + 1 }) g bytes none []
  have listed : ((s.retireTeam tm g).removeTeam tk).grids.get? tm.grid = some g := by
    rw [grids_of_lessHeld rest, begun.others _ nofun]
    exact grid
  refine ⟨_, turn, ?_, fun e he => ?_, fun e he team => ?_, ?_⟩
  · rw [record.teams]
    have gone : ((s.retireTeam tm g).removeTeam tk).teams.get? tk = none := by
      rw [teams]
      exact Tbl.get?_del_same ..
    exact gone
  · rw [record.groups] at he
    have he : e ∈ ((s.retireTeam tm g).removeTeam tk).groups := he
    rw [groups] at he
    simpa using List.of_mem_filter he
  · have resident : tk ∈ State.residents _ := List.mem_map.2 ⟨e, he, team⟩
    rw [record.residents] at resident
    obtain ⟨x, hx, team⟩ := List.mem_map.1 resident
    exact residencies x hx team
  · refine ⟨{ g with retired := g.retired + 1 }, ?_, rfl⟩
    rw [record.others _ nofun, modGrid_of listed]
    exact Tbl.get?_put_same ..

theorem gridRetire_of_busy {k : Nat} (found : s.grids.get? k = some g)
    (busy : g.stage ≠ .released ∨ g.retired ≠ g.pkt.total) : exec (.gridRetire k) s = .next s := by
  rw [exec_gridRetire, execGridRetire, found]
  exact congrArg Host.Outcome.next (if_neg (by simpa [imp_iff_not_or] using busy))

theorem gridRetire_of_done {k : Nat} (found : s.grids.get? k = some g) (released : g.stage = .released)
    (retired : g.retired = g.pkt.total) : exec (.gridRetire k) s = .next (s.endGrid k 0 g.pkt.corrid.toNat []) := by
  rw [exec_gridRetire, execGridRetire, found]
  exact congrArg Host.Outcome.next (if_pos (by simp [released, retired]))

end

/-- Settles O36: a team that starts is readied, and its groups and its threads get their first values; a co-resident grid's teams
are started in one loop; a team that retires is removed, and a grid that retires is gone or its record waits. -/
theorem teamsStartAndRetire : Obligations.TeamsStartAndRetire := by
  unfold Obligations.TeamsStartAndRetire
  refine ⟨fun tk s tm g found grid => ?_, fun k s g found => ⟨gridRetire_of_busy found, fun released retired => ?_⟩⟩
  · intro waits
    have held : (tm.started || tm.yielding || (s.savedTeams.get? tk).isSome || !s.nextToStart tk tm) = true ↔ waits := by
      simp only [Bool.or_eq_true, Bool.not_eq_true', nextToStart_eq_false grid, or_assoc, waits]
    have turn := teamStart_of found grid
    refine ⟨fun w => ?_, fun free whole => ?_, fun free alone off => ?_, teamRetire_of_unfinished found grid,
      teamRetire_retires found grid⟩
    · rw [turn, if_pos (held.2 w)]
    · rw [turn, if_neg (mt held.1 free)]
      exact ⟨_, rfl, fun e listed same idle here => startSet_started whole listed same idle here⟩
    · rw [turn, if_neg (mt held.1 free), startSet_alone alone off]
      refine ⟨_, tm.begun s.clock, rfl, ?_, rfl, rfl, rfl, begun_mem .., fun c core => ⟨begun_l1 _ _ _ _ core, fun a low high =>
        begun_scratch _ _ _ _ core low high⟩, fun gk x listed team => ⟨_, begun_group _ _ _ _ listed team, ?_⟩⟩
      · exact (Tbl.get?_modify ..).trans (by rw [if_pos rfl, found]; rfl)
      · obtain ⟨param, run, rank⟩ := scalars_of_writes
          ({ team := tk, gid := x.gid, j := x.j, tbase := g.pkt.tbase } : Group) g.pkt.param.isLt (BitVec.ofNat 32 (512 * tm.b))
          (BitVec.ofNat 32 x.j)
        exact ⟨rfl, rfl, param, run, rank, started_lanes x tk tm g.pkt _⟩
  · have ended := ended_endGrid s k 0 g.pkt.corrid.toNat []
    have record := endGrid_recorded s k 0 g.pkt.corrid.toNat []
    refine ⟨_, gridRetire_of_done found released retired, record.teams, record.groups, ?_⟩
    obtain gone | held := endGrid_goneOrHeld s k 0 g.pkt.corrid.toNat []
    · exact .inl gone
    · cases listed : (s.endGrid k 0 g.pkt.corrid.toNat []).grids.get? k with
      | none => exact .inl rfl
      | some g' => exact .inr ⟨held, g', rfl, ended.ended g' listed⟩

end Sys2Proof.Machine
end

section
/-! SUPPORT. What the removal of a grid's teams leaves, and what an abort of grids leaves (O45, O47). -/

namespace Sys2Proof.Tbl

variable {β : Type}

theorem sorted_of_sublist {m m' : Tbl β} (h : List.Sublist m m') (sorted : m'.sorted = true) : m.sorted = true := by
  unfold Tbl.sorted at *
  rw [decide_eq_true_eq] at *
  exact sorted.sublist (h.map _)

end Sys2Proof.Tbl

namespace Sys2Proof.Machine

/-! ## Work that goes -/

/-- Teams have gone since `o`: no team, saved team or group is new, and a team that has gone took its groups along. -/
structure Fewer (o s : State) : Prop where
  teams : s.teams.Sublist o.teams
  saved : s.savedTeams.Sublist o.savedTeams
  groups : s.groups.Sublist o.groups
  team : ∀ tk, s.teams.get? tk = o.teams.get? tk ∨ (s.teams.get? tk = none ∧ ∀ e ∈ s.groups, e.2.team ≠ tk)

/-- Work has gone since `o`: teams have gone, and queues and contexts stand but for what the end of work takes from them. -/
structure Shrunk (o s : State) : Prop extends Fewer o s where
  queues : s.queues = o.queues
  ctxs : ∀ ck, (o.ctx ck).Kept (s.ctx ck)

section

variable {o s t : State}

theorem Fewer.refl (s : State) : Fewer s s := ⟨.refl _, .refl _, .refl _, fun _ => .inl rfl⟩

theorem Fewer.trans (h : Fewer o s) (h' : Fewer s t) : Fewer o t where
  teams := h'.teams.trans h.teams
  saved := h'.saved.trans h.saved
  groups := h'.groups.trans h.groups
  team tk := by
    obtain stands | ⟨gone, groups⟩ := h.team tk
    · rw [← stands]
      exact h'.team tk
    · obtain stands | gone' := h'.team tk
      · exact .inr ⟨stands.trans gone, fun e he => groups e (h'.groups.subset he)⟩
      · exact .inr gone'

theorem Shrunk.refl (s : State) : Shrunk s s := ⟨.refl s, rfl, fun _ => .refl _⟩

theorem Shrunk.trans (h : Shrunk o s) (h' : Shrunk s t) : Shrunk o t :=
  ⟨h.toFewer.trans h'.toFewer, h'.queues.trans h.queues, fun ck => (h.ctxs ck).trans (h'.ctxs ck)⟩

end

theorem Recorded.shrunk {o s : State} {k : Option Nat} (h : Recorded o k s) : Shrunk o s where
  teams := h.teams ▸ .refl _
  saved := h.saved ▸ .refl _
  groups := h.groups ▸ .refl _
  team tk := .inl (congrArg (Tbl.get? · tk) h.teams)
  queues := h.queues
  ctxs := h.ctxs

theorem foldl_shrunk {α : Type} {f : State → α → State} (each : ∀ s a, Shrunk s (f s a)) (l : List α) (s : State) :
    Shrunk s (l.foldl f s) :=
  foldl_keeps (P := Shrunk s) (fun u a h => h.trans (each u a)) l (.refl s)

theorem removeTeam_shrunk (s : State) (tk : Nat) : Shrunk s (s.removeTeam tk) := by
  cases found : s.teams.get? tk with
  | none =>
    rw [State.removeTeam, found]
    exact .refl s
  | some t =>
    obtain ⟨teams, groups, -, rest⟩ := removeTeam_of s tk found
    have saved := savedTeams_of_lessHeld rest
    refine ⟨⟨teams ▸ List.filter_sublist, saved ▸ .refl _, groups ▸ List.filter_sublist, fun k => ?_⟩, queues_of_lessHeld rest,
      fun ck => ctx_of_lessHeld rest ck ▸ .refl _⟩
    · rw [teams, Tbl.get?_del]
      split
      next here => exact .inr ⟨rfl, fun e he => by rw [groups] at he; simpa [here] using List.of_mem_filter he⟩
      next => exact .inl rfl

/-! ## The teams of a grid are removed -/

/-- The state without what the removal of a grid's teams changes. -/
def State.lessStripped (s : State) : State :=
  { s.lessHeld with savedTeams := [], ctxs := [], mem := [], memPoison := [], rels := [], l2 := [] }

section

variable (s : State)

theorem freeRange_lessStripped (ck off size : Nat) (saved : Bool) :
    (s.freeRange ck off size saved).lessStripped = s.lessStripped := by
  unfold State.freeRange
  extract_lets u c h used n hwm
  have written (v : State) (pa : Nat) (b : List Byte) : (v.writePhys ck pa b).lessStripped = v.lessStripped := by
    obtain ⟨mem, poison, rels, residencies, l2, e⟩ := written_writePhys v ck pa b
    rw [e]
    rfl
  exact (written ..).trans ((written ..).trans (written ..))

/-- A team is removed, and the range that it was to be saved to is free again (17 R412). -/
def State.dropTeam (ck : Nat) (e : Nat × Team) : State :=
  let s := match e.2.pending with
    | some p => s.freeRange ck p.off p.size false
    | none => s
  s.removeTeam e.1

theorem dropTeam_lessStripped (ck : Nat) (e : Nat × Team) : (s.dropTeam ck e).lessStripped = s.lessStripped := by
  unfold State.dropTeam
  extract_lets u
  have freed : u.lessStripped = s.lessStripped := by
    unfold u
    split
    · exact freeRange_lessStripped ..
    · rfl
  refine Eq.trans ?_ freed
  exact congrArg (fun v : State => { v with savedTeams := [], ctxs := [], mem := [], memPoison := [], rels := [], l2 := [] })
    (removeTeam_lessHeld u e.1)

theorem dropTeam_shrunk (ck : Nat) (e : Nat × Team) :
    Shrunk s (s.dropTeam ck e) ∧ (s.dropTeam ck e).teams = s.teams.del e.1 := by
  unfold State.dropTeam
  extract_lets u
  have freed : Recorded s none u := by
    unfold u
    split
    · exact freeRange_recorded ..
    · exact .refl ..
  exact ⟨freed.shrunk.trans (removeTeam_shrunk u e.1), by rw [removeTeam_teams, freed.teams]⟩

theorem removeSaved_lessStripped (tk ck : Nat) : (s.removeSaved tk ck).lessStripped = s.lessStripped := by
  unfold State.removeSaved
  split
  · rfl
  next v _ =>
    have freed := freeRange_lessStripped (s.endResidencies tk) ck v.off v.size true
    have ended : (s.endResidencies tk).lessStripped = s.lessStripped := congrArg (fun u : State =>
      { u with groups := [], jobs := [], heldRecords := [], barSlots := [], walks := [], tokens := [], teams := [],
               savedTeams := [], ctxs := [], mem := [], memPoison := [], rels := [], l2 := [] }) (endResidencies_lessRes s tk)
    exact freed.trans ended

theorem removeSaved_shrunk (tk ck : Nat) :
    Shrunk s (s.removeSaved tk ck) ∧ (s.removeSaved tk ck).teams = s.teams ∧
      (s.removeSaved tk ck).savedTeams = s.savedTeams.del tk := by
  unfold State.removeSaved
  split
  next none => exact ⟨.refl s, rfl, (Tbl.del_of_none none).symm⟩
  next v _ =>
    extract_lets u
    have ended : u.lessRes = s.lessRes := endResidencies_lessRes s tk
    have freed := freeRange_recorded u ck v.off v.size true none
    have teams : (u.freeRange ck v.off v.size true).teams = s.teams := freed.teams.trans (congrArg State.teams ended :)
    have saved : u.savedTeams.del tk = s.savedTeams.del tk := congrArg (Tbl.del · tk) (congrArg State.savedTeams ended :)
    have fewer : (u.savedTeams.del tk).Sublist s.savedTeams := saved ▸ List.filter_sublist
    have groups : (u.freeRange ck v.off v.size true).groups = s.groups := freed.groups.trans (congrArg State.groups ended :)
    have ctx (k : Nat) : u.ctx k = s.ctx k := (congrArg (fun u : State => u.ctx k) ended :)
    exact ⟨⟨⟨teams ▸ .refl _, fewer, groups ▸ .refl _, fun k => .inl (congrArg (Tbl.get? · k) teams)⟩,
      freed.queues.trans (congrArg State.queues ended :), fun k => ctx k ▸ freed.ctxs k⟩, teams, saved⟩

/-- The resident teams of a grid are removed. -/
def State.dropTeams (k ck : Nat) : State := (s.teams.filter fun e => e.2.grid = k).foldl (fun s e => s.dropTeam ck e) s

/-- The saved teams of a grid are removed. -/
def State.dropSaved (k ck : Nat) : State :=
  (s.savedTeams.filter fun e => e.2.team.grid = k).foldl (fun s e => s.removeSaved e.1 ck) s

theorem stripGrid_eq (k : Nat) : ∃ ck, s.stripGrid k = ((s.dropTeams k ck).dropSaved k ck).modGrid k fun g => { g with held := [] } :=
  ⟨_, rfl⟩

theorem dropTeams_shrunk (k ck : Nat) : Shrunk s (s.dropTeams k ck) :=
  foldl_shrunk (fun u e => (dropTeam_shrunk u ck e).1) _ s

theorem dropSaved_shrunk (k ck : Nat) : Shrunk s (s.dropSaved k ck) :=
  foldl_shrunk (f := fun u (e : Nat × SavedTeam) => u.removeSaved e.1 ck) (fun u e => (removeSaved_shrunk u e.1 ck).1) _ s

theorem dropTeams_lessStripped (k ck : Nat) : (s.dropTeams k ck).lessStripped = s.lessStripped :=
  foldl_leaves State.lessStripped (fun u e => dropTeam_lessStripped u ck e) _ s

theorem dropSaved_lessStripped (k ck : Nat) : (s.dropSaved k ck).lessStripped = s.lessStripped :=
  foldl_leaves State.lessStripped (f := fun u (e : Nat × SavedTeam) => u.removeSaved e.1 ck)
    (fun u e => removeSaved_lessStripped u e.1 ck) _ s

theorem modGrid_lessStripped {s t : State} (h : t.lessStripped = s.lessStripped) (k : Nat) (f : Grid → Grid) :
    (t.modGrid k f).lessStripped = (s.modGrid k f).lessStripped := congrArg (fun u : State => u.modGrid k f) h

theorem dropTeams_gone (k ck : Nat) : ∀ e ∈ (s.dropTeams k ck).teams, e.2.grid ≠ k := by
  intro e listed here
  have stood : e ∈ s.teams.filter fun e => e.2.grid = k :=
    List.mem_filter.2 ⟨(dropTeams_shrunk s k ck).teams.subset listed, by simpa using here⟩
  refine foldl_sets (P := fun u => e ∉ u.teams) (Q := fun _ => True) (fun _ _ _ => trivial) (fun u x out now => ?_)
    (fun u _ now => ?_) stood trivial listed
  · exact out ((dropTeam_shrunk u ck x).1.teams.subset now)
  · rw [(dropTeam_shrunk u ck e).2] at now
    simpa using List.of_mem_filter now

theorem dropSaved_gone (k ck : Nat) : ∀ e ∈ (s.dropSaved k ck).savedTeams, e.2.team.grid ≠ k := by
  intro e listed here
  have stood : e ∈ s.savedTeams.filter fun e => e.2.team.grid = k :=
    List.mem_filter.2 ⟨(dropSaved_shrunk s k ck).saved.subset listed, by simpa using here⟩
  refine foldl_sets (P := fun u => e ∉ u.savedTeams) (Q := fun _ => True) (fun _ _ _ => trivial) (fun u x out now => ?_)
    (fun u _ now => ?_) stood trivial listed
  · exact out ((removeSaved_shrunk u x.1 ck).1.saved.subset now)
  · rw [(removeSaved_shrunk u e.1 ck).2.2] at now
    simpa using List.of_mem_filter now

/-- A team of another grid stays. -/
theorem dropTeams_kept (sorted : s.teams.sorted = true) (k ck : Nat) {tk : Nat} {tm : Team} (found : s.teams.get? tk = some tm)
    (other : tm.grid ≠ k) : (s.dropTeams k ck).teams.get? tk = some tm := by
  refine List.foldlRecOn (motive := fun u : State => u.teams.get? tk = some tm) _ _ found fun u here e listed => ?_
  obtain ⟨stood, grid⟩ := List.mem_filter.1 listed
  have apart : e.1 ≠ tk := by
    rintro rfl
    have same := found.symm.trans (Tbl.get?_of_mem sorted stood)
    cases same
    exact other (by simpa using grid)
  rw [(dropTeam_shrunk u ck e).2, Tbl.get?_del, if_neg apart]
  exact here

theorem modGrid_shrunk (k : Nat) (f : Grid → Grid) : Shrunk s (s.modGrid k f) :=
  ⟨⟨.refl _, .refl _, .refl _, fun _ => .inl rfl⟩, rfl, fun _ => .refl _⟩

theorem stripGrid_shrunk (k : Nat) : Shrunk s (s.stripGrid k) := by
  obtain ⟨ck, e⟩ := stripGrid_eq s k
  rw [e]
  exact ((dropTeams_shrunk s k ck).trans (dropSaved_shrunk ..)).trans (modGrid_shrunk ..)

theorem stripGrid_lessStripped (k : Nat) :
    (s.stripGrid k).lessStripped = (s.modGrid k fun g => { g with held := [] }).lessStripped := by
  obtain ⟨ck, e⟩ := stripGrid_eq s k
  rw [e]
  exact modGrid_lessStripped ((dropSaved_lessStripped ..).trans (dropTeams_lessStripped ..)) k _

/-- A grid's teams are gone, resident or saved. -/
def State.stripped (s : State) (k : Nat) : Prop := (∀ e ∈ s.teams, e.2.grid ≠ k) ∧ ∀ e ∈ s.savedTeams, e.2.team.grid ≠ k

theorem stripGrid_stripped (k : Nat) : (s.stripGrid k).stripped k := by
  obtain ⟨ck, e⟩ := stripGrid_eq s k
  rw [e]
  exact ⟨fun x hx => dropTeams_gone s k ck x ((dropSaved_shrunk _ k ck).teams.subset hx), dropSaved_gone _ k ck⟩

theorem dropSaved_teams (k ck : Nat) : (s.dropSaved k ck).teams = s.teams :=
  foldl_leaves State.teams (f := fun u (e : Nat × SavedTeam) => u.removeSaved e.1 ck)
    (fun u e => (removeSaved_shrunk u e.1 ck).2.1) _ s

theorem stripGrid_kept (sorted : s.teams.sorted = true) {k tk : Nat} {tm : Team} (found : s.teams.get? tk = some tm)
    (other : tm.grid ≠ k) : (s.stripGrid k).teams.get? tk = some tm := by
  obtain ⟨ck, e⟩ := stripGrid_eq s k
  rw [e]
  exact (congrArg (Tbl.get? · tk) (dropSaved_teams ..)).trans (dropTeams_kept s sorted k ck found other)

end

/-! ## Grids are aborted -/

theorem Recorded.of_none {o s : State} (h : Recorded o none s) (k : Option Nat) : Recorded o k s where
  groups := h.groups
  teams := h.teams
  saved := h.saved
  queues := h.queues
  residents := h.residents
  ctxs := h.ctxs
  others k' _ := h.others k' nofun

section

variable (s : State) (quiet : Bool) (err : Option (List Byte)) (k : Nat) (kids : List Nat)

theorem abortOne_of_none (none : s.grids.get? k = none) : s.abortOne quiet err k kids = s := by
  rw [State.abortOne, none]

/-- After its teams are removed, an aborted grid ends with a record, or is gone without one. -/
theorem abortOne_recorded (listed : s.grids.get? k ≠ none) : Recorded (s.stripGrid k) (some k) (s.abortOne quiet err k kids) := by
  unfold State.abortOne
  split
  next none => exact absurd none listed
  next g _ =>
    extract_lets u v
    split
    · have closed : Recorded u (some k) v := closeGrid_recorded ..
      have left := closed.trans (.modCtx v (some k) g.ck (f := fun c => { c with devq := dropFrom c.devq k }) fun c => .dropDevq c k)
      exact left.trans (.drop _ k)
    · refine Recorded.trans ?_ (endGrid_recorded ..)
      split
      · exact (gridRecord_recorded ..).of_none _
      · exact .refl ..

theorem abortOne_shrunk : Shrunk s (s.abortOne quiet err k kids) := by
  by_cases listed : s.grids.get? k = none
  · rw [abortOne_of_none s quiet err k kids listed]
    exact .refl s
  · exact (stripGrid_shrunk s k).trans (abortOne_recorded s quiet err k kids listed).shrunk

theorem abortOne_others {k' : Nat} (other : k' ≠ k) : (s.abortOne quiet err k kids).grids.get? k' = s.grids.get? k' := by
  by_cases listed : s.grids.get? k = none
  · rw [abortOne_of_none s quiet err k kids listed]
  · rw [(abortOne_recorded s quiet err k kids listed).others k' fun e => other (Option.some.inj e).symm]
    refine (congrArg (fun u : State => u.grids.get? k') (stripGrid_lessStripped s k) :).trans ?_
    exact (Tbl.get?_modify ..).trans (if_neg other.symm)

theorem abortOne_kept (sorted : s.teams.sorted = true) {tk : Nat} {tm : Team} (found : s.teams.get? tk = some tm)
    (other : tm.grid ≠ k) : (s.abortOne quiet err k kids).teams.get? tk = some tm := by
  by_cases listed : s.grids.get? k = none
  · rw [abortOne_of_none s quiet err k kids listed]
    exact found
  · rw [(abortOne_recorded s quiet err k kids listed).teams]
    exact stripGrid_kept s sorted found other

/-- A grid has ended or is gone, and no team of it is left. -/
def State.finished (s : State) (k : Nat) : Prop := (∀ g, s.grids.get? k = some g → g.stage = .ended) ∧ s.stripped k

theorem abortOne_finished (listed : s.grids.get? k ≠ none) : (s.abortOne quiet err k kids).finished k := by
  have recorded := abortOne_recorded s quiet err k kids listed
  obtain ⟨teams, saved⟩ := stripGrid_stripped s k
  refine ⟨fun g found => ?_, recorded.teams ▸ teams, recorded.saved ▸ saved⟩
  unfold State.abortOne at found
  split at found
  next none => exact absurd none listed
  · split at found
    · exact absurd (found.symm.trans (Tbl.get?_del_same ..)) nofun
    · exact (ended_endGrid ..).ended g found

end

/-- Whatever is aborted besides, a grid that has finished stays so. -/
theorem State.finished.abortOne {s : State} {k : Nat} (h : s.finished k) (quiet : Bool) (err : Option (List Byte)) (k' : Nat)
    (kids : List Nat) : (s.abortOne quiet err k' kids).finished k := by
  by_cases here : k' = k
  · subst here
    by_cases listed : s.grids.get? k' = none
    · rw [abortOne_of_none s quiet err k' kids listed]
      exact h
    · exact abortOne_finished s quiet err k' kids listed
  · obtain ⟨ended, teams, saved⟩ := h
    have less := abortOne_shrunk s quiet err k' kids
    exact ⟨fun g found => ended g (abortOne_others s quiet err k' kids (Ne.symm here) ▸ found),
      fun e he => teams e (less.teams.subset he), fun e he => saved e (less.saved.subset he)⟩

/-! ## The tree of an abort -/

/-- The grids of a list that an abort ends, each with its children (03 R78). -/
def State.aborted (s : State) (quiet : Bool) (ks : List Nat) : List (Nat × List Nat) :=
  (ks.filter fun k => (s.grids.get? k).any fun g => g.stage ≠ .ended && (quiet || !s.gridDone k g)).map fun k =>
    (k, s.childGrids k)

section

variable {s : State} {quiet : Bool}

theorem mem_aborted {ks : List Nat} {p : Nat × List Nat} : p ∈ s.aborted quiet ks ↔
    p.1 ∈ ks ∧ p.2 = s.childGrids p.1 ∧
      ∃ g, s.grids.get? p.1 = some g ∧ g.stage ≠ .ended ∧ (quiet = true ∨ s.gridDone p.1 g = false) := by
  unfold State.aborted
  rw [List.mem_map]
  constructor
  · rintro ⟨k, listed, rfl⟩
    obtain ⟨inside, ends⟩ := List.mem_filter.1 listed
    exact ⟨inside, rfl, by simpa [Option.any_eq_true] using ends⟩
  · rintro ⟨inside, kids, ends⟩
    exact ⟨p.1, List.mem_filter.2 ⟨inside, by simpa [Option.any_eq_true] using ends⟩, Prod.ext rfl kids.symm⟩

theorem mem_abortTree_succ {fuel : Nat} {ks : List Nat} {p : Nat × List Nat} : p ∈ s.abortTree quiet (fuel + 1) ks ↔
    p ∈ s.aborted quiet ks ∨ p ∈ s.abortTree quiet fuel ((s.aborted quiet ks).flatMap (·.2)) ∧ s.aborted quiet ks ≠ [] := by
  rw [State.abortTree, ← State.aborted]
  cases s.aborted quiet ks with
  | nil => simp
  | cons e es => simp [or_comm]

/-- What an abort ends stands, and has not ended. -/
theorem abortTree_listed {fuel : Nat} {ks : List Nat} {p : Nat × List Nat} (h : p ∈ s.abortTree quiet fuel ks) :
    ∃ g, s.grids.get? p.1 = some g ∧ g.stage ≠ .ended ∧ (quiet = true ∨ s.gridDone p.1 g = false) := by
  induction fuel generalizing ks with
  | zero => cases h
  | succ fuel ih =>
    obtain here | ⟨below, -⟩ := mem_abortTree_succ.1 h
    · exact (mem_aborted.1 here).2.2
    · exact ih below

theorem abortTree_root {k : Nat} {g : Grid} (found : s.grids.get? k = some g) (stands : g.stage ≠ .ended)
    (aborts : quiet = true ∨ s.gridDone k g = false) {fuel : Nat} {ks : List Nat} (root : k ∈ ks) :
    k ∈ (s.abortTree quiet (fuel + 1) ks).map (·.1) :=
  List.mem_map.2 ⟨(k, s.childGrids k), mem_abortTree_succ.2 (.inl (mem_aborted.2 ⟨root, rfl, g, found, stands, aborts⟩)), rfl⟩

theorem abortTree_child {k : Nat} {g : Grid} (found : s.grids.get? k = some g) (stands : g.stage ≠ .ended)
    (aborts : quiet = true ∨ s.gridDone k g = false) {fuel p : Nat} {ks : List Nat}
    (parent : p ∈ (s.abortTree quiet fuel ks).map (·.1)) (child : k ∈ s.childGrids p) :
    k ∈ (s.abortTree quiet (fuel + 1) ks).map (·.1) := by
  induction fuel generalizing ks with
  | zero => cases parent
  | succ fuel ih =>
    obtain ⟨e, listed, rfl⟩ := List.mem_map.1 parent
    suffices below : k ∈ (s.abortTree quiet (fuel + 1) ((s.aborted quiet ks).flatMap (·.2))).map (·.1) by
      obtain ⟨x, hx, rfl⟩ := List.mem_map.1 below
      refine List.mem_map.2 ⟨x, mem_abortTree_succ.2 (.inr ⟨hx, fun none => ?_⟩), rfl⟩
      rw [mem_abortTree_succ, none] at listed
      simp at listed
    obtain here | ⟨below, -⟩ := mem_abortTree_succ.1 listed
    · refine abortTree_root found stands aborts (List.mem_flatMap.2 ⟨e, here, ?_⟩)
      rw [(mem_aborted.1 here).2.1]
      exact child
    · exact ih (List.mem_map.2 ⟨e, below, rfl⟩)

end

/-- A tree depends on the grids, their children, and which of them are done. -/
theorem abortTree_congr {s t : State} (grids : t.grids = s.grids) (children : t.childGrids = s.childGrids)
    (done : t.gridDone = s.gridDone) (quiet : Bool) (fuel : Nat) (ks : List Nat) :
    t.abortTree quiet fuel ks = s.abortTree quiet fuel ks := by
  induction fuel generalizing ks with
  | zero => rfl
  | succ fuel ih => simp only [State.abortTree, grids, children, done, ih]

section

variable (s : State) (quiet : Bool) (err : Option (List Byte)) (top : Nat) (ks : List Nat)

theorem abortGrids_shrunk : Shrunk s (s.abortGrids quiet err top ks) := foldl_shrunk (fun u _ => abortOne_shrunk u ..) _ s

theorem abortGrids_finished {k : Nat} (ends : k ∈ (s.abortTree quiet 11 ks).map (·.1)) :
    (s.abortGrids quiet err top ks).finished k := by
  obtain ⟨e, turn, rfl⟩ := List.mem_map.1 ends
  obtain ⟨g, found, -⟩ := abortTree_listed turn
  refine foldl_sets (P := fun u => u.finished e.1) (Q := fun u => u.grids.get? e.1 ≠ none ∨ u.finished e.1)
    (fun u x h => ?_) (fun u x h => h.abortOne ..) (fun u h => ?_) turn (.inl (found ▸ nofun))
  · obtain listed | finished := h
    · by_cases here : x.1 = e.1
      · exact .inr (here ▸ abortOne_finished u _ _ _ _ (here ▸ listed))
      · exact .inl (abortOne_others u _ _ _ _ (Ne.symm here) ▸ listed)
    · exact .inr (finished.abortOne ..)
  · obtain listed | finished := h
    · exact abortOne_finished u _ _ _ _ listed
    · exact finished.abortOne ..

theorem abortGrids_others {k : Nat} (stays : k ∉ (s.abortTree quiet 11 ks).map (·.1)) :
    (s.abortGrids quiet err top ks).grids.get? k = s.grids.get? k := by
  refine List.foldlRecOn (motive := fun u : State => u.grids.get? k = s.grids.get? k) _ _ rfl fun u here e listed => ?_
  rw [abortOne_others u _ _ _ _ fun same => stays (List.mem_map.2 ⟨e, listed, same.symm⟩)]
  exact here

theorem abortGrids_kept (sorted : s.teams.sorted = true) {tk : Nat} {tm : Team} (found : s.teams.get? tk = some tm)
    (stays : tm.grid ∉ (s.abortTree quiet 11 ks).map (·.1)) :
    (s.abortGrids quiet err top ks).teams.get? tk = some tm := by
  refine (List.foldlRecOn (motive := fun u : State => u.teams.sorted = true ∧ u.teams.get? tk = some tm) _ _
    ⟨sorted, found⟩ fun u here e listed => ?_).2
  obtain ⟨sorted, found⟩ := here
  exact ⟨Tbl.sorted_of_sublist (abortOne_shrunk u ..).teams sorted,
    abortOne_kept u _ _ _ _ sorted found fun same => stays (List.mem_map.2 ⟨e, listed, same.symm⟩)⟩

end

end Sys2Proof.Machine
end

section
/-! SUPPORT and PROOFS. The registers of a context, its end, its halt and its dump (O45). -/

namespace Sys2Proof.Tbl

theorem get?_map_entry {β γ : Type} (F : Nat → β → γ) (m : Tbl β) (k : Nat) :
    get? (m.map fun e => (e.1, F e.1 e.2)) k = (m.get? k).map (F k) := by
  induction m with
  | nil => rfl
  | cons e m ih =>
    rw [List.map_cons, get?, get?, ih]
    by_cases here : e.1 = k
    · rw [if_pos here, if_pos here, Option.map_some, here]
    · rw [if_neg here, if_neg here]

end Sys2Proof.Tbl

namespace Sys2Proof.Machine

/-! ## Registers -/

section

variable (s : State) (ck i d : Nat)

/-- A write that leaves the context's registers changes nothing; another stores what it makes of them. -/
theorem ovchkWrite_same {v : Word} (same : (s.ctx ck).ovchk = bitOf v 0) : exec (.ovchkWrite ck v) s = .next s := by
  rw [exec_ovchkWrite, execOvchkWrite, if_pos same]

theorem ovchkWrite_changed {v : Word} (changed : (s.ctx ck).ovchk ≠ bitOf v 0) :
    exec (.ovchkWrite ck v) s = .next { s with
      ctxs := s.ctxs.put ck { s.ctx ck with ovchk := bitOf v 0 }
      overlaps := s.overlaps.filter fun e => e.1 % 512 ≠ ck } := by
  rw [exec_ovchkWrite, execOvchkWrite, if_neg changed]
  rfl

/-- The bits of LMAPi that are stored: LO, HI and the peer's fields (22 R465). -/
theorem lmapStored_low (w : DWord) {b : Nat} (low : b < 63) :
    bitOf (lmapStored w) b = (bitOf w b && (decide (b < 22) || decide (39 ≤ b) && decide (b < 56))) := by
  have mask : ∀ b < 63, (0x80FFFF80003FFFFF#64).getLsbD b = (decide (b < 22) || decide (39 ≤ b) && decide (b < 56)) := by
    decide
  have kept : ∀ b < 63, (~~~(1#64 <<< 63)).getLsbD b = true := by decide
  unfold lmapStored bitOf
  dsimp only
  split
  · rw [BitVec.getLsbD_and, BitVec.getLsbD_and, mask b low, kept b low, Bool.and_true]
  · rw [BitVec.getLsbD_and, mask b low]

theorem lmapStored_en (w : DWord) :
    bitOf (lmapStored w) 63 = (bitOf w 63 && decide (w.toNat / 2 ^ 11 % 2 ^ 11 ≤ w.toNat % 2 ^ 11)) := by
  have mask : (0x80FFFF80003FFFFF#64).getLsbD 63 = true := by decide
  have cleared : (~~~(1#64 <<< 63)).getLsbD 63 = false := by decide
  unfold lmapStored bitOf
  dsimp only
  split
  next above => rw [BitVec.getLsbD_and, cleared, Bool.and_false, decide_eq_false (by omega), Bool.and_false]
  next below => rw [BitVec.getLsbD_and, mask, Bool.and_true, decide_eq_true (by omega), Bool.and_true]

theorem xsGrantWrite_past {v : Word} (past : 256 < v.toNat % 256 + v.toNat / 256 % 512) :
    exec (.xsGrantWrite ck d v) s = .next s := by
  rw [exec_xsGrantWrite, execXsGrantWrite, if_pos past]

theorem xsGrantWrite_inside {v : Word} (inside : v.toNat % 256 + v.toNat / 256 % 512 ≤ 256) :
    exec (.xsGrantWrite ck d v) s = .next (s.modCtx ck fun c =>
      { c with grants := c.grants.write 0 d (BitVec.ofNat 32 (v.toNat % 2 ^ 17)) }) := by
  have stored : v &&& 0x1FFFF = BitVec.ofNat 32 (v.toNat % 2 ^ 17) := by
    refine BitVec.eq_of_toNat_eq ?_
    rw [BitVec.toNat_and, BitVec.toNat_ofNat, show (0x1FFFF : Word).toNat = 2 ^ 17 - 1 from rfl, Nat.and_two_pow_sub_one_eq_mod]
    omega
  rw [exec_xsGrantWrite, execXsGrantWrite, if_neg (by omega), stored]

theorem contextStopped_of_quiet (halts : (s.ctx ck).halt = true) (quiet : s.quiet ck = true) :
    exec (.contextStopped ck) s = .next (s.modCtx ck fun c => { c with stopped := true }) := by
  rw [exec_contextStopped, execContextStopped, halts, quiet]
  rfl

theorem contextStopped_of_busy (busy : (s.ctx ck).halt = false ∨ s.quiet ck = false) :
    exec (.contextStopped ck) s = .next s := by
  rw [exec_contextStopped, execContextStopped]
  exact congrArg Host.Outcome.next (if_neg (by rcases busy with h | h <;> simp [h]))

/-- A halted context issues nothing (18 R431). -/
theorem mayIssue_of_halted {gk : Nat} {g : Group} (found : s.groups.get? gk = some g) (halted : (s.ctx (s.ckOf g)).halt = true) :
    s.mayIssue gk = false := by
  unfold State.mayIssue
  rw [found]
  dsimp only
  split
  · simp [halted]
  · rfl

end

/-! ## A context is disabled -/

section

variable (s : State) (ck : Nat)

/-- The state whose host grids a disabled context's end aborts: EN is 0, and its queues read no packet (03 R72). -/
def State.shut (s : State) (ck : Nat) : State :=
  { s.modCtx ck fun c => { c with en := false } with
    queues := s.queues.map fun e => (e.1, if e.1 / 64 = ck then { e.2 with read := none } else e.2) }

theorem contextDisable_eq :
    exec (.contextDisable ck) s = .next ((s.shut ck).abortGrids false none 0 (s.hostGrids ck)) := by
  have queues : (s.queues.map fun e => if e.1 / 64 = ck then (e.1, { e.2 with read := none }) else e) = (s.shut ck).queues :=
    List.map_congr_left fun e _ => by split <;> rfl
  rw [exec_contextDisable, execContextDisable, State.disableCtx]
  dsimp only
  rw [show (s.modCtx ck fun c => { c with en := false }).queues = s.queues from rfl, queues]
  rfl

theorem shut_abortTree (quiet : Bool) (fuel : Nat) (ks : List Nat) :
    (s.shut ck).abortTree quiet fuel ks = s.abortTree quiet fuel ks := 
  abortTree_congr (t := s.shut ck) (s := s) rfl rfl rfl ..

/-- A queue of a context that is shut. -/
def Queue.shut (ck qk : Nat) (q : Queue) : Queue := if qk / 64 = ck then { q with read := none } else q

theorem shut_queue {qk : Nat} (mine : qk / 64 = ck) : ((s.shut ck).queue qk).read = none := by
  have listed : (s.shut ck).queues.get? qk = (s.queues.get? qk).map (Queue.shut ck qk) := Tbl.get?_map_entry (Queue.shut ck) ..
  rw [State.queue, listed]
  cases s.queues.get? qk with
  | none => rfl
  | some q => simp [Queue.shut, mine]

theorem contextDisable_en : (((s.shut ck).abortGrids false none 0 (s.hostGrids ck)).ctx ck).en = false := by
  rw [((abortGrids_shrunk (s.shut ck) false none 0 _).ctxs ck).en]
  exact congrArg Ctx.en (modCtx_ctx_same s ck fun c => { c with en := false })

theorem contextDisable_queue {qk : Nat} (mine : qk / 64 = ck) :
    (((s.shut ck).abortGrids false none 0 (s.hostGrids ck)).queue qk).read = none := by
  rw [State.queue, (abortGrids_shrunk (s.shut ck) false none 0 _).queues]
  exact shut_queue s ck mine

/-- Each grid that the abort of a disabled context ends is gone or has ended, with no team (03 R78). -/
theorem contextDisable_finished {k : Nat} (ends : k ∈ (s.abortTree false 11 (s.hostGrids ck)).map (·.1)) :
    ((s.shut ck).abortGrids false none 0 (s.hostGrids ck)).finished k :=
  abortGrids_finished _ _ _ _ _ (by rw [shut_abortTree]; exact ends)

/-- A grid whose last teams have finished is not aborted (18 R420). -/
theorem not_aborted_of_done {k : Nat} {g : Grid} (found : s.grids.get? k = some g) (done : s.gridDone k g = true) :
    k ∉ (s.abortTree false 11 (s.hostGrids ck)).map (·.1) := by
  intro ends
  obtain ⟨e, listed, rfl⟩ := List.mem_map.1 ends
  obtain ⟨g', found', -, quiet | busy⟩ := abortTree_listed listed
  · cases quiet
  · cases found.symm.trans found'
    rw [done] at busy
    cases busy

theorem contextDisable_done {k : Nat} {g : Grid} (found : s.grids.get? k = some g) (done : s.gridDone k g = true) :
    ((s.shut ck).abortGrids false none 0 (s.hostGrids ck)).grids.get? k = some g := by
  rw [abortGrids_others _ _ _ _ _ (by rw [shut_abortTree]; exact not_aborted_of_done s ck found done)]
  exact found

theorem contextDisable_team (sorted : s.teams.sorted = true) {g : Grid} {e : Nat × Team} (listed : e ∈ s.teams)
    (found : s.grids.get? e.2.grid = some g) (done : s.gridDone e.2.grid g = true) :
    ((s.shut ck).abortGrids false none 0 (s.hostGrids ck)).teams.get? e.1 = some e.2 :=
  abortGrids_kept (s.shut ck) _ _ _ _ sorted (Tbl.get?_of_mem sorted listed)
    (by rw [shut_abortTree]; exact not_aborted_of_done s ck found done)

end

/-- A grid that has more to place, or whose teams have more to do, is not done. -/
theorem gridDone_eq_false {s : State} {k : Nat} {g : Grid}
    (more : g.stage ≠ .released ∨ g.retired + (s.teams.filter fun e => e.2.grid = k).length ≠ g.pkt.total ∨
      ∃ e ∈ s.teams, e.2.grid = k ∧ (e.2.started = false ∨
        ∃ h ∈ s.groups, h.2.team = e.1 ∧ ∃ l ∈ h.2.lanes, l.2.exited = false)) : s.gridDone k g = false := by
  unfold State.gridDone
  extract_lets left
  obtain stage | count | ⟨e, listed, grid, runs⟩ := more
  · simp [stage]
  · have count : ¬g.retired + left.length = g.pkt.total := count
    simp [count]
  · have unfinished : s.teamDone e.1 e.2 = false := by
      unfold State.teamDone
      obtain idle | ⟨h, group, team, l, lane, alive⟩ := runs
      · simp [idle]
      · have lanes : (h.2.lanes.all fun l => l.2.exited) = false := List.all_eq_false.2 ⟨l, lane, by simp [alive]⟩
        have groups : (s.groups.all fun h =>
            h.2.team ≠ e.1 || (h.2.launches.isEmpty && h.2.lanes.all fun l => l.2.exited)) = false :=
          List.all_eq_false.2 ⟨h, group, by simp [team, lanes]⟩
        simp only [groups, Bool.and_false, Bool.false_and]
    have notAll : (left.all fun e => s.teamDone e.1 e.2) = false :=
      List.all_eq_false.2 ⟨e, List.mem_filter.2 ⟨listed, by simpa using grid⟩, by simp [unfinished]⟩
    rw [notAll, Bool.and_false]

/-! ## The dump of a halted context -/

/-- A run of bytes is known byte by byte. -/
theorem bytes_of_byte {s : State} {p : Place} {a : Nat} {b : List Byte}
    (each : ∀ x < b.length, s.byte p (a + x) = b.getD x 0) : s.bytes p a b.length = b := by
  induction b generalizing a with
  | nil => rfl
  | cons v b ih =>
    have head : s.byte p a = v := each 0 (by simp)
    rw [List.length_cons, State.bytes, head, ih fun x hx => ?_]
    · rw [show a + 1 + x = a + (x + 1) by omega, each (x + 1) (by simpa using hx)]
      rfl

theorem writePhys_bytes (s : State) (ck pa : Nat) (b : List Byte) : (s.writePhys ck pa b).bytes .mem pa b.length = b := by
  refine bytes_of_byte fun x hx => ?_
  rw [writePhys_byte, if_pos (by omega), Nat.add_sub_cancel_left]

section

variable (s : State) (ck : Nat)

/-- A dump has room: the context is stopped, its header can be read, and the records fit between HWM and LIMIT (18 R433). -/
def State.mayDump : Prop :=
  let h := (s.ctx ck).saveAt
  (s.ctx ck).stopped = true ∧ h < 2 ^ 39 - 64 ∧ s.poisoned .mem h 64 = false ∧
    s.saveHwm ck + s.dumpSize ck ≤ s.load .mem h 8 ∧ h + s.saveHwm ck + s.dumpSize ck < 2 ^ 39

/-- The dump has been asked for no more. -/
def State.dumped : State := s.modCtx ck fun c => { c with dump := false }

theorem dumped_ctx : (s.dumped ck).ctx ck = { s.ctx ck with dump := false } := modCtx_ctx_same ..

theorem chaltDump_eq : exec (.chaltDump ck) s = .next (
    if (s.ctx ck).stopped && (s.ctx ck).saveAt < 2 ^ 39 - 64 && !s.poisoned .mem (s.ctx ck).saveAt 64 &&
        s.saveHwm ck + s.dumpSize ck ≤ s.load .mem (s.ctx ck).saveAt 8 &&
        (s.ctx ck).saveAt + s.saveHwm ck + s.dumpSize ck < 2 ^ 39 then
      (s.dumped ck).freeIdx.2.writePhys ck ((s.ctx ck).saveAt + s.saveHwm ck) (freeRecord s.freeCount (s.dumpSize ck))
    else (s.dumped ck).event ck 0x15 0 0 (recordId ck 0 false) 0 (s.dumpSize ck)) := by
  have hwm : (s.dumped ck).saveHwm ck = s.saveHwm ck := by
    rw [State.saveHwm, dumped_ctx]
    rfl
  rw [exec_chaltDump, execChaltDump]
  dsimp only
  rw [← State.dumped, hwm, dumped_ctx]
  rfl

variable {s ck}

theorem chaltDump_of_room (may : s.mayDump ck) :
    exec (.chaltDump ck) s = .next ((s.dumped ck).freeIdx.2.writePhys ck ((s.ctx ck).saveAt + s.saveHwm ck)
      (freeRecord s.freeCount (s.dumpSize ck))) := by
  obtain ⟨stopped, low, known, room, high⟩ := may
  rw [chaltDump_eq, if_pos (by simp only [stopped, low, known, room, high, decide_true, Bool.not_false, Bool.and_self])]

theorem chaltDump_of_full (full : ¬s.mayDump ck) :
    exec (.chaltDump ck) s = .next ((s.dumped ck).event ck 0x15 0 0 (recordId ck 0 false) 0 (s.dumpSize ck)) := by
  rw [chaltDump_eq, if_neg fun may => full ?_]
  simp only [Bool.and_eq_true, Bool.not_eq_true', decide_eq_true_eq, and_assoc] at may
  exact may

theorem freeRecord_length (i n : Nat) : (freeRecord i n).length = n := by
  rw [freeRecord, List.length_map, List.length_range]

/-- A dump writes the records of the context's teams from HWM on, and nothing else. -/
theorem chaltDump_writes (may : s.mayDump ck) :
    let from' := (s.ctx ck).saveAt + s.saveHwm ck
    let n := s.dumpSize ck
    ∃ t i, exec (.chaltDump ck) s = .next t ∧ t.fns = s.fns ∧ t.groups = s.groups ∧ t.teams = s.teams ∧
      (t.ctx ck).dump = false ∧ t.bytes .mem from' n = freeRecord i n ∧
      ∀ a, ¬(from' ≤ a ∧ a < from' + n) → t.mem.read 0 a = s.mem.read 0 a := by
  intro from' n
  have length := freeRecord_length s.freeCount n
  have bytes := writePhys_bytes (s.dumped ck).freeIdx.2 ck from' (freeRecord s.freeCount n)
  rw [length] at bytes
  have byte := writePhys_byte (s.dumped ck).freeIdx.2 ck from' (freeRecord s.freeCount n)
  refine ⟨_, s.freeCount, chaltDump_of_room may, ?_, ?_, ?_, ?_, bytes, fun a out => ?_⟩
  iterate 3
    obtain ⟨mem, poison, rels, residencies, l2, e⟩ :=
      written_writePhys (s.dumped ck).freeIdx.2 ck from' (freeRecord s.freeCount n)
    rw [e]
    rfl
  · obtain ⟨mem, poison, rels, residencies, l2, e⟩ :=
      written_writePhys (s.dumped ck).freeIdx.2 ck from' (freeRecord s.freeCount n)
    rw [e]
    exact congrArg Ctx.dump (dumped_ctx s ck)
  · exact (byte a).trans (if_neg (length.symm ▸ out))

end

/-- Settles O45: the register writes by their definitions; a disabled context's tree of grids is aborted grid by grid, what has
finished stays so and what is not in the tree stays; a dump is one write of the device. -/
theorem contextRegisters : Obligations.ContextRegisters := by
  unfold Obligations.ContextRegisters
  refine ⟨fun ck i d v w s => ?_, fun ck s sorted => ?_, fun ck s sorted gridsSorted => ?_,
    fun s fuel k ks g found stands busy => ⟨abortTree_root found stands (.inr busy), fun p parent child =>
      abortTree_child found stands (.inr busy) parent child⟩,
    fun gk s g found halted => mayIssue_of_halted s found halted, fun ck s => ⟨chaltDump_writes, chaltDump_of_full⟩⟩
  · exact ⟨ovchkWrite_same s ck, ovchkWrite_changed s ck,
      ⟨lmapStored w, exec_lmapWrite .., fun b low => lmapStored_low w low, lmapStored_en w⟩,
      xsGrantWrite_past s ck d, xsGrantWrite_inside s ck d, exec_chaltHalt .., exec_chaltRelease ..,
      contextStopped_of_busy s ck, contextStopped_of_quiet s ck⟩
  · refine ⟨_, contextDisable_eq s ck, contextDisable_en s ck, fun k g found mine depth stands more => ?_⟩
    have root : k ∈ s.hostGrids ck :=
      List.mem_map.2 ⟨(k, g), List.mem_filter.2 ⟨Tbl.mem_of_get? found, by simp [mine, depth]⟩, rfl⟩
    obtain ⟨ended, teams, -⟩ := contextDisable_finished s ck (abortTree_root found stands (.inr (gridDone_eq_false more)) root)
    exact ⟨ended, teams⟩
  · refine ⟨_, contextDisable_eq s ck, fun qk mine => contextDisable_queue s ck mine, fun k ends => ?_,
      fun k g found done => ⟨⟨g, contextDisable_done s ck found done, ?_⟩, fun e listed grid => ?_⟩⟩
    · obtain ⟨ended, teams, -⟩ := contextDisable_finished s ck ends
      exact ⟨ended, teams⟩
    · unfold State.gridDone at done
      simp only [Bool.and_eq_true, decide_eq_true_eq] at done
      exact done.1.1
    · subst grid
      exact contextDisable_team s ck sorted listed found done

end Sys2Proof.Machine
end

section
/-! SUPPORT. What the host reaches through its windows (O47). -/

namespace Sys2Proof.Machine

/-! ## A refused access -/

/-- A record for a ring that no queue and no `pgreq` waits for changes its function alone, and no register of Advanced Error
Reporting. -/
theorem postEvent_modFn {r : EventRecord} (untagged : r.tag = 0) (untold : r.queue = none) (s : State) (fn : Nat) :
    ∃ f : Fn → Fn, s.postEvent fn r = s.modFn fn f ∧ ∀ x, (f x).aer = x.aer := by
  unfold State.postEvent
  dsimp only
  split
  · obtain ⟨-, e⟩ | ⟨ck, q, told, -⟩ := writeEvent_cases s fn r
    · refine ⟨(·.ringPut (r.written s)), ?_, fun _ => rfl⟩
      rw [e, State.recorded, untagged, pgreqDone_zero]
    · rw [untold] at told
      cases told
  · refine ⟨_, rfl, fun x => ?_⟩
    split <;> rfl

theorem abortLogged_aer (f : Fn) (i : Nat) : bitOf (f.abortLogged i).aer 15 = true := by
  have bit : bitOf (f.aer ||| 1#32 <<< 15) 15 = true := by simp [bitOf]
  unfold Fn.abortLogged
  dsimp only
  split <;> exact bit

theorem event_modFn (s : State) (ck kind status cls id count detail : Nat) :
    ∃ f : Fn → Fn, s.event ck kind status cls id count detail = s.modFn (ck / 16) f ∧ ∀ x, (f x).aer = x.aer :=
  postEvent_modFn rfl rfl s _

/-- The state in which a Completer Abort has been sent. -/
def State.abortSent (s : State) (fn : Nat) : State :=
  { s with sent := .completerAbort fn :: s.sent, freeCount := s.freeCount + 1 }

theorem hostRefused_eq (s : State) (fn ck va st n : Nat) : ∃ f : Fn → Fn,
    s.hostRefused fn ck va st n = ((s.abortSent fn).modFn fn (·.abortLogged s.freeCount)).modFn (ck / 16) f ∧
      ∀ x, (f x).aer = x.aer := event_modFn ..

theorem modFn_modFn_rest (s : State) (m n : Nat) (f g : Fn → Fn) :
    (s.modFn m f).modFn n g = { s with fns := ((s.modFn m f).modFn n g).fns } := rfl

/-- A refused access is logged as a Completer Abort (03 R489). -/
theorem hostRefused_logs (s : State) {fn ck : Nat} (own : ck / 16 = fn) (va st n : Nat) :
    let t := s.hostRefused fn ck va st n
    t = { s with sent := .completerAbort fn :: s.sent, fns := t.fns, l2 := t.l2, freeCount := s.freeCount + 1 } ∧
      bitOf (t.fn fn).aer 15 = true := by
  obtain ⟨f, e, keeps⟩ := hostRefused_eq s fn ck va st n
  have rest := e.trans (modFn_modFn_rest ..)
  rw [← e] at rest
  refine ⟨rest.trans ?_, ?_⟩
  · rw [rest]
    rfl
  · rw [e, own, modFn_fn_same, keeps, modFn_fn_same]
    exact abortLogged_aer ..

section

variable {s : State} {ck va : Nat} {need : Need}

theorem hostXlat_of_off (off : (s.ctx ck).en = false) : s.hostXlat ck va need = (s, .error 9) := by
  simp only [State.hostXlat, off, Bool.not_false, if_true]

theorem hostXlat_of_ok (en : (s.ctx ck).en = true) {pa : Nat} {leaf : DWord} (ok : s.xlatNow ck va need = .ok pa leaf) :
    ∃ l2, s.hostXlat ck va need = ({ s with l2 := l2 }, .ok (pa, leaf)) := by
  obtain ⟨l2, e⟩ := xlat_eq s ck va need
  refine ⟨l2, ?_⟩
  rw [State.hostXlat, en, e, ok]
  rfl

/-- A translation that gives no address fails. -/
theorem hostXlat_of_fault (fault : ∀ pa leaf, s.xlatNow ck va need ≠ .ok pa leaf) :
    ∃ l2 st, s.hostXlat ck va need = ({ s with l2 := l2 }, .error st) := by
  cases en : (s.ctx ck).en with
  | false => exact ⟨s.l2, 9, hostXlat_of_off en⟩
  | true =>
    obtain ⟨l2, e⟩ := xlat_eq s ck va need
    unfold State.hostXlat
    rw [en, e]
    cases x : s.xlatNow ck va need with
    | ok pa leaf => exact absurd x (fault pa leaf)
    | fault cls cause => exact ⟨l2, 7, rfl⟩
    | poison => exact ⟨l2, 8, rfl⟩
    | remote i => exact ⟨l2, 7, rfl⟩

end

/-! ## The bytes of a request -/

/-- The enabled bytes of a request, by address. -/
def hostBytes (pa : Nat) (data : List (Option Byte)) : Tbl Byte :=
  ((List.range data.length).zip data).filterMap fun e => e.2.map fun b => (pa + e.1, b)

theorem mem_hostBytes {pa x : Nat} {data : List (Option Byte)} {v : Byte} :
    (x, v) ∈ hostBytes pa data ↔ ∃ i, x = pa + i ∧ data[i]? = some (some v) := by
  unfold hostBytes
  simp only [List.mem_filterMap, Option.map_eq_some_iff, Prod.mk.injEq]
  constructor
  · rintro ⟨⟨i, o⟩, listed, b, enabled, here, rfl⟩
    obtain ⟨k, entry⟩ := List.mem_iff_getElem?.1 listed
    obtain ⟨index, value⟩ := List.getElem?_zip_eq_some.1 entry
    have same : i = k := by
      obtain ⟨inside, e⟩ := List.getElem?_eq_some_iff.1 index
      simpa using e.symm
    exact ⟨i, here.symm, by rw [same, value]; exact congrArg some enabled⟩
  · rintro ⟨i, rfl, value⟩
    have inside : i < data.length := (List.getElem?_eq_some_iff.1 value).1
    refine ⟨(i, some v), List.mem_iff_getElem?.2 ⟨i, ?_⟩, v, rfl, rfl, rfl⟩
    rw [List.getElem?_zip_eq_some]
    exact ⟨by simp [inside], value⟩

theorem hostBytes_nodup (pa : Nat) (data : List (Option Byte)) : ((hostBytes pa data).map (·.1)).Nodup := by
  have keys (l : List (Nat × Option Byte)) :
      ((l.filterMap fun e => e.2.map fun b => (pa + e.1, b)).map (·.1)).Sublist ((l.map (·.1)).map (pa + ·)) := by
    induction l with
    | nil => exact .refl _
    | cons e l ih =>
      obtain ⟨i, _ | b⟩ := e
      · exact ih.cons _
      · exact ih.cons_cons _
  refine (keys _).nodup ?_
  rw [List.map_fst_zip (by simp)]
  exact List.nodup_range.map fun _ _ => Nat.add_left_cancel

/-! ## One line of a write -/

section

variable {u : State} {f : Flight} {tid : Nat}

/-- No strong access to the line of an access stands noted or is in flight (14 R347). -/
def State.lineClean (u : State) (l : Nat) : Prop :=
  u.strongs.get? (4 * l) = none ∧ ∀ e ∈ u.flights, e.2.strong = true → e.2.loc / 128 ≠ l

theorem clashing_of_clean (place : f.place = .mem) (clean : u.lineClean (f.loc / 128)) : u.clashing f tid = [] := by
  obtain ⟨notes, flights⟩ := clean
  have none : u.strongs.get? (noteKey f.place f.loc) = Option.none := by rw [place]; exact notes
  have flying : (u.flights.filter fun (e : Nat × Flight) =>
      e.2.strong && e.2.place = f.place && e.2.remote.isNone && e.2.loc / 128 = f.loc / 128) = [] := by
    refine List.filter_eq_nil_iff.2 fun e listed flies => ?_
    simp only [Bool.and_eq_true, decide_eq_true_eq] at flies
    exact flights e listed flies.1.1.1 flies.2
  unfold State.clashing
  split
  · rfl
  · rw [none, flying]
    rfl

theorem hazyFor_of_none {p : Place} {a : Nat} (none : u.hazy.get? (4 * a + p.num) = none) (after : Option (Tbl Nat)) :
    u.hazyFor p a after = false := by rw [State.hazyFor, none]

theorem hazyFor_eq_false {p : Place} {a : Nat} : u.hazyFor p a none = false ↔ u.hazy.get? (4 * a + p.num) = none := by
  unfold State.hazyFor
  cases u.hazy.get? (4 * a + p.num) with
  | none => simp
  | some es => simp

theorem mixedBytes_of_clean (clean : u.clashing f tid = []) (known : ∀ x < f.size, u.hazyFor f.place (f.loc + x) none = false) :
    u.mixedBytes f tid = [] := by
  unfold State.mixedBytes State.vague
  split
  · rfl
  · rw [clean]
    refine List.filter_eq_nil_iff.2 fun a inside hazy => ?_
    obtain ⟨x, below, rfl⟩ := List.mem_map.1 inside
    rw [hazyFor_of_none (hazyFor_eq_false.1 (known x (List.mem_range.1 below)))] at hazy
    exact absurd hazy (by simp)

/-- A list of notes is listed where it is not empty. -/
theorem get?_none_of_update {α : Type} {h : Tbl (List α)} {k key : Nat} {kept : List α} (none : h.get? k = none)
    (same : key = k → kept = []) : (if kept.isEmpty then h.del key else h.put key kept).get? k = Option.none := by
  split
  · rw [Tbl.get?_del, none, ite_self]
  next listed =>
    rw [Tbl.get?_put, none, if_neg]
    intro here
    exact listed (by rw [same here]; rfl)

/-- An access that clashes with none leaves no byte undefined. -/
theorem haze_of_clean (clean : u.clashing f tid = []) (wrote : Bool) :
    ∃ hazy, u.haze f tid wrote = { u with hazy := hazy } ∧ ∀ k, u.hazy.get? k = none → hazy.get? k = none := by
  unfold State.haze
  rw [clean]
  dsimp only
  split
  · exact ⟨u.hazy, rfl, fun _ h => h⟩
  · refine ⟨_, rfl, fun k none => ?_⟩
    refine List.foldlRecOn (motive := fun h : Tbl (List (List Nat × Nat)) => h.get? k = Option.none) _ _ none fun h none i _ => ?_
    simp only [List.filter_nil, List.isEmpty_nil, if_true]
    refine get?_none_of_update none ?_
    rintro rfl
    split
    · rfl
    · rw [none]
      rfl

/-- A strong access that clashes with none is noted, and nothing else changes. -/
theorem strongNote_of_clean (clean : u.clashing f tid = []) (here : f.remote = none) (wrote : Bool) :
    ∃ hazy strongs nextId, u.strongNote f tid wrote = { u with hazy := hazy, strongs := strongs, nextId := nextId } ∧
      (∀ k, u.hazy.get? k = none → hazy.get? k = none) ∧
      ∀ k, k ≠ noteKey f.place f.loc → strongs.get? k = u.strongs.get? k := by
  obtain ⟨hazy, e, known⟩ := haze_of_clean clean wrote
  unfold State.strongNote
  rw [here, e]
  split
  next remote => cases remote
  · split
    · exact ⟨hazy, u.strongs, u.nextId, rfl, known, fun _ _ => rfl⟩
    · exact ⟨hazy, _, u.nextId + 1, rfl, known, fun k other => Tbl.get?_put_other _ (Ne.symm other) _⟩

end

/-- A host write to the lines from `lo` up to `hi`, from `u` on: its bytes stand where they were written, and its strong accesses are
noted. -/
structure HostWritten (lo hi : Nat) (bytes : Tbl Byte) (u t : State) : Prop where
  sent : t.sent = u.sent
  groups : t.groups = u.groups
  flights : t.flights = u.flights
  ctxs : t.ctxs = u.ctxs
  strongs : ∀ k, (∀ l, lo ≤ l → l < hi → k ≠ 4 * l) → t.strongs.get? k = u.strongs.get? k
  hazy : ∀ k, u.hazy.get? k = none → t.hazy.get? k = none
  put : ∀ x v, (x, v) ∈ bytes → t.byte .mem x = v
  rest : ∀ x, (∀ e ∈ bytes, e.1 ≠ x) → t.byte .mem x = u.byte .mem x

section

variable {u : State} {fn ck l : Nat} {leaf : DWord} {bytes : Tbl Byte}

theorem lineClean_of_written {v : State} (w : Written u v) (clean : u.lineClean l) : v.lineClean l := by
  obtain ⟨mem, poison, rels, residencies, l2, rfl⟩ := w
  exact clean

/-- The write of one line, and its note. -/
theorem strongNote_hostWritten {f : Flight} {tid slice : Nat} (place : f.place = .mem) (here : f.remote = none)
    (line : f.loc / 128 = l) (clean : u.lineClean l) (nodup : (bytes.map (·.1)).Nodup) :
    HostWritten l (l + 1) bytes u (((u.l2Touch l slice (insertV 0) ck none true).write .mem bytes).strongNote f tid true) := by
  have put (x : Nat) (v : Byte) (listed : (x, v) ∈ bytes) :
      ((u.l2Touch l slice (insertV 0) ck none true).write .mem bytes).byte .mem x = v := write_byte_same _ _ _ nodup listed
  have rest (x : Nat) (other : ∀ e ∈ bytes, e.1 ≠ x) :
      ((u.l2Touch l slice (insertV 0) ck none true).write .mem bytes).byte .mem x = u.byte .mem x :=
    (write_byte_other _ _ _ x other).trans (l2Touch_byte ..)
  have written : Written u ((u.l2Touch l slice (insertV 0) ck none true).write .mem bytes) :=
    written_of_lessWritten ((lessWritten_write ..).trans (lessWritten_l2Touch ..))
  generalize (u.l2Touch l slice (insertV 0) ck none true).write .mem bytes = w at put rest written
  obtain ⟨hazy, strongs, nextId, e, unclear, noted⟩ := strongNote_of_clean (f := f) (tid := tid)
    (clashing_of_clean place (line ▸ lineClean_of_written written clean)) here true
  have key : noteKey f.place f.loc = 4 * l := by
    rw [place, noteKey, line]
    rfl
  rw [e]
  obtain ⟨mem, poison, rels, residencies, l2, rfl⟩ := written
  exact ⟨rfl, rfl, rfl, rfl, fun k other => noted k (key ▸ other l le_rfl (Nat.lt_succ_self l)), unclear, put, rest⟩

theorem hostWriteLine_writes (unchecked : (u.ctx ck).ovUsed = false) (line : ∀ e ∈ bytes, e.1 / 128 = l) (clean : u.lineClean l)
    (known : ∀ a ∈ bytes, ∀ b ∈ bytes, ∀ x, a.1 ≤ x → x ≤ b.1 → u.hazy.get? (4 * x) = none)
    (nodup : (bytes.map (·.1)).Nodup) : HostWritten l (l + 1) bytes u (u.hostWriteLine fn ck leaf bytes) := by
  unfold State.hostWriteLine
  split
  next a b first last =>
    have head : a ∈ bytes := List.mem_of_mem_head? first
    have tail : b ∈ bytes := List.mem_of_mem_getLast? last
    extract_lets access f mixed w
    have unhit : u.overlapHit f f.tid = none := if_pos (by simp [f, access, hostAccess, unchecked])
    have plain : mixed = [] := by
      refine mixedBytes_of_clean (clashing_of_clean rfl ((line a head).symm ▸ clean)) fun x below => hazyFor_eq_false.2 ?_
      have inside : x < b.1 + 1 - a.1 := below
      exact known a head b tail (a.1 + x) (Nat.le_add_right ..) (by omega)
    have unnoted (v : State) : v.overlapNote f f.tid = v := if_neg (by simp [f, access, hostAccess, unchecked])
    rw [unhit, plain]
    show HostWritten l (l + 1) bytes u ((State.overlapNote w f f.tid).strongNote f f.tid true)
    rw [unnoted]
    have atLine := line a head
    unfold w
    rw [atLine]
    exact strongNote_hostWritten rfl rfl atLine clean nodup
  next none =>
    have empty : bytes = [] := by
      cases bytes with
      | nil => rfl
      | cons a rest => exact (none a _ rfl (List.getLast?_eq_some_getLast (List.cons_ne_nil a rest))).elim
    subst empty
    exact ⟨rfl, rfl, rfl, rfl, fun _ _ => rfl, fun _ h => h, nofun, fun _ _ => rfl⟩

/-- All lines of a host write, each a strong access of its own (03 R489). -/
theorem hostLines_written {lo n : Nat} (unchecked : (u.ctx ck).ovUsed = false) (low : ∀ e ∈ bytes, lo ≤ e.1 / 128)
    (clean : ∀ i < n, u.lineClean (lo + i))
    (known : ∀ a ∈ bytes, ∀ b ∈ bytes, ∀ x, a.1 ≤ x → x ≤ b.1 → u.hazy.get? (4 * x) = none)
    (nodup : (bytes.map (·.1)).Nodup) :
    HostWritten lo (lo + n) (bytes.filter fun e => e.1 / 128 < lo + n) u
      ((List.range n).foldl (fun s i => s.hostWriteLine fn ck leaf (bytes.filter fun e => e.1 / 128 = lo + i)) u) := by
  induction n with
  | zero =>
    have none : (bytes.filter fun e => e.1 / 128 < lo + 0) = [] :=
      List.filter_eq_nil_iff.2 fun e listed => by simpa using low e listed
    rw [none]
    exact ⟨rfl, rfl, rfl, rfl, fun _ _ => rfl, fun _ h => h, nofun, fun _ _ => rfl⟩
  | succ n ih =>
    rw [List.range_succ, List.foldl_append, List.foldl_cons, List.foldl_nil]
    have before := ih fun i inside => clean i (by omega)
    generalize (List.range n).foldl _ u = v at before
    have line : HostWritten (lo + n) (lo + n + 1) (bytes.filter fun e => e.1 / 128 = lo + n) v
        (v.hostWriteLine fn ck leaf (bytes.filter fun e => e.1 / 128 = lo + n)) := by
      obtain ⟨notes, flights⟩ := clean n (Nat.lt_succ_self n)
      refine hostWriteLine_writes ?_ (fun e listed => by simpa using List.of_mem_filter listed) ⟨?_, before.flights ▸ flights⟩
        (fun a ha b hb x from' upto => before.hazy _ (known a (List.mem_of_mem_filter ha) b (List.mem_of_mem_filter hb) x from' upto))
        (nodup.sublist (List.filter_sublist.map _))
      · rw [State.ctx, before.ctxs]
        exact unchecked
      · rw [before.strongs _ fun l _ below => by omega]
        exact notes
    generalize v.hostWriteLine fn ck leaf _ = t at line
    refine ⟨line.sent.trans before.sent, line.groups.trans before.groups, line.flights.trans before.flights,
      line.ctxs.trans before.ctxs, fun k other => ?_, fun k none => line.hazy k (before.hazy k none), fun x v listed => ?_,
      fun x other => ?_⟩
    · rw [line.strongs k fun l from' upto => other l (by omega) (by omega),
        before.strongs k fun l from' upto => other l from' (by omega)]
    · obtain ⟨listed, below⟩ := List.mem_filter.1 listed
      have below : x / 128 < lo + (n + 1) := by simpa using below
      by_cases here : x / 128 = lo + n
      · exact line.put x v (List.mem_filter.2 ⟨listed, by simpa using here⟩)
      · rw [line.rest x fun e he same => here (by simpa [same] using List.of_mem_filter he)]
        exact before.put x v (List.mem_filter.2 ⟨listed, by simp; omega⟩)
    · rw [line.rest x fun e he => other e ?_, before.rest x fun e he => other e ?_]
      · obtain ⟨listed, here⟩ := List.mem_filter.1 he
        have here : e.1 / 128 < lo + n := by simpa using here
        exact List.mem_filter.2 ⟨listed, by simp; omega⟩
      · obtain ⟨listed, here⟩ := List.mem_filter.1 he
        have here : e.1 / 128 = lo + n := by simpa using here
        exact List.mem_filter.2 ⟨listed, by simp; omega⟩

end

/-! ## A request -/

section

variable {s u : State} {fn off n : Nat} {data : List (Option Byte)}

/-- An access that is refused: an abort is sent and logged, and memory stays. -/
def State.refuses (s : State) (fn : Nat) (a : Answer) : Prop :=
  ∃ t, a = .next t ∧
    t = { s with sent := .completerAbort fn :: s.sent, fns := t.fns, l2 := t.l2, freeCount := s.freeCount + 1 } ∧
    bitOf (t.fn fn).aer 15 = true

theorem hostRefused_refuses (s : State) {fn ck : Nat} (own : ck / 16 = fn) (l2 : Tbl L2Way) (va st n : Nat) :
    s.refuses fn (.next (State.hostRefused { s with l2 := l2 } fn ck va st n)) := by
  obtain ⟨rest, logged⟩ := hostRefused_logs { s with l2 := l2 } own va st n
  exact ⟨_, rfl, rest, logged⟩

theorem hostAddr_own (s : State) (fn off : Nat) : (s.hostAddr fn off).1 / 16 = fn := by
  show (16 * fn + off / 2 ^ 28 % 16) / 16 = fn
  omega

theorem hostWindow_of_disabled (disabled : (s.fn fn).enabled = false) :
    exec (.hostWindowRead fn off n) s = .next s ∧ exec (.hostWindowWrite fn off data) s = .next s := by
  constructor
  · rw [exec_hostWindowRead, execHostWindowRead]
    simp only [disabled, Bool.not_false, if_true]
  · rw [exec_hostWindowWrite, execHostWindowWrite]
    simp only [disabled, Bool.not_false, if_true]

section

variable (enabled : (s.fn fn).enabled = true)

include enabled

theorem hostWindowRead_of_error {st : Nat}
    (fails : s.hostXlat (s.hostAddr fn off).1 (s.hostAddr fn off).2 .read = (u, .error st)) :
    exec (.hostWindowRead fn off n) s = .next (u.hostRefused fn (s.hostAddr fn off).1 (s.hostAddr fn off).2 st 0) := by
  rw [exec_hostWindowRead, execHostWindowRead]
  simp only [enabled, Bool.not_true, Bool.false_eq_true, if_false, fails]

theorem hostWindowRead_of_ok {pa : Nat} {leaf : DWord}
    (ok : s.hostXlat (s.hostAddr fn off).1 (s.hostAddr fn off).2 .read = (u, .ok (pa, leaf))) :
    exec (.hostWindowRead fn off n) s = .next (
      if u.poisoned .mem pa n then u.hostRefused fn (s.hostAddr fn off).1 (s.hostAddr fn off).2 8 0
      else ((u.blurRead .mem pa n).l2Touch (pa / 128) (homeSlice pa leaf) (insertV 0) (s.hostAddr fn off).1 none false).send
        (.hostData fn ((u.blurRead .mem pa n).bytes .mem pa n))) := by
  rw [exec_hostWindowRead, execHostWindowRead]
  simp only [enabled, Bool.not_true, Bool.false_eq_true, if_false, ok]

theorem hostWindowWrite_of_error {st : Nat}
    (fails : s.hostXlat (s.hostAddr fn off).1 (s.hostAddr fn off).2 .write = (u, .error st)) :
    exec (.hostWindowWrite fn off data) s = .next (u.hostRefused fn (s.hostAddr fn off).1 (s.hostAddr fn off).2 st 1) := by
  rw [exec_hostWindowWrite, execHostWindowWrite]
  simp only [enabled, Bool.not_true, Bool.false_eq_true, if_false, fails]

theorem hostWindowWrite_of_ok {pa : Nat} {leaf : DWord}
    (ok : s.hostXlat (s.hostAddr fn off).1 (s.hostAddr fn off).2 .write = (u, .ok (pa, leaf))) :
    exec (.hostWindowWrite fn off data) s = .next (
      (List.range ((pa + data.length + 127) / 128 - pa / 128)).foldl (fun s' i =>
        s'.hostWriteLine fn (s.hostAddr fn off).1 leaf ((hostBytes pa data).filter fun e => e.1 / 128 = pa / 128 + i)) u) := by
  rw [exec_hostWindowWrite, execHostWindowWrite]
  simp only [enabled, Bool.not_true, Bool.false_eq_true, if_false, ok]
  rfl

theorem hostWindow_refuses_of_off (off' : (s.ctx (s.hostAddr fn off).1).en = false) :
    s.refuses fn (exec (.hostWindowRead fn off n) s) ∧ s.refuses fn (exec (.hostWindowWrite fn off data) s) := by
  rw [hostWindowRead_of_error enabled (hostXlat_of_off off'), hostWindowWrite_of_error enabled (hostXlat_of_off off')]
  exact ⟨hostRefused_refuses s (hostAddr_own ..) s.l2 .., hostRefused_refuses s (hostAddr_own ..) s.l2 ..⟩

theorem hostWindowRead_refuses_of_fault
    (fault : ∀ pa leaf, s.xlatNow (s.hostAddr fn off).1 (s.hostAddr fn off).2 .read ≠ .ok pa leaf) :
    s.refuses fn (exec (.hostWindowRead fn off n) s) := by
  obtain ⟨l2, st, fails⟩ := hostXlat_of_fault fault
  rw [hostWindowRead_of_error enabled fails]
  exact hostRefused_refuses s (hostAddr_own ..) l2 ..

theorem hostWindowWrite_refuses_of_fault
    (fault : ∀ pa leaf, s.xlatNow (s.hostAddr fn off).1 (s.hostAddr fn off).2 .write ≠ .ok pa leaf) :
    s.refuses fn (exec (.hostWindowWrite fn off data) s) := by
  obtain ⟨l2, st, fails⟩ := hostXlat_of_fault fault
  rw [hostWindowWrite_of_error enabled fails]
  exact hostRefused_refuses s (hostAddr_own ..) l2 ..

section

variable (en : (s.ctx (s.hostAddr fn off).1).en = true) {pa : Nat} {leaf : DWord}

include en

theorem hostWindowRead_refuses_of_poison (ok : s.xlatNow (s.hostAddr fn off).1 (s.hostAddr fn off).2 .read = .ok pa leaf)
    (poison : s.poisoned .mem pa n = true) : s.refuses fn (exec (.hostWindowRead fn off n) s) := by
  obtain ⟨l2, found⟩ := hostXlat_of_ok en ok
  rw [hostWindowRead_of_ok enabled found, if_pos (show State.poisoned { s with l2 := l2 } .mem pa n = true from poison)]
  exact hostRefused_refuses s (hostAddr_own ..) l2 ..

/-- A read sends the bytes at the address that the context's table gives. -/
theorem hostWindowRead_sends (ok : s.xlatNow (s.hostAddr fn off).1 (s.hostAddr fn off).2 .read = .ok pa leaf)
    (clean : s.poisoned .mem pa n = false) (known : ∀ i < n, s.hazyFor .mem (pa + i) none = false) :
    ∃ t, exec (.hostWindowRead fn off n) s = .next t ∧ t.sent = .hostData fn (s.bytes .mem pa n) :: s.sent ∧ t.mem = s.mem ∧
      t.groups = s.groups := by
  obtain ⟨l2, found⟩ := hostXlat_of_ok en ok
  have same : Touched s { s with l2 := l2 } := ⟨l2, s.teams, rfl⟩
  have plain : State.blurRead { s with l2 := l2 } .mem pa n = { s with l2 := l2 } :=
    blurRead_of_known fun x below => (same.hazyFor ..).trans (known x below)
  have touched := same.trans (touched_l2Touch { s with l2 := l2 } (pa / 128) (homeSlice pa leaf) (insertV 0)
    (s.hostAddr fn off).1 none false)
  rw [hostWindowRead_of_ok enabled found, if_neg (by rw [same.poisoned, clean]; decide), plain, same.bytes]
  generalize State.l2Touch _ _ _ _ _ _ _ = t at touched
  obtain ⟨l2', teams, rfl⟩ := touched
  exact ⟨_, rfl, rfl, rfl, rfl⟩

/-- A write puts the enabled bytes at the address that the context's table gives. -/
theorem hostWindowWrite_writes (ok : s.xlatNow (s.hostAddr fn off).1 (s.hostAddr fn off).2 .write = .ok pa leaf)
    (unchecked : (s.ctx (s.hostAddr fn off).1).ovUsed = false)
    (clean : ∀ l, pa / 128 ≤ l → l ≤ (pa + data.length) / 128 → s.lineClean l)
    (known : ∀ i < data.length, s.hazyFor .mem (pa + i) none = false) :
    ∃ t, exec (.hostWindowWrite fn off data) s = .next t ∧ t.sent = s.sent ∧ t.groups = s.groups ∧ ∀ a, t.mem.read 0 a =
      if pa ≤ a ∧ a < pa + data.length then (data.getD (a - pa) none).getD (s.mem.read 0 a) else s.mem.read 0 a := by
  obtain ⟨l2, found⟩ := hostXlat_of_ok en ok
  have inside {x : Nat} {v : Byte} (listed : (x, v) ∈ hostBytes pa data) : pa ≤ x ∧ x < pa + data.length := by
    obtain ⟨i, rfl, value⟩ := mem_hostBytes.1 listed
    have := (List.getElem?_eq_some_iff.1 value).1
    omega
  have lines := hostLines_written (u := { s with l2 := l2 }) (fn := fn) (ck := (s.hostAddr fn off).1) (leaf := leaf)
    (bytes := hostBytes pa data) (lo := pa / 128) (n := (pa + data.length + 127) / 128 - pa / 128) unchecked
    (fun e listed => Nat.div_le_div_right (inside listed).1)
    (fun i below => clean (pa / 128 + i) (Nat.le_add_right ..) (by omega))
    (fun a ha b hb x from' upto => by
      have low := inside ha
      have high := inside hb
      have plain := hazyFor_eq_false.1 (known (x - pa) (by omega))
      rwa [show pa + (x - pa) = x by omega] at plain)
    (hostBytes_nodup pa data)
  rw [List.filter_eq_self.2 fun e listed => by
    have := inside listed
    simp
    omega] at lines
  refine ⟨_, hostWindowWrite_of_ok enabled found, lines.sent, lines.groups, fun a => ?_⟩
  split
  next here =>
    obtain ⟨i, rfl⟩ := Nat.exists_eq_add_of_le here.1
    rw [Nat.add_sub_cancel_left, List.getD_eq_getElem?_getD]
    cases value : data[i]? with
    | none =>
      have := List.getElem?_eq_none_iff.1 value
      omega
    | some o =>
      cases o with
      | some v => exact lines.put _ v (mem_hostBytes.2 ⟨i, rfl, value⟩)
      | none =>
        refine lines.rest _ fun e listed same => ?_
        obtain ⟨k, at', enabled'⟩ := mem_hostBytes.1 listed
        obtain rfl : k = i := by omega
        rw [value] at enabled'
        cases enabled'
  next out => exact lines.rest a fun e listed same => out (same ▸ inside listed)

end

end

end

end Sys2Proof.Machine
end

section
/-! SUPPORT and PROOFS. Function Level Reset (O47). -/

namespace Sys2Proof.Tbl

variable {β : Type}

theorem get?_filter_of_pos {m : Tbl β} {k : Nat} {v : β} (found : m.get? k = some v) {p : Nat × β → Bool} (holds : p (k, v) = true) :
    get? (m.filter p) k = some v := by
  induction m with
  | nil => cases found
  | cons e m ih =>
    obtain ⟨k', v'⟩ := e
    by_cases here : k' = k
    · subst here
      obtain rfl : v' = v := by simpa [get?] using found
      rw [List.filter_cons_of_pos holds, get?, if_pos rfl]
    · have later : get? m k = some v := by simpa [get?, here] using found
      cases kept : p (k', v') with
      | true => rw [List.filter_cons_of_pos kept, get?, if_neg here, ih later]
      | false => rw [List.filter_cons_of_neg (by simp [kept]), ih later]

end Sys2Proof.Tbl

namespace Sys2Proof.Machine

/-! ## What the abort of grids without a record leaves -/

/-- The state without what the end of grids without a record changes. -/
def State.lessCleared (s : State) : State :=
  { s with
    residencies := [], watches := [], weights := [], scales := [], cores := [], groups := [], jobs := [], heldRecords := []
    barSlots := [], walks := [], tokens := [], teams := [], savedTeams := [], ctxs := [], mem := [], memPoison := [], rels := []
    l2 := [], grids := [] }

/-- Every grid is one of those that stood before, of the same context. -/
def GridsFrom (o s : State) : Prop := ∀ e ∈ s.grids, ∃ x ∈ o.grids, x.2.ck = e.2.ck

theorem GridsFrom.trans {o s t : State} (h : GridsFrom o s) (h' : GridsFrom s t) : GridsFrom o t := fun e listed => by
  obtain ⟨x, hx, same⟩ := h' e listed
  obtain ⟨y, hy, same'⟩ := h x hx
  exact ⟨y, hy, same'.trans same⟩

theorem gridsFrom_of_eq {s t : State} (h : t.grids = s.grids) : GridsFrom s t := fun e listed => ⟨e, h ▸ listed, rfl⟩

theorem gridsFrom_modGrid (s : State) (k : Nat) {f : Grid → Grid} (same : ∀ g, (f g).ck = g.ck) : GridsFrom s (s.modGrid k f) := by
  intro e listed
  cases found : s.grids.get? k with
  | none =>
    rw [State.modGrid, Tbl.modify, found] at listed
    exact ⟨e, listed, rfl⟩
  | some g =>
    rw [modGrid_of found] at listed
    rcases Tbl.mem_put listed with rfl | stood
    · exact ⟨_, Tbl.mem_of_get? found, (same g).symm⟩
    · exact ⟨e, stood, rfl⟩

section

variable (s : State) (k : Nat)

theorem stripGrid_grids : (s.stripGrid k).grids = (s.modGrid k fun g => { g with held := [] }).grids := by
  have same := stripGrid_lessStripped s k
  generalize s.stripGrid k = t at same
  exact (congrArg State.grids same :)

theorem stripGrid_gridsFrom : GridsFrom s (s.stripGrid k) :=
  (gridsFrom_modGrid s k (f := fun g => { g with held := [] }) fun _ => rfl).trans (gridsFrom_of_eq (stripGrid_grids s k))

theorem lessCleared_lessStripped : s.lessStripped.lessCleared = s.lessCleared := by
  simp only [State.lessCleared, State.lessStripped, State.lessHeld, State.lessRes]

theorem stripGrid_lessCleared : (s.stripGrid k).lessCleared = s.lessCleared := by
  rw [← lessCleared_lessStripped, stripGrid_lessStripped, lessCleared_lessStripped]
  rfl

theorem closeGrid_lessCleared (rejected : Bool) : (s.closeGrid k rejected).lessCleared = s.lessCleared := by
  unfold State.closeGrid
  split
  · rfl
  · extract_lets u
    have freed : u.lessCleared = s.lessCleared := by
      unfold u
      split <;> rfl
    exact freed

theorem closeGrid_gridsFrom (rejected : Bool) : GridsFrom s (s.closeGrid k rejected) := by
  unfold State.closeGrid
  split
  · exact gridsFrom_of_eq rfl
  · extract_lets u
    have freed : u.grids = s.grids := by
      unfold u
      split <;> rfl
    exact (gridsFrom_of_eq freed).trans (gridsFrom_modGrid u k fun _ => rfl)

/-- A grid aborted without a record: its teams are gone, and then it is. -/
theorem abortOne_quiet (err : Option (List Byte)) (kids : List Nat) {g : Grid} (found : s.grids.get? k = some g) :
    s.abortOne true err k kids = { ((s.stripGrid k).closeGrid k false).modCtx g.ck
      (fun c => { c with devq := dropFrom c.devq k }) with grids := ((s.stripGrid k).closeGrid k false).grids.del k } := by
  rw [State.abortOne, found]
  rfl

theorem abortOne_lessCleared (err : Option (List Byte)) (kids : List Nat) :
    (s.abortOne true err k kids).lessCleared = s.lessCleared := by
  cases found : s.grids.get? k with
  | none => rw [abortOne_of_none s true err k kids found]
  | some g =>
    rw [abortOne_quiet s k err kids found]
    have closed := (closeGrid_lessCleared (s.stripGrid k) k false).trans (stripGrid_lessCleared s k)
    generalize (s.stripGrid k).closeGrid k false = u at closed
    exact closed

theorem abortOne_gridsFrom (err : Option (List Byte)) (kids : List Nat) : GridsFrom s (s.abortOne true err k kids) := by
  cases found : s.grids.get? k with
  | none =>
    rw [abortOne_of_none s true err k kids found]
    exact gridsFrom_of_eq rfl
  | some g =>
    rw [abortOne_quiet s k err kids found]
    have closed := (stripGrid_gridsFrom s k).trans (closeGrid_gridsFrom (s.stripGrid k) k false)
    generalize (s.stripGrid k).closeGrid k false = u at closed
    exact fun e listed => closed e (List.mem_of_mem_filter listed)

end

/-- A grid stands with its context, or its teams are gone. -/
def State.keptOrStripped (s : State) (k ck : Nat) : Prop := (∃ g, s.grids.get? k = some g ∧ g.ck = ck) ∨ s.stripped k

section

variable {s t : State} {k ck : Nat}

theorem State.stripped.fewer (h : s.stripped k) (f : Fewer s t) : t.stripped k :=
  ⟨fun e listed => h.1 e (f.teams.subset listed), fun e listed => h.2 e (f.saved.subset listed)⟩

/-- The groups of a team that is gone with its grid's are gone too. -/
theorem groups_of_stripped (f : Fewer s t) (h : t.stripped k) {tk : Nat} {tm : Team} (found : s.teams.get? tk = some tm)
    (mine : tm.grid = k) : ∀ e ∈ t.groups, e.2.team ≠ tk := by
  obtain stands | ⟨-, gone⟩ := f.team tk
  · exact absurd mine (h.1 (tk, tm) (Tbl.mem_of_get? (stands.trans found)))
  · exact gone

end

/-! ## A function is cleared -/

section

variable (s : State) (fn : Nat)

/-- The grids of a function's contexts that came from the host are aborted without a record (03 R59). -/
def State.dropGrids : State := s.abortGrids true none 0 ((s.grids.filter fun e => e.2.ck / 16 = fn && e.2.depth = 1).map (·.1))

/-- The teams of all grids of a function that are left are removed. -/
def State.stripFn : State := ((s.dropGrids fn).grids.filter fun e => e.2.ck / 16 = fn).foldl (fun s e => s.stripGrid e.1) (s.dropGrids fn)

theorem clearFn_eq : s.clearFn fn = { s.stripFn fn with
    grids := (s.stripFn fn).grids.filter fun e => e.2.ck / 16 ≠ fn
    jobs := (s.stripFn fn).jobs.filter fun e => e.2.ck / 16 ≠ fn
    heldRecords := (s.stripFn fn).heldRecords.filter fun e => e.2.ck / 16 ≠ fn
    walks := (s.stripFn fn).walks.filter fun e => e.2.ck / 16 ≠ fn
    overlaps := (s.stripFn fn).overlaps.filter fun e => e.1 % 512 / 16 ≠ fn
    tlb2 := (s.stripFn fn).tlb2.map fun (e : Nat × List TlbEntry) => (e.1, e.2.filter fun t => t.ck / 16 ≠ fn)
    cores := (s.stripFn fn).cores.map fun (e : Nat × Core) => (e.1, { e.2 with tlb := e.2.tlb.filter fun t => t.ck / 16 ≠ fn }) } := rfl

theorem stripFn_shrunk : Shrunk s (s.stripFn fn) :=
  (abortGrids_shrunk ..).trans (foldl_shrunk (f := fun u (e : Nat × Grid) => u.stripGrid e.1) (fun u e => stripGrid_shrunk u e.1) _ _)

theorem stripFn_lessCleared : (s.stripFn fn).lessCleared = s.lessCleared :=
  (foldl_leaves State.lessCleared (f := fun u (e : Nat × Grid) => u.stripGrid e.1) (fun u e => stripGrid_lessCleared u e.1) _ _).trans
    (foldl_keeps (P := fun u => u.lessCleared = s.lessCleared) (fun u e h => (abortOne_lessCleared u e.1 _ e.2).trans h) _ rfl)

theorem stripFn_gridsFrom : GridsFrom s (s.stripFn fn) := by
  have dropped : GridsFrom s (s.dropGrids fn) :=
    foldl_keeps (P := GridsFrom s) (fun u e h => h.trans (abortOne_gridsFrom u e.1 _ e.2)) _ (gridsFrom_of_eq rfl)
  exact foldl_keeps (P := GridsFrom s) (f := fun u (e : Nat × Grid) => u.stripGrid e.1)
    (fun u e h => h.trans (stripGrid_gridsFrom u e.1)) _ dropped

variable {k ck : Nat}

/-- An abort without a record leaves a grid as it stands, or removes it with its teams. -/
theorem dropGrids_keptOrStripped (found : ∃ g, s.grids.get? k = some g ∧ g.ck = ck) : (s.dropGrids fn).keptOrStripped k ck := by
  by_cases ends : k ∈ (s.abortTree true 11 ((s.grids.filter fun e => e.2.ck / 16 = fn && e.2.depth = 1).map (·.1))).map (·.1)
  · exact .inr (abortGrids_finished s true none 0 _ ends).2
  · refine .inl ?_
    rw [State.dropGrids, abortGrids_others s true none 0 _ ends]
    exact found

theorem stripGrid_keptOrStripped (k' : Nat) (h : s.keptOrStripped k ck) : (s.stripGrid k').keptOrStripped k ck := by
  obtain ⟨g, found, rfl⟩ | stripped := h
  · refine .inl ?_
    rw [stripGrid_grids, State.modGrid, Tbl.get?_modify]
    split
    · exact ⟨{ g with held := [] }, by rw [found]; rfl, rfl⟩
    · exact ⟨g, found, rfl⟩
  · exact .inr (stripped.fewer (stripGrid_shrunk s k').toFewer)

theorem stripFn_keptOrStripped (h : s.keptOrStripped k ck) :
    (s.stripFn fn).keptOrStripped k ck ∧ (ck / 16 = fn → (s.stripFn fn).stripped k) := by
  obtain found | stripped := h
  · have dropped := dropGrids_keptOrStripped s fn found
    refine ⟨foldl_keeps (P := fun u => u.keptOrStripped k ck) (f := fun u (e : Nat × Grid) => u.stripGrid e.1)
      (fun u e => stripGrid_keptOrStripped u e.1) _ dropped, fun mine => ?_⟩
    have keeps (u : State) (e : Nat × Grid) (h : u.stripped k) : (u.stripGrid e.1).stripped k :=
      h.fewer (stripGrid_shrunk u e.1).toFewer
    obtain ⟨g, stands, same⟩ | stripped := dropped
    · exact foldl_sets (P := fun u => u.stripped k) (Q := fun _ => True) (f := fun u (e : Nat × Grid) => u.stripGrid e.1)
        (fun _ _ _ => trivial) keeps (a := (k, g)) (fun u _ => stripGrid_stripped u k)
        (List.mem_filter.2 ⟨Tbl.mem_of_get? stands, by simpa [same] using mine⟩) trivial
    · exact foldl_keeps (P := fun u => u.stripped k) (f := fun u (e : Nat × Grid) => u.stripGrid e.1) keeps _ stripped
  · have gone := stripped.fewer (stripFn_shrunk s fn).toFewer
    exact ⟨.inr gone, fun _ => gone⟩

theorem clearFn_shrunk : Shrunk s (s.clearFn fn) := by
  have h := stripFn_shrunk s fn
  rw [clearFn_eq]
  generalize s.stripFn fn = u at h
  exact ⟨⟨h.teams, h.saved, h.groups, h.team⟩, h.queues, h.ctxs⟩

/-- What a cleared function leaves of the machine's registers and of the page walks that were kept. -/
theorem clearFn_rest : (s.clearFn fn).fns = s.fns ∧ (s.clearFn fn).dage = s.dage ∧ (s.clearFn fn).slices = s.slices ∧
    (s.clearFn fn).tlb2 = s.tlb2.map fun e => (e.1, e.2.filter fun t => t.ck / 16 ≠ fn) := by
  have h := stripFn_lessCleared s fn
  rw [clearFn_eq]
  generalize s.stripFn fn = u at h
  have fns : u.fns = s.fns := (congrArg State.fns h :)
  have dage : u.dage = s.dage := (congrArg State.dage h :)
  have slices : u.slices = s.slices := (congrArg State.slices h :)
  have tlb2 : u.tlb2 = s.tlb2 := (congrArg State.tlb2 h :)
  exact ⟨fns, dage, slices, congrArg (List.map fun e => (e.1, e.2.filter fun t => t.ck / 16 ≠ fn)) tlb2⟩

theorem clearFn_grids : ∀ e ∈ (s.clearFn fn).grids, e.2.ck / 16 ≠ fn ∧ ∃ x ∈ s.grids, x.2.ck = e.2.ck := by
  intro e listed
  rw [clearFn_eq] at listed
  have from' := stripFn_gridsFrom s fn
  generalize s.stripFn fn = u at from' listed
  obtain ⟨stood, other⟩ := List.mem_filter.1 listed
  exact ⟨by simpa using other, from' e stood⟩

/-- A grid of another function stands or is gone with its teams, and the grids of this one are gone with theirs. -/
theorem clearFn_keptOrStripped (h : s.keptOrStripped k ck) :
    (s.clearFn fn).keptOrStripped k ck ∧ (ck / 16 = fn → (s.clearFn fn).stripped k) := by
  have stripped := stripFn_keptOrStripped s fn h
  rw [clearFn_eq]
  generalize s.stripFn fn = u at stripped
  obtain ⟨kept, gone⟩ := stripped
  refine ⟨?_, gone⟩
  by_cases mine : ck / 16 = fn
  · exact .inr (gone mine)
  · obtain ⟨g, found, rfl⟩ | gone := kept
    · exact .inl ⟨g, Tbl.get?_filter_of_pos found (by simpa using mine), rfl⟩
    · exact .inr gone

end

/-! ## Registers at their reset values -/

/-- A function at its reset values: what 00_scope and 23 R474 keep of it stays. -/
def State.freshFn (s : State) (fn : Nat) : Fn :=
  let f := s.fn fn
  { enabled := f.enabled
    quota := f.quota
    aer := f.aer, aerMask := f.aerMask, aerSev := f.aerSev, aerCor := f.aerCor, aerCorMask := f.aerCorMask
    aerFirst := f.aerFirst, aerLog := f.aerLog
    priv := loadCode (if fn = 0 then s.rootCode else s.fnCode)
    running := s.bstate = 5
    entry := if fn = 0 then s.rootEntry else s.fnEntry }

/-- The registers of a function, its contexts and its queues at their reset values. -/
def State.resetRegs (s : State) (fn : Nat) : State :=
  { s with
    fns := s.fns.put fn (s.freshFn fn)
    ctxs := s.ctxs.map fun e => (e.1, if e.1 / 16 = fn then e.2.reset else e.2)
    queues := s.queues.filter fun e => e.1 / 1024 ≠ fn }

theorem resetFn_eq (s : State) (fn : Nat) : s.resetFn fn = (s.clearFn fn).resetRegs fn := by
  have ctxs (m : Tbl Ctx) : (m.map fun e => if e.1 / 16 = fn then (e.1, e.2.reset) else e) =
      m.map fun e => (e.1, if e.1 / 16 = fn then e.2.reset else e.2) :=
    List.map_congr_left fun e _ => by split <;> rfl
  rw [State.resetRegs, ← ctxs]
  rfl

/-- A function has its registers at their reset values, and nothing on the device is of one of its contexts. -/
structure FnFresh (n : Nat) (t : State) : Prop where
  mbin : (t.fn n).mbin = 0
  eren : (t.fn n).eren = false
  held : (t.fn n).held = []
  hwin : (t.fn n).hwin = []
  qvec : (t.fn n).qvec = []
  queues : ∀ qk, qk / 1024 = n → t.queue qk = {}
  ctxs : ∀ ck, ck / 16 = n → ∃ c : Ctx, t.ctx ck = c.reset
  grids : ∀ e ∈ t.grids, e.2.ck / 16 ≠ n
  tlb2 : ∀ e ∈ t.tlb2, ∀ x ∈ e.2, x.ck / 16 ≠ n

section

variable (s : State) (fn : Nat)

theorem resetRegs_ctx (ck : Nat) : (s.resetRegs fn).ctx ck = if ck / 16 = fn then (s.ctx ck).reset else s.ctx ck := by
  have listed : (s.resetRegs fn).ctxs.get? ck = (s.ctxs.get? ck).map fun c => if ck / 16 = fn then c.reset else c :=
    Tbl.get?_map_entry (fun k c => if k / 16 = fn then Ctx.reset c else c) ..
  rw [State.ctx, State.ctx, listed]
  cases s.ctxs.get? ck with
  | none => simp [Ctx.reset]
  | some c => rfl

theorem resetRegs_queue (qk : Nat) : (s.resetRegs fn).queue qk = if qk / 1024 = fn then {} else s.queue qk := by
  have listed : (s.resetRegs fn).queues.get? qk = if qk / 1024 ≠ fn then s.queues.get? qk else none :=
    (Tbl.get?_filter_key s.queues (fun k => k / 1024 ≠ fn) qk).trans (by simp)
  rw [State.queue, State.queue, listed]
  by_cases mine : qk / 1024 = fn
  · rw [if_neg (not_not.2 mine), if_pos mine]
    rfl
  · rw [if_pos mine, if_neg mine]

theorem resetRegs_fn (n : Nat) : (s.resetRegs fn).fn n = if fn = n then s.freshFn fn else s.fn n := by
  rw [State.fn, State.fn, State.resetRegs, Tbl.get?_put]
  split <;> rfl

/-- A context at its reset values stays so when work ends. -/
theorem reset_of_kept {c c' : Ctx} (kept : c.reset.Kept c') : ∃ c'' : Ctx, c' = c''.reset := by
  refine ⟨{ c with trcn := c'.trcn }, ?_⟩
  rw [kept.same, kept.devq rfl, kept.ranges rfl]
  rfl

/-- No grid and no entry of the second-level translation cache is of a context of the function. -/
theorem clearFn_clears : (∀ e ∈ (s.clearFn fn).grids, e.2.ck / 16 ≠ fn) ∧
    ∀ e ∈ (s.clearFn fn).tlb2, ∀ x ∈ e.2, x.ck / 16 ≠ fn := by
  refine ⟨fun e listed => (clearFn_grids s fn e listed).1, fun e listed x hx => ?_⟩
  rw [(clearFn_rest s fn).2.2.2] at listed
  obtain ⟨y, -, rfl⟩ := List.mem_map.1 listed
  simpa using List.of_mem_filter hx

theorem resetFn_fresh : FnFresh fn (s.resetFn fn) := by
  obtain ⟨grids, tlb2⟩ := clearFn_clears s fn
  rw [resetFn_eq]
  generalize s.clearFn fn = u at grids tlb2
  have fresh : (u.resetRegs fn).fn fn = u.freshFn fn := (resetRegs_fn u fn fn).trans (if_pos rfl)
  refine ⟨?_, ?_, ?_, ?_, ?_, fun qk mine => (resetRegs_queue u fn qk).trans (if_pos mine),
    fun ck mine => ⟨u.ctx ck, (resetRegs_ctx u fn ck).trans (if_pos mine)⟩, grids, tlb2⟩
  iterate 5
    rw [fresh]
    rfl

/-- The reset of any function leaves a function as it is after its own. -/
theorem FnFresh.resetFn {s : State} {n : Nat} (h : FnFresh n s) (fn : Nat) : FnFresh n (s.resetFn fn) := by
  by_cases here : fn = n
  · exact here ▸ resetFn_fresh s fn
  · obtain ⟨fns, -, -, walks⟩ := clearFn_rest s fn
    have grids := clearFn_grids s fn
    have shrunk := clearFn_shrunk s fn
    rw [resetFn_eq]
    generalize s.clearFn fn = u at fns walks grids shrunk
    have same : (u.resetRegs fn).fn n = s.fn n := by
      rw [resetRegs_fn, if_neg here, State.fn, State.fn, fns]
    refine ⟨same ▸ h.mbin, same ▸ h.eren, same ▸ h.held, same ▸ h.hwin, same ▸ h.qvec, fun qk mine => ?_, fun ck mine => ?_,
      fun e listed => ?_, fun e listed x hx => ?_⟩
    · rw [resetRegs_queue, if_neg (by omega), State.queue, shrunk.queues]
      exact h.queues qk mine
    · rw [resetRegs_ctx, if_neg (by omega)]
      obtain ⟨c, e⟩ := h.ctxs ck mine
      exact reset_of_kept (e ▸ shrunk.ctxs ck)
    · obtain ⟨x, stood, same⟩ := (grids e listed).2
      exact same ▸ h.grids x stood
    · have listed : e ∈ u.tlb2 := listed
      rw [walks] at listed
      obtain ⟨y, stood, rfl⟩ := List.mem_map.1 listed
      exact h.tlb2 y stood x (List.mem_of_mem_filter hx)

theorem resetFn_fewer : Fewer s (s.resetFn fn) := by
  have h := (clearFn_shrunk s fn).toFewer
  rw [resetFn_eq]
  generalize s.clearFn fn = u at h
  exact ⟨h.teams, h.saved, h.groups, h.team⟩

theorem resetFn_keptOrStripped {k ck : Nat} (h : s.keptOrStripped k ck) :
    (s.resetFn fn).keptOrStripped k ck ∧ (ck / 16 = fn → (s.resetFn fn).stripped k) := by
  have cleared := clearFn_keptOrStripped s fn h
  rw [resetFn_eq]
  generalize s.clearFn fn = u at cleared
  exact cleared

theorem resetFn_rest : ((s.resetFn fn).fn fn).enabled = (s.fn fn).enabled ∧ (s.resetFn fn).dage = s.dage ∧
    (s.resetFn fn).slices = s.slices := by
  obtain ⟨fns, dage, slices, -⟩ := clearFn_rest s fn
  rw [resetFn_eq]
  generalize s.clearFn fn = u at fns dage slices
  refine ⟨?_, dage, slices⟩
  rw [resetRegs_fn, if_pos rfl]
  show (u.fn fn).enabled = (s.fn fn).enabled
  rw [State.fn, State.fn, fns]

end

/-! ## Function Level Reset -/

section

variable (s : State) (n : Nat)

/-- Every function up to the last virtual one is reset. -/
def State.resetFns : State := (List.range 17).foldl (fun s f => s.resetFn f) s

/-- Virtual functions are disabled. -/
def State.disableVfs : State := virtualFns.foldl (fun s k => s.modFn k fun f => { f with enabled := false }) s

theorem functionLevelReset_of_early {fn : Nat} (early : s.bstate < 3 ∨ 16 < fn) : exec (.functionLevelReset fn) s = .next s := by
  rw [exec_functionLevelReset, execFunctionLevelReset, if_pos (by simpa using early)]

section

variable {fn : Nat} (up : 3 ≤ s.bstate)

include up

theorem functionLevelReset_of_virtual (there : fn ≤ 16) (virtual : fn ≠ 0) :
    exec (.functionLevelReset fn) s = .next (s.resetFn fn) := by
  rw [exec_functionLevelReset, execFunctionLevelReset, if_neg (by simp; omega), if_pos virtual]

theorem functionLevelReset_of_physical :
    exec (.functionLevelReset 0) s = .next s.resetFns.disableVfs.resetDispatcher := by
  rw [exec_functionLevelReset, execFunctionLevelReset, if_neg (by simp; omega), if_neg (by decide), State.disableVfs, virtualFns,
    List.foldl_map]
  rfl

end

theorem resetFns_fresh (there : n ≤ 16) : FnFresh n s.resetFns :=
  foldl_sets (P := FnFresh n) (Q := fun _ => True) (fun _ _ _ => trivial) (fun _ f h => h.resetFn f)
    (fun u _ => resetFn_fresh u n) (List.mem_range.2 (by omega)) trivial

theorem resetFns_fewer : Fewer s s.resetFns :=
  foldl_keeps (P := Fewer s) (fun u f h => h.trans (resetFn_fewer u f)) _ (.refl s)

theorem resetFns_stripped {k : Nat} {g : Grid} (found : s.grids.get? k = some g) (there : g.ck / 16 ≤ 16) : s.resetFns.stripped k :=
  foldl_sets (P := fun u => u.stripped k) (Q := fun u => u.keptOrStripped k g.ck)
    (fun u f h => (resetFn_keptOrStripped u f h).1) (fun u f h => h.fewer (resetFn_fewer u f))
    (fun u h => (resetFn_keptOrStripped u _ h).2 rfl) (List.mem_range.2 (by omega)) (.inl ⟨g, found, rfl⟩)

theorem disableVfs_rest : s.disableVfs = { s with fns := s.disableVfs.fns } := foldl_modFn_rest ..

theorem disableVfs_fn : s.disableVfs.fn n = if 1 ≤ n ∧ n ≤ 16 then { s.fn n with enabled := false } else s.fn n := by
  rw [State.disableVfs, foldl_modFn virtualFns (by decide)]
  exact if_congr (mem_virtualFns n) rfl rfl

theorem resetDispatcher_fn : s.resetDispatcher.fn n = s.fn n := rfl

variable {s n}

/-- Disabling functions leaves their other registers. -/
theorem FnFresh.disableVfs (h : FnFresh n s) : FnFresh n s.disableVfs := by
  have fn := disableVfs_fn s n
  rw [disableVfs_rest] at fn ⊢
  generalize s.disableVfs.fns = fns at fn
  refine ⟨?_, ?_, ?_, ?_, ?_, h.queues, h.ctxs, h.grids, h.tlb2⟩
  all_goals
    rw [fn]
    split
  exacts [h.mbin, h.mbin, h.eren, h.eren, h.held, h.held, h.hwin, h.hwin, h.qvec, h.qvec]

theorem FnFresh.resetDispatcher (h : FnFresh n s) : FnFresh n s.resetDispatcher :=
  ⟨h.mbin, h.eren, h.held, h.hwin, h.qvec, h.queues, h.ctxs, h.grids, h.tlb2⟩

theorem disableVfs_fewer {o : State} (h : Fewer o s) : Fewer o s.disableVfs := by
  rw [disableVfs_rest]
  exact ⟨h.teams, h.saved, h.groups, h.team⟩

theorem resetDispatcher_fewer {o : State} (h : Fewer o s) : Fewer o s.resetDispatcher := ⟨h.teams, h.saved, h.groups, h.team⟩

end

/-- Settles O47: a request is refused where it is not translated or poisoned, a read sends what stands there, and a write is one strong
access a line; a reset removes the grids of the function with their teams, and gives its registers back. -/
theorem hostWindowsAndFunctionReset : Obligations.HostWindowsAndFunctionReset := by
  unfold Obligations.HostWindowsAndFunctionReset
  refine ⟨fun fn off n data s => ⟨hostWindow_of_disabled, fun enabled => ⟨hostWindow_refuses_of_off enabled,
    hostWindowRead_refuses_of_fault enabled, hostWindowWrite_refuses_of_fault enabled, fun pa leaf en ok =>
      ⟨hostWindowRead_refuses_of_poison enabled en ok, hostWindowRead_sends enabled en ok⟩, fun pa leaf en ok =>
      hostWindowWrite_writes enabled en ok⟩⟩, fun fn s => ?_⟩
  intro fresh
  have fresh_of {t : State} {n : Nat} (h : FnFresh n t) (fewer : Fewer s t)
      (gone : ∀ k g, s.grids.get? k = some g → g.ck / 16 = n → t.stripped k) : fresh t n :=
    ⟨h.mbin, h.eren, h.held, h.hwin, h.qvec, h.queues, h.ctxs, h.grids, h.tlb2, fun k g found mine =>
      have stripped := gone k g found mine
      ⟨stripped.1, stripped.2, fun tk tm team grid => groups_of_stripped fewer stripped team grid⟩⟩
  refine ⟨functionLevelReset_of_early s, fun up there => ?_⟩
  by_cases physical : fn = 0
  · subst physical
    have fewer := resetDispatcher_fewer (disableVfs_fewer (resetFns_fewer s))
    have all (n : Nat) (there : n ≤ 16) : fresh s.resetFns.disableVfs.resetDispatcher n :=
      fresh_of (resetFns_fresh s n there).disableVfs.resetDispatcher fewer fun k g found mine =>
        (resetFns_stripped s found (mine ▸ there)).fewer (resetDispatcher_fewer (disableVfs_fewer (.refl _)))
    refine ⟨_, functionLevelReset_of_physical s up, all 0 there, fun virtual => absurd rfl virtual, fun _ =>
      ⟨all, fun n low high => ?_, rfl, rfl, rfl, rfl⟩⟩
    rw [resetDispatcher_fn, disableVfs_fn, if_pos ⟨low, high⟩]
  · exact ⟨_, functionLevelReset_of_virtual s up there physical, fresh_of (resetFn_fresh s fn) (resetFn_fewer s fn)
      fun k g found mine => (resetFn_keptOrStripped s fn (.inl ⟨g, found, rfl⟩)).2 mine,
      fun _ => resetFn_rest s fn, fun zero => absurd zero physical⟩

end Sys2Proof.Machine
end

section
/-! SUPPORT and PROOFS. `launch`, and the device queue that takes its packets (O34). -/

namespace Sys2Proof.Machine

/-! ## A group and its grid -/

section

variable {s : State} {gk : Nat} {g : Group} {tm : Team} {gr : Grid}

theorem pktOf_of (team : s.teamOf g = some tm) (grid : s.gridOf tm = some gr) : s.pktOf g = some gr.pkt := by
  simp only [State.pktOf, team, grid, Option.bind_some, Option.map_some]

theorem ckOf_of (team : s.teamOf g = some tm) (grid : s.gridOf tm = some gr) : s.ckOf g = gr.ck := by
  simp only [State.ckOf, team, grid, Option.map_some, Option.getD_some]

theorem gridKey_of (group : s.groups.get? gk = some g) (team : s.teamOf g = some tm) : s.gridKey gk = tm.grid := by
  simp only [State.gridKey, group_of group, team, Option.map_some, Option.getD_some]

/-- The device queue of a group is full as its context's records and launches on the way say. -/
theorem devqFull_iff (group : s.groups.get? gk = some g) (team : s.teamOf g = some tm) (grid : s.gridOf tm = some gr) :
    s.devqFull gk = true ↔ 256 ≤ (s.ctx gr.ck).devq.length + s.onTheWay gr.ck := by
  simp only [State.devqFull, group_of group, ckOf_of team grid, decide_eq_true_eq]

theorem holdsThread_eq_false {tid : Nat} : g.holdsThread tid = false ↔ ∀ e ∈ g.lanes, e.2.tid ≠ tid ∨ e.2.exited = true := by
  simp only [Group.holdsThread, List.any_eq_false, Bool.and_eq_true, decide_eq_true_eq, Bool.not_eq_true', not_and,
    Bool.not_eq_false, imp_iff_not_or, ne_eq]

/-- The status of a launch: 9 without thread 0 of the team, 5 at depth 10, else that of the packet's first checks (03 R76, R78). -/
theorem statusNow_eq (group : s.groups.get? gk = some g) (team : s.teamOf g = some tm) (grid : s.gridOf tm = some gr)
    (b : List Byte) : s.statusNow gk b = if ∀ e ∈ g.lanes, e.2.tid ≠ 0 ∨ e.2.exited = true then 9
      else if gr.depth = 10 then 5 else (Packet.parse b).validate12 := by
  have found : s.grids.get? tm.grid = some gr := grid
  unfold State.statusNow
  rw [gridKey_of group team, found, group_of group]
  refine if_congr ?_ rfl rfl
  rw [Bool.not_eq_true', holdsThread_eq_false]

end

/-! ## `launch` -/

/-- The launch that a group begins: its packet, its status where it is known, and what stands before it. -/
def State.launchOf (s : State) (gk : Nat) (b : List Byte) (d : Operand) (st : Option Nat) : Launch :=
  { id := s.nextId, pkt := b, d := scalarDest d, status := st, after := s.issuedBefore gk, seen := s.knownTo (s.lanesIn gk) }

/-- A group with one more launch, whose status scalar waits. -/
def Group.launching (g : Group) (d : Operand) (x : Launch) : Group := { g.hold 1 d with launches := g.launches ++ [x] }

/-- The state in which a number has been taken. -/
def State.counted (s : State) : State := { s with nextId := s.nextId + 1 }

theorem LanesBecome.congr {k : Cursor} {g g' : Group} {r r' : Nat → Thread → Thread} (h : LanesBecome k g g' r)
    (same : ∀ l t, r l t = r' l t) : LanesBecome k g g' r' :=
  ⟨h.rest, h.others, fun l t inside found => same l t ▸ h.runs l t inside found⟩

theorem launching_lanes (g : Group) (d : Operand) (x : Launch) : (g.launching d x).lanes = g.lanes := by
  cases d <;> rfl

theorem endRun_issued (s : State) (k : Cursor) (g : Group) : { (s.setGroup k.gk g).endRun k.gk with cur := none } =
    { s.issued k g with cores := ((s.setGroup k.gk g).endRun k.gk).cores } := rfl

section

variable {s : State} {k : Cursor} {g : Group} {f : Op3}

theorem beginLaunch_eq {gk : Nat} (group : s.groups.get? gk = some g) (b : List Byte) (d : Operand) (st : Option Nat) :
    s.beginLaunch gk b d st = s.counted.setGroup gk (g.launching d (s.launchOf gk b d st)) :=
  modGroup_of (s := s.counted) group _

/-- The lanes that execute wait, and the others stay. -/
theorem await_become (g : Group) (w : LaneWait) : LanesBecome k g (g.await k.active w) fun _ t => { t with wait := w } where
  rest := foldl_modThread_rest _ g fun _ t => { t with wait := w }
  others l out := (foldl_modThread _ g (fun _ t => { t with wait := w }) l (lanesOf_nodup _)).trans (if_neg out)
  runs l t inside found := by
    refine (foldl_modThread _ g (fun _ t => { t with wait := w }) l (lanesOf_nodup _)).trans ?_
    rw [if_pos inside, found]
    rfl

variable (hi : Issuing s k g)

include hi

theorem launch_of_unguarded (out : guardG g f.h k = false) :
    exec (.launch f) s = .next (s.issued k (g.advanceActive k)) := by
  have turn := groupMode_clean hi f.h id rfl
  rw [out] at turn
  rw [exec_launch, execLaunch, withIssuer, hi.cur]
  dsimp only
  rw [group_of hi.group, out]
  exact congrArg Host.Outcome.next turn

section

variable (inside : guardG g f.h k = true)
  (free : s.padBusy (coreOf k.gk) (2 ^ 19 * coreOf k.gk + groupVal g .b32 1 f.a) 128 = false)

include inside free

theorem launch_of_trap {c : Nat} {d : QWord} (traps : s.packetTrap k.gk (groupVal g .b32 1 f.a) = some (c, d)) :
    exec (.launch f) s = .next (s.finish k ((lanesOf k.active).map fun l => ⟨l, c, d⟩)) := by
  rw [exec_launch, execLaunch, withIssuer, hi.cur]
  dsimp only
  rw [group_of hi.group, inside, free, traps]
  rfl

variable (good : s.packetTrap k.gk (groupVal g .b32 1 f.a) = none)

include good

/-- Without room the lanes wait for it, and their run ends (06 R138). -/
theorem launch_of_full (full : s.devqFull k.gk = true) :
    let b := s.bytes .pad (2 ^ 19 * coreOf k.gk + groupVal g .b32 1 f.a) 128
    let g' := (g.launching f.d (s.launchOf k.gk b f.d none)).await k.active (.launch s.nextId)
    ∃ cores, exec (.launch f) s = .next { s.counted.issued k g' with cores := cores } := by
  intro b g'
  obtain ⟨l, here, t, found, alive⟩ := hi.lane
  have waits := await_become (k := k) (g.launching f.d (s.launchOf k.gk b f.d none)) (.launch s.nextId)
  rw [exec_launch, execLaunch, withIssuer, hi.cur]
  dsimp only
  rw [group_of hi.group, inside, free, good, full, beginLaunch_eq hi.group, setGroup_modGroup]
  have waits := waits.runs l t here (by rw [launching_lanes]; exact found)
  have ends := finish_clean (s := (s.counted.setGroup k.gk g').endRun k.gk) hi.clean (setGroup_get ..) waits alive
  exact ⟨_, congrArg Host.Outcome.next (ends.trans (endRun_issued s.counted k g'))⟩

/-- With room the launch has its status, and every lane advances. -/
theorem launch_of_room (room : s.devqFull k.gk = false) :
    let b := s.bytes .pad (2 ^ 19 * coreOf k.gk + groupVal g .b32 1 f.a) 128
    let g' := (g.launching f.d (s.launchOf k.gk b f.d (some (s.statusNow k.gk b)))).advanceActive k
    exec (.launch f) s = .next (s.counted.issued k g') := by
  intro b g'
  obtain ⟨l, here, t, found, alive⟩ := hi.lane
  have steps := advance_all (k := k) (g.launching f.d (s.launchOf k.gk b f.d (some (s.statusNow k.gk b))))
  rw [exec_launch, execLaunch, withIssuer, hi.cur]
  dsimp only
  rw [group_of hi.group, inside, free, good, room]
  have counted : Issuing s.counted k g := ⟨hi.cur, hi.clean, hi.group, hi.nonempty, hi.within, hi.present⟩
  have turn : groupModeS f.h (fun s => s.beginLaunch k.gk b f.d (some (s.statusNow k.gk b))) k s =
      (s.counted.setGroup k.gk g').finish k [] := by
    unfold groupModeS
    dsimp only
    rw [group_of hi.group, inside, if_pos rfl, beginLaunch_eq hi.group, setGroup_modGroup]
  refine congrArg Host.Outcome.next (turn.trans (counted.finish_set (l := l) (t := { t.step with wait := .none })
    (steps.runs l t here ?_) alive))
  rw [launching_lanes]
  exact found

end

end

/-! ## The packet's address and bytes -/

section

variable {s : State} {gk a : Nat} {g : Group} {tm : Team} {gr : Grid}

/-- The checks of a packet, in their order (03 R76). -/
theorem packetTrap_eq (group : s.groups.get? gk = some g) (team : s.teamOf g = some tm) (grid : s.gridOf tm = some gr) :
    s.packetTrap gk a = if a % 128 ≠ 0 then some (5, detailM a 0 7 128 1)
      else if inScratch tm gr.pkt a 128 = false then some (6, detailM a 0 7 128 1)
      else if s.poisoned .pad (2 ^ 19 * coreOf gk + a) 128 then some (16, detailM a 0 7 128 1) else none := by
  unfold State.packetTrap
  dsimp only
  rw [group_of group, team, pktOf_of team grid]
  simp only [Bool.not_eq_true']

end

/-! ## The device queue -/

section

variable {s : State} {gk : Nat} {g : Group}

theorem deviceQueue_of_none (group : s.groups.get? gk = some g) (none : g.launches = []) :
    exec (.deviceQueueEnqueue gk) s = .next s := by
  rw [exec_deviceQueueEnqueue, execDeviceQueueEnqueue, group_of group, none]

variable {x : Launch} {rest : List Launch} (group : s.groups.get? gk = some g) (first : g.launches = x :: rest)

include group first

theorem deviceQueue_of_full (waits : x.status = none) (full : s.devqFull gk = true) :
    exec (.deviceQueueEnqueue gk) s = .next s := by
  rw [exec_deviceQueueEnqueue, execDeviceQueueEnqueue, group_of group, first]
  simp only [waits, full, if_true]

theorem deviceQueue_of_room (waits : x.status = none) (room : s.devqFull gk = false) :
    exec (.deviceQueueEnqueue gk) s = .next ((s.setGroup gk { g with
      launches := { x with status := some (s.statusNow gk x.pkt) } :: rest }).wakeAll (.launch x.id)) := by
  rw [exec_deviceQueueEnqueue, execDeviceQueueEnqueue, group_of group, first]
  simp only [waits, room, Bool.false_eq_true, if_false, State.roomLaunch, modGroup_of group]

theorem deviceQueue_of_flights {st : Nat} (known : x.status = some st)
    (under : ∃ i ∈ x.after, (s.flights.get? i).isSome = true) : exec (.deviceQueueEnqueue gk) s = .next s := by
  have busy : (x.after.any fun i => (s.flights.get? i).isSome) = true := List.any_eq_true.2 under
  rw [exec_deviceQueueEnqueue, execDeviceQueueEnqueue, group_of group, first]
  simp only [known, busy, if_true]

theorem deviceQueue_of_performed {st : Nat} (known : x.status = some st)
    (done : ¬∃ i ∈ x.after, (s.flights.get? i).isSome = true) :
    exec (.deviceQueueEnqueue gk) s =
      .next (((s.setGroup gk { g with launches := rest }).submitLaunch gk x st).reap gk) := by
  have idle : ¬(x.after.any fun i => (s.flights.get? i).isSome) = true := fun busy => done (List.any_eq_true.1 busy)
  rw [exec_deviceQueueEnqueue, execDeviceQueueEnqueue, group_of group, first]
  simp only [known, idle, Bool.false_eq_true, if_false, modGroup_of group]

end

/-- Freeing a slot leaves teams, contexts and grids. -/
theorem reap_rest (s : State) (gk : Nat) :
    (s.reap gk).teams = s.teams ∧ (s.reap gk).ctxs = s.ctxs ∧ (s.reap gk).grids = s.grids := by
  unfold State.reap
  split
  · exact ⟨rfl, rfl, rfl⟩
  · split
    · exact ⟨rfl, rfl, rfl⟩
    · extract_lets u out v
      have bound : u.teams = s.teams ∧ u.ctxs = s.ctxs ∧ u.grids = s.grids := by
        unfold u
        split <;> exact ⟨rfl, rfl, rfl⟩
      split <;> exact bound

/-- A group that keeps a live thread keeps its slot. -/
theorem reap_of_hasThread {s : State} {gk : Nat} {g : Group} (group : s.groups.get? gk = some g) (live : g.hasThread = true) :
    s.reap gk = s := by
  unfold State.reap
  rw [group]
  exact if_pos live

/-! ## A launch enters the device queue -/

section

variable (g : Group) (i v : Nat)

theorem deliver_rest (d n origin : Nat) (v : Option Nat) :
    (g.deliver d n origin v).launches = g.launches ∧ (g.deliver d n origin v).lanes = g.lanes := by
  unfold Group.deliver
  split
  · exact ⟨rfl, rfl⟩
  · extract_lets es u
    split
    · rw [setScalars_rest]
      exact ⟨rfl, rfl⟩
    · exact ⟨rfl, rfl⟩

/-- A value delivered to a scalar stands there, and the scalar waits no more. -/
theorem deliver_scalar {i : Nat} (scalar : i < 384) (v : Nat) :
    (g.deliver i 1 0 (some v)).scalar i = BitVec.ofNat 32 v ∧ i ∉ (g.deliver i 1 0 (some v)).spend := by
  unfold Group.deliver
  rw [if_neg (by omega)]
  dsimp only
  constructor
  · rw [setScalars_succ]
    exact Tbl.read_write_same ..
  · rw [setScalars_rest]
    simp

end

/-- A grid has entered under the next number. -/
def State.entered (s : State) (g : Grid) : State := { s with grids := s.grids.put s.nextId g, nextId := s.nextId + 1 }

/-- The group that a launch has left, with its status delivered. -/
def Group.launched (g : Group) (x : Launch) (rest : List Launch) (st : Nat) : Group :=
  ({ g with launches := rest } : Group).deliver (x.d.getD 384) 1 0 (some st)

theorem launched_rest (g : Group) (x : Launch) (rest : List Launch) (st : Nat) :
    (g.launched x rest st).launches = rest ∧ (g.launched x rest st).lanes = g.lanes := deliver_rest ..

section

variable {s : State} {gk st : Nat} {g : Group} {tm : Team} {gr : Grid} (team : s.teamOf g = some tm)
  (grid : s.gridOf tm = some gr) (x : Launch) (rest : List Launch)

include team grid

theorem submitLaunch_eq : (s.setGroup gk { g with launches := rest }).submitLaunch gk x st =
    let u := s.setGroup gk (g.launched x rest st)
    let p := Packet.parse x.pkt
    if st ≠ 0 then
      (u.entered (newGrid p gr.ck gr.q true (gr.depth + 1) (some g.team))).endGrid s.nextId st p.corrid.toNat []
    else
      (u.entered { newGrid (p.lowerPri gr.pkt.pri) gr.ck gr.q true (gr.depth + 1) (some g.team) with seen := x.seen }).modCtx gr.ck
        fun c => { c with devq := c.devq ++ [s.nextId] } := by
  have key : (s.setGroup gk { g with launches := rest }).gridKey gk = tm.grid := gridKey_of (setGroup_get ..) team
  have found : (s.setGroup gk { g with launches := rest }).grids.get? tm.grid = some gr := grid
  unfold State.submitLaunch
  dsimp only
  rw [key, found]
  dsimp only
  rw [setGroup_modGroup, setGroup_group]
  rfl

/-- A launch of status 0 enters the device queue as a child of its grid (03 R77). -/
theorem submitLaunch_enters : let t := (s.setGroup gk { g with launches := rest }).submitLaunch gk x 0
    t.teams = s.teams ∧ t.groups = (s.setGroup gk (g.launched x rest 0)).groups ∧
      (t.ctx gr.ck).devq = (s.ctx gr.ck).devq ++ [s.nextId] ∧ t.grids = s.grids.put s.nextId
        { newGrid ((Packet.parse x.pkt).lowerPri gr.pkt.pri) gr.ck gr.q true (gr.depth + 1) (some g.team) with seen := x.seen } := by
  intro t
  have e : t = _ := (submitLaunch_eq team grid x rest).trans (if_neg (not_not.2 rfl))
  rw [e]
  exact ⟨rfl, rfl, congrArg Ctx.devq (modCtx_ctx_same _ gr.ck fun c => { c with devq := c.devq ++ [s.nextId] }), rfl⟩

/-- A rejected launch ends at once (03 R76). -/
theorem submitLaunch_rejects (rejected : st ≠ 0) : let t := (s.setGroup gk { g with launches := rest }).submitLaunch gk x st
    t.teams = s.teams ∧ t.groups = (s.setGroup gk (g.launched x rest st)).groups ∧
      ∀ g', t.grids.get? s.nextId = some g' → g'.stage = .ended := by
  intro t
  have e : t = _ := (submitLaunch_eq team grid x rest).trans (if_pos rejected)
  rw [e]
  have recorded := endGrid_recorded ((s.setGroup gk (g.launched x rest st)).entered
    (newGrid (Packet.parse x.pkt) gr.ck gr.q true (gr.depth + 1) (some g.team))) s.nextId st (Packet.parse x.pkt).corrid.toNat []
  exact ⟨recorded.teams, recorded.groups, (ended_endGrid ..).ended⟩

end

/-- Settles O34: `launch` by the checks of its packet and the room of the device queue; the device queue by the state of a group's
oldest launch. -/
theorem childrenAreLaunched : Obligations.ChildrenAreLaunched := by
  unfold Obligations.ChildrenAreLaunched
  intro status
  refine ⟨fun f s k g tm gr hi team grid => ?_, fun gk s g tm gr group team grid =>
    ⟨deviceQueue_of_none group, fun x rest first => ?_⟩⟩
  · intro off at' b full
    have isFull : s.devqFull k.gk = true ↔ full := devqFull_iff hi.group team grid
    refine ⟨fun out => ⟨_, launch_of_unguarded hi out, advance_all g⟩, fun inside free => ?_⟩
    intro within traps
    have trap := packetTrap_eq (a := off) hi.group team grid
    refine ⟨fun misaligned => ?_, fun aligned outside => ?_, fun aligned fits poison => ?_, fun aligned fits clean => ?_⟩
    · exact launch_of_trap hi inside free (trap.trans (if_pos misaligned))
    · refine launch_of_trap hi inside free (trap.trans ?_)
      rw [if_neg (not_not.2 aligned), if_pos (by simpa [within] using outside)]
    · refine launch_of_trap hi inside free (trap.trans ?_)
      rw [if_neg (not_not.2 aligned), if_neg (by simpa [within] using fits), if_pos poison]
    · have good : s.packetTrap k.gk off = none := by
        rw [trap, if_neg (not_not.2 aligned), if_neg (by simpa [within] using fits), if_neg (Bool.eq_false_iff.1 clean)]
      by_cases room : full
      · have waits := await_become (k := k) (g.launching f.d (s.launchOf k.gk b f.d none)) (.launch s.nextId)
        have same := waits.congr fun _ t => (if_pos room : (if full then _ else { t.step with wait := .none }) = _).symm
        obtain ⟨cores, turn⟩ := launch_of_full hi inside free good (isFull.2 room)
        exact ⟨_, _, s.launchOf k.gk b f.d none, turn, rfl, same, rfl,
          fun _ => rfl, fun other => absurd room other⟩
      · have steps := advance_all (k := k) (g.launching f.d (s.launchOf k.gk b f.d (some (s.statusNow k.gk b))))
        have same := steps.congr fun _ t =>
          (if_neg room : (if full then { t with wait := .launch s.nextId } else { t.step with wait := .none }) = _).symm
        exact ⟨_, _, s.launchOf k.gk b f.d (some (s.statusNow k.gk b)),
          launch_of_room hi inside free good (by simpa using mt isFull.1 room), rfl, same, rfl, fun other => absurd other room,
          fun _ => ⟨congrArg some (statusNow_eq hi.group team grid b), rfl⟩⟩
  · intro under full
    have isFull : s.devqFull gk = true ↔ full := devqFull_iff group team grid
    refine ⟨fun waits isfull => deviceQueue_of_full group first waits (isFull.2 isfull), fun waits room => ?_, fun st known =>
      ⟨deviceQueue_of_flights group first known, fun done => ?_⟩⟩
    · have now := statusNow_eq group team grid x.pkt
      have turn := deviceQueue_of_room group first waits (by simpa using mt isFull.1 room)
      rw [now] at turn
      refine ⟨_, Group.woken (.launch x.id) { g with launches := { x with status := some (status g gr x.pkt) } :: rest }, turn,
        ?_, rfl, rfl, fun l => ?_⟩
      · rw [wakeAll_groups, Tbl.get?_map_value, setGroup_get]
        rfl
      · exact Tbl.get?_map_value g.lanes (Thread.woken (.launch x.id)) l
    · obtain ⟨teams, ctxs, grids⟩ := reap_rest ((s.setGroup gk { g with launches := rest }).submitLaunch gk x st) gk
      have submitted : ((s.setGroup gk { g with launches := rest }).submitLaunch gk x st).teams = s.teams ∧
          ((s.setGroup gk { g with launches := rest }).submitLaunch gk x st).groups =
            (s.setGroup gk (g.launched x rest st)).groups := by
        by_cases zero : st = 0
        · obtain ⟨teams, groups, -⟩ := submitLaunch_enters team grid x rest
          exact zero ▸ ⟨teams, groups⟩
        · obtain ⟨teams, groups, -⟩ := submitLaunch_rejects team grid x rest zero
          exact ⟨teams, groups⟩
      refine ⟨_, deviceQueue_of_performed group first known done, teams.trans submitted.1, fun zero => ?_, fun rejected g' found => ?_,
        fun live => ?_⟩
      · subst zero
        obtain ⟨-, -, devq, listed⟩ := submitLaunch_enters team grid x rest
        exact ⟨by rw [State.ctx, ctxs]; exact devq, grids.trans listed⟩
      · rw [grids] at found
        exact (submitLaunch_rejects team grid x rest rejected).2.2 g' found
      · have here : ((s.setGroup gk { g with launches := rest }).submitLaunch gk x st).groups.get? gk =
            some (g.launched x rest st) := by
          rw [submitted.2]
          exact setGroup_get ..
        obtain ⟨launches, lanes⟩ := launched_rest g x rest st
        rw [reap_of_hasThread here (by rw [Group.hasThread, lanes]; exact live)]
        refine ⟨_, here, launches, lanes, fun i dest scalar => ?_⟩
        rw [Group.launched, dest]
        exact deliver_scalar _ scalar st

end Sys2Proof.Machine
end

section
/-! SUPPORT and PROOFS. The encoding (O55, O56). -/

namespace Sys2Proof.Machine

/-- The unguarded `halt`, a privileged instruction. -/
def haltWord : InsnWord := 0xDA400E00E00E000000000000

/-- R118 step 8: without privilege the word of `halt` passes every earlier check and fails this one. -/
theorem decodeWord_haltWord_unprivileged : decodeWord 0 false haltWord = .error .privilege := by
  decide +kernel

/-- Refutes O55: R118 has a step 8, which rejects a privileged instruction run without privilege
    with class 2, and the statement gives every rejection class 0 or 1. -/
theorem not_encodeOfDecode : ¬ Obligations.EncodeOfDecode := by
  unfold Obligations.EncodeOfDecode
  intro h
  have hcls := (h 0 false haltWord (Nat.zero_le _)).2 .privilege decodeWord_haltWord_unprivileged
  exact absurd hcls (by decide)

/-- Settles O56: each word decodes by evaluation. -/
theorem workedEncodingsDecode : Obligations.WorkedEncodingsDecode := by
  unfold Obligations.WorkedEncodingsDecode
  intro h z
  refine ⟨?_, ?_, ?_, ?_, ?_, ?_, ?_, ?_, ?_, ?_, ?_, ?_, ?_, ?_⟩ <;> decide +kernel

end Sys2Proof.Machine
end

section
/-! SUPPORT and PROOFS. The step runs the decoded instruction (O57). -/

namespace Sys2Proof.Machine

/-! ### Lanes as masks -/

theorem bitOf_or_shift (m : Word) (i l : Nat) (hl : l < 32) :
    bitOf (m ||| (1#32 <<< i)) l = (bitOf m l || decide (l = i)) := by
  unfold bitOf
  rw [BitVec.getLsbD_or, BitVec.getLsbD_shiftLeft, BitVec.getLsbD_one]
  congr 1
  rw [Bool.eq_iff_iff]
  simp
  omega

/-- The mask of a list of lanes holds the lanes of the list. -/
theorem bitOf_maskOf (ls : List Nat) (l : Nat) (hl : l < 32) : bitOf (maskOf ls) l = decide (l ∈ ls) := by
  have fold : ∀ (ls : List Nat) (m : Word),
      bitOf (ls.foldl (fun m i => m ||| (1#32 <<< i)) m) l = (bitOf m l || decide (l ∈ ls)) := by
    intro ls
    induction ls with
    | nil => simp
    | cons i t ih =>
      intro m
      rw [List.foldl_cons, ih, bitOf_or_shift _ _ _ hl, Bool.or_assoc]
      simp
  rw [maskOf, fold]
  simp [bitOf]

/-- Lanes that are chosen from the 32 in order are those of their mask. -/
theorem lanesOf_maskOf_filter (p : Nat → Bool) :
    lanesOf (maskOf ((List.range 32).filter p)) = (List.range 32).filter p := by
  unfold lanesOf
  refine List.filter_congr fun l hl => ?_
  have hl' := List.mem_range.mp hl
  rw [bitOf_maskOf _ _ hl', Bool.eq_iff_iff, decide_eq_true_iff, List.mem_filter]
  exact and_iff_right hl

/-- The lanes of a stream at its least counter are chosen from the 32 in order. -/
theorem pick_lanes {g : Group} {handler : Bool} {m : Word} {ls : List Nat} (h : g.pick handler = some (m, ls)) :
    ∃ p, ls = (List.range 32).filter p := by
  have hstream : ∃ q, g.stream handler = (List.range 32).filter q := by
    cases handler
    · exact ⟨fun l => g.live l && !g.setAside l && !g.joined l, by simp [Group.stream, Group.mainLanes]⟩
    · exact ⟨fun l => g.inHandler l && !g.joined l, by simp [Group.stream, Group.handlerLanes]⟩
  obtain ⟨q, hq⟩ := hstream
  rw [Group.pick] at h
  split at h
  · simp at h
  · next l t hs =>
    simp only [Option.some.injEq, Prod.mk.injEq] at h
    obtain ⟨-, rfl⟩ := h
    rw [← hs, hq, List.filter_filter]
    exact ⟨_, rfl⟩

/-- What a stream would issue goes to the lanes that `Group.pick` chose. -/
theorem pick_of_look {s : State} {gk : Nat} {handler : Bool} {m : Word} {ls : List Nat} {w : InsnWord}
    (h : s.look gk handler = .ready m ls w) : (s.group gk).pick handler = some (m, ls) := by
  by_cases hb : (if handler then (s.group gk).blockedHandler else (s.group gk).blockedMain) = true
  · simp [State.look, hb] at h
  · simp only [State.look, hb, Bool.false_eq_true, if_false] at h
    split at h
    · simp at h
    · next m' ls' hp =>
      rw [hp]
      split at h
      · simp at h
      · split at h
        · simp at h
        · simp at h
        · split at h
          · simp at h
          · simp_all

theorem look_of_choose {s : State} {gk : Nat} {handler : Bool} {x : Look} (h : s.choose gk = (handler, x))
    (hx : x ≠ .nothing) : s.look gk handler = x := by
  rw [State.choose] at h
  split at h
  · cases h; rfl
  · cases h; rfl

/-- The lanes of a chosen instruction are those of their mask. -/
theorem lanesOf_maskOf_of_choose {s : State} {gk : Nat} {handler : Bool} {m : Word} {ls : List Nat} {w : InsnWord}
    (h : s.choose gk = (handler, .ready m ls w)) : lanesOf (maskOf ls) = ls := by
  obtain ⟨p, rfl⟩ := pick_lanes (pick_of_look (look_of_choose h (by simp)))
  exact lanesOf_maskOf_filter p

/-! ### The slot of an issue -/

/-- Putting an instruction on an issue slot changes the core of the slot alone. -/
theorem slotTeam_eq (s : State) (c n gk : Nat) :
    s.slotTeam c n gk = { s with cores := (s.slotTeam c n gk).cores } := by
  rw [State.slotTeam]
  split <;> rfl

theorem setRun_slotRun (s : State) (c n : Nat) (r : Option Run) : (s.setRun c n r).slotRun c n = r := by
  rw [State.slotRun, State.setRun, modCore_core, if_pos rfl]
  split <;> simp_all

theorem setRun_core_other (s : State) (c c' n : Nat) (r : Option Run) (h : c' ≠ c) :
    (s.setRun c n r).core c' = s.core c' := by
  rw [State.setRun, modCore_core, if_neg (Ne.symm h)]

theorem slotTeam_core_other (s : State) (c c' n gk : Nat) (h : c' ≠ c) :
    (s.slotTeam c n gk).core c' = s.core c' := by
  rw [State.slotTeam]
  split
  · rw [modCore_core, if_neg (Ne.symm h)]
  · rfl

theorem occupy_eq (s : State) (c n : Nat) (r : Run) (w : InsnWord) :
    s.occupy c n r w = { s with cores := (s.occupy c n r w).cores } := by
  rw [State.occupy, slotTeam_eq]
  rfl

theorem occupy_core_other (s : State) (c c' n : Nat) (r : Run) (w : InsnWord) (h : c' ≠ c) :
    (s.occupy c n r w).core c' = s.core c' := by
  rw [State.occupy, setRun_core_other _ _ _ _ _ h, slotTeam_core_other _ _ _ _ _ h]

/-! ### Before the instruction -/

/-- Nothing of breakpoints, poison or transactions stands before an instruction of the lanes of a group. -/
structure Unhindered (s : State) (gk : Nat) (ls : List Nat) : Prop where
  threads : ∀ l ∈ ls, ∃ t, (s.group gk).lanes.get? l = some t ∧
    t.wait = .none ∧ t.tx.act = false ∧ t.late = none ∧ t.poison = []
  scalars : (s.group gk).spoison = []
  bkpts : ∀ i < 4, bitOf ((s.ctx (s.ckOf (s.group gk))).bkpt.read 0 i) 63 = false

theorem usePoison_of_spoison_nil {g : Group} (h : g.spoison = []) (handler : Bool) (l i n : Nat) :
    g.usePoison handler l (1, i, n) = none := by
  rw [Group.usePoison, List.findSome?_eq_none_iff]
  intro k _
  simp [h]

theorem usePoison_of_poison_nil {g : Group} {l : Nat} {t : Thread} (hl : g.lanes.get? l = some t) (h : t.poison = [])
    (handler : Bool) {u : Nat × Nat × Nat} (hu : u.1 ≠ 1) : g.usePoison handler l u = none := by
  match u with
  | (0, i, n) =>
    rw [Group.usePoison, hl, Option.bind_some, List.findSome?_eq_none_iff]
    intro k _
    simp [h]
  | (1, i, n) => exact absurd rfl hu
  | (2, i, n) => simp [Group.usePoison, hl, h]
  | (k + 3, i, n) => rfl

theorem scalarPoison_of_spoison_nil {g : Group} (h : g.spoison = []) (handler : Bool) (r : Raw) (k : Cursor) :
    g.scalarPoison handler r k = none := by
  have hreads : r.reads.findSome? (fun u => if u.1 = 1 then g.usePoison handler 0 u else none) = none := by
    rw [List.findSome?_eq_none_iff]
    rintro ⟨kind, i, n⟩ _
    by_cases hk : kind = 1
    · subst hk
      exact usePoison_of_spoison_nil h handler 0 i n
    · exact if_neg hk
  simp only [Group.scalarPoison, hreads, ite_self]

theorem foundBefore_of_clean {g : Group} {l : Nat} {t : Thread} (hl : g.lanes.get? l = some t) (hp : t.poison = [])
    (hlate : t.late = none) (handler : Bool) (r : Raw) (lead : Nat) : g.foundBefore handler r lead l t = none := by
  have own : r.ownReads.findSome? (fun u => if u.1 = 1 then none else g.usePoison handler l u) = none := by
    rw [List.findSome?_eq_none_iff]
    intro u _
    by_cases hu : u.1 = 1
    · exact if_pos hu
    · rw [if_neg hu, usePoison_of_poison_nil hl hp handler hu]
  have guard : g.usePoison handler l (2, r.gp.toNat, 1) = none := usePoison_of_poison_nil hl hp handler (Nat.succ_ne_self 1)
  simp [Group.foundBefore, hlate, guard, own]

theorem bkptHit_of_disarmed {s : State} {ck : Nat} (h : ∀ i < 4, bitOf ((s.ctx ck).bkpt.read 0 i) 63 = false)
    (pc : Word) (t : Thread) (halting : Bool) : s.bkptHit ck pc t halting = none := by
  rw [State.bkptHit]
  split
  · rfl
  · rw [List.find?_eq_none]
    intro n hn
    have hb : bitOf ((s.ctx ck).bkpt.read 0 n) 63 = false := h n (List.mem_range.mp hn)
    simp only [hb, Bool.false_and, Bool.false_eq_true, not_false_eq_true]

section
variable {s : State} {gk : Nat} {ls : List Nat} (hu : Unhindered s gk ls)
include hu

theorem Unhindered.thread {l : Nat} (hl : l ∈ ls) : (s.group gk).lanes.get? l = some (s.thread gk l) ∧
    (s.thread gk l).wait = .none ∧ (s.thread gk l).tx.act = false ∧ (s.thread gk l).late = none ∧
    (s.thread gk l).poison = [] := by
  obtain ⟨t, ht, rest⟩ := hu.threads l hl
  have : s.thread gk l = t := by simp [State.thread, ht]
  rw [this]
  exact ⟨ht, rest⟩

/-- Every lane is ready. -/
theorem Unhindered.ready : (ls.filter fun l => (s.thread gk l).wait = .none) = ls := by
  rw [List.filter_eq_self]
  intro l hl
  simp [(hu.thread hl).2.1]

/-- No lane stands in a transaction. -/
theorem Unhindered.acts (a : Bool) (p : Nat → Bool) :
    (ls.filter fun l => (s.thread gk l).tx.act && a && p l) = [] := by
  rw [List.filter_eq_nil_iff]
  intro l hl
  simp [(hu.thread hl).2.2.1]

/-- No lane finds late data or poison. -/
theorem Unhindered.found (handler : Bool) (r : Raw) (lead : Nat) (f : Nat → Nat × QWord → Trap) :
    (ls.filterMap fun l => ((s.group gk).foundBefore handler r lead l (s.thread gk l)).map (f l)) = [] := by
  rw [List.filterMap_eq_nil_iff]
  intro l hl
  obtain ⟨here, -, -, late, poison⟩ := hu.thread hl
  rw [foundBefore_of_clean here poison late, Option.map_none]

/-- No lane meets a breakpoint. -/
theorem Unhindered.hits (handler : Bool) (pc : Word) (halting : Bool) :
    (if handler then [] else ls.filterMap fun l =>
      (s.bkptHit (s.ckOf (s.group gk)) pc (s.thread gk l) halting).map fun n => (l, n)) = ([] : List (Nat × Nat)) := by
  simp [bkptHit_of_disarmed hu.bkpts]

end

/-- The lanes of one issue, all of which execute. -/
def issueCursor (gk : Nat) (handler : Bool) (ls : List Nat) (pc : Word) (w : InsnWord) : Cursor :=
  { gk := gk, full := maskOf ls, active := maskOf ls, handler := handler, word := w, pc := pc, traps := [] }

/-- The word that a stream of a group is to run. -/
def State.decoded (s : State) (gk : Nat) (w : InsnWord) : Except Reject Instr :=
  decodeWord (((s.pktOf (s.group gk)).map (·.tiles)).getD 0) (privilegedCk (s.ckOf (s.group gk))) w

/-- The cores have no part in what stands before an instruction. -/
theorem Unhindered.withCores {s : State} {gk : Nat} {ls : List Nat} (hu : Unhindered s gk ls) (cores : Tbl Core) :
    Unhindered { s with cores := cores } gk ls :=
  ⟨hu.threads, hu.scalars, hu.bkpts⟩

/-- The instruction of lanes that nothing hinders stands with all of them. -/
theorem prepare_of_decoded {s : State} {gk : Nat} {ls : List Nat} (hu : Unhindered s gk ls) (hne : ls ≠ [])
    (handler : Bool) (pc : Word) {w : InsnWord} {i : Instr} (hi : s.decoded gk w = .ok i) :
    s.prepare gk handler ls pc w = ({ s with cur := some (issueCursor gk handler ls pc w) }, some i) := by
  rw [State.decoded] at hi
  have hempty : ls.isEmpty = false := by simpa using hne
  simp only [State.prepare, hu.ready, hu.hits, hi, List.isEmpty_nil, Bool.not_true, List.any_nil, Bool.not_false,
    List.filter_true, Bool.false_eq_true, if_true, if_false, hu.acts, List.foldl_nil, List.contains_nil, ite_self,
    hu.found, scalarPoison_of_spoison_nil hu.scalars, hempty, Bool.or_false, Bool.and_false, List.append_nil]
  rfl

/-- A word that does not decode traps in every lane. -/
theorem prepare_of_rejected {s : State} {gk : Nat} {ls : List Nat} (hu : Unhindered s gk ls)
    (hls : lanesOf (maskOf ls) = ls) (handler : Bool) (pc : Word) {w : InsnWord} {e : Reject}
    (he : s.decoded gk w = .error e) :
    s.prepare gk handler ls pc w = (s.finish (issueCursor gk handler ls pc w)
      (ls.map fun l => ⟨l, e.cls, detailWord w e.step e.field⟩), none) := by
  rw [State.decoded] at he
  simp only [State.prepare, hu.ready, hu.hits, he]
  simp [trapAll, hls, issueCursor]

/-! ### The turn of an issue slot -/

theorem decoded_occupy (s : State) (c n : Nat) (run : Run) (w : InsnWord) (gk : Nat) (v : InsnWord) :
    (s.occupy c n run w).decoded gk v = s.decoded gk v := by
  rw [occupy_eq]
  rfl

/-- What an issue slot is about to run: its run may issue `w` at `m` for the lanes `ls`, which nothing hinders. -/
structure AtIssue (s : State) (c n : Nat) (run : Run) (handler : Bool) (m : Word) (ls : List Nat) (w : InsnWord) :
    Prop where
  slot : s.slotRun c n = some run
  free : run.busy = 0
  may : s.mayIssue run.gk = true
  choice : s.choose run.gk = (handler, .ready m ls w)
  lanes : ls ≠ []
  unhindered : Unhindered s run.gk ls

section
variable {s : State} {c n : Nat} {run : Run} {handler : Bool} {m : Word} {ls : List Nat} {w : InsnWord}
  (ha : AtIssue s c n run handler m ls w)
include ha

theorem AtIssue.unhindered_occupy : Unhindered (s.occupy c n run w) run.gk ls := by
  rw [occupy_eq]
  exact ha.unhindered.withCores _

/-- A decoded instruction goes to its meaning with the slot occupied. -/
theorem AtIssue.issueStart_of_decoded {i : Instr} (hi : s.decoded run.gk w = .ok i) :
    s.issueStart c n =
      ({ s.occupy c n run w with cur := some (issueCursor run.gk handler ls m w) }, some i) := by
  have hprep := prepare_of_decoded ha.unhindered_occupy ha.lanes handler m ((decoded_occupy ..).trans hi)
  simp only [State.issueStart, ha.slot, ha.free, ha.may, ha.choice, hprep]
  rfl

/-- Bytes that do not decode end the issue with the traps of their lanes. -/
theorem AtIssue.issueStart_of_rejected {e : Reject} (he : s.decoded run.gk w = .error e) :
    s.issueStart c n =
      (let k := issueCursor run.gk handler ls m w
       let t := (s.occupy c n run w).finish k (ls.map fun l => ⟨l, e.cls, detailWord w e.step e.field⟩)
       (if (t.ctx (s.ckOf (s.group run.gk))).halt then t.cutRun c n run.gk
        else t.issueEnd c n { k with active := 0 }, none)) := by
  have hprep := prepare_of_rejected ha.unhindered_occupy (lanesOf_maskOf_of_choose ha.choice) handler m
    ((decoded_occupy ..).trans he)
  simp only [State.issueStart, ha.slot, ha.free, ha.may, ha.choice, hprep]
  rfl

end

theorem step_issue_of_none {s t : State} {c n : Nat} {r : List Turn} (ha : s.agenda = .issue c n :: r)
    (h : ({ s with agenda := r } : State).issueStart c n = (t, none)) : step s = .next t := by
  simp only [step, ha, h]

section
variable {s t : State} {c n : Nat} {r : List Turn} {i : Instr} {k : Cursor} (ha : s.agenda = .issue c n :: r)
  (h : ({ s with agenda := r } : State).issueStart c n = (t, some i)) (hk : t.cur = some k)
include ha h hk

theorem step_issue_of_next {u : State} (he : exec i t = .next u) : step s = .next (u.issueEnd c n k) := by
  simp only [step, ha, h, he, hk, Option.getD_some]

omit hk in
theorem step_issue_of_fault {e : Fault} (he : exec i t = .fault e) : step s = .fault e := by
  simp only [step, ha, h, he]

omit hk in
theorem step_issue_of_refused {e : Refusal} (he : exec i t = .refused e) : step s = .refused e := by
  simp only [step, ha, h, he]

end

/-! ### The fetch -/

/-- Twelve bytes that end within a line are fetched from that line alone. -/
theorem fetchWord_of_line {s : State} {gk : Nat} {m : Word} {x : ICacheLine} (hin : s.insnAddr gk m % 64 ≤ 52)
    (hx : s.iline (coreOf gk / 2) (s.ckOf (s.group gk)) (s.insnAddr gk m / 64 * 64) = some x) (hcls : x.cls = 0) :
    s.fetchWord gk m = .word (wordOfBytes (x.bytes.drop (s.insnAddr gk m % 64))) := by
  have same : (s.insnAddr gk m + 11) / 64 = s.insnAddr gk m / 64 := by omega
  have offset : s.insnAddr gk m - s.insnAddr gk m / 64 * 64 = s.insnAddr gk m % 64 := by omega
  simp only [State.fetchWord, same, hx, hcls, ne_eq, not_true, if_false, if_true, List.append_nil, offset]

/-- A word is its first twelve bytes. -/
theorem wordOfBytes_take (l : List Byte) : wordOfBytes (l.take 12) = wordOfBytes l := by
  rw [wordOfBytes, wordOfBytes, List.take_take, Nat.min_self]

/-! ### The end of an issue -/

theorem modThread_mainLanes {f : Thread → Thread} (hf : ∀ t, (f t).exited = t.exited) (g : Group) (l : Nat) :
    (g.modThread l f).mainLanes = g.mainLanes := by
  refine List.filter_congr fun j _ => ?_
  have hlive : (g.modThread l f).live j = g.live j := by
    rw [Group.live, Group.live, modThread_at]
    by_cases hj : l = j
    · rw [if_pos hj]
      cases g.lanes.get? j <;> simp [hf]
    · rw [if_neg hj]
  rw [hlive]
  rfl

theorem clearSkips_mainLanes (s : State) (k : Cursor) (gk : Nat) :
    ((s.clearSkips k).group gk).mainLanes = (s.group gk).mainLanes := by
  refine foldl_leaves (fun s : State => (s.group gk).mainLanes) (fun s l => ?_) _ _
  dsimp only
  split
  · rw [State.group, State.modThread, modGroup_groups, Tbl.get?_modify]
    by_cases hk : k.gk = gk
    · subst hk
      rw [if_pos rfl, State.group]
      cases s.groups.get? k.gk with
      | none => rfl
      | some g =>
        exact modThread_mainLanes (f := fun t => { t with bkSkip := false, wpSkip := false }) (fun _ => rfl) g l
    · rw [if_neg hk, State.group]
  · rfl

theorem clearSkips_cores (s : State) (k : Cursor) : (s.clearSkips k).cores = s.cores := by
  refine foldl_leaves State.cores (fun s l => ?_) _ _
  dsimp only
  split <;> rfl

theorem slotDid_slotRun (s : State) (c n code : Nat) (g : Option Nat) :
    (s.slotDid c n code g).slotRun c n = s.slotRun c n := by
  rw [State.slotRun, State.slotRun, State.slotDid, modCore_core, if_pos rfl]
  split <;> rfl

/-- The run of a group ends on its slot; one that still occupies the slot ends with its last issue. -/
theorem endRun_slotRun {s : State} {c n gk : Nat} {run : Run} (hc : coreOf gk = c) (hr : s.slotRun c n = some run)
    (hg : run.gk = gk) :
    (s.endRun gk).slotRun c n = if run.busy = 0 then none else some { run with ends := true } := by
  subst hc
  rw [State.slotRun] at hr
  rw [State.slotRun, State.endRun, modCore_core, if_pos rfl]
  by_cases hn : n = 0 <;> by_cases hb : run.busy = 0 <;> simp_all

section
variable {s : State} {c n : Nat} {k : Cursor} {run : Run} (hcur : s.cur = none) (hr : s.slotRun c n = some run)
  (hg : run.gk = k.gk)
include hcur hr hg

/-- The end of an issue, once the slot's run and the group's lanes are known. -/
theorem issueEnd_of_run :
    s.issueEnd c n k =
      (let u := (s.clearSkips k).slotDid c n 1 (some k.gk)
       if (Raw.ofWord k.word).e = 1 || 24 ≤ run.n + 1 || ((u.group k.gk).handlerLanes.isEmpty && (s.group k.gk).mainLanes.isEmpty)
       then u.endRun k.gk else u.setRun c n (some { run with n := run.n + 1 })) := by
  have hslot : ((s.clearSkips k).slotDid c n 1 (some k.gk)).slotRun c n = some run := by
    rw [slotDid_slotRun, State.slotRun, State.core, clearSkips_cores]
    exact hr
  have hmain : (((s.clearSkips k).slotDid c n 1 (some k.gk)).group k.gk).mainLanes = (s.group k.gk).mainLanes :=
    clearSkips_mainLanes s k k.gk
  simp only [State.issueEnd, hcur, hslot, hg, ne_eq, not_true, if_false, hmain]

theorem issueEnd_slotRun_of_end (hc : coreOf k.gk = c) (he : (Raw.ofWord k.word).e = 1 ∨ 24 ≤ run.n + 1) :
    (s.issueEnd c n k).slotRun c n = if run.busy = 0 then none else some { run with ends := true } := by
  have hslot : ((s.clearSkips k).slotDid c n 1 (some k.gk)).slotRun c n = some run := by
    rw [slotDid_slotRun, State.slotRun, State.core, clearSkips_cores]
    exact hr
  rw [issueEnd_of_run hcur hr hg]
  dsimp only
  rw [if_pos (by simp only [Bool.or_eq_true, decide_eq_true_eq]; exact .inl he)]
  exact endRun_slotRun hc hslot hg

theorem issueEnd_slotRun_of_more (he : (Raw.ofWord k.word).e = 0) (hn : run.n + 1 < 24)
    (hl : (s.group k.gk).mainLanes ≠ []) :
    (s.issueEnd c n k).slotRun c n = some { run with n := run.n + 1 } := by
  rw [issueEnd_of_run hcur hr hg]
  dsimp only
  rw [if_neg (by simp [he, hl]; omega)]
  exact setRun_slotRun ..

end

/-! ### The passing of a clock -/

/-- What the opening of a clock is stated about: the clock itself, whether it ends and whether the base is dead, the
scratchpads, and the context clocks. -/
structure Hours where
  clock : Nat
  closing : Bool
  baseDead : Bool
  scratch : Tbl Byte
  ctime : Nat → DWord

def State.hours (s : State) : Hours := ⟨s.clock, s.closing, s.baseDead, s.scratch, fun ck => (s.ctx ck).ctime⟩

theorem modCtx_hours {s : State} {ck : Nat} {f : Ctx → Ctx} (hf : ∀ c, (f c).ctime = c.ctime) :
    (s.modCtx ck f).hours = s.hours := by
  have hctime (j : Nat) : ((s.modCtx ck f).ctx j).ctime = (s.ctx j).ctime := by
    rw [modCtx_ctx]
    split
    · next h => rw [hf, h]
    · rfl
  simp only [State.hours, hctime]
  rfl

theorem Written.hours {s t : State} (h : Written s t) : t.hours = s.hours := by
  obtain ⟨mem, poison, rels, residencies, l2, rfl⟩ := h
  rfl

theorem Notified.hours {s t : State} (h : Notified s t) : t.hours = s.hours := by
  obtain ⟨fns, sent, rfl⟩ := h
  rfl

theorem sendPeer_hours (s : State) (ck e : Nat) (bulk : Bool) (r : RemoteReq) : (s.sendPeer ck e bulk r).hours = s.hours := by
  unfold State.sendPeer State.linkSend
  extract_lets m peer k r' u ks
  have hu : u.hours = s.hours := by
    unfold u
    split <;> rfl
  split <;> exact hu

theorem devWrite_hours (s : State) (ck va : Nat) (b : List Byte) : (s.devWrite ck va b).1.hours = s.hours := by
  obtain ⟨l2, e⟩ := xlat_eq s ck va .write
  unfold State.devWrite
  rw [e]
  cases s.xlatNow ck va .write with
  | ok pa leaf => exact (written_writeHome ..).hours
  | fault cls cause => rfl
  | poison => rfl
  | remote i =>
    dsimp only
    split
    · exact sendPeer_hours ..
    · rfl

theorem setThr_hours (s : State) (ck : Nat) (bits : Word) : (s.setThr ck bits).hours = s.hours := by
  unfold State.setThr
  extract_lets s1 c new s2 r
  have h1 : s1.hours = s.hours := modCtx_hours fun _ => rfl
  have h2 : s2.hours = s1.hours := modCtx_hours fun _ => rfl
  split
  · exact h1
  · have h3 := ((devWrite_hours s2 ck c.notify.toNat r).trans h2).trans h1
    split
    · next s3 e => 
      rw [e] at h3
      exact h3
    · next s3 st e =>
      rw [e] at h3
      exact (notified_event ..).hours.trans h3

/-- What is swept as a clock ends belongs to cores, jobs and residencies. -/
theorem sweeps_leave {β : Type} (part : State → β) (hcores : ∀ s cores, part { s with cores := cores } = part s)
    (hjobs : ∀ s jobs remains, part { s with jobs := jobs, remains := remains } = part s)
    (hres : ∀ s, part s.lessRes = part s) (s : State) : part s.sweepJobs.sweepRevoked = part s := by
  have jobs : part s.sweepJobs = part s := (hjobs ..).trans (foldl_leaves part (fun _ _ => hcores ..) _ _)
  have revoked : s.sweepJobs.sweepRevoked.lessRes = s.sweepJobs.lessRes :=
    foldl_leaves State.lessRes (fun s _ => endResidency_lessRes (s := s) _) _ _
  rw [← hres, revoked, hres, jobs]

theorem tick_hours (s : State) : s.tick.hours.clock = s.clock + 1 ∧ s.tick.hours.closing = s.closing ∧
    s.tick.hours.baseDead = s.baseDead ∧ s.tick.hours.scratch = s.scratch := by
  unfold State.tick
  extract_lets s1 delivered halted slice late slow s2 s3
  have h1 : s1.hours = { s.hours with clock := s.clock + 1 } :=
    sweeps_leave State.hours (fun _ _ => rfl) (fun _ _ _ => rfl) (fun _ => rfl) _
  split
  · exact ⟨congrArg Hours.clock h1, congrArg Hours.closing h1, congrArg Hours.baseDead h1, congrArg Hours.scratch h1⟩
  · have h3 : (slow.dedup.foldl (fun s ck => s.setThr ck 2) s3).hours = s2.hours :=
      (foldl_leaves State.hours (fun s _ => setThr_hours s _ _) _ _).trans
        (foldl_leaves State.hours (fun s _ => setThr_hours s _ _) _ _)
    rw [h3]
    exact ⟨congrArg Hours.clock h1, congrArg Hours.closing h1, congrArg Hours.baseDead h1, congrArg Hours.scratch h1⟩

/-- A context after a clock has passed. -/
def Ctx.ticked (x : Ctx) : Ctx :=
  { x with
    thrNew := 0, thrOld := x.thrstat, ovUsed := x.ovchk, ctime := if x.halt then x.ctime else x.ctime + 1 }

/-- A context clock passes unless the context is halted or the base is dead (01 R32). -/
theorem ctime_tick {s : State} {ck : Nat} {x : Ctx} (hx : s.ctxs.get? ck = some x) :
    s.tick.hours.ctime ck = if x.halt = true ∨ s.baseDead = true then x.ctime else x.ctime + 1 := by
  have hctx : (s.ctx ck) = x := by simp [State.ctx, hx]
  unfold State.tick
  extract_lets s1 delivered halted slice late slow s2 s3
  have h1 : s1.hours = { s.hours with clock := s.clock + 1 } :=
    sweeps_leave State.hours (fun _ _ => rfl) (fun _ _ _ => rfl) (fun _ => rfl) _
  have hctxs : s1.ctxs = s.ctxs := sweeps_leave State.ctxs (fun _ _ => rfl) (fun _ _ _ => rfl) (fun _ => rfl) _
  have hdead : s1.baseDead = s.baseDead := congrArg Hours.baseDead h1
  split
  · next dead =>
    rw [if_pos (.inr (hdead ▸ dead)), ← hctx]
    exact congrFun (congrArg Hours.ctime h1) ck
  · next alive =>
    have h3 : (slow.dedup.foldl (fun s ck => s.setThr ck 2) s3).hours = s2.hours :=
      (foldl_leaves State.hours (fun s _ => setThr_hours s _ _) _ _).trans
        (foldl_leaves State.hours (fun s _ => setThr_hours s _ _) _ _)
    have h2 : s2.ctxs.get? ck = some x.ticked :=
      (Tbl.get?_map_value s1.ctxs Ctx.ticked ck).trans (by rw [hctxs, hx, Option.map_some])
    have h4 : s2.hours.ctime ck = if x.halt then x.ctime else x.ctime + 1 := by
      simp only [State.hours, State.ctx, h2, Option.getD_some, Ctx.ticked]
    have alive' : s.baseDead = false := by rw [← hdead]; simpa using alive
    rw [h3, h4, alive']
    simp

theorem onThread_hours (s : State) (tk tid : Nat) (f : Thread → Thread) : (s.onThread tk tid f).hours = s.hours := by
  unfold State.onThread
  split <;> rfl

theorem nextReply_hours (s : State) (gk : Nat) : (s.nextReply gk).hours = s.hours := by
  unfold State.nextReply
  split
  · rfl
  · unfold State.giveResult
    extract_lets s1
    split
    · rfl
    · exact foldl_leaves State.hours (fun s t => onThread_hours s _ t _) _ s1

theorem takeAllHomes_hours (s : State) : s.takeAllHomes.hours = s.hours := by
  refine foldl_leaves State.hours (fun s e => ?_) _ s
  unfold State.takeHomes
  split
  · rfl
  · refine foldl_leaves State.hours (fun s e => ?_) _ s
    dsimp only
    split <;> rfl

theorem spoilRegister_hours (s : State) (n : Nat → Nat) : (s.spoilRegister n).hours = s.hours := by
  unfold State.spoilRegister
  split
  · rfl
  · split
    · rfl
    · split <;> rfl

theorem spoilMove_hours (s : State) (n : Nat → Nat) : (s.spoilMove n).hours = s.hours := by
  unfold State.spoilMove
  split
  · rfl
  · split
    · split
      · rfl
      · dsimp only
        split <;> rfl
    · rfl

theorem spoilWeights_hours (s : State) (n : Nat → Nat) : (s.spoilWeights n).hours = s.hours := by
  unfold State.spoilWeights
  split <;> rfl

theorem spoilJob_hours (s : State) (n : Nat → Nat) : (s.spoilJob n).hours = s.hours := by
  unfold State.spoilJob
  split
  · rfl
  · dsimp only
    split
    · rfl
    · split <;> rfl

theorem upset_hours (s : State) : s.upset.hours = s.hours := by
  unfold State.upset
  dsimp only
  split
  case h_5 => exact spoilRegister_hours ..
  case h_6 => exact spoilMove_hours ..
  case h_7 => exact spoilWeights_hours ..
  case h_8 => exact spoilJob_hours ..
  all_goals rfl

theorem bringReplies_hours (s : State) (i : Nat) : (s.bringReplies i).hours = s.hours :=
  foldl_leaves State.hours (fun s (e : Nat × Group) => nextReply_hours s e.1) _ s

theorem agenda_hours (s : State) (ts : List Turn) : ({ s with agenda := ts } : State).hours = s.hours := rfl

theorem freeIdx_hours (s : State) : s.freeIdx.2.hours = s.hours := rfl

theorem closing_hours (s : State) (b : Bool) : ({ s with closing := b } : State).hours = { s.hours with closing := b } := rfl

theorem openClock_hours (s : State) : s.openClock.hours = { s.tick.hours with closing := false } := by
  rw [← closing_hours]
  unfold State.openClock
  extract_lets s1
  split
  · rfl
  · rw [agenda_hours, takeAllHomes_hours, bringReplies_hours, freeIdx_hours, upset_hours]

/-! ### The step -/

theorem step_of_probe_none {s : State} {c n : Nat} {r : List Turn} (ha : s.agenda = .probe c n :: r)
    (hr : s.slotRun c n = none) : step s = .next { s with agenda := r } := by
  have hr' : ({ s with agenda := r } : State).slotRun c n = none := hr
  simp only [step, ha, State.issueStart, hr']

theorem step_of_issue_none {s : State} {c n : Nat} {r : List Turn} (ha : s.agenda = .issue c n :: r)
    (hr : s.slotRun c n = none) : step s = .next { s with agenda := r } := by
  have hr' : ({ s with agenda := r } : State).slotRun c n = none := hr
  simp only [step, ha, State.issueStart, hr']

/-- Settles O57: the turn of a slot by what `issueStart` gives for an instruction that nothing hinders, the passing of a
clock by what it leaves of the hours. -/
theorem stepRunsTheDecodedInstruction : Obligations.StepRunsTheDecodedInstruction := by
  unfold Obligations.StepRunsTheDecodedInstruction
  refine ⟨?_, ?_, ?_, ?_, ?_, ?_, ?_, ?_⟩
  · intro s c n r run hd m ls w agenda s0 g priv tiles slot free may choice lanes clean scalars bkpts
    have ready : AtIssue s0 c n run hd m ls w :=
      ⟨slot, free, may, choice, lanes, ⟨fun l hl => (clean l hl).2, scalars, bkpts⟩⟩
    refine ⟨fun i hi => ?_, fun e he => ?_⟩
    · have start := ready.issueStart_of_decoded hi
      have cores (c' : Nat) (hc : c' ≠ c) := occupy_core_other s0 c c' n run w hc
      have rest := congrArg (fun u : State => { u with cur := some (issueCursor run.gk hd ls m w) })
        (occupy_eq s0 c n run w)
      exact ⟨issueCursor run.gk hd ls m w, _, rfl, rfl, setRun_slotRun .., cores, rest,
        fun t => step_issue_of_next agenda start rfl, fun f => step_issue_of_fault agenda start,
        fun f => step_issue_of_refused agenda start⟩
    · exact ⟨_, _, rfl, step_issue_of_none agenda (ready.issueStart_of_rejected he), rfl⟩
  · intro s gk m x a inside line cls length
    rw [wordOfBytes_take]
    exact fetchWord_of_line inside line cls
  · rintro s c n r (agenda | agenda) slot
    · exact step_of_issue_none agenda slot
    · exact step_of_probe_none agenda slot
  · intro s i r agenda
    simp only [step, agenda]
  · intro s e r agenda
    simp only [step, agenda]
  · intro s agenda running
    refine ⟨s.closeClock, if s.baseDead then [] else s.prompt.map .event, ?_, rfl⟩
    simp only [step, agenda, State.nextClock, running, Bool.false_eq_true, if_false]
  · intro s agenda ended
    have hours := openClock_hours s
    obtain ⟨clock, -, -, scratch⟩ := tick_hours s
    refine ⟨s.openClock, by simp only [step, agenda, State.nextClock, ended, if_true], ?_, ?_, ?_, fun ck x hx => ?_⟩
    · exact (congrArg Hours.clock hours).trans clock
    · exact congrArg Hours.closing hours
    · exact (congrArg Hours.scratch hours).trans scratch
    · exact (congrFun (congrArg Hours.ctime hours) ck).trans (ctime_tick hx)
  · intro s c n k run cur core slot own
    exact ⟨issueEnd_slotRun_of_end cur slot own core, issueEnd_slotRun_of_more cur slot own⟩

end Sys2Proof.Machine
end

section
/-! SUPPORT and PROOFS. Reads and writes of special registers (O39). -/

namespace Sys2Proof.Machine

/-! ### The lanes whose guard holds, in order -/

theorem guarded_pairwise (g : Group) (h : Head) (k : Cursor) : (guarded g h k).Pairwise (· < ·) :=
  (List.pairwise_lt_range.sublist List.filter_sublist).sublist List.filter_sublist

theorem inC_iff_mem_guarded {g : Group} {h : Head} {k : Cursor} {l : Nat} : InC k g h l ↔ l ∈ guarded g h k :=
  mem_guarded.symm

/-- The lowest lane of C is the first. -/
theorem guarded_eq_cons {g : Group} {h : Head} {k : Cursor} {l : Nat} (hl : InC k g h l) (low : ∀ j, InC k g h j → l ≤ j) :
    ∃ rest, guarded g h k = l :: rest := by
  rw [inC_iff_mem_guarded] at hl
  have sorted := guarded_pairwise g h k
  cases hc : guarded g h k with
  | nil => simp [hc] at hl
  | cons x rest =>
    rw [hc] at hl sorted
    have hx : l ≤ x := low x (inC_iff_mem_guarded.mpr (hc ▸ List.mem_cons_self ..))
    obtain rfl | hr := List.mem_cons.mp hl
    · exact ⟨rest, rfl⟩
    · exact absurd ((List.pairwise_cons.mp sorted).1 l hr) (by omega)

/-- The highest lane of C is the last. -/
theorem guarded_getLast {g : Group} {h : Head} {k : Cursor} {l : Nat} (hl : InC k g h l) (high : ∀ j, InC k g h j → j ≤ l) :
    (guarded g h k).getLast? = some l := by
  rw [inC_iff_mem_guarded] at hl
  have sorted := guarded_pairwise g h k
  obtain ⟨rest, x, hc⟩ := List.eq_nil_or_concat' _ |>.resolve_left (List.ne_nil_of_mem hl)
  rw [hc] at hl sorted
  have hx : x ≤ l := high x (inC_iff_mem_guarded.mpr (by rw [hc]; simp))
  rw [hc, List.getLast?_concat]
  rcases List.mem_append.mp hl with hr | hr
  · exact absurd ((List.pairwise_append.mp sorted).2.2 l hr x (by simp)) (by omega)
  · rw [List.mem_singleton.mp hr]

theorem guarded_eq_nil {g : Group} {h : Head} {k : Cursor} (none : ∀ l, ¬InC k g h l) : guarded g h k = [] :=
  List.eq_nil_iff_forall_not_mem.mpr fun l hl => none l (inC_iff_mem_guarded.mpr hl)

/-! ### The end of the issue -/

/-- The lanes of a group that is put in place of the issuing one stand as live as they did. -/
def SameLive (g g' : Group) : Prop :=
  ∀ l t, g.lanes.get? l = some t → ∃ t', g'.lanes.get? l = some t' ∧ t'.exited = t.exited

theorem sameLive_of_lanes {g g' : Group} (h : g'.lanes = g.lanes) : SameLive g g' :=
  fun _ t ht => ⟨t, by rw [h, ht], rfl⟩

/-- An instruction that changes the issuing group and advances its lanes ends its issue so. -/
theorem Issuing.finish_advance {s : State} {k : Cursor} {g g' : Group} (hi : Issuing s k g) (live : SameLive g g') :
    (s.setGroup k.gk (g'.advanceActive k)).finish k [] = s.issued k (g'.advanceActive k) := by
  obtain ⟨l, hl, t, ht, here⟩ := hi.lane
  obtain ⟨t', ht', same⟩ := live l t ht
  exact hi.finish_set ((advance_all g').runs l t' hl ht') (same.trans here)

theorem advanceActive_become (k : Cursor) (g : Group) : LanesBecome k g (g.advanceActive k) fun _ t => t.goOn :=
  advance_all g

/-! ### `mrs` -/

section
variable {s : State} {k : Cursor} {g : Group}

/-- A window D takes each lane's own value. -/
theorem mrs_window (hi : Issuing s k g) {f : Op3} {i : Nat} (hd : f.d = .win i) :
    ∃ g', exec (.mrs f) s = .next (s.issued k g') ∧
      LanesBecome k g g' (laneWrites k f.h (specialRegs (specialIdx f.a)) f.d
        fun l _ => s.special k.gk l (specialIdx f.a)) := by
  obtain ⟨g', run, become⟩ := laneMode_clean (h := f.h)
    (F := fun _ l t => .next (t.write k.handler (specialRegs (specialIdx f.a)) f.d (s.special k.gk l (specialIdx f.a))))
    (r := laneWrites k f.h (specialRegs (specialIdx f.a)) f.d fun l _ => s.special k.gk l (specialIdx f.a)) hi
    (fun l hl t ht => by
      unfold laneWrites
      refine ⟨?_, fun _ => rfl, ?_⟩
      · split <;> rfl
      · split
        · exact write_exited ..
        · rfl)
  refine ⟨g', ?_, become⟩
  simp only [hd] at run
  simp only [exec_mrs, execMrs, withIssuer, hi.cur, hd, run]

/-- A scalar D takes the value of the lowest lane of C. -/
theorem mrs_scalar (hi : Issuing s k g) {f : Op3} {i l : Nat} (hd : f.d = .scal i) (hl : InC k g f.h l)
    (low : ∀ j, InC k g f.h j → l ≤ j) :
    exec (.mrs f) s = .next (s.issued k
      ((g.write (specialRegs (specialIdx f.a)) f.d (s.special k.gk l (specialIdx f.a))).advanceActive k)) := by
  obtain ⟨rest, hc⟩ := guarded_eq_cons hl low
  rw [exec_mrs, execMrs, withIssuer, hi.cur]
  simp only [hd, group_of hi.group, hc]
  rw [hi.as_set, setGroup_modGroup, hi.finish_advance (sameLive_of_lanes (write_lanes ..))]

theorem mrs_scalar_unguarded (hi : Issuing s k g) {f : Op3} {i : Nat} (hd : f.d = .scal i) (none : ∀ l, ¬InC k g f.h l) :
    exec (.mrs f) s = .next (s.issued k (g.advanceActive k)) := by
  rw [exec_mrs, execMrs, withIssuer, hi.cur]
  simp only [hd, group_of hi.group, guarded_eq_nil none]
  rw [hi.as_set, hi.finish_advance (sameLive_of_lanes rfl)]

/-! ### `msr` -/

theorem setSpecial_lanes (g : Group) (idx v : Nat) : (g.setSpecial idx v).lanes = g.lanes := by
  unfold Group.setSpecial
  split <;> rfl

theorem setSpecial_with_lanes (g : Group) (lanes : Tbl Thread) (idx v : Nat) :
    ({ g with lanes := lanes } : Group).setSpecial idx v = { g.setSpecial idx v with lanes := lanes } := by
  unfold Group.setSpecial
  split <;> rfl

/-- A write of a register held per group comes to the same before and after the lanes go on. -/
theorem LanesBecome.setSpecial {g' : Group} {r : Nat → Thread → Thread} (h : LanesBecome k g g' r) (idx v : Nat) :
    LanesBecome k (g.setSpecial idx v) (g'.setSpecial idx v) r where
  rest := by
    rw [setSpecial_lanes, ← setSpecial_with_lanes, ← h.rest]
  others l out := by
    rw [setSpecial_lanes, setSpecial_lanes, h.others l out]
  runs l t inside found := by
    rw [setSpecial_lanes] at found ⊢
    exact h.runs l t inside found

theorem issued_setSpecial (s : State) (k : Cursor) (g : Group) (idx v : Nat) :
    (s.issued k g).modGroup k.gk (·.setSpecial idx v) = s.issued k (g.setSpecial idx v) := by
  have here : (s.issued k g).groups.get? k.gk = some g := Tbl.get?_put_same ..
  rw [modGroup_of here, State.setGroup, State.issued, Tbl.put_put]
  rfl

/-- A register held per group takes the value of the highest lane of C. -/
theorem msr_group (hi : Issuing s k g) {f : Op3} {l : Nat} (h1A : specialIdx f.d ≠ 0x01A) (h19 : specialIdx f.d ≠ 0x019)
    (hl : InC k g f.h l) (high : ∀ j, InC k g f.h j → j ≤ l) :
    exec (.msr f) s = .next (s.issued k ((g.advanceActive k).setSpecial (specialIdx f.d)
      (msrValue g k f (specialRegs (specialIdx f.d)) l))) := by
  rw [exec_msr, execMsr, withIssuer, hi.cur]
  simp only [group_of hi.group, if_neg h1A, if_neg h19, guarded_getLast hl high]
  rw [hi.as_set, hi.finish_advance (sameLive_of_lanes rfl), issued_setSpecial]

/-- Without lanes in C nothing is written. -/
theorem msr_unguarded (hi : Issuing s k g) {f : Op3} (h19 : specialIdx f.d ≠ 0x019) (none : ∀ l, ¬InC k g f.h l) :
    exec (.msr f) s = .next (s.issued k (g.advanceActive k)) := by
  rw [exec_msr, execMsr, withIssuer, hi.cur]
  simp only [group_of hi.group, guarded_eq_nil none, if_neg h19, List.foldl_nil, ite_self, List.getLast?_nil]
  rw [hi.as_set, hi.finish_advance (sameLive_of_lanes rfl)]

/-- A loop over threads of the issuing group, and then a change of the group. -/
theorem foldl_modThread_modGroup (hi : Issuing s k g) (ls : List Nat) (f : Nat → Thread → Thread) (F : Group → Group) :
    (ls.foldl (fun s l => s.modThread k.gk l (f l)) s).modGroup k.gk F =
      s.setGroup k.gk (F (ls.foldl (fun g l => g.modThread l (f l)) g)) := by
  cases ls with
  | nil => exact hi.as_set F
  | cons l ls =>
    rw [List.foldl_cons, modThread_of hi.group,
      foldl_setGroup s k.gk _ (fun g l => g.modThread l (f l)) (fun _ _ => setGroup_modThread ..), setGroup_modGroup]
    rfl

/-- The flags that a lane's write clears in `sr.fpstat`. -/
def clearedFpstat (g : Group) (k : Cursor) (f : Op3) (l : Nat) (t : Thread) : Thread :=
  { t with fpstat := t.fpstat &&& ~~~(BitVec.ofNat 32 (msrValue g k f 1 l)) }

/-- A write of `sr.fpstat` clears bits in each lane of C. -/
theorem msr_fpstat (hi : Issuing s k g) {f : Op3} (hd : f.d = .special 0x01A) :
    ∃ g', exec (.msr f) s = .next (s.issued k g') ∧
      LanesBecome k g g' fun l t => (if t.guard f.h then clearedFpstat g k f l t else t).goOn := by
  have rest := foldl_modThread_rest (guarded g f.h k) g (clearedFpstat g k f)
  have lanes (j : Nat) := foldl_modThread (guarded g f.h k) g (clearedFpstat g k f) j (guarded_nodup g f.h k)
  have loop := foldl_modThread_modGroup hi (guarded g f.h k) (clearedFpstat g k f) (·.advanceActive k)
  generalize (guarded g f.h k).foldl (fun g' l => g'.modThread l (clearedFpstat g k f l)) g = g1 at rest lanes loop
  have live : SameLive g g1 := fun l t ht => by
    rw [lanes, ht]
    split
    · exact ⟨_, rfl, rfl⟩
    · exact ⟨_, rfl, rfl⟩
  have become := advance_become (k := k) (g := g) (g' := g1)
    (fun l t => if t.guard f.h then clearedFpstat g k f l t else t)
    (fun l t inside found => by
      have mem : l ∈ guarded g f.h k ↔ t.guard f.h = true := by
        rw [mem_guarded, found]
        simp [inside]
      simp only [lanes, mem, found, Option.map_some]
      split <;> rfl)
    (fun l out => by rw [lanes, if_neg fun mem => out (mem_guarded.mp mem).1])
  have same : ({ g1 with lanes := g.lanes } : Group) = g := by rw [rest]
  rw [same] at become
  refine ⟨g1.advanceActive k, ?_, become⟩
  have issue := hi.finish_advance live
  rw [← loop] at issue
  simp only [exec_msr, execMsr, withIssuer, hi.cur, group_of hi.group, hd, specialIdx, if_true]
  cases (guarded g f.h k).getLast? with
  | none => exact congrArg Host.Outcome.next issue
  | some l =>
    exact congrArg Host.Outcome.next
      ((congrArg (State.modGroup · k.gk (·.setSpecial 0x01A _)) issue).trans (issued_setSpecial ..))

theorem setThr_zero (s : State) (ck : Nat) : s.setThr ck 0 = s.modCtx ck fun c => { c with thrNew := c.thrNew ||| 0 } := by
  unfold State.setThr
  dsimp only
  rw [if_pos (by simp)]

/-- Where the device sets no bit of `sr.thrstat` in the same clock, clearing bits is all that happens. -/
theorem clearThr_of_quiet {s : State} {ck : Nat} (quiet : (s.ctx ck).thrNew = 0) (m : Word) :
    ∃ ctx, s.clearThr ck m = { s with ctxs := s.ctxs.put ck ctx } ∧ ctx.thrstat = (s.ctx ck).thrstat &&& ~~~m := by
  have again : m &&& (s.ctx ck).thrNew &&& (s.ctx ck).thrOld = 0 := by rw [quiet]; simp
  unfold State.clearThr
  dsimp only
  rw [again, setThr_zero]
  refine ⟨_, congrArg (fun x => { s with ctxs := x }) (Tbl.put_put ..), ?_⟩
  simp only [modCtx_ctx_same, quiet, BitVec.ofNat_eq_ofNat, BitVec.zero_and, BitVec.not_zero, BitVec.and_allOnes]

/-- A write of `sr.thrstat` where the device sets no bit in the same clock clears the union of the lanes' bits. -/
theorem msr_thrstat (hi : Issuing s k g) {f : Op3} (hd : f.d = .special 0x019) (quiet : (s.ctx (s.ckOf g)).thrNew = 0) :
    ∃ t, exec (.msr f) s = .next t ∧ t.cur = none ∧ t.groups = s.groups.put k.gk (g.advanceActive k) ∧ t.mem = s.mem ∧
      (t.ctx (s.ckOf g)).thrstat = (s.ctx (s.ckOf g)).thrstat &&&
        ~~~((guarded g f.h k).foldl (fun m l => m ||| BitVec.ofNat 32 (msrValue g k f 1 l)) 0) := by
  obtain ⟨ctx, cleared, bits⟩ := clearThr_of_quiet quiet
    ((guarded g f.h k).foldl (fun m l => m ||| BitVec.ofNat 32 (msrValue g k f 1 l)) 0)
  have hi' : Issuing { s with ctxs := s.ctxs.put (s.ckOf g) ctx } k g :=
    ⟨hi.cur, hi.clean, hi.group, hi.nonempty, hi.within, hi.present⟩
  have written : State.ctx { s with ctxs := s.ctxs.put (s.ckOf g) ctx } (s.ckOf g) = ctx := by simp [State.ctx]
  refine ⟨({ s with ctxs := s.ctxs.put (s.ckOf g) ctx } : State).issued k (g.advanceActive k), ?_, rfl, rfl, rfl,
    (congrArg Ctx.thrstat written).trans bits⟩
  have issue := hi'.finish_advance (sameLive_of_lanes (g' := g) rfl)
  rw [← hi'.as_set (·.advanceActive k)] at issue
  replace issue := (congrArg (fun u : State => (u.modGroup k.gk (·.advanceActive k)).finish k []) cleared).trans issue
  simp only [exec_msr, execMsr, withIssuer, hi.cur, group_of hi.group, hd, specialIdx, if_true]
  cases (guarded g f.h k).getLast? with
  | none => exact congrArg Host.Outcome.next issue
  | some l =>
    exact congrArg Host.Outcome.next
      ((congrArg (State.modGroup · k.gk (·.setSpecial 0x019 _)) issue).trans (issued_setSpecial ..))

theorem bitOf_foldl_or (v : Nat → Nat) (ls : List Nat) (m : Word) (b : Nat) (hb : b < 32) :
    bitOf (ls.foldl (fun m l => m ||| BitVec.ofNat 32 (v l)) m) b = true ↔
      bitOf m b = true ∨ ∃ l ∈ ls, (v l).testBit b = true := by
  induction ls generalizing m with
  | nil => simp
  | cons l ls ih =>
    have step : bitOf (m ||| BitVec.ofNat 32 (v l)) b = (bitOf m b || (v l).testBit b) := by
      simp only [bitOf, BitVec.getLsbD_or, BitVec.getLsbD_ofNat, hb, decide_true, Bool.true_and]
    rw [List.foldl_cons, ih, step]
    simp [or_assoc]

end

theorem bitOf_and_not (x m : Word) (b : Nat) (hb : b < 32) : bitOf (x &&& ~~~m) b = (bitOf x b && !bitOf m b) := by
  simp only [bitOf, BitVec.getLsbD_and, BitVec.getLsbD_not, hb, decide_true, Bool.true_and]

theorem special_of_idx {d : Operand} {idx : Nat} (h : specialIdx d = idx) (nonzero : idx ≠ 0) : d = .special idx := by
  cases d
  case special i => exact congrArg Operand.special h
  all_goals exact absurd h.symm nonzero

/-- Settles O39: `mrs` by the value that each lane, or the lowest of C, reads; `msr` by the register's kind. -/
theorem specialRegisters : Obligations.SpecialRegisters := by
  unfold Obligations.SpecialRegisters
  intro f s k g tm gr hi team grid ck value inC w setsGroup
  have group : s.group k.gk = g := group_of hi.group
  have context : s.ckOf g = ck := by simp [State.ckOf, team, grid, ck]
  have read (idx l : Nat) (t : Thread) (ht : g.lanes.get? l = some t) : value idx l t (s.special k.gk l idx) := by
    have thread : s.thread k.gk l = t := by simp [State.thread, group, ht]
    unfold value
    simp only [State.special, group, thread, team, Option.bind_some, grid, context]
    refine ⟨?_, ?_, ?_, ?_, ?_, ?_, ?_, ?_, ?_, ?_, ?_, ?_, ?_, ?_, ?_, ?_, ?_, ?_, ?_, ?_, ?_, ?_, ?_, ?_, ?_, ?_, ?_, ?_,
      ?_, ?_, ?_, ?_, fun j hj => ?_, ?_⟩
    case refine_31 =>
      rintro rfl
      simp [privilegedCk]
    case refine_33 =>
      interval_cases j <;> (rintro rfl; rfl)
    all_goals
      rintro rfl
      rfl
  have writes (idx n : Nat) (hn : specialRegs idx = n) (h1A : idx ≠ 0x01A) (h19 : idx ≠ 0x019) :
      setsGroup idx n fun v => g.setSpecial idx v := by
    intro hd l hl high
    have run := msr_group hi (f := f) (by rwa [hd]) (by rwa [hd]) hl high
    rw [hd] at run
    exact ⟨_, run, hn ▸ (advanceActive_become k g).setSpecial ..⟩
  refine ⟨?_, ?_, ?_, ?_, ?_, ?_, ?_, ?_, ?_, ?_⟩
  · intro i idx hd ha
    obtain ⟨g', run, become⟩ := mrs_window hi hd
    rw [ha] at become
    exact ⟨g', _, run, become, fun l t _ ht _ => read idx l t ht⟩
  · intro i idx l t hd ha hl low ht
    have run := mrs_scalar hi hd hl low
    rw [ha] at run
    exact ⟨_, _, run, read idx l t ht, advanceActive_become ..⟩
  · intro none i listed w1c scalar
    refine ⟨g.advanceActive k, ?_, advanceActive_become ..⟩
    obtain rfl | rfl := List.mem_pair.mp listed
    · obtain ⟨j, hd⟩ := scalar rfl
      exact mrs_scalar_unguarded hi hd none
    · refine msr_unguarded hi (fun idx => w1c rfl ?_) none
      exact special_of_idx idx (by decide)
  · exact writes 0x012 1 rfl (by decide) (by decide)
  · exact writes 0x013 2 rfl (by decide) (by decide)
  · exact writes 0x014 2 rfl (by decide) (by decide)
  · exact writes 0x017 1 rfl (by decide) (by decide)
  · exact writes 0x01B 1 rfl (by decide) (by decide)
  · exact msr_fpstat hi
  · intro hd quiet
    rw [← context] at quiet
    obtain ⟨t, run, cur, groups, mem, bits⟩ := msr_thrstat hi hd quiet
    refine ⟨t, g.advanceActive k, run, cur, groups, advanceActive_become .., mem, fun b hb => ?_⟩
    have cleared := bitOf_foldl_or (msrValue g k f 1) (guarded g f.h k) 0 b hb
    simp only [← inC_iff_mem_guarded] at cleared
    rw [← context, bits, bitOf_and_not _ _ b hb, Bool.and_eq_true, Bool.not_eq_true', ← Bool.not_eq_true, cleared]
    simp [bitOf, inC, w]

end Sys2Proof.Machine
end

section
/-! SUPPORT. What performing an access leaves alone: its bookkeeping changes neither groups nor accesses in flight nor bytes (O23). -/

namespace Sys2Proof.Machine

/-- What the end of an access is stated about: the groups, the accesses in flight, and the bytes of the memories. -/
structure Floor where
  groups : Tbl Group
  flights : Tbl Flight
  mem : Tbl Byte
  scratch : Tbl Byte
  chip : Tbl Byte

def State.floor (s : State) : Floor := ⟨s.groups, s.flights, s.mem, s.scratch, s.chip⟩

section
variable {s t : State}

theorem groups_of_floor (h : t.floor = s.floor) : t.groups = s.groups := congrArg Floor.groups h

theorem byte_of_floor (h : t.floor = s.floor) (p : Place) (a : Nat) : t.byte p a = s.byte p a := by
  cases p
  · exact congrArg (fun f : Floor => f.mem.read 0 a) h
  · exact congrArg (fun f : Floor => f.scratch.read 0 a) h
  · exact congrArg (fun f : Floor => f.chip.read 0 a) h

end

/-! ### The bookkeeping of an access -/

theorem Touched.floor {s t : State} (h : Touched s t) : t.floor = s.floor := by
  obtain ⟨l2, teams, rfl⟩ := h
  rfl

theorem touch_floor (s : State) (first : Bool) (f : Flight) : (s.touch first f).floor = s.floor := by
  unfold State.touch
  split
  · exact (touched_l2Touch ..).floor
  · rfl

theorem overlapNote_floor (s : State) (f : Flight) (tid : Nat) : (s.overlapNote f tid).floor = s.floor := by
  unfold State.overlapNote
  split <;> rfl

theorem haze_floor (s : State) (f : Flight) (tid : Nat) (wrote : Bool) : (s.haze f tid wrote).floor = s.floor := by
  unfold State.haze
  dsimp only
  split <;> rfl

theorem strongNote_floor (s : State) (f : Flight) (tid : Nat) (wrote : Bool) : (s.strongNote f tid wrote).floor = s.floor := by
  have hazed := haze_floor s f tid wrote
  unfold State.strongNote
  split
  · rfl
  · dsimp only
    split <;> exact hazed

theorem l1Return_floor (s : State) (f : Flight) : (s.l1Return f).floor = s.floor := by
  unfold State.l1Return
  dsimp only
  split
  · rfl
  · split
    · rfl
    · split <;> rfl

theorem acquired_floor (s : State) (f : Flight) : (s.acquired f).floor = s.floor := by
  unfold State.acquired
  split <;> rfl

theorem promoted_floor (s : State) (f : Flight) : (s.promoted f).floor = s.floor := by
  unfold State.promoted
  split <;> rfl

theorem noteRelease_floor (s : State) (id : Nat) (f : Flight) : (s.noteRelease id f).floor = s.floor := by
  unfold State.noteRelease
  split <;> rfl

theorem putRel_floor (s : State) (p : Place) (n : RelNote) : (s.putRel p n).floor = s.floor := rfl

theorem releasedBy_floor (s : State) (f : Flight) (m : Maker) : (s.releasedBy f m).floor = s.floor := by
  unfold State.releasedBy
  split
  · split <;> rfl
  · rfl

theorem releases_floor (s : State) (f : Flight) : (s.releases f).floor = s.floor :=
  foldl_leaves State.floor (fun s m => releasedBy_floor s f m) _ s

/-- What a load that has been performed leaves behind it. -/
theorem loadNoted_floor (s : State) (first : Bool) (f : Flight) :
    (((((s.touch first f).overlapNote f f.tid).strongNote f f.tid false).l1Return f |>.acquired f).promoted f).floor = s.floor := by
  rw [promoted_floor, acquired_floor, l1Return_floor, strongNote_floor, overlapNote_floor, touch_floor]

/-- Where no byte of an access is undefined, nothing is blurred. -/
theorem blur_nil (s : State) (p : Place) : s.blur p [] = s := rfl

/-! ### Writes by accesses in flight -/

/-- The floor without bytes. -/
def State.bare (s : State) : Tbl Group × Tbl Flight := (s.groups, s.flights)

theorem setByte_bare (s : State) (p : Place) (a : Nat) (v : Byte) : (s.setByte p a v).bare = s.bare := by
  cases p <;> rfl

theorem writeAs_leaves {α : Type} (part : State → α) (res : ∀ (u : State) m, part { u with residencies := m } = part u)
    (s : State) (ids : List Nat) (p : Place) (bs : Tbl Byte) : part (s.writeAs ids p bs) = part (s.write p bs) :=
  foldl_leaves part (fun u _ => res u _) _ _

theorem writeAs_byte (s : State) (ids : List Nat) (p : Place) (bs : Tbl Byte) (q : Place) (a : Nat) :
    (s.writeAs ids p bs).byte q a = (s.write p bs).byte q a :=
  writeAs_leaves (fun u => u.byte q a) (fun _ _ => rfl) s ids p bs

/-- What a write of an access in flight leaves: what belongs neither to a place nor to releases nor to residencies. -/
theorem writeAs_rest {α : Type} (part : State → α) (byte : ∀ u p a v, part (State.setByte u p a v) = part u)
    (poison : ∀ u p l, part (State.setPoisons u p l) = part u) (rels : ∀ (u : State) m, part { u with rels := m } = part u)
    (res : ∀ (u : State) m, part { u with residencies := m } = part u)
    (s : State) (ids : List Nat) (p : Place) (bs : Tbl Byte) : part (s.writeAs ids p bs) = part s :=
  (writeAs_leaves part res s ids p bs).trans
    (write_leaves part (fun u a v => byte u p a v) (fun u l => poison u p l) rels
      (fun _ u _ _ => foldl_leaves part (fun u _ => res u _) _ u) s bs)

theorem writeAs_bare (s : State) (ids : List Nat) (p : Place) (bs : Tbl Byte) : (s.writeAs ids p bs).bare = s.bare :=
  writeAs_rest State.bare setByte_bare (fun _ p _ => by cases p <;> rfl) (fun _ _ => rfl) (fun _ _ => rfl) s ids p bs

/-- A store of listed bytes changes them and no other. -/
theorem write_byte_sorted (s : State) (p : Place) {bs : Tbl Byte} (sorted : bs.sorted = true) (q : Place) (a : Nat) :
    (s.write p bs).byte q a = if q = p then (bs.get? a).getD (s.byte q a) else s.byte q a := by
  by_cases hp : q = p
  · subst hp
    rw [if_pos rfl]
    have nodup : (bs.map (·.1)).Nodup := ((Tbl.sorted_iff bs).1 sorted).imp fun h => Nat.ne_of_lt h
    cases found : bs.get? a with
    | none =>
      refine write_byte_other s q bs a fun e he same => ?_
      have listed := Tbl.get?_isSome_of_mem he
      rw [same, found] at listed
      exact absurd listed (by decide)
    | some v => exact write_byte_same s q bs nodup (Tbl.mem_of_get? found)
  · rw [if_neg hp, write_byte_place s (Ne.symm hp)]

end Sys2Proof.Machine
end

section
/-! SUPPORT. Tables, wakers and waiters (O23). -/

namespace Sys2Proof.Tbl

variable {β : Type}

theorem put_eq_map {m : Tbl β} (sorted : m.sorted = true) {k : Nat} {v : β} (found : m.get? k = some v) (w : β) :
    m.put k w = m.map fun e => if e.1 = k then (e.1, w) else e := by
  induction m with
  | nil => cases found
  | cons e m ih =>
    obtain ⟨above, rest⟩ := (sorted_cons e m).1 sorted
    obtain ⟨k', v'⟩ := e
    rw [get?] at found
    by_cases same : k' = k
    · subst same
      have others : (m.map fun e => if e.1 = k' then (e.1, w) else e) = m :=
        (List.map_congr_left fun e he => if_neg (Nat.ne_of_gt (above e he))).trans (List.map_id m)
      rw [List.map_cons, if_pos rfl, others, put, if_neg (Nat.lt_irrefl _), if_pos rfl]
    · rw [if_neg same] at found
      have low : k' < k := above (k, v) (mem_of_get? found)
      rw [List.map_cons, if_neg same, ← ih rest found, put, if_neg (by omega), if_neg (by omega)]

/-- In an ordered table, changing one value is changing it wherever its key stands. -/
theorem modify_eq_map {m : Tbl β} (sorted : m.sorted = true) {k : Nat} {v : β} (found : m.get? k = some v) (f : β → β) :
    m.modify k f = m.map fun e => if e.1 = k then (e.1, f v) else e := by
  rw [modify, found]
  exact put_eq_map sorted found _

/-- The values under one key of an ordered table. -/
theorem filter_key {m : Tbl β} (sorted : m.sorted = true) {k : Nat} {v : β} (found : m.get? k = some v) :
    (m.filter fun e => e.1 = k) = [(k, v)] :=
  filter_eq_singleton sorted found (by simp) fun _ _ h => by simpa using h

end Sys2Proof.Tbl

namespace Sys2Proof.Machine

/-! ### Lanes that wait on an access -/

/-- A waiting lane goes on. -/
def Thread.goesOn (step : Bool) (t : Thread) : Thread :=
  { t with wait := .none, lpc := if step then t.lpc + 1 else t.lpc, wpSkip := false, bkSkip := false }

/-- The lanes of one group that wait on an access. -/
theorem waiters_of_group {s : State} (sorted : s.groups.sorted = true) {gk : Nat} {g : Group}
    (group : s.groups.get? gk = some g) (id : Nat) :
    ((s.waiters id).filter fun w => w.1 = gk) = (g.lanes.filter fun l => l.2.wait = .window id).map fun l => (gk, l.1) := by
  have split : ∀ m : Tbl Group, ((m.flatMap fun e => (e.2.lanes.filter fun l => l.2.wait = .window id).map fun l =>
      (e.1, l.1)).filter fun w => w.1 = gk) =
      (m.filter fun e => e.1 = gk).flatMap fun e => (e.2.lanes.filter fun l => l.2.wait = .window id).map fun l => (e.1, l.1) := by
    intro m
    induction m with
    | nil => rfl
    | cons e m ih =>
      rw [List.flatMap_cons, List.filter_append, ih]
      by_cases h : e.1 = gk
      · rw [List.filter_cons_of_pos (by simpa using h), List.flatMap_cons, List.filter_eq_self.2]
        intro w hw
        obtain ⟨l, -, rfl⟩ := List.mem_map.1 hw
        simpa using h
      · rw [List.filter_cons_of_neg (by simpa using h), List.filter_eq_nil_iff.2, List.nil_append]
        intro w hw
        obtain ⟨l, -, rfl⟩ := List.mem_map.1 hw
        simpa using h
  rw [State.waiters, split, Tbl.filter_key sorted group]
  simp

/-- A loop over lanes of several groups is, for each group, a loop over its own. -/
theorem foldl_modThread_groups (f : Thread → Thread) (ws : List (Nat × Nat)) (s : State) (gk : Nat) :
    (ws.foldl (fun s w => s.modThread w.1 w.2 f) s).groups.get? gk =
      (s.groups.get? gk).map fun g => ((ws.filter fun w => w.1 = gk).map (·.2)).foldl (fun g l => g.modThread l f) g := by
  induction ws generalizing s with
  | nil => simp
  | cons w ws ih =>
    rw [List.foldl_cons, ih, State.modThread, modGroup_groups, Tbl.get?_modify]
    by_cases h : w.1 = gk
    · rw [if_pos h, List.filter_cons_of_pos (by simpa using h)]
      cases s.groups.get? gk <;> rfl
    · rw [if_neg h, List.filter_cons_of_neg (by simpa using h)]

/-- A change of the lanes that wait on an access, seen from one group. -/
theorem foldl_waiters {s : State} (sorted : s.groups.sorted = true) {gk : Nat} {g : Group}
    (group : s.groups.get? gk = some g) (lanes : g.lanes.sorted = true) (id : Nat) (f : Thread → Thread) :
    ∃ g', ((s.waiters id).foldl (fun s w => s.modThread w.1 w.2 f) s).groups.get? gk = some g' ∧
      g' = { g with lanes := g'.lanes } ∧
      ∀ l, g'.lanes.get? l = (g.lanes.get? l).map fun u => if u.wait = .window id then f u else u := by
  have own := congrArg (List.map (·.2)) (waiters_of_group sorted group id)
  rw [List.map_map] at own
  have nodup : ((g.lanes.filter fun l => l.2.wait = .window id).map (·.1)).Nodup :=
    (((Tbl.sorted_iff _).1 lanes).imp fun h => Nat.ne_of_lt h).sublist (List.filter_sublist.map _)
  refine ⟨_, (foldl_modThread_groups f _ s gk).trans (by rw [group, own]; rfl), foldl_modThread_rest _ g fun _ => f, fun l => ?_⟩
  refine (foldl_modThread _ g (fun _ => f) l nodup).trans ?_
  cases found : g.lanes.get? l with
  | none => split <;> rfl
  | some u =>
    have mem : l ∈ (g.lanes.filter fun l => l.2.wait = .window id).map (·.1) ↔ u.wait = .window id := by
      constructor
      · intro h
        obtain ⟨e, he, rfl⟩ := List.mem_map.1 h
        obtain ⟨listed, waits⟩ := List.mem_filter.1 he
        have := Tbl.get?_of_mem lanes (show (e.1, e.2) ∈ g.lanes from listed)
        rw [found] at this
        cases this
        simpa using waits
      · intro h
        exact List.mem_map.2 ⟨(l, u), List.mem_filter.2 ⟨Tbl.mem_of_get? found, by simpa using h⟩, rfl⟩
    simp only [mem, Option.map_some]
    split <;> rfl

theorem modThread_leaves {α : Type} (part : State → α) (groups : ∀ (u : State) m, part { u with groups := m } = part u)
    (s : State) (gk l : Nat) (f : Thread → Thread) : part (s.modThread gk l f) = part s := groups s _

/-- The end of an access wakes the lanes that wait on it, and changes threads alone. -/
theorem wake_lanes {s : State} (sorted : s.groups.sorted = true) {gk : Nat} {g : Group}
    (group : s.groups.get? gk = some g) (lanes : g.lanes.sorted = true) (id : Nat) (step : Bool) :
    ∃ g', (s.wake id step).groups.get? gk = some g' ∧ g' = { g with lanes := g'.lanes } ∧
      ∀ l, g'.lanes.get? l = (g.lanes.get? l).map fun u => if u.wait = .window id then u.goesOn step else u :=
  foldl_waiters sorted group lanes id _

theorem wake_leaves {α : Type} (part : State → α) (groups : ∀ (u : State) m, part { u with groups := m } = part u)
    (s : State) (id : Nat) (step : Bool) : part (s.wake id step) = part s :=
  foldl_leaves part (fun s _ => modThread_leaves part groups s _ _ _) _ s

end Sys2Proof.Machine
end

section
/-! SUPPORT. The thread of an access (O23). -/

namespace Sys2Proof.Machine

theorem findSome?_map_congr {α β : Type} {l : List α} {h : α → α} {f : α → Option β} (same : ∀ a ∈ l, f (h a) = f a) :
    (l.map h).findSome? f = l.findSome? f := by
  induction l with
  | nil => rfl
  | cons a l ih =>
    rw [List.map_cons, List.findSome?_cons, List.findSome?_cons, same a (List.mem_cons_self ..),
      ih fun x hx => same x (List.mem_cons_of_mem _ hx)]

/-- A thread that keeps its id is found where it was. -/
theorem findThread_modThread {s : State} (sorted : s.groups.sorted = true) {gk l : Nat} {g : Group} {u : Thread}
    (group : s.groups.get? gk = some g) (lanes : g.lanes.sorted = true) (here : g.lanes.get? l = some u)
    {f : Thread → Thread} (keeps : (f u).tid = u.tid) (team tid : Nat) :
    (s.modThread gk l f).findThread team tid = s.findThread team tid := by
  rw [State.findThread, State.findThread, State.modThread, modGroup_groups, Tbl.modify_eq_map sorted group]
  refine findSome?_map_congr fun e he => ?_
  by_cases h : e.1 = gk
  · obtain ⟨gk', g'⟩ := e
    obtain rfl : gk' = gk := h
    obtain rfl : g = g' := by
      have := Tbl.get?_of_mem sorted he
      rw [group] at this
      exact Option.some.inj this
    simp only [if_true, Group.modThread, Tbl.modify_eq_map lanes here]
    refine ite_congr rfl (fun _ => findSome?_map_congr fun x hx => ?_) fun _ => rfl
    by_cases hl : x.1 = l
    · obtain ⟨l', u'⟩ := x
      obtain rfl : l' = l := hl
      obtain rfl : u = u' := by
        have := Tbl.get?_of_mem lanes hx
        rw [here] at this
        exact Option.some.inj this
      simp only [if_true, keeps]
    · rw [if_neg hl]
  · rw [if_neg h]

/-- A thread of a team stands in a lane. -/
structure Stands (s : State) (team tid gk l : Nat) (g : Group) (u : Thread) : Prop where
  sorted : s.groups.sorted = true
  group : s.groups.get? gk = some g
  lanes : g.lanes.sorted = true
  here : g.lanes.get? l = some u
  found : s.findThread team tid = some (gk, l)

section
variable {s t : State} {team tid gk l : Nat} {g : Group} {u : Thread}

theorem Stands.congr (h : Stands s team tid gk l g u) (same : t.groups = s.groups) : Stands t team tid gk l g u where
  sorted := same ▸ h.sorted
  group := same ▸ h.group
  lanes := h.lanes
  here := h.here
  found := by
    rw [State.findThread, same]
    exact h.found

theorem Stands.of_floor (h : Stands s team tid gk l g u) (same : t.floor = s.floor) : Stands t team tid gk l g u :=
  h.congr (groups_of_floor same)

/-- A change of the thread reaches it in its lane. -/
theorem Stands.onThread (h : Stands s team tid gk l g u) {f : Thread → Thread} (keeps : (f u).tid = u.tid) :
    Stands (s.onThread team tid f) team tid gk l (g.modThread l f) (f u) := by
  have run : s.onThread team tid f = s.modThread gk l f := by
    rw [State.onThread, h.found]
  rw [run]
  exact {
    sorted := Tbl.sorted_modify h.sorted
    group := by rw [State.modThread, modGroup_groups, Tbl.get?_modify, if_pos rfl, h.group]; rfl
    lanes := Tbl.sorted_modify h.lanes
    here := by rw [modThread_at, if_pos rfl, h.here]; rfl
    found := (findThread_modThread h.sorted h.group h.lanes h.here keeps team tid).trans h.found }

end

end Sys2Proof.Machine
end

section
/-! SUPPORT. What a thread receives (O23). -/

namespace Sys2Proof.Machine

/-- What is stated of a thread at the end of its access: its id, whether and where it waits, its registers, their poison, and
what they wait for. -/
structure Held where
  tid : Nat
  wait : LaneWait
  lpc : Word
  stack : Tbl Word
  preds : BitVec 8
  poison : Tbl Nat
  pend : List Nat

def Thread.held (t : Thread) : Held := ⟨t.tid, t.wait, t.lpc, t.stack, t.preds, t.poison, t.pend⟩

theorem readDone_held (t : Thread) (id : Nat) (f : Flight) (ns : List RelNote) : (t.readDone id f ns).held = t.held := by
  unfold Thread.readDone
  dsimp only
  split
  · split <;> rfl
  · split <;> rfl

/-! ### Entries of the register stack -/

theorem setEntries_rest (t : Thread) (e n v : Nat) :
    t.setEntries e n v = { t with stack := (t.setEntries e n v).stack, poison := (t.setEntries e n v).poison } := by
  induction n generalizing t e v with
  | zero => rfl
  | succ n ih =>
    rw [Thread.setEntries, ih]
    rfl

theorem setEntries_other (t : Thread) (e n v x : Nat) (out : ∀ j < n, (e + j) % 96 ≠ x) :
    (t.setEntries e n v).stack.read 0 x = t.stack.read 0 x ∧ (t.setEntries e n v).poison.get? x = t.poison.get? x := by
  induction n generalizing t e v with
  | zero => exact ⟨rfl, rfl⟩
  | succ n ih =>
    have first : e % 96 ≠ x := out 0 (by omega)
    obtain ⟨stack, poison⟩ := ih (t.setEntry (e % 96) (BitVec.ofNat 32 v)) (e + 1) (v / 2 ^ 32) fun j hj => by
      rw [show e + 1 + j = e + (j + 1) by omega]
      exact out (j + 1) (by omega)
    rw [Thread.setEntries, stack, poison]
    exact ⟨Tbl.read_write_other _ _ _ first, by rw [setEntry_poison, Tbl.get?_del, if_neg first]⟩

theorem setEntries_at (t : Thread) {e n : Nat} (v : Nat) (few : n ≤ 96) {j : Nat} (hj : j < n) :
    (t.setEntries e n v).stack.read 0 ((e + j) % 96) = BitVec.ofNat 32 (v / 2 ^ (32 * j)) ∧
      (t.setEntries e n v).poison.get? ((e + j) % 96) = none := by
  induction n generalizing t e v j with
  | zero => omega
  | succ n ih =>
    rw [Thread.setEntries]
    cases j with
    | zero =>
      obtain ⟨stack, poison⟩ := setEntries_other (t.setEntry (e % 96) (BitVec.ofNat 32 v)) (e + 1) n (v / 2 ^ 32) (e % 96)
        fun j hj => by omega
      rw [show e + 0 = e from rfl, stack, poison]
      exact ⟨by simp, by simp⟩
    | succ j =>
      have next := ih (t.setEntry (e % 96) (BitVec.ofNat 32 v)) (e := e + 1) (v / 2 ^ 32) (by omega) (j := j) (by omega)
      rw [show e + 1 + j = e + (j + 1) by omega, Nat.div_div_eq_div_mul, ← Nat.pow_add, show 32 + 32 * j = 32 * (j + 1) by ring]
        at next
      exact next

theorem foldl_put_get? (es : List Nat) (p : Tbl Nat) (o x : Nat) :
    (es.foldl (fun p e => p.put e o) p).get? x = if x ∈ es then some o else p.get? x := by
  induction es generalizing p with
  | nil => rfl
  | cons e es ih =>
    rw [List.foldl_cons, ih, Tbl.get?_put]
    by_cases h : x ∈ es
    · simp [h]
    · simp only [h, if_false, List.mem_cons, or_false, eq_comm]

/-! ### Delivery to a thread -/

theorem deliver_wait (t : Thread) (d n origin : Nat) (v : Option Nat) :
    (t.deliver d n origin v).wait = t.wait ∧ (t.deliver d n origin v).lpc = t.lpc ∧ (t.deliver d n origin v).tid = t.tid := by
  unfold Thread.deliver
  split
  · exact ⟨rfl, rfl, rfl⟩
  · dsimp only
    split
    · rw [setEntries_rest]
      exact ⟨rfl, rfl, rfl⟩
    · exact ⟨rfl, rfl, rfl⟩

/-- What a thread has received of an access: a value or poison in `n` entries from `d` on, and a clear flag. -/
structure Received (u w : Thread) (d n v flag : Nat) (bad : Bool) : Prop where
  entries : d < 96 → ∀ j < n, (d + j) % 96 ∉ w.pend ∧
    (bad = false → w.stack.read 0 ((d + j) % 96) = BitVec.ofNat 32 (v / 2 ^ (32 * j)) ∧ w.poison.get? ((d + j) % 96) = none) ∧
    (bad = true → w.poison.get? ((d + j) % 96) = some 3)
  nowhere : d = 96 → w.stack = u.stack
  flagged : flag ≠ 0 → w.pred flag = false ∧ 96 + flag ∉ w.pend

theorem Received.of_held {u w w' u' : Thread} {d n v flag : Nat} {bad : Bool} (h : Received u w d n v flag bad)
    (stack : w'.stack = w.stack) (preds : w'.preds = w.preds) (poison : w'.poison = w.poison) (pend : w'.pend = w.pend)
    (before : u'.stack = u.stack) : Received u' w' d n v flag bad where
  entries := by rw [stack, poison, pend]; exact h.entries
  nowhere := by rw [stack, before]; exact h.nowhere
  flagged := by rw [Thread.pred, preds, pend]; exact h.flagged

/-- Nothing is received where there is no destination. -/
theorem Received.none (u : Thread) (v : Nat) (bad : Bool) : Received u u 96 0 v 0 bad :=
  ⟨fun h => absurd h (by decide), fun _ => rfl, fun h => absurd rfl h⟩

theorem deliver_received (u : Thread) {d n : Nat} (hd : d ≤ 96) (few : n ≤ 96) (v : Nat) (bad : Bool) :
    Received u (u.deliver d n 3 (if bad then none else some v)) d n v 0 bad where
  entries low j hj := by
    have listed : (d + j) % 96 ∈ stackEntries d n := by
      rw [stackEntries, if_neg (by omega)]
      exact List.mem_map.2 ⟨j, List.mem_range.2 hj, rfl⟩
    have idle : (d + j) % 96 ∉ (u.unpend (stackEntries d n)).pend := by simp [Thread.unpend, listed]
    rw [Thread.deliver, if_neg (by omega)]
    cases bad with
    | true =>
      refine ⟨idle, nofun, fun _ => ?_⟩
      exact (foldl_put_get? ..).trans (if_pos listed)
    | false =>
      refine ⟨?_, fun _ => setEntries_at _ v few hj, nofun⟩
      simp only [Bool.false_eq_true, if_false]
      rw [setEntries_rest]
      exact idle
  nowhere top := by rw [Thread.deliver, if_pos (by omega)]
  flagged h := absurd rfl h

theorem setPred_flagged (w : Thread) {flag : Nat} (nonzero : flag ≠ 0) (small : flag < 8) :
    ((w.unpend [96 + flag]).setPred flag false).pred flag = false ∧
      96 + flag ∉ ((w.unpend [96 + flag]).setPred flag false).pend := by
  refine ⟨by rw [pred_setPred _ _ nonzero small, if_pos rfl], ?_⟩
  rw [setPred_rest]
  simp [Thread.unpend]

/-- A load with a flag clears it once its data has come. -/
theorem Received.flag {u w : Thread} {d n v : Nat} {bad : Bool} (h : Received u w d n v 0 bad) {flag : Nat}
    (nonzero : flag ≠ 0) (small : flag < 8) :
    Received u ((w.unpend [96 + flag]).setPred flag false) d n v flag bad where
  entries low j hj := by
    obtain ⟨idle, value, poison⟩ := h.entries low j hj
    have other : 96 + flag ≠ (d + j) % 96 := by omega
    have kept : ((w.unpend [96 + flag]).setPred flag false).poison.get? ((d + j) % 96) = w.poison.get? ((d + j) % 96) := by
      rw [Thread.setPred, if_neg nonzero]
      exact (Tbl.get?_del ..).trans (if_neg other)
    rw [kept, setPred_rest]
    refine ⟨fun mem => idle (List.mem_of_mem_filter mem), value, poison⟩
  nowhere top := by
    rw [setPred_rest]
    exact h.nowhere top
  flagged _ := setPred_flagged w nonzero small

end Sys2Proof.Machine
end

section
/-! SUPPORT. An access that is a request of its own (O23). -/

namespace Sys2Proof.Machine

/-- An access in flight at home that may be performed now: a request of its own, in no transaction, that conflicts with nothing
under the overlap check, and none of whose bytes is undefined. -/
structure Alone (s : State) (id : Nat) (f : Flight) : Prop where
  sorted : s.flights.sorted = true
  flying : s.flights.get? id = some f
  home : f.remote = none
  plain : f.tx = false
  mates : s.mates id f = [id]
  ready : s.flightReady id = true
  calm : f.chk = false ∨ (s.ctx f.ck).ovchk = false
  clear : s.mixedBytes f f.tid = []

/-- The state in which an access is no longer in flight. -/
def State.withoutFlight (s : State) (id : Nat) : State := { s with flights := s.flights.del id }

theorem withoutFlight_byte (s : State) (id : Nat) (p : Place) (a : Nat) : (s.withoutFlight id).byte p a = s.byte p a := by
  cases p <;> rfl

section
variable {s : State} {id : Nat} {f : Flight} (ha : Alone s id f)
include ha

theorem Alone.matesReady : s.matesReady [id] = true := by
  have all : (s.flights.filter fun (e : Nat × Flight) => e.1 = id || !([id].contains e.1)) = s.flights :=
    List.filter_eq_self.2 fun e _ => by simp
  rw [State.matesReady, List.all_cons, List.all_nil, Bool.and_true, all]
  exact ha.ready

theorem Alone.listed : (s.flights.filter fun (e : Nat × Flight) => [id].contains e.1) = [(id, f)] :=
  Tbl.filter_eq_singleton ha.sorted ha.flying (by simp) fun e _ h => by simpa using h

theorem Alone.overlapHit {t : State} (same : (t.ctx f.ck).ovchk = (s.ctx f.ck).ovchk) (tid : Nat) :
    t.overlapHit f tid = none := by
  rw [State.overlapHit, same]
  obtain h | h := ha.calm <;> simp [h]

theorem Alone.loadDataReturn : exec (.loadDataReturn id) s = .next (s.loadReturn true id f) := by
  rw [exec_loadDataReturn, execLoadDataReturn, ha.flying]
  simp only [ha.mates, ha.matesReady, if_true, ha.listed, List.foldl_cons, List.foldl_nil, List.headD_cons, decide_true]

/-! ### Loads -/

/-- What a load's thread takes from it. -/
def Thread.loaded (id : Nat) (f : Flight) (ns : List RelNote) (d n flag : Nat) (v : Option Nat) (t : Thread) : Thread :=
  let t := (t.readDone id f ns).deliver d n 3 v
  if flag = 0 then t else (t.unpend [96 + flag]).setPred flag false

theorem Alone.loadReturn {d n flag rd : Nat} {size : Size} (kind : f.kind = .load d n size flag rd) :
    ∃ (x : State) (ns : List RelNote), x.floor = (s.withoutFlight id).floor ∧ s.loadReturn true id f =
      (x.onThread f.team f.tid (Thread.loaded id f ns d n flag
        (if s.poisoned f.place f.loc f.size then none else some (loadValue size (s.load f.place f.loc f.size))))).wake id true := by
  have value : (s.readHome f).map (loadValue size) =
      if s.poisoned f.place f.loc f.size then none else some (loadValue size (s.load f.place f.loc f.size)) := by
    rw [State.readHome]
    split <;> rfl
  refine ⟨_, if (s.readHome f).isSome then s.notesFor f else [], loadNoted_floor (s.withoutFlight id) true f, ?_⟩
  rw [← value]
  unfold State.loadReturn
  simp only [kind, ha.home, ha.overlapHit rfl, ha.clear, ha.plain, blur_nil, Option.isSome_none, Bool.false_eq_true, if_false]
  rfl

end

end Sys2Proof.Machine
end

section
/-! SUPPORT. What the rest of a performed access leaves alone (O23). -/

namespace Sys2Proof.Machine

theorem onThread_leaves {α : Type} (part : State → α) (groups : ∀ (u : State) m, part { u with groups := m } = part u)
    (teams : ∀ (u : State) m, part { u with teams := m } = part u) (s : State) (team tid : Nat) (f : Thread → Thread) :
    part (s.onThread team tid f) = part s := by
  unfold State.onThread
  split
  · exact groups ..
  · exact teams ..

/-- The floor without its groups: the accesses in flight and the bytes. -/
def State.depot (s : State) : Floor := { s.floor with groups := [] }

section
variable {s t : State}

theorem depot_of_floor (h : t.floor = s.floor) : t.depot = s.depot := congrArg (fun f : Floor => { f with groups := [] }) h

theorem flights_of_depot (h : t.depot = s.depot) : t.flights = s.flights := congrArg Floor.flights h

theorem byte_of_depot (h : t.depot = s.depot) (p : Place) (a : Nat) : t.byte p a = s.byte p a := by
  cases p
  · exact congrArg (fun f : Floor => f.mem.read 0 a) h
  · exact congrArg (fun f : Floor => f.scratch.read 0 a) h
  · exact congrArg (fun f : Floor => f.chip.read 0 a) h

end

theorem onThread_depot (s : State) (team tid : Nat) (f : Thread → Thread) : (s.onThread team tid f).depot = s.depot :=
  onThread_leaves State.depot (fun _ _ => rfl) (fun _ _ => rfl) s team tid f

theorem wake_depot (s : State) (id : Nat) (step : Bool) : (s.wake id step).depot = s.depot :=
  wake_leaves State.depot (fun _ _ => rfl) s id step

/-- A lane that waited on an access goes on after it, and one that did not stays where it was. -/
def Wakes (id : Nat) (u w : Thread) : Prop :=
  (u.wait = .window id → w.wait = .none ∧ w.lpc = u.lpc + 1) ∧ (u.wait ≠ .window id → w.wait = u.wait ∧ w.lpc = u.lpc)

theorem wakes_goesOn {id : Nat} {u w : Thread} (wait : w.wait = u.wait) (lpc : w.lpc = u.lpc) :
    Wakes id u (if w.wait = .window id then w.goesOn true else w) := by
  rw [wait]
  constructor
  · intro h
    rw [if_pos h]
    exact ⟨rfl, congrArg (· + 1) lpc⟩
  · intro h
    rw [if_neg h]
    exact ⟨wait, lpc⟩

/-- An access has ended: it is no longer in flight, and its thread has received what came of it and goes on. -/
def AccessEnds (s t : State) (id gk l : Nat) (u : Thread) (d n v flag : Nat) (bad : Bool) : Prop :=
  t.flights = s.flights.del id ∧ ∃ g' w, t.groups.get? gk = some g' ∧ g'.lanes.get? l = some w ∧ Wakes id u w ∧
    Received u w d n v flag bad

section
variable {s x : State} {id team tid gk l d n v flag : Nat} {g : Group} {u w : Thread} {bad : Bool}

/-- Once its thread has received what is for it, waking the lanes that wait ends an access. -/
theorem Stands.accessEnds (h : Stands x team tid gk l g w) (flights : x.flights = s.flights.del id)
    (wait : w.wait = u.wait) (lpc : w.lpc = u.lpc) (received : Received u w d n v flag bad) :
    AccessEnds s (x.wake id true) id gk l u d n v flag bad := by
  obtain ⟨g', group, -, lanes⟩ := wake_lanes h.sorted h.group h.lanes id true
  refine ⟨(flights_of_depot (wake_depot ..)).trans flights, g', _, group, (lanes l).trans (by rw [h.here]; rfl),
    wakes_goesOn wait lpc, ?_⟩
  split
  · exact received.of_held rfl rfl rfl rfl rfl
  · exact received

end

section
variable {s : State} {id gk l d n flag : Nat} {f : Flight} {g : Group} {u : Thread}

theorem loaded_held (f : Flight) (ns : List RelNote) (v : Option Nat) :
    (u.loaded id f ns d n flag v).wait = u.wait ∧ (u.loaded id f ns d n flag v).lpc = u.lpc ∧
      (u.loaded id f ns d n flag v).tid = u.tid := by
  obtain ⟨wait, lpc, tid⟩ := deliver_wait (u.readDone id f ns) d n 3 v
  have held := readDone_held u id f ns
  have same : ((u.readDone id f ns).deliver d n 3 v).wait = u.wait ∧ ((u.readDone id f ns).deliver d n 3 v).lpc = u.lpc ∧
      ((u.readDone id f ns).deliver d n 3 v).tid = u.tid :=
    ⟨wait.trans (congrArg Held.wait held), lpc.trans (congrArg Held.lpc held), tid.trans (congrArg Held.tid held)⟩
  unfold Thread.loaded
  dsimp only
  split
  · exact same
  · rw [setPred_rest]
    exact same

theorem loaded_received (f : Flight) (ns : List RelNote) (hd : d ≤ 96) (few : n ≤ 4) (small : flag < 8) (v : Nat) (bad : Bool) :
    Received u (u.loaded id f ns d n flag (if bad then none else some v)) d n v flag bad := by
  have got := deliver_received (u.readDone id f ns) hd (by omega : n ≤ 96) v bad
  have before : (u.readDone id f ns).stack = u.stack := congrArg Held.stack (readDone_held u id f ns)
  replace got := got.of_held rfl rfl rfl rfl before.symm
  unfold Thread.loaded
  dsimp only
  split
  · next zero => exact zero ▸ got
  · next nonzero => exact got.flag nonzero small

/-- A load ends with its data, or with poison, in its thread. -/
theorem load_ends (ha : Alone s id f) (stands : Stands s f.team f.tid gk l g u) {rd : Nat} {size : Size}
    (kind : f.kind = .load d n size flag rd) (hd : d ≤ 96) (few : n ≤ 4) (small : flag < 8) :
    ∃ t, exec (.loadDataReturn id) s = .next t ∧
      AccessEnds s t id gk l u d n (loadValue size (s.load f.place f.loc f.size)) flag (s.poisoned f.place f.loc f.size) ∧
      ∀ p a, t.byte p a = s.byte p a := by
  obtain ⟨x, ns, floor, run⟩ := ha.loadReturn kind
  have stands' : Stands x f.team f.tid gk l g u := stands.congr ((groups_of_floor floor).trans rfl)
  obtain ⟨wait, lpc, tid⟩ := loaded_held (u := u) (id := id) (d := d) (n := n) (flag := flag) f ns
    (if s.poisoned f.place f.loc f.size then none else some (loadValue size (s.load f.place f.loc f.size)))
  have depot (F : Thread → Thread) := (onThread_depot x f.team f.tid F).trans (depot_of_floor floor)
  refine ⟨_, ha.loadDataReturn.trans (congrArg Host.Outcome.next run), ?_, fun p a => ?_⟩
  · exact (stands'.onThread tid).accessEnds (flights_of_depot (depot _)) wait lpc (loaded_received f ns hd few small _ _)
  · exact (byte_of_depot ((wake_depot ..).trans (depot _)) p a).trans (withoutFlight_byte s id p a)

end

end Sys2Proof.Machine
end

section
/-! SUPPORT. Stores (O23). -/

namespace Sys2Proof.Machine

/-- A store changes its bytes and no other. -/
def Stored (s t : State) (p : Place) (b : Tbl Byte) : Prop :=
  ∀ q a, t.byte q a = if q = p then (b.get? a).getD (s.byte q a) else s.byte q a

theorem bare_of_floor {s t : State} (h : t.floor = s.floor) : t.bare = s.bare :=
  congrArg (fun f : Floor => (f.groups, f.flights)) h

section
variable {s : State} {id gk l : Nat} {f : Flight} {g : Group} {u : Thread} {b : Tbl Byte}

/-- A write of an access in flight at its home, up to its bookkeeping. -/
theorem Alone.requestPerformed (ha : Alone s id f) (kind : f.kind = .store b) :
    ∃ x : State, x.floor = ((s.withoutFlight id).writeAs [id] f.place b).floor ∧ s.requestPerformed id f = x.wake id true := by
  have empty : s.mixedBytes f f.tid = [] := ha.clear
  unfold State.requestPerformed
  simp only [ha.mates, ha.matesReady, ha.listed, List.foldl_cons, List.foldl_nil, List.headD_cons, decide_true, Bool.not_true,
    Bool.false_eq_true, if_false, if_true, kind]
  unfold State.storePerformed
  simp only [ha.home, ha.overlapHit rfl, empty, blur_nil, Option.isSome_none, Bool.false_eq_true, if_false]
  refine ⟨_, ?_, rfl⟩
  rw [noteRelease_floor, releases_floor, strongNote_floor, overlapNote_floor, touch_floor]
  split
  · rfl
  · rfl

theorem store_ends (ha : Alone s id f) (stands : Stands s f.team f.tid gk l g u) (kind : f.kind = .store b)
    (sorted : b.sorted = true) :
    AccessEnds s (s.requestPerformed id f) id gk l u 96 0 0 0 (s.poisoned f.place f.loc f.size) ∧
      Stored s (s.requestPerformed id f) f.place b := by
  obtain ⟨x, floor, run⟩ := ha.requestPerformed kind
  have bare : x.bare = (s.withoutFlight id).bare := (bare_of_floor floor).trans (writeAs_bare ..)
  rw [run]
  refine ⟨(stands.congr (congrArg Prod.fst bare)).accessEnds (congrArg Prod.snd bare) rfl rfl (.none ..), fun q a => ?_⟩
  rw [byte_of_depot ((wake_depot ..).trans (depot_of_floor floor)), writeAs_byte, write_byte_sorted _ _ sorted,
    withoutFlight_byte]

theorem storePerform_of_kind (flying : s.flights.get? id = some f) (kind : f.kind = .store b) :
    exec (.storePerform id) s = .next (if f.heldRelease then s else s.requestPerformed id f) := by
  rw [exec_storePerform, execStorePerform, flying]
  simp only [kind]

theorem releaseMarkerMet_of_store (flying : s.flights.get? id = some f) (kind : f.kind = .store b)
    (held : f.heldRelease = true) : exec (.releaseMarkerMet id) s = .next (s.requestPerformed id f) := by
  rw [exec_releaseMarkerMet, execReleaseMarkerMet, flying]
  simp only [kind, held, Bool.not_true, Bool.false_eq_true, if_false]

end

end Sys2Proof.Machine
end

section
/-! SUPPORT. Undefined bytes (O23). -/

namespace Sys2Proof.Machine

section
variable {s t : State} {f : Flight} {tid : Nat}

/-- Fewer accesses in flight clash with less. -/
theorem clashing_nil (strongs : t.strongs = s.strongs) (teams : t.teams = s.teams) (flights : ∀ e ∈ t.flights, e ∈ s.flights)
    {n : StrongNote} (h : n ∈ t.clashing f tid) : n ∈ s.clashing f tid := by
  have note (e : Flight) : t.asNote e = s.asNote e := by rw [State.asNote, State.asNote, teams]
  unfold State.clashing at h ⊢
  split at h
  · cases h
  · next strong =>
    rw [if_neg strong]
    simp only [List.mem_filter, List.mem_append, List.mem_map, strongs, note] at h ⊢
    obtain ⟨listed | ⟨e, ⟨flying, here⟩, rfl⟩, rest⟩ := h
    · exact ⟨.inl listed, rest⟩
    · exact ⟨.inr ⟨e, ⟨flights e flying, here⟩, rfl⟩, rest⟩

/-- A write that comes after some accesses meets no more undefined bytes than a read does. -/
theorem hazyFor_none {p : Place} {a : Nat} {after : Option (Tbl Nat)} (h : s.hazyFor p a after = true) :
    s.hazyFor p a none = true := by
  unfold State.hazyFor at h ⊢
  split
  · next e =>
    rw [e] at h
    exact h
  · rfl

/-- Where no byte of an access is undefined, none is with fewer accesses in flight. -/
theorem vague_nil (clear : s.vague f tid none = []) (strongs : t.strongs = s.strongs) (hazy : t.hazy = s.hazy)
    (teams : t.teams = s.teams) (flights : ∀ e ∈ t.flights, e ∈ s.flights) (after : Option (Tbl Nat)) :
    t.vague f tid after = [] := by
  unfold State.vague at clear ⊢
  split
  · rfl
  · next home =>
    rw [if_neg home] at clear
    rw [List.filter_eq_nil_iff] at clear ⊢
    intro a ha met
    refine clear a ha ?_
    rw [Bool.or_eq_true, List.any_eq_true] at met ⊢
    obtain ⟨n, clash, covers⟩ | undefined := met
    · exact .inl ⟨n, clashing_nil strongs teams flights clash, covers⟩
    · refine .inr ?_
      have same : t.hazyFor f.place a none = s.hazyFor f.place a none := by rw [State.hazyFor, State.hazyFor, hazy]
      rw [← same]
      exact hazyFor_none undefined

theorem mem_withoutFlight {id : Nat} {e : Nat × Flight} (h : e ∈ (s.withoutFlight id).flights) : e ∈ s.flights :=
  List.mem_of_mem_filter h

end

/-! ### What a fence has lent -/

/-- What a fence lent changes of a thread nothing that is stated here. -/
theorem relend_stands {s : State} {f : Flight} {tid gk l : Nat} {g : Group} {u : Thread}
    (h : Stands s f.team tid gk l g u) :
    ∃ g' w, Stands (s.relend f [tid]) f.team tid gk l g' w ∧ w.held = u.held := by
  have all : ∀ e ∈ f.lent.filter fun e => [tid].contains e.1, e.1 = tid := fun e he => by
    simpa using (List.mem_filter.1 he).2
  unfold State.relend
  generalize f.lent.filter (fun e => [tid].contains e.1) = es at all
  induction es generalizing s g u with
  | nil => exact ⟨g, u, h, rfl⟩
  | cons e es ih =>
    rw [List.foldl_cons, all e (List.mem_cons_self ..)]
    obtain ⟨g', w, stands, held⟩ := ih (h.onThread (f := fun t =>
      { t with fenceRel := some (match t.fenceRel with | some x => widerScope x e.2 | none => e.2) }) rfl)
      fun x hx => all x (List.mem_cons_of_mem _ hx)
    exact ⟨g', w, stands, held⟩

theorem relend_leaves {α : Type} (part : State → α) (groups : ∀ (u : State) m, part { u with groups := m } = part u)
    (teams : ∀ (u : State) m, part { u with teams := m } = part u) (s : State) (f : Flight) (tids : List Nat) :
    part (s.relend f tids) = part s :=
  foldl_leaves part (fun s _ => onThread_leaves part groups teams s _ _ _) _ s

theorem relend_depot (s : State) (f : Flight) (tids : List Nat) : (s.relend f tids).depot = s.depot :=
  relend_leaves State.depot (fun _ _ => rfl) (fun _ _ => rfl) s f tids

theorem relend_nil (s : State) (f : Flight) : s.relend f [] = s := by
  have none : (f.lent.filter fun e => ([] : List Nat).contains e.1) = [] := List.filter_eq_nil_iff.2 fun e _ => by simp
  rw [State.relend, none]
  rfl

end Sys2Proof.Machine
end

section
/-! SUPPORT. Atomics: their memory (O23). -/

namespace Sys2Proof.Machine

/-! ### Atomics -/

theorem wakeTrap_none (s : State) (id cls : Nat) {sel : Nat → Bool} (none : ∀ t, sel t = false) (det : QWord) :
    s.wakeTrap id cls sel det = s := by
  simp [State.wakeTrap, none]

/-- An atomic's write reaches its bytes; the rest is bookkeeping. -/
theorem atomWrite_floor {s : State} {id tid : Nat} {f : Flight} (clear : s.vague f tid none = []) (new : Nat)
    (ns : List RelNote) :
    (s.atomWrite id f tid new ns).floor = (s.writeAs [id] f.place (place f.loc f.size new)).floor := by
  have defined : (s.writeAs [id] f.place (place f.loc f.size new)).vague f tid (some (f.seenBy tid)) = [] :=
    vague_nil clear
      (writeAs_rest State.strongs (fun _ p _ _ => by cases p <;> rfl) (fun _ p _ => by cases p <;> rfl) (fun _ _ => rfl)
        (fun _ _ => rfl) s _ _ _)
      (writeAs_rest State.hazy (fun _ p _ _ => by cases p <;> rfl) (fun _ p _ => by cases p <;> rfl) (fun _ _ => rfl)
        (fun _ _ => rfl) s _ _ _)
      (writeAs_rest State.teams (fun _ p _ _ => by cases p <;> rfl) (fun _ p _ => by cases p <;> rfl) (fun _ _ => rfl)
        (fun _ _ => rfl) s _ _ _)
      (fun e he => by
        rw [show (s.writeAs [id] f.place (place f.loc f.size new)).flights = s.flights from congrArg Prod.snd (writeAs_bare ..)]
          at he
        exact he) _
  unfold State.atomWrite
  simp only [defined, blur_nil]
  refine (foldl_leaves State.floor (fun s m => releasedBy_floor s f m) _ _).trans ?_
  rw [List.foldr_eq_foldl_reverse]
  exact foldl_leaves State.floor (fun s n => putRel_floor s f.place n) _ _

/-- What the thread of an atomic takes from it. -/
def Thread.tookOld (id : Nat) (f : Flight) (ns : List RelNote) (d : Nat) (old : Nat) (t : Thread) : Thread :=
  (t.readDone id f ns).deliver d (f.size / 4) 3 (some old)

/-- The state between an atomic's write, if it makes one, and its result. -/
def State.atomHome (s : State) (id : Nat) (f : Flight) (tid : Nat) (ns : List RelNote) (new : Option Nat) : State :=
  match new with
  | some x => s.atomWrite id f tid x ns
  | none => s.relend f [tid]

theorem atomLane_eq {s : State} {id lane tid d v v2 op : Nat} {f : Flight} {ecl : Ecl}
    (clear : s.mixedBytes f tid = []) (new : Option Nat)
    (hnew : atomNew op ecl (8 * f.size) (s.load f.place f.loc f.size) v v2 = new) :
    s.atomLane id f op ecl (lane, tid, d, v, v2) =
      ((s.atomHome id f tid (s.notesFor f) new).strongNote f tid new.isSome).onThread f.team tid
        (Thread.tookOld id f (s.notesFor f) d (s.load f.place f.loc f.size)) := by
  subst hnew
  unfold State.atomLane
  simp only [clear, blur_nil]
  cases atomNew op ecl (8 * f.size) (s.load f.place f.loc f.size) v v2 <;> rfl

section
variable {s : State} {id gk l lane d v v2 op : Nat} {f : Flight} {g : Group} {u : Thread} {ecl : Ecl}

/-- One lane's atomic, up to its bookkeeping. -/
theorem Alone.atomicPerformed (ha : Alone s id f) :
    ∃ x : State, x.floor = (if s.poisoned f.place f.loc f.size then
        ((((s.withoutFlight id).onThread f.team f.tid (·.readDone id f [])).atomPoison f (lane, f.tid, d, v, v2)).relend f [f.tid])
        else (s.withoutFlight id).atomLane id f op ecl (lane, f.tid, d, v, v2)).floor ∧
      s.atomicPerformed id f op ecl [(lane, f.tid, d, v, v2)] = x.wake id true := by
  have hit : (s.withoutFlight id).overlapHit f f.tid = none := ha.overlapHit rfl f.tid
  have bad : ([(lane, f.tid, d, v, v2)].filter fun o => ((s.withoutFlight id).overlapHit f o.2.1).isSome) = [] := by simp [hit]
  have good : ([(lane, f.tid, d, v, v2)].filter fun o => ((s.withoutFlight id).overlapHit f o.2.1).isNone) =
      [(lane, f.tid, d, v, v2)] := by simp [hit]
  unfold State.atomicPerformed
  simp only [State.withoutFlight] at bad good
  simp only [ha.home, Option.isSome_none, Bool.false_eq_true, if_false, bad, good, List.foldl_nil, State.atomFree, List.map_nil,
    relend_nil, List.any_nil, wakeTrap_none, List.isEmpty_cons, List.foldl_cons, List.map_cons, implies_true]
  refine ⟨_, ?_, rfl⟩
  split
  · rw [noteRelease_floor, acquired_floor, overlapNote_floor, touch_floor]
    rfl
  · rw [acquired_floor, overlapNote_floor, touch_floor]
    rfl

end

end Sys2Proof.Machine
end

section
/-! SUPPORT. Atomics: their lanes (O23). -/

namespace Sys2Proof.Machine

theorem load_congr {s t : State} {p : Place} {a n : Nat} (h : ∀ x, t.byte p x = s.byte p x) : t.load p a n = s.load p a n :=
  congrArg ofBytes (bytes_congr fun x _ _ => h x)

theorem load_lt (s : State) (p : Place) (a n : Nat) : s.load p a n < 2 ^ (8 * n) := by
  have h := ofBytes_lt (s.bytes p a n)
  rw [bytes_length] at h
  rw [Nat.pow_mul]
  exact h

/-- An atomic writes a number at a location, and no other byte. -/
def Atomic (s t : State) (f : Flight) (x : Nat) : Prop :=
  t.load f.place f.loc f.size = x ∧
    ∀ p a, ¬(p = f.place ∧ f.loc ≤ a ∧ a < f.loc + f.size) → t.byte p a = s.byte p a

theorem atomic_of_place {s t : State} {f : Flight} {x : Nat} (small : x < 2 ^ (8 * f.size))
    (h : ∀ p a, t.byte p a = (s.write f.place (place f.loc f.size x)).byte p a) : Atomic s t f x := by
  have byte (p : Place) (a : Nat) : t.byte p a =
      if p = f.place ∧ f.loc ≤ a ∧ a < f.loc + f.size then (bytesOf x f.size).getD (a - f.loc) 0 else s.byte p a := by
    rw [h, place_eq_placeList, write_placeList_byte, bytesOf_length]
  refine ⟨?_, fun p a out => (byte p a).trans (if_neg out)⟩
  have stands : t.load f.place f.loc f.size = x % 256 ^ f.size := load_of_bytes fun i hi => by
    rw [byte, if_pos ⟨rfl, by omega, by omega⟩, Nat.add_sub_cancel_left, bytesOf_getD _ _ _ hi]
  rw [stands, Nat.mod_eq_of_lt]
  rwa [show (256 : Nat) = 2 ^ 8 from rfl, ← Nat.pow_mul]

theorem Atomic.congr {s s' t t' : State} {f : Flight} {x : Nat} (h : Atomic s t f x)
    (before : ∀ p a, s.byte p a = s'.byte p a) (after : ∀ p a, t'.byte p a = t.byte p a) : Atomic s' t' f x :=
  ⟨(load_congr (after f.place)).trans h.1, fun p a out => (after p a).trans ((h.2 p a out).trans (before p a))⟩

section
variable {s : State} {id gk l d n : Nat} {f : Flight} {g : Group} {u : Thread}

theorem tookOld_held (ns : List RelNote) (old : Nat) (t : Thread) :
    (t.tookOld id f ns d old).wait = t.wait ∧ (t.tookOld id f ns d old).lpc = t.lpc ∧ (t.tookOld id f ns d old).tid = t.tid := by
  obtain ⟨wait, lpc, tid⟩ := deliver_wait (t.readDone id f ns) d (f.size / 4) 3 (some old)
  have held := readDone_held t id f ns
  exact ⟨wait.trans (congrArg Held.wait held), lpc.trans (congrArg Held.lpc held), tid.trans (congrArg Held.tid held)⟩

theorem Received.of_held_eq {u w w' : Thread} {d n v flag : Nat} {bad : Bool} (h : Received u w d n v flag bad)
    (same : w'.held = w.held) : Received u w' d n v flag bad :=
  h.of_held (congrArg Held.stack same) (congrArg Held.preds same) (congrArg Held.poison same) (congrArg Held.pend same) rfl

/-- What an atomic leaves at its home. -/
theorem atomHome_stands {s : State} (stands : Stands s f.team f.tid gk l g u) (clear : s.vague f f.tid none = [])
    (ns : List RelNote) (new : Option Nat) :
    (∃ g' w, Stands (s.atomHome id f f.tid ns new) f.team f.tid gk l g' w ∧ w.held = u.held) ∧
      (s.atomHome id f f.tid ns new).flights = s.flights := by
  cases new with
  | none => exact ⟨relend_stands stands, flights_of_depot (relend_depot ..)⟩
  | some x =>
    have bare : (s.atomWrite id f f.tid x ns).bare = s.bare :=
      (bare_of_floor (atomWrite_floor clear x ns)).trans (writeAs_bare ..)
    exact ⟨⟨g, u, stands.congr (congrArg Prod.fst bare), rfl⟩, congrArg Prod.snd bare⟩

theorem atomHome_atomic {s : State} (clear : s.vague f f.tid none = []) (ns : List RelNote) {new : Option Nat} {x : Nat}
    (result : new = some x ∨ new = none ∧ x = s.load f.place f.loc f.size) (small : x < 2 ^ (8 * f.size)) :
    Atomic s (s.atomHome id f f.tid ns new) f x := by
  obtain rfl | ⟨rfl, rfl⟩ := result
  · exact atomic_of_place small fun p a =>
      (byte_of_floor (atomWrite_floor clear x ns) p a).trans (writeAs_byte ..)
  · have same := byte_of_depot (relend_depot s f [f.tid])
    exact ⟨load_congr (same f.place), fun p a _ => same p a⟩

variable {lane v v2 op : Nat} {ecl : Ecl}

/-- An atomic whose location is poisoned performs nothing, and its thread receives poison. -/
theorem atomPoison_stands {s : State} (stands : Stands s f.team f.tid gk l g u) (hd : d < 96) (n : f.size / 4 ≤ 96) (old : Nat) :
    ∃ g' w, Stands (((s.onThread f.team f.tid (·.readDone id f [])).atomPoison f (lane, f.tid, d, v, v2)).relend f [f.tid])
        f.team f.tid gk l g' w ∧ w.wait = u.wait ∧ w.lpc = u.lpc ∧ Received u w d (f.size / 4) old 0 true := by
  have held := readDone_held u id f []
  have quiet := stands.onThread (f := (·.readDone id f [])) (congrArg Held.tid held)
  obtain ⟨wait, lpc, tid⟩ := deliver_wait (u.readDone id f []) d (f.size / 4) 3 none
  have poisoned := quiet.onThread (f := fun t => t.deliver d (f.size / 4) 3 none) tid
  have run (y : State) : y.atomPoison f (lane, f.tid, d, v, v2) = y.onThread f.team f.tid fun t => t.deliver d (f.size / 4) 3 none := by
    unfold State.atomPoison
    simp only [show d ≠ 96 by omega, if_false]
  rw [run]
  obtain ⟨g', w, lent, same⟩ := relend_stands poisoned
  refine ⟨g', w, lent, ?_, ?_, ?_⟩
  · exact (congrArg Held.wait same).trans (wait.trans (congrArg Held.wait held))
  · exact (congrArg Held.lpc same).trans (lpc.trans (congrArg Held.lpc held))
  · have got := deliver_received (u.readDone id f []) (by omega : d ≤ 96) n old true
    exact (got.of_held rfl rfl rfl rfl (congrArg Held.stack held).symm).of_held_eq same

theorem atomPoison_depot (s : State) (id : Nat) (f : Flight) (o : Nat × Nat × Nat × Nat × Nat) :
    (((s.onThread f.team f.tid (·.readDone id f [])).atomPoison f o).relend f [f.tid]).depot = s.depot :=
  (relend_depot ..).trans ((onThread_depot ..).trans (onThread_depot ..))

theorem atomic_ends (ha : Alone s id f) (stands : Stands s f.team f.tid gk l g u)
    (kind : f.kind = .atomic op ecl [(lane, f.tid, d, v, v2)]) (free : f.heldRelease = false) (hd : d ≤ 96)
    (size : f.size = 4 ∨ f.size = 8) (sound : d = 96 → s.poisoned f.place f.loc f.size = false) {x : Nat}
    (small : x < 2 ^ (8 * f.size))
    (result : atomNew op ecl (8 * f.size) (s.load f.place f.loc f.size) v v2 = some x ∨
      atomNew op ecl (8 * f.size) (s.load f.place f.loc f.size) v v2 = none ∧ x = s.load f.place f.loc f.size) :
    ∃ t, exec (.atomicPerform id) s = .next t ∧
      AccessEnds s t id gk l u d (f.size / 4) (s.load f.place f.loc f.size) 0 (s.poisoned f.place f.loc f.size) ∧
      (s.poisoned f.place f.loc f.size = true → ∀ p a, t.byte p a = s.byte p a) ∧
      (s.poisoned f.place f.loc f.size = false → Atomic s t f x) := by
  have few : f.size / 4 ≤ 96 := by omega
  have clear : s.vague f f.tid none = [] := by
    have h := ha.clear
    rw [State.mixedBytes, kind] at h
    exact h
  have clear' : (s.withoutFlight id).vague f f.tid none = [] :=
    vague_nil (t := s.withoutFlight id) clear rfl rfl rfl (fun _ h => mem_withoutFlight h) none
  have mixed : (s.withoutFlight id).mixedBytes f f.tid = [] := by
    rw [State.mixedBytes, kind]
    exact clear'
  have landed : Stands (s.withoutFlight id) f.team f.tid gk l g u := stands.congr rfl
  have home : (s.withoutFlight id).load f.place f.loc f.size = s.load f.place f.loc f.size :=
    load_congr fun a => withoutFlight_byte s id f.place a
  obtain ⟨y, floor, run⟩ := ha.atomicPerformed (lane := lane) (d := d) (v := v) (v2 := v2) (op := op) (ecl := ecl)
  have go : exec (.atomicPerform id) s = .next (y.wake id true) := by
    rw [exec_atomicPerform, execAtomicPerform, ha.flying]
    simp only [kind, ha.ready, free, run, Bool.not_false, Bool.and_self, if_true]
  refine ⟨_, go, ?_⟩
  cases bad : s.poisoned f.place f.loc f.size with
  | true =>
    rw [bad, if_pos rfl] at floor
    have low : d < 96 := by
      by_contra h
      rw [sound (by omega)] at bad
      exact absurd bad (by decide)
    obtain ⟨g', w, stands', wait, lpc, got⟩ := atomPoison_stands (lane := lane) (v := v) (v2 := v2) (id := id) landed low few
      (s.load f.place f.loc f.size)
    have depot : y.depot = (s.withoutFlight id).depot := (depot_of_floor floor).trans (atomPoison_depot ..)
    refine ⟨(stands'.congr (groups_of_floor floor)).accessEnds (flights_of_depot depot) wait lpc got, fun _ p a => ?_, nofun⟩
    exact (byte_of_depot ((wake_depot ..).trans depot) p a).trans (withoutFlight_byte s id p a)
  | false =>
    rw [bad, if_neg (by decide), atomLane_eq mixed _ rfl] at floor
    rw [home] at floor
    obtain ⟨⟨g', w, at_home, held⟩, flights⟩ := atomHome_stands (id := id) landed clear' ((s.withoutFlight id).notesFor f)
      (atomNew op ecl (8 * f.size) (s.load f.place f.loc f.size) v v2)
    have written := atomHome_atomic (id := id) clear' ((s.withoutFlight id).notesFor f) (by rwa [← home] at result) small
    rw [home] at written
    obtain ⟨wait, lpc, tid⟩ := tookOld_held (id := id) (f := f) (d := d) ((s.withoutFlight id).notesFor f)
      (s.load f.place f.loc f.size) w
    have took := ((at_home.of_floor (strongNote_floor ..)).onThread tid).congr (groups_of_floor floor)
    have depot := (depot_of_floor floor).trans ((onThread_depot ..).trans (depot_of_floor (strongNote_floor ..)))
    have before := (congrArg Held.stack (readDone_held w id f ((s.withoutFlight id).notesFor f))).trans (congrArg Held.stack held)
    have got := deliver_received (w.readDone id f ((s.withoutFlight id).notesFor f)) hd few (s.load f.place f.loc f.size) false
    refine ⟨took.accessEnds ((flights_of_depot depot).trans flights) (wait.trans (congrArg Held.wait held))
      (lpc.trans (congrArg Held.lpc held)) (got.of_held rfl rfl rfl rfl before.symm), nofun, fun _ => ?_⟩
    exact written.congr (withoutFlight_byte s id) fun p a => (byte_of_depot ((wake_depot ..).trans depot) p a)

end

end Sys2Proof.Machine
end

section
/-! SUPPORT. Window spills and fills (O23). -/

namespace Sys2Proof.Machine

section
variable {s : State} {id gk l : Nat} {f : Flight} {g : Group} {u : Thread}

theorem spillFillComplete_of_ready (flying : s.flights.get? id = some f) (ready : s.flightReady id = true) :
    exec (.spillFillComplete id) s = .next (s.windowPerformed id f) := by
  rw [exec_spillFillComplete, execSpillFillComplete, flying]
  simp only [ready, if_true]

/-- A spill ends: its record is written, and its lanes, which have moved on, wait no more. -/
theorem spill_ends (home : f.remote = none) (stands : Stands s f.team f.tid gk l g u) {b : Tbl Byte}
    (kind : f.kind = .spill b false) (sorted : b.sorted = true) :
    (s.windowPerformed id f).flights = s.flights.del id ∧
      (∃ g' w, (s.windowPerformed id f).groups.get? gk = some g' ∧ g'.lanes.get? l = some w ∧
        (u.wait = .window id → w = u.goesOn false)) ∧
      Stored s (s.windowPerformed id f) f.place b := by
  let x := (((s.withoutFlight id).writeAs [id] f.place b).haze f f.tid true).touch true f
  have floor : x.floor = ((s.withoutFlight id).writeAs [id] f.place b).floor := (touch_floor ..).trans (haze_floor ..)
  have run : s.windowPerformed id f = x.wake id false := by
    unfold State.windowPerformed
    simp only [kind, home, Option.isSome_none, Bool.false_eq_true, if_false]
    rfl
  have bare : x.bare = (s.withoutFlight id).bare := (bare_of_floor floor).trans (writeAs_bare ..)
  have written : Stands x f.team f.tid gk l g u := stands.congr (congrArg Prod.fst bare)
  obtain ⟨g', group, -, lanes⟩ := wake_lanes written.sorted written.group written.lanes id false
  rw [run]
  refine ⟨(flights_of_depot (wake_depot ..)).trans (congrArg Prod.snd bare),
    ⟨g', _, group, (lanes l).trans (by rw [written.here]; rfl), fun waits => if_pos waits⟩, fun q a => ?_⟩
  rw [byte_of_depot ((wake_depot ..).trans (depot_of_floor floor)), writeAs_byte, write_byte_sorted _ _ sorted,
    withoutFlight_byte]

/-- A fill from a poisoned record traps. -/
theorem fill_traps (home : f.remote = none) (kind : f.kind = .fill) (bad : s.poisoned f.place f.loc 128 = true) :
    s.windowPerformed id f = (s.withoutFlight id).wakeTrap id 16 (fun _ => true) (detailM f.va 0 6 128 0) := by
  have bad' : (s.withoutFlight id).poisoned f.place f.loc 128 = true := bad
  unfold State.windowPerformed
  simp only [State.withoutFlight] at bad' ⊢
  simp only [kind, home, bad', Option.isSome_none, Bool.false_eq_true, if_false, if_true]

/-- The frame of a fill's record comes back, and the lane moves as its `ret` does. -/
def Thread.filled (r : List Byte) (t : Thread) : Thread :=
  { ({ t.fillFrame r with ngl := t.ngl - 1 } : Thread).doRet with wait := .none }

/-- A fill ends: the lane that waits has its frame again, and has moved. -/
theorem fill_ends (ha : Alone s id f) (stands : Stands s f.team f.tid gk l g u) (kind : f.kind = .fill)
    (sound : s.poisoned f.place f.loc 128 = false) :
    (s.windowPerformed id f).flights = s.flights.del id ∧
      (∃ g' w, (s.windowPerformed id f).groups.get? gk = some g' ∧ g'.lanes.get? l = some w ∧
        (u.wait = .window id → w = u.filled (s.bytes f.place f.loc 128))) ∧
      ∀ p a, (s.windowPerformed id f).byte p a = s.byte p a := by
  have sound' : (s.withoutFlight id).poisoned f.place f.loc 128 = false := sound
  have clear : (s.withoutFlight id).mixedBytes f f.tid = [] := by
    have h := ha.clear
    rw [State.mixedBytes, kind] at h ⊢
    exact vague_nil (t := s.withoutFlight id) h rfl rfl rfl (fun _ h => mem_withoutFlight h) none
  have record : (s.withoutFlight id).bytes f.place f.loc 128 = s.bytes f.place f.loc 128 :=
    bytes_congr fun a _ _ => withoutFlight_byte s id f.place a
  obtain ⟨x, floor, run⟩ : ∃ x : State, x.floor = (s.withoutFlight id).floor ∧ s.windowPerformed id f =
      (x.waiters id).foldl (fun y w => y.modThread w.1 w.2 (Thread.filled (s.bytes f.place f.loc 128))) x := by
    rw [← record]
    unfold State.windowPerformed
    simp only [State.withoutFlight] at clear sound'
    simp only [kind, ha.home, clear, sound', blur_nil, Option.isSome_none, Bool.false_eq_true, if_false]
    exact ⟨_, (l1Return_floor ..).trans ((l1Return_floor ..).trans (touch_floor ..)), rfl⟩
  have back : Stands x f.team f.tid gk l g u := (stands.congr rfl : Stands (s.withoutFlight id) _ _ _ _ _ _).of_floor floor
  obtain ⟨g', group, -, lanes⟩ := foldl_waiters back.sorted back.group back.lanes id (Thread.filled (s.bytes f.place f.loc 128))
  have rest : ((x.waiters id).foldl (fun y w => y.modThread w.1 w.2 (Thread.filled (s.bytes f.place f.loc 128))) x).depot = x.depot :=
    foldl_leaves State.depot (fun s w => modThread_leaves State.depot (fun _ _ => rfl) s _ _ _) _ x
  have depot := rest.trans (depot_of_floor floor)
  rw [run]
  exact ⟨flights_of_depot depot, ⟨g', _, group, (lanes l).trans (by rw [back.here]; rfl), fun waits => if_pos waits⟩,
    fun p a => (byte_of_depot depot p a).trans (withoutFlight_byte s id p a)⟩

end

end Sys2Proof.Machine
end

section
/-! SUPPORT. A load of the group (O23). -/

namespace Sys2Proof.Machine

theorem spoison_setScalars_other (g : Group) {i n j : Nat} (v : Nat) (other : ¬(i ≤ j ∧ j < i + n)) :
    (g.setScalars i n v).spoison.get? j = g.spoison.get? j := by
  induction n generalizing g i v with
  | zero => rfl
  | succ n ih =>
    rw [setScalars_succ, ih _ _ (by omega)]
    exact (Tbl.get?_del ..).trans (if_neg (by omega))

theorem setScalars_at (g : Group) {i n j : Nat} (v : Nat) (hj : j < n) :
    (g.setScalars i n v).scalar (i + j) = BitVec.ofNat 32 (v / 2 ^ (32 * j)) ∧
      (g.setScalars i n v).spoison.get? (i + j) = none := by
  induction n generalizing g i v j with
  | zero => omega
  | succ n ih =>
    rw [setScalars_succ]
    cases j with
    | zero =>
      rw [scalar_setScalars_other _ _ (by omega), spoison_setScalars_other _ _ (by omega)]
      simp [Group.scalar, Group.setScalar]
    | succ j =>
      have next := ih (g.setScalar i (BitVec.ofNat 32 v)) (i := i + 1) (v / 2 ^ 32) (j := j) (by omega)
      rw [show i + 1 + j = i + (j + 1) by omega, Nat.div_div_eq_div_mul, ← Nat.pow_add,
        show 32 + 32 * j = 32 * (j + 1) by ring] at next
      exact next

/-- What a group has received of its load in `n` scalars from `d` on. -/
def ScalarsReceived (g : Group) (d n v : Nat) (bad : Bool) : Prop :=
  ∀ j < n, d + j ∉ g.spend ∧
    (bad = false → g.scalar (d + j) = BitVec.ofNat 32 (v / 2 ^ (32 * j)) ∧ g.spoison.get? (d + j) = none) ∧
    (bad = true → g.spoison.get? (d + j) = some 3)

theorem deliver_scalars (g : Group) {d n : Nat} (inside : d + n ≤ 384) (v : Nat) (bad : Bool) :
    ScalarsReceived (g.deliver d n 3 (if bad then none else some v)) d n v bad := by
  intro j hj
  have listed : d + j ∈ (List.range n).map (d + ·) := List.mem_map.2 ⟨j, List.mem_range.2 hj, rfl⟩
  have idle : d + j ∉ g.spend.filter fun e => !((List.range n).map (d + ·)).contains e := fun h => by
    have := (List.mem_filter.1 h).2
    simp only [List.contains_eq_mem, listed, decide_true, Bool.not_true, Bool.false_eq_true] at this
  rw [Group.deliver, if_neg (by omega)]
  cases bad with
  | true => exact ⟨idle, nofun, fun _ => (foldl_put_get? ..).trans (if_pos listed)⟩
  | false =>
    refine ⟨?_, fun _ => setScalars_at _ v hj, nofun⟩
    simp only [Bool.false_eq_true, if_false]
    rw [setScalars_rest]
    exact idle

theorem ScalarsReceived.withLanes {g g' : Group} {d n v : Nat} {bad : Bool} (h : ScalarsReceived g d n v bad)
    (rest : g' = { g with lanes := g'.lanes }) : ScalarsReceived g' d n v bad := by
  rw [rest]
  exact h

section
variable {s : State} {id d n rd : Nat} {f : Flight} {g : Group} {size : Size}

theorem Alone.loadScalarReturn (ha : Alone s id f) (kind : f.kind = .loadScalar d n size rd []) :
    ∃ (x : State) (ns : List RelNote), x.floor = (s.withoutFlight id).floor ∧ s.loadReturn true id f =
      (x.modGroup f.gk fun g => (g.deliver d n 3
        (if s.poisoned f.place f.loc f.size then none else some (loadValue size (s.load f.place f.loc f.size)))).readDone
          id f ns).wake id true := by
  unfold State.loadReturn State.readHome
  simp only [kind, ha.home, ha.overlapHit rfl, ha.clear, blur_nil, Option.isSome_none, Bool.false_eq_true, if_false,
    List.filterMap_nil, List.filter_nil]
  cases s.poisoned f.place f.loc f.size with
  | true => exact ⟨_, [], loadNoted_floor (s.withoutFlight id) true f, rfl⟩
  | false => exact ⟨_, s.notesFor f, loadNoted_floor (s.withoutFlight id) true f, rfl⟩

theorem groupReadDone_rest (g : Group) (id : Nat) (f : Flight) (ns : List RelNote) :
    g.readDone id f ns = { g with lanes := (g.readDone id f ns).lanes } := rfl

/-- Reading has changed nothing that is stated of the threads of a group. -/
theorem groupReadDone_lanes (g : Group) (id : Nat) (f : Flight) (ns : List RelNote) {l : Nat} {u : Thread}
    (here : g.lanes.get? l = some u) : ∃ w, (g.readDone id f ns).lanes.get? l = some w ∧ w.held = u.held := by
  refine ⟨_, (Tbl.get?_map_value g.lanes (fun t =>
    if f.makers.any fun m => m.who = agentOf f.team t.tid then t.readDone id f ns else t) l).trans (by rw [here]; rfl), ?_⟩
  dsimp only
  split
  · exact readDone_held ..
  · rfl

/-- A load of the group ends with its data, or with poison, in its scalars, and its lanes go on. -/
theorem loadScalar_ends (ha : Alone s id f) (sorted : s.groups.sorted = true) (group : s.groups.get? f.gk = some g)
    (lanes : g.lanes.sorted = true) (kind : f.kind = .loadScalar d n size rd []) (inside : d + n ≤ 384) :
    ∃ t g', exec (.loadDataReturn id) s = .next t ∧ t.flights = s.flights.del id ∧ t.groups.get? f.gk = some g' ∧
      (∀ p a, t.byte p a = s.byte p a) ∧
      ScalarsReceived g' d n (loadValue size (s.load f.place f.loc f.size)) (s.poisoned f.place f.loc f.size) ∧
      ∀ l u, g.lanes.get? l = some u → ∃ w, g'.lanes.get? l = some w ∧ Wakes id u w := by
  obtain ⟨x, ns, floor, run⟩ := ha.loadScalarReturn kind
  have here : x.groups = s.groups := (groups_of_floor floor).trans rfl
  let v : Option Nat := if s.poisoned f.place f.loc f.size then none else some (loadValue size (s.load f.place f.loc f.size))
  let y := x.modGroup f.gk fun g => (g.deliver d n 3 v).readDone id f ns
  let g1 := (g.deliver d n 3 v).readDone id f ns
  have given : y.groups.get? f.gk = some g1 := by
    rw [modGroup_groups, Tbl.get?_modify, if_pos rfl, here, group]
    rfl
  have order : g1.lanes.sorted = true := Tbl.sorted_map ((deliver_rest g d n 3 v).2 ▸ lanes) fun _ => rfl
  obtain ⟨g', group', rest, lanes'⟩ := wake_lanes (s := y) (Tbl.sorted_modify (here ▸ sorted)) given order id true
  have handed : y.depot = x.depot := rfl
  have depot : (y.wake id true).depot = (s.withoutFlight id).depot :=
    (wake_depot y id true).trans (handed.trans (depot_of_floor floor))
  refine ⟨_, g', ha.loadDataReturn.trans (congrArg Host.Outcome.next run), flights_of_depot depot, group',
    fun p a => (byte_of_depot depot p a).trans (withoutFlight_byte s id p a), ?_, fun l u hl => ?_⟩
  · exact ((deliver_scalars g inside _ _).withLanes (groupReadDone_rest _ id f ns)).withLanes rest
  · obtain ⟨w, found, held⟩ := groupReadDone_lanes (g.deliver d n 3 v) id f ns ((deliver_rest g d n 3 v).2 ▸ hl)
    exact ⟨_, (lanes' l).trans (by rw [found]; rfl), wakes_goesOn (congrArg Held.wait held) (congrArg Held.lpc held)⟩

end

end Sys2Proof.Machine
end

section
/-! SUPPORT. Walks (O23). -/

namespace Sys2Proof.Machine

/-- The state that a walk reaches the L2 in. -/
theorem walkTouch_eq (s : State) (ck va : Nat) : s.walkTouch ck va = { s with l2 := (s.walkTouch ck va).l2 } :=
  eq_of_lessL2 (lessL2_walkTouch s ck va)

theorem mem_tlbPut {t : List TlbEntry} {e : TlbEntry} {n : Nat} (room : 0 < n) : e ∈ tlbPut t e n := by
  obtain ⟨m, rfl⟩ := Nat.exists_eq_succ_of_ne_zero (Nat.ne_of_gt room)
  exact List.mem_cons_self ..

/-- Each listed core puts the entry of a walk into its TLB. -/
def State.tlbFilled (s : State) (cs : List Nat) (e : TlbEntry) : State :=
  cs.foldl (fun s c => s.modCore c fun k => { k with tlb := tlbPut k.tlb e 128 }) s

theorem tlbFilled_eq (s : State) (cs : List Nat) (e : TlbEntry) :
    s.tlbFilled cs e = { s with cores := (s.tlbFilled cs e).cores } := by
  have rest := foldl_leaves (fun s : State => { s with cores := [] })
    (f := fun s c => s.modCore c fun k => { k with tlb := tlbPut k.tlb e 128 }) (fun _ _ => rfl) cs s
  exact congrArg (fun u : State => { u with cores := (s.tlbFilled cs e).cores }) rest

theorem mem_tlb_of_tlbFilled {s : State} {cs : List Nat} {e : TlbEntry} {c : Nat}
    (h : c ∈ cs ∨ e ∈ (s.core c).tlb) : e ∈ ((s.tlbFilled cs e).core c).tlb := by
  induction cs generalizing s with
  | nil => exact h.resolve_left (by simp)
  | cons x cs ih =>
    refine ih (s := s.modCore x fun k => { k with tlb := tlbPut k.tlb e 128 }) ?_
    rw [modCore_core]
    by_cases same : x = c
    · rw [if_pos same]
      exact .inr (mem_tlbPut (by decide))
    · rw [if_neg same]
      obtain listed | here := h
      · exact .inl ((List.mem_cons.1 listed).resolve_left (Ne.symm same))
      · exact .inr here

section
variable {s : State} {id : Nat} {w : Walk} (walking : s.walks.get? id = some w) (running : w.result = none)
include walking running

/-- A walk that began before a shoot-down starts again. -/
theorem walk_restarts (stale : w.isc ≠ (s.ctx w.ck).isc) :
    exec (.pageWalkComplete id) s = .next { s with walks := s.walks.put id { w with isc := (s.ctx w.ck).isc } } := by
  rw [exec_pageWalkComplete, execPageWalkComplete, walking]
  simp only [running, Option.isSome_none, Bool.false_eq_true, if_false, if_pos stale]

/-- A walk that ends with a run fills the TLBs that asked for it. -/
theorem walk_fills (fresh : w.isc = (s.ctx w.ck).isc) {e : TlbEntry} (run : s.walk w.ck (w.page * 65536) = .ok e) :
    ∃ t, exec (.pageWalkComplete id) s = .next t ∧ t.walks = s.walks.del id ∧
      (∀ c ∈ w.core :: w.gks.map coreOf, e ∈ (t.core c).tlb) ∧ e ∈ t.tlb2Of (dieOf w.core) ∧
      t = { s with walks := t.walks, cores := t.cores, tlb2 := t.tlb2, l2 := t.l2 } := by
  let y := s.walkTouch w.ck (w.page * 65536)
  let cs := (w.core :: w.gks.map coreOf).dedup
  obtain ⟨z, filled⟩ : ∃ z, z = y.tlbFilled cs e := ⟨_, rfl⟩
  have go : exec (.pageWalkComplete id) s = .next { z with
      tlb2 := z.tlb2.put (dieOf w.core) (tlbPut (z.tlb2Of (dieOf w.core)) e 16384), walks := z.walks.del id } := by
    rw [exec_pageWalkComplete, execPageWalkComplete, walking]
    simp only [running, Option.isSome_none, Bool.false_eq_true, if_false, if_neg (not_not_intro fresh), run, filled]
    rfl
  obtain ⟨cores, l2, rest⟩ : ∃ cores l2, z = { s with cores := cores, l2 := l2 } :=
    ⟨_, _, filled.trans ((tlbFilled_eq y cs e).trans
      (congrArg (fun u : State => { u with cores := (y.tlbFilled cs e).cores }) (walkTouch_eq s w.ck _)))⟩
  refine ⟨_, go, by rw [rest], fun c hc => ?_, ?_, by rw [rest]⟩
  · exact congrArg State.cores filled ▸ mem_tlb_of_tlbFilled (s := y) (.inl (List.mem_dedup.2 hc))
  · rw [State.tlb2Of, Tbl.get?_put_same]
    exact mem_tlbPut (by decide)

/-- A walk that fails keeps its failure for the groups that wait. -/
theorem walk_fails (fresh : w.isc = (s.ctx w.ck).isc) {x : WalkResult} (result : s.walk w.ck (w.page * 65536) = x)
    (failed : ∀ e, x ≠ .ok e) :
    ∃ t, exec (.pageWalkComplete id) s = .next t ∧ t = { s with walks := t.walks, l2 := t.l2 } ∧
      t.walks = if w.gks = [] then s.walks.del id else s.walks.put id { w with result := some x } := by
  have touched := walkTouch_eq s w.ck (w.page * 65536)
  let y := s.walkTouch w.ck (w.page * 65536)
  have go : exec (.pageWalkComplete id) s = .next (if w.gks.isEmpty then { y with walks := y.walks.del id }
      else { y with walks := y.walks.put id { w with result := some x } }) := by
    rw [exec_pageWalkComplete, execPageWalkComplete, walking]
    simp only [running, Option.isSome_none, Bool.false_eq_true, if_false, if_neg (not_not_intro fresh), result]
    cases x with
    | ok e => exact absurd rfl (failed e)
    | fault => rfl
    | poison => rfl
  refine ⟨_, go, ?_⟩
  have walks : y.walks = s.walks := (congrArg State.walks touched).trans rfl
  by_cases none : w.gks = []
  · rw [if_pos none, if_pos (by simp [none])]
    exact ⟨congrArg (fun u : State => { u with walks := y.walks.del id }) touched, congrArg (Tbl.del · id) walks⟩
  · rw [if_neg none, if_neg (by simpa using none)]
    exact ⟨congrArg (fun u : State => { u with walks := y.walks.put id { w with result := some x } }) touched,
      congrArg (Tbl.put · id _) walks⟩

end

end Sys2Proof.Machine
end

section
/-! SUPPORT. Fetches (O23). -/

namespace Sys2Proof.Machine

/-- A fetch changes the instruction cache, the ways of the L2 and the counters of teams. -/
def Fetched.Leaves (s t : State) : Prop := ∃ icache l2 teams, t = { s with icache := icache, l2 := l2, teams := teams }

theorem Fetched.Leaves.trans {s t u : State} (h : Fetched.Leaves s t) (h' : Fetched.Leaves t u) : Fetched.Leaves s u := by
  obtain ⟨icache, l2, teams, rfl⟩ := h
  obtain ⟨icache', l2', teams', rfl⟩ := h'
  exact ⟨icache', l2', teams', rfl⟩

theorem Touched.fetchLeaves {s t : State} (h : Touched s t) : Fetched.Leaves s t := by
  obtain ⟨l2, teams, rfl⟩ := h
  exact ⟨s.icache, l2, teams, rfl⟩

theorem fillLine_leaves (s : State) (x : ICacheLine) : Fetched.Leaves s (s.fillLine x) := ⟨_, s.l2, s.teams, rfl⟩

/-- What a line holds does not depend on what a fetch changes. -/
theorem Fetched.Leaves.readLine {s t : State} (h : Fetched.Leaves s t) (core ck va : Nat) :
    t.readLine core ck va = s.readLine core ck va := by
  obtain ⟨icache, l2, teams, rfl⟩ := h
  have pages : SamePages s { s with icache := icache, l2 := l2, teams := teams } := ⟨rfl, rfl, rfl, rfl⟩
  have xlat : State.xlatFetch { s with icache := icache, l2 := l2, teams := teams } core ck va = s.xlatFetch core ck va := by
    unfold State.xlatFetch
    rw [pages.xlatNow]
    rfl
  unfold State.readLine
  rw [xlat]
  simp only [pages.bytes]
  rfl

theorem readLine_key (s : State) (core ck va : Nat) :
    (s.readLine core ck va).pair = core / 2 ∧ (s.readLine core ck va).ck = ck ∧ (s.readLine core ck va).va = va := by
  unfold State.readLine
  dsimp only
  split
  · split <;> exact ⟨rfl, rfl, rfl⟩
  all_goals exact ⟨rfl, rfl, rfl⟩

/-- The lines of a pair. -/
def State.pairLines (s : State) (pair : Nat) : List ICacheLine := s.icache.filter fun x => x.pair = pair

/-- A line that is not there yet comes before the others of its pair. -/
theorem fillLine_pairLines {s : State} {x : ICacheLine} (fresh : ∀ y ∈ s.pairLines x.pair, y.va ≠ x.va)
    (room : (s.pairLines x.pair).length < 1024) : (s.fillLine x).pairLines x.pair = x :: s.pairLines x.pair := by
  have mine : (s.icache.filter fun y => y.pair = x.pair && !(y.ck = x.ck && y.va = x.va)) = s.pairLines x.pair := by
    refine List.filter_congr fun y hy => ?_
    by_cases pair : y.pair = x.pair
    · have := fresh y (List.mem_filter.2 ⟨hy, by simpa using pair⟩)
      simp [pair, this]
    · simp [pair]
  have others : ((s.icache.filter fun y => y.pair ≠ x.pair).filter fun y => y.pair = x.pair) = [] :=
    List.filter_eq_nil_iff.2 fun y hy => by simpa using (List.mem_filter.1 hy).2
  have own : ((x :: s.pairLines x.pair).filter fun y => y.pair = x.pair) = x :: s.pairLines x.pair :=
    List.filter_eq_self.2 fun y hy => by
      obtain rfl | listed := List.mem_cons.1 hy
      · simp
      · exact (List.mem_filter.1 listed).2
  unfold State.fillLine
  rw [mine, List.take_of_length_le (by simpa using room), State.pairLines]
  exact (List.filter_append ..).trans (by rw [own, others, List.append_nil])

/-- One line of a block, as `State.fetchBlock` takes it. -/
def State.fetchLine (gk team ck : Nat) (s : State) (va : Nat) : State :=
  if s.icache.any fun k => k.pair = coreOf gk / 2 && k.ck = ck && k.va = va then s
  else
    let s := if s.fetchHit (coreOf gk) ck va then s else s.walkTouch ck va
    let s := match s.xlatFetch (coreOf gk) ck va with
      | .ok pa leaf => s.l2Touch (pa / 128) (homeSlice pa leaf) (some 6) ck (some (team, coreOf gk)) false
      | _ => s
    s.fillLine (s.readLine (coreOf gk) ck va)

theorem fetchBlock_eq (s : State) (gk : Nat) (idx : Word) :
    s.fetchBlock gk idx =
      (let base := ((s.pktOf (s.group gk)).map (·.code.toNat)).getD 0 + 192 * (idx.toNat / 16)
       [base, base + 64, base + 128].foldl (State.fetchLine gk (s.group gk).team (s.ckOf (s.group gk))) s) := rfl

/-- A line that is not in the cache is brought into it. -/
theorem fetchLine_of_absent {s : State} {gk team ck va : Nat} (absent : ∀ y ∈ s.pairLines (coreOf gk / 2), y.va ≠ va)
    (room : (s.pairLines (coreOf gk / 2)).length < 1024) :
    Fetched.Leaves s (s.fetchLine gk team ck va) ∧
      (s.fetchLine gk team ck va).pairLines (coreOf gk / 2) =
        s.readLine (coreOf gk) ck va :: s.pairLines (coreOf gk / 2) := by
  have out : ¬(s.icache.any fun k => k.pair = coreOf gk / 2 && k.ck = ck && k.va = va) = true := by
    rw [List.any_eq_true]
    rintro ⟨y, hy, same⟩
    simp only [Bool.and_eq_true, decide_eq_true_eq] at same
    exact absent y (List.mem_filter.2 ⟨hy, by simpa using same.1.1⟩) same.2
  unfold State.fetchLine
  rw [if_neg out]
  extract_lets s1 s2
  have walked : Touched s s1 := by
    unfold s1
    split
    · exact ⟨s.l2, s.teams, rfl⟩
    · exact ⟨_, s.teams, walkTouch_eq s ck va⟩
  have read : Touched s s2 := walked.trans (by
    unfold s2
    split
    · exact touched_l2Touch ..
    · exact ⟨s1.l2, s1.teams, rfl⟩)
  obtain ⟨pair, -, address⟩ := readLine_key s (coreOf gk) ck va
  have lines : s2.pairLines (coreOf gk / 2) = s.pairLines (coreOf gk / 2) := by
    obtain ⟨l2, teams, e⟩ := read
    rw [e]
    rfl
  rw [read.fetchLeaves.readLine]
  refine ⟨read.fetchLeaves.trans (fillLine_leaves ..), ?_⟩
  rw [← lines, ← pair] at absent room ⊢
  exact fillLine_pairLines (by simpa only [address] using absent) room

/-- A pair that holds no line has the three lines of a block after their fetch. -/
theorem fetchBlock_lines {s : State} {gk : Nat} {g : Group} {p : Packet} (m : Word) (group : s.groups.get? gk = some g)
    (packet : s.pktOf g = some p) (empty : s.pairLines (coreOf gk / 2) = []) :
    Fetched.Leaves s (s.fetchBlock gk m) ∧ ∀ j < 3,
      s.readLine (coreOf gk) (s.ckOf g) (p.code.toNat + 192 * (m.toNat / 16) + 64 * j) ∈ (s.fetchBlock gk m).icache := by
  rw [fetchBlock_eq, group_of group, packet]
  dsimp only [Option.map_some, Option.getD_some, List.foldl_cons, List.foldl_nil]
  generalize hb : p.code.toNat + 192 * (m.toNat / 16) = base
  have address (va : Nat) := (readLine_key s (coreOf gk) (s.ckOf g) va).2.2
  obtain ⟨leaves1, lines1⟩ := fetchLine_of_absent (s := s) (gk := gk) (team := g.team) (ck := s.ckOf g) (va := base)
    (by simp [empty]) (by simp [empty])
  rw [empty] at lines1
  generalize s.fetchLine gk g.team (s.ckOf g) base = s1 at leaves1 lines1 ⊢
  obtain ⟨leaves2, lines2⟩ := fetchLine_of_absent (s := s1) (gk := gk) (team := g.team) (ck := s.ckOf g) (va := base + 64)
    (by simp [lines1, address]) (by simp [lines1])
  rw [lines1, leaves1.readLine] at lines2
  generalize s1.fetchLine gk g.team (s.ckOf g) (base + 64) = s2 at leaves2 lines2 ⊢
  replace leaves2 := leaves1.trans leaves2
  obtain ⟨leaves3, lines3⟩ := fetchLine_of_absent (s := s2) (gk := gk) (team := g.team) (ck := s.ckOf g) (va := base + 128)
    (by simp [lines2, address]) (by simp [lines2])
  rw [lines2, leaves2.readLine] at lines3
  refine ⟨leaves2.trans leaves3, fun j hj => ?_⟩
  have listed : s.readLine (coreOf gk) (s.ckOf g) (base + 64 * j) ∈
      (s2.fetchLine gk g.team (s.ckOf g) (base + 128)).pairLines (coreOf gk / 2) := by
    rw [lines3]
    interval_cases j <;> simp
  exact List.mem_of_mem_filter listed

/-- The fetch of a group without a handler stream is that of its main stream's block. -/
theorem instructionFetch_of_main {s : State} {gk : Nat} {g : Group} {m : Word} {ls : List Nat}
    (group : s.groups.get? gk = some g) (handler : g.pick true = none) (main : g.pick false = some (m, ls)) :
    exec (.instructionFetch gk) s = .next (s.fetchBlock gk m) := by
  rw [exec_instructionFetch, execInstructionFetch, List.foldl_cons, List.foldl_cons, List.foldl_nil]
  simp only [group_of group, handler, main]

end Sys2Proof.Machine
end

section
/-! PROOFS. What an atomic computes, and the obligation (O23). -/

namespace Sys2Proof.Machine

/-! ### What an atomic computes -/

section
variable (w old v v2 : Nat) (ecl : Ecl)

theorem atomNew_add (fixed : ecl ≠ .float) : atomNew 0 ecl w old v v2 = some ((old + v) % 2 ^ w) := by
  cases ecl
  case float => exact absurd rfl fixed
  all_goals rfl

theorem atomNew_min : atomNew 1 .natural w old v v2 = some (min old v) := by
  simp only [atomNew, if_true, Nat.min_def]

theorem atomNew_max : atomNew 2 .natural w old v v2 = some (max old v) := by
  simp only [atomNew, Bool.false_eq_true, if_false, Option.some.injEq]
  split <;> omega

theorem atomNew_min_signed :
    atomNew 1 .signed w old v v2 = some (if signedOf w v < signedOf w old then v else old) := by
  simp only [atomNew, if_true, Option.some.injEq]
  split <;> split <;> omega

theorem atomNew_max_signed :
    atomNew 2 .signed w old v v2 = some (if signedOf w old < signedOf w v then v else old) := by
  simp only [atomNew, Bool.false_eq_true, if_false, Option.some.injEq]
  split <;> split <;> omega

theorem atomNew_cas : atomNew 7 ecl w old v v2 = if old = v then some v2 else none := rfl

end

/-- Settles O23: an access is what `Alone` says, and its end is a write or read at home, its thread's share, and a waking of
the lanes that wait; walks and fetches by what each leaves. -/
theorem accessesWalksAndFetchesEnd : Obligations.AccessesWalksAndFetchesEnd := by
  unfold Obligations.AccessesWalksAndFetchesEnd
  refine ⟨⟨?_, ?_⟩, ?_, ?_⟩
  · intro id s f g d n rd size sorted flying home plain mates ready calm clear group kind inside few v
    have alone : Alone s id f := ⟨sorted.2.1, flying, home, plain, mates, ready, calm, clear⟩
    exact loadScalar_ends alone sorted.1 group (sorted.2.2 _ _ group) kind inside
  · intro id s f gk l g u sorted flying home plain mates ready calm clear found group here bad value sameBytes wakes takes
    have alone : Alone s id f := ⟨sorted.2.1, flying, home, plain, mates, ready, calm, clear⟩
    have stands : Stands s f.team f.tid gk l g u := ⟨sorted.1, group, sorted.2.2 _ _ group, here, found⟩
    have take {i : Instr} {d n v flag : Nat} {good : State → Prop} (h : ∃ t, exec i s = .next t ∧
        AccessEnds s t id gk l u d n v flag bad ∧ good t) : takes i d n v flag good := by
      obtain ⟨t, run, ⟨flights, g', w, group', here', wakes', received⟩, good'⟩ := h
      exact ⟨t, g', w, run, flights, group', here', wakes', good', received.entries, received.nowhere, received.flagged⟩
    refine ⟨?_, ?_, ?_, ?_, ?_, ?_, ?_⟩
    · intro d n size flag rd kind hd few small
      exact take (load_ends alone stands kind hd few small)
    · intro b kind order free
      have run := storePerform_of_kind flying kind
      rw [free, if_neg (by decide)] at run
      exact take ⟨_, run, store_ends alone stands kind order⟩
    · intro b kind order held
      have run := storePerform_of_kind flying kind
      rw [held, if_pos rfl] at run
      exact ⟨run, take ⟨_, releaseMarkerMet_of_store flying kind held, store_ends alone stands kind order⟩⟩
    · intro op ecl d v v2 lane kind free hd size hv hv2 sound w becomes
      have old : value < 2 ^ w := load_lt s f.place f.loc f.size
      have become {x : Nat} (small : x < 2 ^ w) (result : atomNew op ecl w value v v2 = some x ∨
          atomNew op ecl w value v v2 = none ∧ x = value) : becomes x :=
        take (atomic_ends alone stands kind free hd size sound small result)
      refine ⟨?_, ?_, ?_, ?_, ?_, ?_, ?_, ?_, ?_, ?_⟩
      · rintro rfl fixed
        exact become (Nat.mod_lt _ (by positivity)) (.inl (atomNew_add _ _ _ _ _ fixed))
      · rintro rfl rfl
        exact become ((min_le_left _ _).trans_lt old) (.inl (atomNew_min ..))
      · rintro rfl rfl
        exact become (max_lt old hv) (.inl (atomNew_max ..))
      · rintro rfl rfl
        exact become (by split <;> assumption) (.inl (atomNew_min_signed ..))
      · rintro rfl rfl
        exact become (by split <;> assumption) (.inl (atomNew_max_signed ..))
      · rintro rfl
        exact become (Nat.and_lt_two_pow _ hv) (.inl rfl)
      · rintro rfl
        exact become (Nat.or_lt_two_pow old hv) (.inl rfl)
      · rintro rfl
        exact become (Nat.xor_lt_two_pow old hv) (.inl rfl)
      · rintro rfl
        exact become hv (.inl rfl)
      · rintro rfl
        refine become (by split <;> assumption) ?_
        rw [atomNew_cas]
        by_cases equal : value = v
        · exact .inl (by rw [if_pos equal, if_pos equal])
        · exact .inr ⟨if_neg equal, if_neg equal⟩
    · intro b kind order _
      have run := spillFillComplete_of_ready flying ready
      obtain ⟨flights, ⟨g', w, group', here', woken⟩, written⟩ := spill_ends home stands kind order
      exact ⟨_, g', w, run, flights, group', here', woken, written⟩
    · intro kind poisoned
      rw [spillFillComplete_of_ready flying ready, fill_traps home kind poisoned]
      rfl
    · intro kind sound
      have run := spillFillComplete_of_ready flying ready
      obtain ⟨flights, ⟨g', w, group', here', woken⟩, same⟩ := fill_ends alone stands kind sound
      exact ⟨_, g', w, run, flights, group', here', same, woken⟩
  · intro id s w walking running
    refine ⟨walk_restarts walking running, fun fresh => ⟨fun e run => ?_, fun x result failed => ?_⟩⟩
    · obtain ⟨t, go, walks, tlbs, tlb2, rest⟩ := walk_fills walking running fresh run
      exact ⟨t, go, walks, tlbs _ (List.mem_cons_self ..),
        fun gk hgk => tlbs _ (List.mem_cons_of_mem _ (List.mem_map_of_mem hgk)), tlb2, rest⟩
    · exact walk_fails walking running fresh result failed
  · intro gk s g m ls p group packet handler main empty
    have none : s.pairLines (coreOf gk / 2) = [] := List.filter_eq_nil_iff.2 fun x hx => by simpa using empty x hx
    obtain ⟨⟨icache, l2, teams, rest⟩, lines⟩ := fetchBlock_lines m group packet none
    refine ⟨_, instructionFetch_of_main group handler main, ?_, lines⟩
    rw [rest]

end Sys2Proof.Machine
end

section
/-! SUPPORT. What the work of the device leaves of its dies and its clock: records, traps, aborts and the loss of what a die holds
(O50). -/

namespace Sys2Proof.Machine

/-- The dies and the clock: the end of work, and whatever is written or sent for it, leaves them. -/
def State.site (s : State) : Tbl Die × Nat := (s.dies, s.clock)

/-! ## Accesses, messages and records -/

theorem Notified.site {s t : State} (h : Notified s t) : t.site = s.site := by
  obtain ⟨fns, sent, rfl⟩ := h
  rfl

theorem markStale_site (s : State) (lines : List Nat) (cause : Nat) : (s.markStale lines cause).site = s.site := by
  unfold State.markStale
  refine foldl_leaves State.site ?_ _ s
  exact fun _ _ => rfl

theorem write_site (s : State) (p : Place) (bs : Tbl Byte) : (s.write p bs).site = s.site :=
  write_leaves State.site (fun _ _ _ => by cases p <;> rfl) (fun _ _ => by cases p <;> rfl) (fun _ _ => rfl)
    (fun _ => markStale_site) s bs

theorem writeHome_site (s : State) (ck pa : Nat) (leaf : DWord) (b : List Byte) :
    (s.writeHome ck pa leaf none b).site = s.site :=
  (foldl_leaves State.site (fun _ _ => l2Touch_leaves State.site (fun _ _ => rfl) (fun _ _ => rfl) ..) _ _).trans (write_site ..)

theorem askPeer_site (s : State) (ck e va n kind : Nat) (data : List Byte) :
    (s.askPeer ck e va n kind data).site = s.site := by
  unfold State.askPeer State.sendPeer State.linkSend
  extract_lets m peer k r u ks
  have hu : u.site = s.site := by
    unfold u
    split <;> rfl
  split <;> exact hu

theorem devRead_site (s : State) (ck va n : Nat) (need : Need) : (s.devRead ck va n need).1.site = s.site := by
  obtain ⟨l2, e⟩ := xlat_eq s ck va need
  unfold State.devRead
  rw [e]
  cases s.xlatNow ck va need with
  | ok pa leaf => rfl
  | fault cls cause => rfl
  | poison => rfl
  | remote i =>
    dsimp only
    split
    · exact askPeer_site ..
    · rfl

theorem devWrite_site (s : State) (ck va : Nat) (b : List Byte) : (s.devWrite ck va b).1.site = s.site := by
  obtain ⟨l2, e⟩ := xlat_eq s ck va .write
  unfold State.devWrite
  rw [e]
  cases s.xlatNow ck va .write with
  | ok pa leaf => exact writeHome_site ..
  | fault cls cause => rfl
  | poison => rfl
  | remote i =>
    dsimp only
    split
    · exact askPeer_site ..
    · rfl

theorem ringWrite_site (s : State) (ck : Nat) (core : Option Nat) (ring lo hi : Nat) (r : List Byte) :
    (s.ringWrite ck core ring lo hi r).1.site = s.site := by
  refine ringWrite_leaves State.site (fun u a => ?_) (fun u a b => ?_) s ring lo hi r
  · cases core with
    | none => exact devRead_site ..
    | some c => rfl
  · cases core with
    | none => exact devWrite_site ..
    | some c => exact write_site ..

theorem signal_site (s : State) (k : Nat) (g : Grid) : (s.signal k g).site = s.site := by
  unfold State.signal
  split
  · rfl
  extract_lets add va fail
  have failed (u : State) (st : Nat) : (fail u st).site = u.site := (notified_event ..).site
  obtain ⟨l2, e⟩ := xlat_eq s g.ck va (if add then .both else .write)
  rw [e]
  cases s.xlatNow g.ck va (if add then .both else .write) with
  | ok pa leaf =>
    dsimp only
    split
    · exact failed ..
    · exact writeHome_site ..
  | fault cls cause => exact failed ..
  | poison => exact failed ..
  | remote i =>
    dsimp only
    split
    · split
      · exact (failed ..).trans (askPeer_site ..)
      · exact (failed ..).trans (askPeer_site ..)
      · exact askPeer_site ..
    · exact failed ..

theorem trace_site (s : State) (ck gk lane : Nat) (lpc : Word) (kind : Nat) (tag value : Option Nat) :
    (s.trace ck gk lane lpc kind tag value).site = s.site := by
  unfold State.trace
  dsimp only
  split
  · exact devWrite_site ..
  · rfl

/-! ## The end of a grid -/

theorem gridComplete_site (s : State) (k : Nat) : (s.gridComplete k).site = s.site := by
  unfold State.gridComplete
  split
  · rfl
  next g _ =>
    extract_lets s1 s2
    show s2.site = s.site
    unfold s2
    split
    · exact signal_site ..
    · exact (notified_queueMsix ..).site.trans (signal_site ..)

theorem recordDone_site (s : State) (h : HeldRecord) : (s.recordDone h).site = s.site := by
  unfold State.recordDone
  extract_lets s1
  have done : s1.site = s.site := by
    unfold s1
    split
    · exact gridComplete_site ..
    · rfl
  split
  · split
    · extract_lets s2
      split
      · exact (notified_event ..).site.trans done
      · exact done
    · exact done
  · exact done

theorem moveRecord_site (s : State) (n : Nat) (h : HeldRecord) (bytes : List Byte) (detail : Nat) :
    (s.moveRecord n h bytes detail).site = s.site := by
  unfold State.moveRecord
  extract_lets s1 lost s2
  have moved : s1.site = s.site := (notified_redirect ..).site
  split
  · exact moved
  · refine (recordDone_site ..).trans (Eq.trans ?_ moved)
    split <;> rfl

theorem tryRecord_site (s : State) (n : Nat) (h : HeldRecord) : (s.tryRecord n h).site = s.site := by
  unfold State.tryRecord
  split
  next lo hi _ =>
    have tried := ringWrite_site s h.ck h.inCore h.ring lo hi h.bytes
    split
    next u e => rw [e] at tried; exact tried
    next u b d e => rw [e] at tried; exact (moveRecord_site ..).trans tried
    next u slot e =>
      rw [e] at tried
      refine (recordDone_site ..).trans (Eq.trans ?_ tried)
      unfold State.recordNote
      split <;> rfl

theorem gridRecord_site (s : State) (g : Grid) (bytes : List Byte) (grid : Option Nat) (behind : List Nat) :
    (s.gridRecord g bytes grid behind).site = s.site := by
  unfold State.gridRecord State.putRecord State.fresh
  dsimp only
  split
  · rfl
  · exact tryRecord_site ..

theorem closeGrid_site (s : State) (k : Nat) (rejected : Bool) : (s.closeGrid k rejected).site = s.site := by
  unfold State.closeGrid
  split
  · rfl
  · dsimp only
    split <;> rfl

theorem endGrid_site (s : State) (k status detail : Nat) (behind : List Nat) :
    (s.endGrid k status detail behind).site = s.site := by
  unfold State.endGrid
  split
  · rfl
  · exact (gridRecord_site ..).trans (closeGrid_site ..)

theorem site_of_lessStripped {s t : State} (h : t.lessStripped = s.lessStripped) : t.site = s.site :=
  (congrArg State.site h : t.lessStripped.site = s.lessStripped.site)

theorem stripGrid_site (s : State) (k : Nat) : (s.stripGrid k).site = s.site :=
  (site_of_lessStripped (stripGrid_lessStripped s k)).trans rfl

theorem abortOne_site (s : State) (quiet : Bool) (err : Option (List Byte)) (k : Nat) (kids : List Nat) :
    (s.abortOne quiet err k kids).site = s.site := by
  unfold State.abortOne
  split
  · rfl
  · extract_lets u v
    have stripped : u.site = s.site := stripGrid_site s k
    have closed : v.site = s.site := (closeGrid_site u k false).trans stripped
    clear_value u v
    split
    · exact closed
    · refine (endGrid_site ..).trans (Eq.trans ?_ stripped)
      split
      · exact gridRecord_site ..
      · rfl

theorem abortGrids_site (s : State) (quiet : Bool) (err : Option (List Byte)) (top : Nat) (ks : List Nat) :
    (s.abortGrids quiet err top ks).site = s.site := foldl_leaves State.site (fun _ _ => abortOne_site ..) _ s

/-! ## Traps -/

theorem txAbort_site (s : State) (gk l cause : Nat) : (s.txAbort gk l cause).site = s.site := by
  unfold State.txAbort
  dsimp only
  split
  · rfl
  · split
    · unfold State.askToken
      dsimp only
      split <;> rfl
    · rfl

theorem contextFault_site (s : State) (gk : Nat) (ts : List Trap) : (s.contextFault gk ts).site = s.site := by
  unfold State.contextFault
  split
  · rfl
  · split
    · rfl
    · exact abortGrids_site ..

theorem doubleFault_site (s : State) (gk : Nat) (ts : List Trap) : (s.doubleFault gk ts).site = s.site := by
  unfold State.doubleFault
  split
  · rfl
  · split
    · rfl
    · exact (notified_event ..).site.trans ((abortGrids_site ..).trans (abortGrids_site ..))

theorem leaveWindows_site (s : State) (gk : Nat) (ls : List Nat) : (s.leaveWindows gk ls).site = s.site :=
  foldl_leaves State.site (f := fun u l => u.dropHandlerResults gk l) (fun _ _ => rfl) _ s

theorem raise_site (s : State) (gk lead : Nat) (handler : Bool) (ts : List Trap) :
    (s.raise gk lead handler ts).site = s.site := by
  unfold State.raise
  dsimp only
  have aborted := foldl_leaves State.site (fun u (t : Trap) => txAbort_site u gk t.lane 6)
    (ts.filter fun t => (s.thread gk t.lane).tx.act) s
  generalize (ts.filter fun t => (s.thread gk t.lane).tx.act).foldl (fun u t => u.txAbort gk t.lane 6) s = s1 at *
  split
  · exact aborted
  · have ended : (s1.endRun gk).site = s.site := aborted
    generalize s1.endRun gk = s2 at *
    split
    · exact (doubleFault_site ..).trans ended
    · split
      · exact (contextFault_site ..).trans ended
      · split
        · exact ended
        · exact (leaveWindows_site ..).trans ((trace_site ..).trans ended)

theorem raiseIn_site (s : State) (gk : Nat) (ts : List Trap) : (s.raiseIn gk ts).site = s.site := by
  unfold State.raiseIn
  extract_lets g hs ms s1
  have main : s1.site = s.site := by
    unfold s1
    split
    · rfl
    · exact raise_site ..
  split
  · exact main
  · exact (raise_site ..).trans main

/-! ## The loss of what a die holds -/

theorem breakSlot_site (s : State) (unit slot die : Nat) : (s.breakSlot unit slot die).site = s.site := by
  unfold State.breakSlot
  split
  · rfl
  · extract_lets b s1 ws s2
    have woken : s2.site = s1.site :=
      foldl_leaves State.site (f := fun u (w : Nat × Nat) => u.modThread w.1 w.2 _) (fun _ _ => rfl) ws s1
    exact (foldl_leaves State.site (fun _ _ => raiseIn_site ..) _ s2).trans woken

theorem breakSlots_site (s : State) (d : Nat) : (s.breakSlots d).site = s.site := by
  unfold State.breakSlots
  refine foldl_leaves State.site (fun u e => ?_) _ s
  split
  · exact breakSlot_site ..
  · rfl

theorem keepJobs_site (s old : State) (d : Nat) : (s.keepJobs old d).site = s.site := by
  unfold State.keepJobs
  extract_lets gone s1 runs
  show s1.site = s.site
  refine foldl_leaves State.site (fun u e => ?_) _ s
  split <;> rfl

theorem loseJobs_site (s : State) (d : Nat) : (s.loseJobs d).site = s.site := by
  unfold State.loseJobs
  refine foldl_leaves State.site (fun u e => ?_) _ s
  dsimp only [State.freeIdx]
  split
  · rfl
  · split
    · exact (notified_redirect ..).site
    · rfl

theorem wipedDie_site (s : State) (d : Nat) : ({ (s.loseFlights d).wipeDie d with cur := none } : State).site = s.site := rfl

theorem loseDie_site (s : State) (p : Nat) : (s.loseDie p).site = s.site := by
  unfold State.loseDie
  extract_lets d hit t
  split
  · rfl
  · have lost : t.site = s.site := (keepJobs_site ..).trans
      ((foldl_leaves State.site (fun _ _ => abortGrids_site ..) _ _).trans (breakSlots_site s d))
    exact (wipedDie_site (t.loseJobs d) d).trans ((loseJobs_site t d).trans lost)

end Sys2Proof.Machine
end

section
/-! SUPPORT and PROOFS. What throttles the cores: the registers of a cluster, its effective pass count and pattern, and heat
(O50). -/

namespace Sys2Proof.Machine

/-! ## The registers -/

section

variable (s : State) (k p : Nat) (v : Word)

theorem bitCount_ofNat (n : Nat) : bitCount (BitVec.ofNat 16 n) = ((List.range 16).filter fun i => n.testBit i).length := by
  refine congrArg List.length (List.filter_congr fun i listed => ?_)
  rw [bitOf, BitVec.getLsbD_ofNat, decide_eq_true (List.mem_range.1 listed), Bool.true_and]

theorem dopWrite_same (same : (s.die p).dop = v.toNat % 8) : exec (.dopWrite p v) s = .next s := by
  rw [exec_dopWrite, execDopWrite, if_pos same]

theorem dopWrite_changed (changed : (s.die p).dop ≠ v.toNat % 8) : exec (.dopWrite p v) s =
    .next { s with dies := s.dies.put p { s.die p with dop := v.toNat % 8, relock := true } } := by
  rw [exec_dopWrite, execDopWrite, if_neg changed]
  rfl

theorem passWrite_reserved (reserved : v.toNat % 4 = 3) : exec (.passWrite k v) s = .next s := by
  rw [exec_passWrite, execPassWrite, if_pos reserved]

theorem passWrite_stored (code : v.toNat % 4 ≠ 3) : exec (.passWrite k v) s =
    .next { s with clusters := s.clusters.put k { s.cluster k with pass := v.toNat % 4 } } := by
  rw [exec_passWrite, execPassWrite, if_neg code]
  rfl

theorem swalWrite_many (many : 12 < ((List.range 16).filter fun i => v.toNat.testBit i).length) :
    exec (.swalWrite k v) s = .next s := by
  rw [exec_swalWrite, execSwalWrite]
  exact congrArg Host.Outcome.next (if_pos (by rwa [bitCount_ofNat]))

theorem swalWrite_stored (few : ((List.range 16).filter fun i => v.toNat.testBit i).length ≤ 12) :
    exec (.swalWrite k v) s =
      .next { s with clusters := s.clusters.put k { s.cluster k with swal := BitVec.ofNat 16 v.toNat } } := by
  rw [exec_swalWrite, execSwalWrite]
  exact congrArg Host.Outcome.next (if_neg (by rw [bitCount_ofNat]; omega))

/-- The slew step that a write stores (23 R484). -/
theorem slewWrite_eq : exec (.slewWrite k v) s = .next { s with clusters := s.clusters.put k { s.cluster k with
    step := if s.lock.stepmax ≠ 0 ∧ (v.toNat % 256 = 0 ∨ s.lock.stepmax < v.toNat % 256) then s.lock.stepmax
      else v.toNat % 256 } } := by
  rw [exec_slewWrite, execSlewWrite]
  simp only [Bool.and_eq_true, Bool.or_eq_true, decide_eq_true_eq]
  rfl

theorem powerCapControl_eq (pass : Nat) (bits : BitVec 16) : exec (.powerCapControl k pass bits) s = .next (
    if pass = 1 ∧ bits = 0 ∨ pass = 2 ∨ pass = 4 then s.modCluster k fun c =>
      { c with capPass := pass, capBits := bits, current := pass ≠ 1 || bits ≠ 0 }
    else s) := by
  rw [exec_powerCapControl, execPowerCapControl]
  simp only [Bool.and_eq_true, Bool.or_eq_true, decide_eq_true_eq, or_assoc]

end

/-! ## Effective throttling -/

section

variable (s : State) (k : Nat)

theorem pattern_bit (i : Nat) : bitOf (s.pattern k) i =
    (bitOf (s.cluster k).swal i || bitOf (s.cluster k).capBits i || bitOf (s.cluster k).hotBits i ||
      bitOf (if s.leak then leakBits else 0) i) := by
  simp only [State.pattern, bitOf, BitVec.getLsbD_or]

theorem swallowed_iff : s.swallowed k = true ↔
    bitOf (s.pattern k) (s.clock % 16) = true ∨ ∃ e ∈ s.dies, e.2.log = k / 2 ∧ e.2.relock = true := by
  simp [State.swallowed]

/-- PSTAT holds the pattern, and above it the causes of throttling (23 R483). -/
theorem pstat_bit {i : Nat} (low : i < 32) : bitOf (s.pstat k) i = if i < 16 then bitOf (s.pattern k) i else
    ((if (s.cluster k).thermal || s.leak then 1 else 0) + if (s.cluster k).current then 2 else 0).testBit (i - 16) := by
  have split : (s.pattern k).toNat + (if (s.cluster k).thermal || s.leak then 2 ^ 16 else 0) +
      (if (s.cluster k).current then 2 ^ 17 else 0) =
      2 ^ 16 * ((if (s.cluster k).thermal || s.leak then 1 else 0) + if (s.cluster k).current then 2 else 0) +
        (s.pattern k).toNat := by
    split <;> split <;> omega
  unfold State.pstat
  dsimp only
  rw [split, bitOf, BitVec.getLsbD_ofNat, decide_eq_true low, Bool.true_and, Nat.testBit_two_pow_mul_add _ (s.pattern k).isLt]
  rfl

/-- A run keeps the pattern that it began with; a slot without one follows its cluster's. -/
theorem slotSwallowed_of_locked {core slot : Nat} (here : clusterOf core = k)
    (locked : (s.dies.any fun e => e.2.log = dieOf core && e.2.relock) = false) :
    s.slotSwallowed core slot = bitOf (((s.slotRun core slot).bind (·.pat)).getD (s.pattern k)) (s.clock % 16) := by
  have same : k / 2 = dieOf core := by
    rw [← here, clusterOf, dieOf, Nat.div_div_eq_div_mul]
  unfold State.slotSwallowed
  cases (s.slotRun core slot).bind (·.pat) with
  | none => simp only [here, State.swallowed, same, locked, Bool.or_false, Option.getD_none]
  | some m => simp only [locked, Bool.or_false, Option.getD_some]

/-- The effective pass count is one of those asked for, and the greatest of them (23 R483, R485, R488). -/
theorem passes_greatest : 2 ^ (s.cluster k).pass ≤ s.passes k ∧ (s.cluster k).capPass ≤ s.passes k ∧
    (s.cluster k).hotPass ≤ s.passes k ∧ (s.leak = true → 4 ≤ s.passes k) ∧
    (s.leak = false → s.passes k = 2 ^ (s.cluster k).pass ∨ s.passes k = (s.cluster k).capPass ∨
      s.passes k = (s.cluster k).hotPass) := by
  have least : 1 ≤ 2 ^ (s.cluster k).pass := Nat.one_le_two_pow
  unfold State.passes passOf
  dsimp only
  generalize 2 ^ (s.cluster k).pass = own at least
  refine ⟨by omega, by omega, by omega, fun leak => ?_, fun leak => ?_⟩
  · rw [if_pos leak]
    omega
  · rw [leak, if_neg Bool.false_ne_true]
    omega

/-- Every swallow bit that SWAL, the controller or heat asks for is in the pattern. -/
theorem pattern_of_asked {i : Nat} (asked : bitOf (s.cluster k).swal i = true ∨ bitOf (s.cluster k).capBits i = true ∨
    bitOf (s.cluster k).hotBits i = true) : bitOf (s.pattern k) i = true := by
  rw [pattern_bit]
  rcases asked with h | h | h <;> simp [h]

end

/-! ## Heat -/

section

variable (s : State) (p temp : Nat)

/-- What heat makes of a cluster, by the amounts that it throttles by (23 R486). -/
def Cluster.heat (on : Bool) (pass : Nat) (bits : BitVec 16) (c : Cluster) : Cluster :=
  if on then (if c.thermal then c else { c with hotPass := pass, hotBits := bits, thermal := true })
  else { c with hotPass := 1, hotBits := 0, thermal := false }

/-- Heat throttles the two clusters of a die, by a raised pass count and at least one swallow bit. -/
theorem heat_eq (d : Nat) (on : Bool) : ∃ (pass : Nat) (bits : BitVec 16), (pass = 2 ∨ pass = 4) ∧ bits ≠ 0 ∧
    s.heat d on = (s.freeIdx.2.modCluster (2 * d) (Cluster.heat on pass bits)).modCluster (2 * d + 1) (Cluster.heat on pass bits) := by
  refine ⟨if Config.freeNat s.freeCount % 2 = 0 then 2 else 4, BitVec.ofNat 16 (Config.freeWord s.freeCount).toNat ||| 1,
    by split <;> simp, fun zero => ?_, rfl⟩
  have bit := congrArg (fun m : BitVec 16 => m.getLsbD 0) zero
  simp at bit

theorem heat_cluster (d : Nat) (on : Bool) : ∃ (pass : Nat) (bits : BitVec 16), (pass = 2 ∨ pass = 4) ∧ bits ≠ 0 ∧
    (∀ k, k / 2 = d → (s.heat d on).cluster k = (s.cluster k).heat on pass bits) ∧
    ∀ k, k / 2 ≠ d → (s.heat d on).cluster k = s.cluster k := by
  obtain ⟨pass, bits, raised, some, e⟩ := heat_eq s d on
  refine ⟨pass, bits, raised, some, fun k mine => ?_, fun k other => ?_⟩
  all_goals rw [e, modCluster_cluster, modCluster_cluster]
  · obtain rfl | rfl : k = 2 * d ∨ k = 2 * d + 1 := by omega
    · rw [if_neg (by omega), modCluster_cluster, if_pos rfl]
      rfl
    · rw [if_pos rfl, if_neg (by omega)]
      rfl
  · rw [if_neg (by omega), modCluster_cluster, if_neg (by omega)]
    rfl

theorem heat_rest (d : Nat) (on : Bool) :
    s.heat d on = { s with freeCount := s.freeCount + 1, clusters := (s.heat d on).clusters } := by
  obtain ⟨pass, bits, -, -, e⟩ := heat_eq s d on
  rw [e]
  rfl

/-- A fatal error fences a die that has not been dropped, and leaves the rest of its record and the clock (22 R469). -/
theorem fenceFatal_die : ((s.fenceFatal p).die p).temp = (s.die p).temp ∧ ((s.fenceFatal p).die p).heatAt = (s.die p).heatAt ∧
    (s.fenceFatal p).clock = s.clock ∧ ((s.die p).stage ≠ .dropped → ((s.fenceFatal p).die p).stage = .fenced) := by
  unfold State.fenceFatal
  split
  next dropped => exact ⟨rfl, rfl, rfl, fun h => absurd dropped h⟩
  next fenced => exact ⟨rfl, rfl, rfl, fun _ => fenced⟩
  next =>
    extract_lets l
    have lost := loseDie_site s p
    generalize s.loseDie p = u at lost
    generalize (if l < 8 then l else 0xF) = n
    have noted : (((u.losePorts p).setDie p .fenced).event 0 0x18 0 0 0 p n).site =
      ((u.losePorts p).setDie p .fenced).site := (notified_event ..).site
    generalize ((u.losePorts p).setDie p .fenced).event 0 0x18 0 0 0 p n = t at noted
    have dies : t.dies = u.dies.put p { u.die p with stage := .fenced } := congrArg Prod.fst noted
    have clock : t.clock = s.clock := (congrArg Prod.snd noted).trans (congrArg Prod.snd lost)
    have here : u.die p = s.die p := congrArg (fun m : Tbl Die => (m.get? p).getD {}) (congrArg Prod.fst lost : u.dies = s.dies)
    have die : t.die p = { s.die p with stage := .fenced } := by
      rw [State.die, dies, Tbl.get?_put_same, here]
      rfl
    rw [die]
    exact ⟨rfl, rfl, clock, fun _ => rfl⟩

/-- A sensor has read a temperature. -/
def State.sensed (s : State) (p temp : Nat) : State := s.modDie p fun d => { d with temp := temp }

theorem sensed_die : (s.sensed p temp).die p = { s.die p with temp := temp } :=
  (modDie_die ..).trans (if_pos rfl)

variable {temp}

/-- At 105 °C the die is fenced, and no write of that clock releases it (23 R486). -/
theorem thermalThreshold_hot (hot : 105 ≤ temp) : ∃ t, exec (.thermalThreshold p temp) s = .next t ∧ (t.die p).temp = temp ∧
    t.heatFenced p = true ∧ ((s.die p).stage ≠ .dropped → (t.die p).stage = .fenced) := by
  have die : (((s.sensed p temp).modDie p fun d => { d with heatAt := some s.clock }).die p) =
      { s.die p with temp := temp, heatAt := some s.clock } := by
    rw [modDie_die, if_pos rfl, sensed_die]
  obtain ⟨same, at', clock, fenced⟩ := fenceFatal_die ((s.sensed p temp).modDie p fun d => { d with heatAt := some s.clock }) p
  rw [die] at same at' fenced
  refine ⟨_, ?_, same, ?_, fenced⟩
  · rw [exec_thermalThreshold, execThermalThreshold]
    exact congrArg Host.Outcome.next (if_pos hot)
  · rw [State.heatFenced, at', clock]
    exact decide_eq_true rfl

/-- Below 105 °C a die of a logical number throttles its clusters, or ceases to, or leaves them. -/
theorem thermalThreshold_warm (warm : temp < 105) : exec (.thermalThreshold p temp) s = .next (
    if 8 ≤ (s.die p).log then s.sensed p temp
    else if min s.lock.tcap 100 ≤ temp then (s.sensed p temp).heat (s.die p).log true
    else if temp + 5 < min s.lock.tcap 100 then (s.sensed p temp).heat (s.die p).log false
    else s.sensed p temp) := by
  have log : ((s.sensed p temp).die p).log = (s.die p).log := by rw [sensed_die]
  rw [exec_thermalThreshold, execThermalThreshold]
  refine congrArg Host.Outcome.next ((if_neg (by omega)).trans ?_)
  rw [← log]
  rfl

/-- Below 105 °C a throttled cluster is left as it is and another is throttled, until the die is more than 5 °C below its limit. -/
theorem thermalThreshold_cases (warm : temp < 105) : ∃ t, exec (.thermalThreshold p temp) s = .next t ∧
    t.dies = (s.sensed p temp).dies ∧ t.groups = s.groups ∧
    (min s.lock.tcap 100 ≤ temp → (s.die p).log < 8 → ∀ k, k / 2 = (s.die p).log → (t.cluster k).thermal = true ∧
      ((s.cluster k).thermal = false → ((t.cluster k).hotPass = 2 ∨ (t.cluster k).hotPass = 4) ∧ (t.cluster k).hotBits ≠ 0)) ∧
    (temp + 5 < min s.lock.tcap 100 → (s.die p).log < 8 → ∀ k, k / 2 = (s.die p).log →
      (t.cluster k).thermal = false ∧ (t.cluster k).hotPass = 1 ∧ (t.cluster k).hotBits = 0) ∧
    (temp < min s.lock.tcap 100 → min s.lock.tcap 100 ≤ temp + 5 → t.clusters = s.clusters) ∧
    ∀ k, k / 2 ≠ (s.die p).log → t.cluster k = s.cluster k := by
  refine ⟨_, thermalThreshold_warm s p warm, ?_⟩
  generalize min s.lock.tcap 100 = limit
  split
  next none => exact ⟨rfl, rfl, fun _ low => by omega, fun _ low => by omega, fun _ _ => rfl, fun _ _ => rfl⟩
  next =>
    split
    next hot =>
      obtain ⟨pass, bits, raised, some, mine, others⟩ := heat_cluster (s.sensed p temp) (s.die p).log true
      have rest := heat_rest (s.sensed p temp) (s.die p).log true
      refine ⟨rest ▸ rfl, rest ▸ rfl, fun _ _ k here => ?_, fun _ => by omega, fun _ => by omega, fun k other => others k other⟩
      rw [mine k here, show (s.sensed p temp).cluster k = s.cluster k from rfl, Cluster.heat, if_pos rfl]
      split
      next on => exact ⟨on, fun off => by rw [on] at off; cases off⟩
      next => exact ⟨rfl, fun _ => ⟨raised, some⟩⟩
    next =>
      split
      next cold =>
        obtain ⟨pass, bits, -, -, mine, others⟩ := heat_cluster (s.sensed p temp) (s.die p).log false
        have rest := heat_rest (s.sensed p temp) (s.die p).log false
        refine ⟨rest ▸ rfl, rest ▸ rfl, fun _ => by omega, fun _ _ k here => ?_, fun _ => by omega, fun k other => others k other⟩
        rw [mine k here]
        exact ⟨rfl, rfl, rfl⟩
      next => exact ⟨rfl, rfl, fun _ => by omega, fun _ => by omega, fun _ _ => rfl, fun _ _ => rfl⟩

end

/-- Settles O50: each register stores what its write lets through; the pass count is a maximum and the pattern a union; heat fences
the die, which the loss of its work leaves fenced, or changes its two clusters. -/
theorem powerAndHeatThrottle : Obligations.PowerAndHeatThrottle := by
  unfold Obligations.PowerAndHeatThrottle
  refine ⟨fun k p pass v bits s => ?_, fun k s => ?_, fun p temp s => ?_⟩
  · refine ⟨dopWrite_same s p v, dopWrite_changed s p v, exec_clockRelockComplete .., passWrite_reserved s k v,
      passWrite_stored s k v, swalWrite_many s k v, swalWrite_stored s k v, fun inside => ?_, fun max out => ?_, fun demand => ?_,
      fun other => ?_, exec_leakDetected .., exec_leakCleared .., exec_mainEnHigh ..⟩
    · refine (slewWrite_eq s k v).trans ?_
      rw [if_neg (by omega)]
    · refine (slewWrite_eq s k v).trans ?_
      rw [if_pos ⟨max, out⟩]
    · refine (powerCapControl_eq ..).trans ?_
      rw [if_pos demand]
      rfl
    · rw [powerCapControl_eq, if_neg other]
  · obtain ⟨own, cap, hot, leak, tight⟩ := passes_greatest s k
    refine ⟨own, cap, hot, leak, tight, fun i _ asked => pattern_of_asked s k asked, fun bit => (swallowed_iff s k).2 (.inl bit),
      fun p d found log relock => (swallowed_iff s k).2 (.inr ⟨(p, d), Tbl.mem_of_get? found, log, relock⟩), fun bit still => ?_,
      fun core slot here locked => ?_, ?_, ?_, fun i low => ?_⟩
    · rw [Bool.eq_false_iff, Ne, swallowed_iff]
      rintro (h | ⟨e, listed, log, relock⟩)
      · rw [bit] at h
        cases h
      · rw [still e listed log] at relock
        cases relock
    · have slot := slotSwallowed_of_locked s k (slot := slot) here locked
      exact ⟨fun none => by rw [slot, none]; rfl, fun r m runs pat => by rw [slot, runs, Option.bind_some, pat]; rfl⟩
    · rw [pstat_bit s k (by decide), if_neg (by decide)]
      cases (s.cluster k).thermal <;> cases s.leak <;> cases (s.cluster k).current <;> decide
    · rw [pstat_bit s k (by decide), if_neg (by decide)]
      cases (s.cluster k).thermal <;> cases s.leak <;> cases (s.cluster k).current <;> decide
    · rw [pstat_bit s k (by omega), if_pos low]
  · by_cases hot : 105 ≤ temp
    · obtain ⟨t, turn, same, heat, fenced⟩ := thermalThreshold_hot s p hot
      exact ⟨t, turn, same, fun _ => ⟨heat, fenced⟩, fun warm => by omega⟩
    · have warm : temp < 105 := by omega
      obtain ⟨t, turn, dies, groups, rest⟩ := thermalThreshold_cases s p warm
      have die : t.die p = { s.die p with temp := temp } := by
        rw [State.die, dies, ← sensed_die]
        rfl
      exact ⟨t, turn, by rw [die], fun hot => by omega, fun _ => ⟨by rw [die], groups, rest⟩⟩

end Sys2Proof.Machine
end

section
/-! SUPPORT. What an issue slot is charged for does not depend on earlier charges (O53). -/

namespace Sys2Proof.Machine

/-! ## A state but for its charges -/

/-- Listing a value at a new key adds what `f` sees of it. -/
theorem mem_image_put_of_none {β γ : Type} (f : β → γ) {m : Tbl β} {k : Nat} (none : m.get? k = none) (v : β) (x : γ) :
    x ∈ (m.put k v).map (fun e => f e.2) ↔ x = f v ∨ x ∈ m.map fun e => f e.2 := by
  induction m with
  | nil => simp [Tbl.put]
  | cons e m ih =>
    obtain ⟨k', v'⟩ := e
    have other : k' ≠ k := fun same => by simp [Tbl.get?, same] at none
    have later : Tbl.get? m k = Option.none := by simpa [Tbl.get?, other] using none
    unfold Tbl.put
    split
    · rw [List.map_cons, List.mem_cons]
    · rw [if_neg (Ne.symm other), List.map_cons, List.mem_cons, ih later, List.map_cons, List.mem_cons, or_left_comm]

/-- A core without what a charge changes on it, and without what its slots did. -/
def Core.uncharged (c : Core) : Core :=
  { c with leaves := [], did0 := 0, did1 := 0, didg0 := none, didg1 := none, didt0 := none, didt1 := none }

/-- A team without its counters. -/
def Team.uncharged (t : Team) : Team := { t with pc := [] }

/-- The two states differ in the counters of cores and teams and in what the slots of cores did; a core that is listed in one alone
is as it was at reset. -/
structure SameButCharges (s t : State) : Prop where
  rest : t = { s with cores := t.cores, teams := t.teams }
  core : ∀ c, (t.core c).uncharged = (s.core c).uncharged
  team : ∀ tk, (t.teams.get? tk).map Team.uncharged = (s.teams.get? tk).map Team.uncharged
  listed : ∀ x : Core, (x = {} ∨ x ∈ t.cores.map fun e => e.2.uncharged) ↔ (x = {} ∨ x ∈ s.cores.map fun e => e.2.uncharged)

namespace SameButCharges

variable {s t u : State}

theorem refl (s : State) : SameButCharges s s := ⟨rfl, fun _ => rfl, fun _ => rfl, fun _ => .rfl⟩

theorem trans (h : SameButCharges s t) (h' : SameButCharges t u) : SameButCharges s u where
  rest := by rw [h'.rest, h.rest]
  core c := (h'.core c).trans (h.core c)
  team tk := (h'.team tk).trans (h.team tk)
  listed x := (h'.listed x).trans (h.listed x)

theorem modCore (s : State) (c : Nat) {f : Core → Core} (same : ∀ x : Core, (f x).uncharged = x.uncharged) :
    SameButCharges s (s.modCore c f) where
  rest := rfl
  core j := by
    rw [modCore_core]
    split
    next here => rw [same, here]
    next => rfl
  team _ := rfl
  listed x := by
    rw [modCore_cores]
    cases found : s.cores.get? c with
    | some v =>
      have here : s.core c = v := by rw [State.core, found]; rfl
      rw [mem_image_put Core.uncharged found (by rw [here]; exact same v)]
    | none =>
      have here : s.core c = {} := by rw [State.core, found]; rfl
      have reset : (f (s.core c)).uncharged = {} := by rw [here]; exact same {}
      rw [mem_image_put_of_none Core.uncharged found, reset, ← or_assoc, or_self]

theorem modTeam (s : State) (tk : Nat) {f : Team → Team} (same : ∀ x : Team, (f x).uncharged = x.uncharged) :
    SameButCharges s (s.modTeam tk f) where
  rest := rfl
  core _ := rfl
  team k := by
    rw [State.modTeam, Tbl.get?_modify]
    split
    · cases s.teams.get? k with
      | none => rfl
      | some t => exact congrArg some (same t)
    · rfl
  listed _ := .rfl

/-! ### What both states give -/

variable (h : SameButCharges s t)

include h

theorem groups : t.groups = s.groups := (congrArg State.groups h.rest :)

theorem group (gk : Nat) : t.group gk = s.group gk := by rw [State.group, State.group, h.groups]

theorem thread (gk l : Nat) : t.thread gk l = s.thread gk l := by rw [State.thread, State.thread, h.group]

theorem groupsOn (core : Nat) : t.groupsOn core = s.groupsOn core := by rw [State.groupsOn, State.groupsOn, h.groups]

/-- A part of a core that charges leave is the same in both. -/
theorem part {α : Type} (f : Core → α) (blind : ∀ c : Core, f c.uncharged = f c) (c : Nat) : f (t.core c) = f (s.core c) := by
  rw [← blind, h.core, blind]

/-- A part of a team that charges leave is the same in both. -/
theorem ofTeam {α : Type} (f : Team → α) (blind : ∀ m : Team, f m.uncharged = f m) (tk : Nat) :
    (t.teams.get? tk).map f = (s.teams.get? tk).map f := by
  have sees : f = f ∘ Team.uncharged := funext fun m => (blind m).symm
  rw [sees, ← Option.map_map, ← Option.map_map, h.team]

/-- What the cores list is the same in both, but for what charges change. -/
theorem mem_flatMap {α : Type} (F : Core → List α) (blind : ∀ c : Core, F c.uncharged = F c) (none : F {} = []) (x : α) :
    x ∈ t.cores.flatMap (fun e => F e.2) ↔ x ∈ s.cores.flatMap fun e => F e.2 := by
  have split (m : Tbl Core) : x ∈ m.flatMap (fun e => F e.2) ↔ ∃ c, (c = {} ∨ c ∈ m.map fun e => e.2.uncharged) ∧ x ∈ F c := by
    rw [List.mem_flatMap]
    constructor
    · rintro ⟨e, listed, hx⟩
      exact ⟨e.2.uncharged, .inr (List.mem_map.2 ⟨e, listed, rfl⟩), (blind e.2).symm ▸ hx⟩
    · rintro ⟨c, rfl | listed, hx⟩
      · rw [none] at hx
        cases hx
      · obtain ⟨e, stands, rfl⟩ := List.mem_map.1 listed
        exact ⟨e, stands, blind e.2 ▸ hx⟩
  simp only [split, h.listed]

theorem slotRun (core slot : Nat) : t.slotRun core slot = s.slotRun core slot := by
  unfold State.slotRun
  split
  · exact h.part Core.run0 (fun _ => rfl) core
  · exact h.part Core.run1 (fun _ => rfl) core

theorem holdsSlot (gk : Nat) : t.holdsSlot gk = s.holdsSlot gk := by
  unfold State.holdsSlot
  dsimp only
  rw [h.part Core.run0 (fun _ => rfl), h.part Core.run1 (fun _ => rfl)]

theorem swallowed (k : Nat) : t.swallowed k = s.swallowed k := by
  rw [h.rest]
  rfl

theorem slotSwallowed (core slot : Nat) : t.slotSwallowed core slot = s.slotSwallowed core slot := by
  have dies : t.dies = s.dies := (congrArg State.dies h.rest :)
  have clock : t.clock = s.clock := (congrArg State.clock h.rest :)
  unfold State.slotSwallowed
  rw [h.slotRun, h.swallowed, dies, clock]

theorem ageKey (gk : Nat) : t.ageKey gk = s.ageKey gk := by
  unfold State.ageKey
  dsimp only
  rw [h.group, h.groups, h.ofTeam Team.startAt fun _ => rfl]

theorem oldest (gks : List Nat) : t.oldest gks = s.oldest gks := by
  unfold State.oldest
  simp only [h.ageKey]

theorem grids : t.grids = s.grids := (congrArg State.grids h.rest :)

theorem gridOf_team (g : Group) : (t.teamOf g).bind t.gridOf = (s.teamOf g).bind s.gridOf := by
  have grid (v : State) : (v.teamOf g).bind v.gridOf = ((v.teams.get? g.team).map Team.grid).bind v.grids.get? := by
    unfold State.teamOf State.gridOf
    cases v.teams.get? g.team <;> rfl
  rw [grid, grid, h.ofTeam Team.grid fun _ => rfl, h.grids]

theorem pktOf (g : Group) : t.pktOf g = s.pktOf g := by rw [State.pktOf, State.pktOf, h.gridOf_team]

theorem ckOf (g : Group) : t.ckOf g = s.ckOf g := by
  have ck (v : State) : v.ckOf g = (((v.teamOf g).bind v.gridOf).map (·.ck)).getD 0 := by
    unfold State.ckOf
    cases v.teamOf g <;> rfl
  rw [ck, ck, h.gridOf_team]

theorem fetchWord (gk : Nat) (idx : Word) : t.fetchWord gk idx = s.fetchWord gk idx := by
  have icache : t.icache = s.icache := (congrArg State.icache h.rest :)
  unfold State.fetchWord State.insnAddr State.iline
  rw [h.group, h.pktOf, h.ckOf, icache]

theorem withinCap (gk : Nat) : t.withinCap gk = s.withinCap gk := by
  have started (tk : Nat) : (t.teams.get? tk).any (·.started) = (s.teams.get? tk).any (·.started) := by
    have same := h.ofTeam Team.started (fun _ => rfl) tk
    cases a : t.teams.get? tk <;> cases b : s.teams.get? tk <;> simp_all
  unfold State.withinCap
  simp only [h.groups, h.ageKey, started, h.part Core.cap (fun _ => rfl)]

theorem slewHolds (core : Nat) : t.slewHolds core = s.slewHolds core := by
  have clusters : t.clusters = s.clusters := (congrArg State.clusters h.rest :)
  unfold State.slewHolds State.cluster
  rw [clusters, h.part Core.slewPrev (fun _ => rfl), h.part Core.slewNow (fun _ => rfl)]

theorem servedLeaf (gk : Nat) : t.servedLeaf gk = s.servedLeaf gk := by
  have walks : t.walks = s.walks := (congrArg State.walks h.rest :)
  have flights : t.flights = s.flights := (congrArg State.flights h.rest :)
  have l2 : t.l2 = s.l2 := (congrArg State.l2 h.rest :)
  unfold State.servedLeaf
  simp only [walks, flights, l2, h.part Core.l1 fun _ => rfl]

end SameButCharges

/-! ### Registers that an engine will write -/

/-- A list is looked up by what it lists. -/
theorem contains_congr {α : Type} [BEq α] [LawfulBEq α] {l m : List α} (same : ∀ x, x ∈ l ↔ x ∈ m) (x : α) :
    l.contains x = m.contains x := by
  rw [Bool.eq_iff_iff, List.contains_iff_mem, List.contains_iff_mem, same]

theorem any_congr {α : Type} {l m : List α} (same : ∀ x, x ∈ l ↔ x ∈ m) (p : α → Bool) : l.any p = m.any p := by
  rw [Bool.eq_iff_iff, List.any_eq_true, List.any_eq_true]
  simp only [same]

/-- The stack entries that the matrix operations of a group on a core will write, by thread. -/
def Core.owedRows (gk : Nat) (c : Core) : List (Nat × Nat × Nat) :=
  (c.mq.filter fun o => o.gk = gk).flatMap fun o => match o.kind with
    | .row _ ty _ ds => ds.map fun e => (e.2.1, e.2.2, if ty = .f32 then 2 else 1)
    | _ => []

/-- The block fills of a group on a core. -/
def Core.owedFills (gk : Nat) (c : Core) : List Fill := (c.fills.filter fun f => f.2.gk = gk).map (·.2)

/-- A group with those pending registers alone that some operations, fills and replies will write. -/
def Group.owed (g : Group) (ops : List (Nat × Nat × Nat)) (fills : List Fill) : Group :=
  let scal := (g.replies.flatMap fun x => (List.range x.n).map (x.d + ·)) ++ fills.filterMap (·.d)
  let preds := (g.replies.flatMap fun x => x.lanes.map fun t => (t, 96 + x.pf)) ++
    fills.flatMap fun f => f.lanes.map fun t => (t, 96 + f.pf)
  let owed (t e : Nat) : Bool := preds.contains (t, e) || ops.any fun o => o.1 = t && (stackEntries o.2.1 o.2.2).contains e
  { g with
    spend := g.spend.filter scal.contains
    lanes := g.lanes.map fun (l : Nat × Thread) => (l.1, { l.2 with pend := l.2.pend.filter (owed l.2.tid) }) }

theorem engineOwed_eq (s : State) (gk : Nat) : s.engineOwed gk =
    (s.group gk).owed (s.cores.flatMap fun e => e.2.owedRows gk) (s.cores.flatMap fun e => e.2.owedFills gk) := rfl

/-- Which registers are owed depends on what the operations and the fills are, not on their order. -/
theorem owed_congr (g : Group) {ops ops' : List (Nat × Nat × Nat)} {fills fills' : List Fill} (sameOps : ∀ x, x ∈ ops ↔ x ∈ ops')
    (sameFills : ∀ x, x ∈ fills ↔ x ∈ fills') : g.owed ops fills = g.owed ops' fills' := by
  have scal (x : Nat) : x ∈ (g.replies.flatMap fun x => (List.range x.n).map (x.d + ·)) ++ fills.filterMap (·.d) ↔
      x ∈ (g.replies.flatMap fun x => (List.range x.n).map (x.d + ·)) ++ fills'.filterMap (·.d) := by
    simp only [List.mem_append, List.mem_filterMap, sameFills]
  have preds (x : Nat × Nat) : x ∈ (g.replies.flatMap fun x => x.lanes.map fun t => (t, 96 + x.pf)) ++
        (fills.flatMap fun f => f.lanes.map fun t => (t, 96 + f.pf)) ↔
      x ∈ (g.replies.flatMap fun x => x.lanes.map fun t => (t, 96 + x.pf)) ++
        fills'.flatMap fun f => f.lanes.map fun t => (t, 96 + f.pf) := by
    rw [List.mem_append, List.mem_append, List.mem_flatMap (l := fills), List.mem_flatMap (l := fills')]
    simp only [sameFills]
  unfold Group.owed
  simp only [funext (contains_congr scal), contains_congr preds, any_congr sameOps]

/-! ## The charge of a slot -/

namespace SameButCharges

variable {s t : State} (h : SameButCharges s t)

include h

theorem engineOwed (gk : Nat) : t.engineOwed gk = s.engineOwed gk := by
  rw [engineOwed_eq, engineOwed_eq, h.group]
  exact owed_congr _ (h.mem_flatMap (Core.owedRows gk) (fun _ => rfl) rfl) (h.mem_flatMap (Core.owedFills gk) (fun _ => rfl) rfl)

theorem waitsMatrix (gk : Nat) (handler : Bool) (ls : List Nat) (w : InsnWord) :
    t.waitsMatrix gk handler ls w = s.waitsMatrix gk handler ls w := by
  unfold State.waitsMatrix
  simp only [h.engineOwed, h.thread, h.group]

theorem reason (gk : Nat) : t.reason gk = s.reason gk := by
  unfold State.reason
  simp only [h.group, h.thread, h.fetchWord, h.withinCap, h.slewHolds, h.waitsMatrix, h.servedLeaf]

end SameButCharges

/-- What the two slots of a core did in the clock. -/
def Core.acts (c : Core) : (Nat × Nat) × (Option Nat × Option Nat) × Option Nat × Option Nat :=
  ((c.did0, c.did1), (c.didg0, c.didg1), c.didt0, c.didt1)

/-- A slot is charged for the same, whatever has been charged before on other slots. -/
theorem SameButCharges.classify {s t : State} (h : SameButCharges s t) {c : Nat} (acts : (t.core c).acts = (s.core c).acts)
    (n : Nat) : t.classify c n = s.classify c n := by
  have did0 : (t.core c).did0 = (s.core c).did0 := congrArg (fun x => x.1.1) acts
  have did1 : (t.core c).did1 = (s.core c).did1 := congrArg (fun x => x.1.2) acts
  have didg0 : (t.core c).didg0 = (s.core c).didg0 := congrArg (fun x => x.2.1.1) acts
  have didg1 : (t.core c).didg1 = (s.core c).didg1 := congrArg (fun x => x.2.1.2) acts
  unfold State.classify
  simp only [did0, did1, didg0, didg1, h.slotRun, h.slotSwallowed, h.holdsSlot, h.group, h.groupsOn, h.oldest, h.reason]

theorem SameButCharges.chargedTeam {s t : State} (h : SameButCharges s t) {c : Nat} (acts : (t.core c).acts = (s.core c).acts)
    (n : Nat) (gk : Option Nat) : t.chargedTeam c n gk = s.chargedTeam c n gk := by
  have did0 : (t.core c).did0 = (s.core c).did0 := congrArg (fun x => x.1.1) acts
  have did1 : (t.core c).did1 = (s.core c).did1 := congrArg (fun x => x.1.2) acts
  have didt0 : (t.core c).didt0 = (s.core c).didt0 := congrArg (fun x => x.2.2.1) acts
  have didt1 : (t.core c).didt1 = (s.core c).didt1 := congrArg (fun x => x.2.2.2) acts
  unfold State.chargedTeam
  simp only [did0, did1, didt0, didt1, h.groups]

/-- A leaf is one of sixteen (18 R421). -/
theorem reason_lt (s : State) (gk : Nat) : s.reason gk < 16 := by
  have served : (s.servedLeaf gk).getD 8 < 16 := by
    unfold State.servedLeaf
    split
    · decide
    · cases s.flights.find? fun e => e.2.gk = gk with
      | none => exact show 8 < 16 by decide
      | some e =>
        dsimp only [Option.map_some, Option.getD_some]
        repeat' split
        all_goals decide
  unfold State.reason
  dsimp only
  repeat' split
  all_goals omega

theorem classify_lt {s : State} {c n leaf : Nat} {gk : Option Nat} (charged : s.classify c n = some (leaf, gk)) : leaf < 16 := by
  unfold State.classify at charged
  dsimp only at charged
  split at charged
  next => cases charged; decide
  next =>
    split at charged
    next => cases charged; decide
    next => cases charged; decide
    next => cases charged; decide
    next => cases charged; decide
    next => cases charged; exact reason_lt ..
    next => cases charged

end Sys2Proof.Machine
end

section
/-! SUPPORT and PROOFS. The choice of a free issue slot, the windows of a core, and the charge of its slots (O53). -/

namespace Sys2Proof.Machine

/-! ## The choice of a free slot -/

theorem older_trans {a b c : Nat × Nat × Nat} (h : older a b = true) (h' : older b c = true) : older a c = true := by
  simp only [older, Bool.or_eq_true, Bool.and_eq_true, decide_eq_true_eq] at *
  omega

theorem older_irrefl (a : Nat × Nat × Nat) : older a a = false := by
  simp [older]

/-- The oldest of a list is in it, and none of it is older. -/
theorem oldest_cases (s : State) (gks : List Nat) : (gks = [] ∧ s.oldest gks = none) ∨
    ∃ k ∈ gks, s.oldest gks = some k ∧ ∀ h ∈ gks, older (s.ageKey h) (s.ageKey k) = false := by
  unfold State.oldest
  induction gks using List.reverseRecOn with
  | nil => exact .inl ⟨rfl, rfl⟩
  | append_singleton gks g ih =>
    rw [List.foldl_append]
    refine .inr ?_
    obtain ⟨none, e⟩ | ⟨k, listed, e, least⟩ := ih
    · rw [e, none]
      exact ⟨g, by simp, rfl, fun h here => by rw [List.mem_singleton.1 here]; exact older_irrefl _⟩
    · rw [e]
      cases younger : older (s.ageKey g) (s.ageKey k) with
      | true =>
        refine ⟨g, by simp, by simp [younger], fun h here => ?_⟩
        rcases List.mem_append.1 here with here | here
        · rw [Bool.eq_false_iff]
          exact fun before => absurd (older_trans before younger) (by rw [least h here]; decide)
        · rw [List.mem_singleton.1 here]
          exact older_irrefl _
      | false =>
        refine ⟨k, by simp [listed], by simp [younger], fun h here => ?_⟩
        rcases List.mem_append.1 here with here | here
        · exact least h here
        · rw [List.mem_singleton.1 here, younger]

section

variable (s : State) (core slot : Nat)

/-- The group whose run has just ended on a slot. -/
def State.lastOn : Option Nat := if slot = 0 then (s.core core).last0 else (s.core core).last1

theorem chosen_eq : s.chosen core slot = if (s.lastOn core slot).any s.ready then s.lastOn core slot
    else s.oldest ((s.groupsOn core).filter s.ready) := by
  unfold State.chosen
  dsimp only
  rw [← State.lastOn]
  cases s.lastOn core slot with
  | none => rfl
  | some p => rfl

/-- A free slot chooses the group whose run just ended on it where that is ready, else the oldest ready one of its core (06
R142). -/
theorem chosen_some {gk : Nat} (chosen : s.chosen core slot = some gk) : s.ready gk = true ∧
    (s.lastOn core slot = some gk ∨ ((∀ p, s.lastOn core slot = some p → s.ready p = false) ∧ gk ∈ s.groupsOn core ∧
      ∀ h ∈ s.groupsOn core, s.ready h = true → older (s.ageKey h) (s.ageKey gk) = false)) := by
  rw [chosen_eq] at chosen
  split at chosen
  next again =>
    rw [chosen] at again
    exact ⟨again, .inl chosen⟩
  next other =>
    obtain ⟨-, e⟩ | ⟨k, listed, e, least⟩ := oldest_cases s ((s.groupsOn core).filter s.ready)
    · rw [e] at chosen
      cases chosen
    · cases e.symm.trans chosen
      obtain ⟨here, ready⟩ := List.mem_filter.1 listed
      refine ⟨ready, .inr ⟨fun p last => ?_, here, fun h there goes => least h (List.mem_filter.2 ⟨there, goes⟩)⟩⟩
      rw [last] at other
      simpa using other

theorem chosen_of_ready {h : Nat} (here : h ∈ s.groupsOn core) (ready : s.ready h = true) : (s.chosen core slot).isSome = true := by
  rw [chosen_eq]
  split
  next again => exact Option.isSome_of_any again
  next =>
    obtain ⟨none, -⟩ | ⟨k, -, e, -⟩ := oldest_cases s ((s.groupsOn core).filter s.ready)
    · rw [List.filter_eq_nil_iff] at none
      exact absurd ready (none h here)
    · rw [e]
      rfl

theorem chosen_of_idle (idle : ∀ h, s.ready h = false) : s.chosen core slot = none := by
  cases chosen : s.chosen core slot with
  | none => rfl
  | some gk => exact absurd (chosen_some s core slot chosen).1 (by rw [idle]; decide)

/-- The run that a free slot begins with a group: it keeps the pass count and the pattern in force (06 R147). -/
def State.runOf (gk : Nat) : Run :=
  { gk := gk, n := 0, p := s.passes (clusterOf core), pat := some (s.pattern (clusterOf core)) }

/-- A free slot arbitrates: it has the run of the group that it chooses, if any. -/
theorem slotArbitration_of_free (free : s.slotRun core slot = none) : ∃ t, exec (.slotArbitration core slot) s = .next t ∧
    t = { s with cores := t.cores } ∧ t.slotRun core slot = (s.chosen core slot).map (s.runOf core) := by
  rw [exec_slotArbitration, execSlotArbitration, free]
  refine ⟨_, congrArg Host.Outcome.next (if_neg (by decide)), ?_⟩
  cases s.chosen core slot with
  | none =>
    refine ⟨rfl, ?_⟩
    unfold State.slotRun State.slotDid at *
    by_cases zero : slot = 0
    all_goals
      simp only [zero, if_true, if_false] at free
      simpa [modCore_core, zero] using free
  | some gk =>
    refine ⟨rfl, ?_⟩
    unfold State.slotRun State.slotDid State.setRun at *
    by_cases zero : slot = 0
    all_goals simp [modCore_core, zero]
    all_goals rfl

theorem slotArbitration_of_busy (busy : (s.slotRun core slot).isSome = true) : exec (.slotArbitration core slot) s = .next s := by
  rw [exec_slotArbitration, execSlotArbitration, if_pos busy]

end

/-! ## Windows -/

/-- The cap after a window (06 R145). -/
theorem nextCap_eq (ctl : Word) (count cap : Nat) : nextCap ctl count cap =
    if ctl.toNat.testBit 31 = false then 32 else if ctl.toNat / 2 ^ 10 % 2 ^ 10 < count then max 2 (cap / 2)
    else if count < ctl.toNat % 2 ^ 10 then min 32 (2 * cap) else cap := by
  unfold nextCap bitOf
  simp only [Bool.not_eq_true']
  rfl

theorem llWindowEnd_eq (s : State) (core : Nat) : exec (.llWindowEnd core) s = .next (s.modCore core fun c =>
    if c.llClock < 1024 then c
    else { c with cap := nextCap c.llctlUsed c.llCount c.cap, llLast := c.llCount, llCount := 0, llClock := 0,
                  llctlUsed := c.llctl }) := exec_llWindowEnd core s

/-! ## Charges -/

section

variable (s : State) (c n : Nat)

/-- A slot's charge to a leaf. -/
def State.toLeaf (leaf : Nat) : Nat := if (s.classify c n).map (·.1) = some leaf then 1 else 0

/-- A slot's charge to a team and a leaf. -/
def State.toTeam (tk leaf : Nat) : Nat :=
  if (s.classify c n).any (fun x => x.1 = leaf && s.chargedTeam c n x.2 = some tk) then 1 else 0

/-- A charge is one more in a leaf of the core. -/
theorem charge_core (j : Nat) : ∃ leaves, (s.charge c n).core j = { s.core j with leaves := leaves } ∧
    (j ≠ c → leaves = (s.core j).leaves) ∧ ∀ leaf, j = c → leaves.read 0 leaf = (s.core c).leaves.read 0 leaf + s.toLeaf c n leaf := by
  unfold State.charge State.toLeaf
  cases s.classify c n with
  | none => exact ⟨_, rfl, fun _ => rfl, fun _ here => by rw [here]; rfl⟩
  | some x =>
    obtain ⟨leaf, gk⟩ := x
    dsimp only
    generalize charged : s.modCore c (fun k => { k with leaves := k.leaves.put leaf (k.leaves.read 0 leaf + 1) }) = u
    have same (v : State) (e : v.cores = u.cores) : v.core j = u.core j := congrArg (fun m : Tbl Core => (m.get? j).getD {}) e
    have core : u.core j = if c = j then { s.core c with leaves := (s.core c).leaves.put leaf ((s.core c).leaves.read 0 leaf + 1) }
        else s.core j := by
      rw [← charged]
      exact modCore_core ..
    rw [same _ (by split <;> rfl), core]
    split
    next here =>
      subst here
      refine ⟨_, rfl, fun other => absurd rfl other, fun l _ => ?_⟩
      rw [Tbl.read_put]
      simp only [Option.map_some, Option.some.injEq]
      split
      next e => rw [e]
      next => rfl
    next other => exact ⟨_, rfl, fun _ => rfl, fun _ here => absurd here.symm other⟩

/-- A charge is one more in a leaf of a team, on the core of the slot. -/
theorem charge_team {tk : Nat} {a : Team} (team : s.teams.get? tk = some a) : ∃ pc, (s.charge c n).teams.get? tk =
    some { a with pc := pc } ∧ ∀ j leaf, leaf < 64 →
      pc.read 0 (64 * j + leaf) = a.pc.read 0 (64 * j + leaf) + if j = c then s.toTeam c n tk leaf else 0 := by
  unfold State.charge State.toTeam
  cases charged : s.classify c n with
  | none => exact ⟨a.pc, team, fun j leaf _ => by simp⟩
  | some x =>
    obtain ⟨leaf, gk⟩ := x
    have small := classify_lt charged
    dsimp only
    have acts : ((s.modCore c fun k => { k with leaves := k.leaves.put leaf (k.leaves.read 0 leaf + 1) }).core c).acts =
        (s.core c).acts := by
      rw [modCore_core, if_pos rfl]
      rfl
    rw [(SameButCharges.modCore s c (f := fun k => { k with leaves := k.leaves.put leaf (k.leaves.read 0 leaf + 1) })
      fun _ => rfl).chargedTeam acts n gk]
    simp only [Option.any_some]
    obtain owner | ⟨k, owner⟩ := (s.chargedTeam c n gk).eq_none_or_eq_some
    · simp only [owner]
      exact ⟨a.pc, team, fun j l _ => by simp⟩
    · simp only [owner]
      refine ⟨if k = tk then a.pc.put (64 * c + leaf) (a.pc.read 0 (64 * c + leaf) + 1) else a.pc, ?_, fun j l low => ?_⟩
      · refine (Tbl.get?_modify ..).trans ?_
        rw [modCore_teams, team]
        split <;> rfl
      · by_cases mine : k = tk
        · have place : (64 * c + leaf = 64 * j + l) ↔ (j = c ∧ leaf = l) := by omega
          rw [if_pos mine, Tbl.read_put]
          simp only [place, mine]
          by_cases here : j = c
          · by_cases same : leaf = l
            · simp [here, same]
            · simp [here, same]
          · simp [here]
        · simp [mine]

theorem charge_sameButCharges : SameButCharges s (s.charge c n) := by
  unfold State.charge
  split
  · exact .refl s
  next leaf gk _ =>
    dsimp only
    have counted := SameButCharges.modCore s c (f := fun k => { k with leaves := k.leaves.put leaf (k.leaves.read 0 leaf + 1) })
      fun _ => rfl
    split
    next tk _ => exact counted.trans (.modTeam _ tk fun _ => rfl)
    next => exact counted

/-- Both slots of a core are charged, and what they did is forgotten for the next clock. -/
def State.chargeCore : State :=
  ((s.charge c 0).charge c 1).modCore c fun k =>
    { k with did0 := 0, did1 := 0, didg0 := none, didg1 := none, didt0 := none, didt1 := none }

theorem chargeCore_sameButCharges : SameButCharges s (s.chargeCore c) :=
  ((charge_sameButCharges s c 0).trans (charge_sameButCharges _ c 1)).trans (.modCore _ c fun _ => rfl)

end

theorem charge_acts (s : State) (c n : Nat) : ((s.charge c n).core c).acts = (s.core c).acts := by
  obtain ⟨leaves, e, -⟩ := charge_core s c n c
  rw [e]
  rfl

/-- The charges of a slot are told from a state in which other slots have been charged. -/
theorem SameButCharges.charges {s u : State} (h : SameButCharges s u) {c : Nat} (acts : (u.core c).acts = (s.core c).acts)
    (n : Nat) : u.toLeaf c n = s.toLeaf c n ∧ u.toTeam c n = s.toTeam c n := by
  unfold State.toLeaf State.toTeam
  simp only [h.classify acts, h.chargedTeam acts, and_self]

section

variable {s u : State} (h : SameButCharges s u) {c : Nat} (still : u.core c = s.core c)

include h still

/-- The charges of the two slots of a core that has not been charged yet. -/
theorem chargeCore_core : (∀ j, j ≠ c → (u.chargeCore c).core j = u.core j) ∧ ((u.chargeCore c).core c).did0 = 0 ∧
    ((u.chargeCore c).core c).did1 = 0 ∧ ∀ leaf, ((u.chargeCore c).core c).leaves.read 0 leaf =
      (s.core c).leaves.read 0 leaf + s.toLeaf c 0 leaf + s.toLeaf c 1 leaf := by
  have first := (h.charges (congrArg Core.acts still) 0).1
  have second := ((h.trans (charge_sameButCharges u c 0)).charges ((charge_acts u c 0).trans (congrArg Core.acts still)) 1).1
  have forgotten (j : Nat) : (u.chargeCore c).core j = _ := modCore_core ((u.charge c 0).charge c 1) c j _
  refine ⟨fun j other => ?_, ?_, ?_, fun leaf => ?_⟩
  · obtain ⟨l0, e0, same0, -⟩ := charge_core u c 0 j
    obtain ⟨l1, e1, same1, -⟩ := charge_core (u.charge c 0) c 1 j
    rw [forgotten, if_neg (Ne.symm other), e1, same1 other, e0, same0 other]
  · rw [forgotten, if_pos rfl]
  · rw [forgotten, if_pos rfl]
  · obtain ⟨l0, e0, -, read0⟩ := charge_core u c 0 c
    obtain ⟨l1, e1, -, read1⟩ := charge_core (u.charge c 0) c 1 c
    rw [forgotten, if_pos rfl, e1]
    show l1.read 0 leaf = _
    rw [read1 leaf rfl, e0]
    show l0.read 0 leaf + _ = _
    rw [read0 leaf rfl, first, second, still]

theorem chargeCore_team {tk : Nat} {a : Team} (team : u.teams.get? tk = some a) : ∃ pc, (u.chargeCore c).teams.get? tk =
    some { a with pc := pc } ∧ ∀ j leaf, leaf < 64 → pc.read 0 (64 * j + leaf) =
      a.pc.read 0 (64 * j + leaf) + if j = c then s.toTeam c 0 tk leaf + s.toTeam c 1 tk leaf else 0 := by
  have first := (h.charges (congrArg Core.acts still) 0).2
  have second := ((h.trans (charge_sameButCharges u c 0)).charges ((charge_acts u c 0).trans (congrArg Core.acts still)) 1).2
  obtain ⟨pc0, e0, read0⟩ := charge_team u c 0 team
  obtain ⟨pc1, e1, read1⟩ := charge_team (u.charge c 0) c 1 e0
  refine ⟨pc1, e1, fun j leaf low => ?_⟩
  rw [read1 j leaf low, read0 j leaf low, first, second]
  split
  · rw [Nat.add_assoc]
  · rfl

end

/-- What the charges of some cores make of a state. -/
structure Charged (s : State) (cs : List Nat) (u : State) : Prop where
  same : SameButCharges s u
  others : ∀ c, c ∉ cs → u.core c = s.core c
  cores : ∀ c ∈ cs, (u.core c).did0 = 0 ∧ (u.core c).did1 = 0 ∧
    ∀ leaf, (u.core c).leaves.read 0 leaf = (s.core c).leaves.read 0 leaf + s.toLeaf c 0 leaf + s.toLeaf c 1 leaf
  teams : ∀ tk a, s.teams.get? tk = some a → ∃ b, u.teams.get? tk = some b ∧ ∀ c leaf, leaf < 64 →
    b.pc.read 0 (64 * c + leaf) = a.pc.read 0 (64 * c + leaf) +
      if c ∈ cs then s.toTeam c 0 tk leaf + s.toTeam c 1 tk leaf else 0

/-- Each of several cores is charged once. -/
theorem charged_foldl (s : State) {cs : List Nat} (once : cs.Nodup) : Charged s cs (cs.foldl State.chargeCore s) := by
  induction cs using List.reverseRecOn with
  | nil => exact ⟨.refl s, fun _ _ => rfl, fun _ => nofun, fun tk a team => ⟨a, team, fun c leaf _ => by simp⟩⟩
  | append_singleton cs c ih =>
    rw [List.foldl_append]
    obtain ⟨before, single, apart⟩ := List.nodup_append.1 once
    have fresh : c ∉ cs := fun listed => apart c listed c (List.mem_singleton_self c) rfl
    have h := ih before
    generalize cs.foldl State.chargeCore s = u at h
    obtain ⟨others, did0, did1, leaves⟩ := chargeCore_core h.same (h.others c fresh)
    refine ⟨h.same.trans (chargeCore_sameButCharges u c), fun j out => ?_, fun j listed => ?_, fun tk a team => ?_⟩
    · simp only [List.mem_append, List.mem_singleton, not_or] at out
      exact (others j out.2).trans (h.others j out.1)
    · by_cases here : j = c
      · subst here
        exact ⟨did0, did1, leaves⟩
      · rw [show (List.foldl State.chargeCore u [c]).core j = u.core j from others j here]
        refine h.cores j ?_
        simpa [here] using listed
    · obtain ⟨b, found, read⟩ := h.teams tk a team
      obtain ⟨pc, found', read'⟩ := chargeCore_team h.same (h.others c fresh) found
      refine ⟨{ b with pc := pc }, found', fun j leaf low => ?_⟩
      show pc.read 0 (64 * j + leaf) = _
      rw [read' j leaf low, read j leaf low]
      by_cases here : j = c
      · subst here
        simp [fresh]
      · simp [here]

/-- Every core on which a group stands is charged (18 R421). -/
theorem issueSlotCharge_eq (s : State) : ∃ cs : List Nat, exec .issueSlotCharge s = .next (cs.foldl State.chargeCore s) ∧
    cs.Nodup ∧ ∀ e ∈ s.groups, coreOf e.1 ∈ cs := by
  refine ⟨_, exec_issueSlotCharge s, List.nodup_dedup _, fun e listed => ?_⟩
  have stands : s.groupsOn (coreOf e.1) ≠ [] := List.ne_nil_of_mem
    (List.mem_map.2 ⟨e, List.mem_filter.2 ⟨listed, decide_eq_true rfl⟩, rfl⟩)
  refine List.mem_dedup.2 (List.mem_append.2 (.inl (List.mem_filter.2 ⟨List.mem_append.2 (.inr (List.mem_map.2 ⟨e, listed, rfl⟩)), ?_⟩)))
  simp [stands]

section

variable (s : State) (c : Nat)

theorem classify_of_swallowed {n : Nat} (swallowed : s.slotSwallowed c n = true) : (s.classify c n).map (·.1) = some 0x0D := by
  unfold State.classify
  dsimp only
  rw [if_pos swallowed]
  rfl

/-- The leaf of what a slot did for a group: issued, arbitrated, or was held by its pass count (18 R421). -/
theorem classify_of_did {n did leaf g : Nat} (kind : (did, leaf) ∈ [(1, 0), (2, 2), (3, 0x0C)])
    (clear : s.slotSwallowed c n = false) (acted : (if n = 0 then (s.core c).did0 else (s.core c).did1) = did)
    (group : (if n = 0 then (s.core c).didg0 else (s.core c).didg1) = some g) : s.classify c n = some (leaf, some g) := by
  unfold State.classify
  dsimp only
  rw [if_neg (by rw [clear]; decide), acted, group]
  simp only [List.mem_cons, Prod.mk.injEq, List.not_mem_nil, or_false] at kind
  obtain ⟨rfl, rfl⟩ | ⟨rfl, rfl⟩ | ⟨rfl, rfl⟩ := kind
  all_goals rfl

end

/-- Settles O53: a free slot's run is that of the group that it chooses; each window ends by its definition; the charges of the cores
are made one core after the other, and none changes what another is charged for. -/
theorem slotsAndWindows : Obligations.SlotsAndWindows := by
  unfold Obligations.SlotsAndWindows
  refine ⟨fun core slot s => ?_, fun core s => ⟨?_, ?_⟩, fun s => ⟨?_, fun c => ⟨fun n => classify_of_swallowed s c, fun g e kind =>
    ⟨fun clear did group => classify_of_did s c kind clear did group, fun clear did group =>
      classify_of_did s c kind clear did group⟩⟩⟩⟩
  · refine ⟨slotArbitration_of_busy s core slot, fun free => ?_⟩
    obtain ⟨t, turn, rest, run⟩ := slotArbitration_of_free s core slot free
    refine ⟨t, turn, rest, fun r runs => ?_, fun ⟨h, here, ready⟩ => ?_, fun idle => ?_⟩
    · rw [run, Option.map_eq_some_iff] at runs
      obtain ⟨gk, chosen, rfl⟩ := runs
      exact ⟨gk, rfl, chosen_some s core slot chosen⟩
    · rw [run, Option.isSome_map]
      exact chosen_of_ready s core slot here ready
    · rw [run, chosen_of_idle s core slot idle]
      rfl
  · refine ⟨_, llWindowEnd_eq s core, fun within => if_pos within, fun ends => ?_⟩
    have ended : ¬ (s.core core).llClock < 1024 := by omega
    dsimp only
    rw [if_neg ended]
    refine ⟨rfl, fun off => ?_, fun on => ⟨fun many => ?_, fun most few => ?_, fun most least => ?_⟩⟩
    all_goals
      show nextCap _ _ _ = _
      rw [nextCap_eq]
    · exact if_pos off
    · rw [if_neg (by rw [on]; decide), if_pos many]
    · rw [if_neg (by rw [on]; decide), if_neg (by omega), if_pos few]
    · rw [if_neg (by rw [on]; decide), if_neg (by omega), if_neg (by omega)]
  · exact ⟨_, exec_slewWindowEnd core s, fun within => if_pos within, fun ends => if_neg (by omega)⟩
  · obtain ⟨cs, turn, once, all⟩ := issueSlotCharge_eq s
    have h := charged_foldl s once
    refine ⟨_, turn, h.same.rest, fun c leaf ⟨e, listed, here⟩ => ?_, fun tk a team => ?_⟩
    · obtain ⟨did0, did1, leaves⟩ := h.cores c (here ▸ all e listed)
      exact ⟨leaves leaf, did0, did1⟩
    · obtain ⟨b, found, read⟩ := h.teams tk a team
      refine ⟨b, found, fun c leaf low ⟨e, listed, here⟩ => ?_⟩
      rw [read c leaf low, if_pos (here ▸ all e listed), ← Nat.add_assoc]
      rfl

end Sys2Proof.Machine
end

section
/-! SUPPORT. Threads that end: what the exit of a lane leaves of the groups (07 R177). -/

namespace Sys2Proof.Machine

/-! ## Groups that lose threads -/

/-- The threads of a group come from those of another: some ended meanwhile, some wait no longer. -/
def Group.Within (g g' : Group) : Prop :=
  ∀ x ∈ g'.lanes, ∃ y ∈ g.lanes, x.2.home = y.2.home ∧ (x.2.exited = y.2.exited ∨ x.2.exited = true) ∧
    (x.2.wait = y.2.wait ∨ x.2.wait = .none)

theorem Group.Within.of_lanes {g g' : Group} (same : g'.lanes = g.lanes) : g.Within g' :=
  fun x here => ⟨x, same ▸ here, rfl, .inl rfl, .inl rfl⟩

theorem Group.Within.trans {g g' g'' : Group} (h : g.Within g') (h' : g'.Within g'') : g.Within g'' := by
  intro x here
  obtain ⟨y, there, home, ended, waits⟩ := h' x here
  obtain ⟨z, before, home', ended', waits'⟩ := h y there
  refine ⟨z, before, home.trans home', ?_, ?_⟩
  · rcases ended with e | e
    · rwa [e]
    · exact .inr e
  · rcases waits with e | e
    · rwa [e]
    · exact .inr e

theorem Group.Within.modThread (g : Group) (l : Nat) {f : Thread → Thread} (home : ∀ t, (f t).home = t.home)
    (ended : ∀ t, (f t).exited = t.exited ∨ (f t).exited = true) (waits : ∀ t, (f t).wait = t.wait ∨ (f t).wait = .none) :
    g.Within (g.modThread l f) := by
  intro x here
  unfold Group.modThread Tbl.modify at here
  cases found : g.lanes.get? l with
  | none =>
    rw [found] at here
    exact ⟨x, here, rfl, .inl rfl, .inl rfl⟩
  | some t =>
    rw [found] at here
    rcases Tbl.mem_put here with rfl | old
    · exact ⟨(l, t), Tbl.mem_of_get? found, home t, ended t, waits t⟩
    · exact ⟨x, old, rfl, .inl rfl, .inl rfl⟩

/-- No thread of a group collects at a barrier where none did. -/
theorem Group.Within.collections {g g' : Group} (h : g.Within g') (still : g.collections = []) : g'.collections = [] := by
  have empty (ls : List Nat) : firsts ls = [] ↔ ls = [] := by
    induction ls using List.reverseRecOn with
    | nil => exact ⟨fun _ => rfl, fun _ => rfl⟩
    | append_singleton ls a ih =>
      unfold firsts at ih ⊢
      rw [List.foldl_append]
      simp only [List.foldl_cons, List.foldl_nil, List.append_eq_nil_iff, List.cons_ne_nil, and_false, iff_false]
      split
      next listed =>
        intro none
        rw [none] at listed
        cases listed
      next => simp
  rw [Group.collections, empty, List.filterMap_eq_nil_iff] at still ⊢
  intro x here
  obtain ⟨y, there, -, -, waits⟩ := h x here
  rcases waits with e | e
  · rw [e]
    exact still y there
  · rw [e]

/-- A group stands without a trap entry where all its entries are those of `jopen`. -/
theorem Group.trapEntry_eq_none {g : Group} : g.trapEntry = none ↔ ∀ e ∈ g.joins, ∃ c m t a, e = .join c m t a := by
  unfold Group.trapEntry
  rw [List.findSome?_eq_none_iff]
  refine forall₂_congr fun e _ => ?_
  cases e with
  | join c m t a => simp
  | trap c p d q => simp

/-! ## One group in which lanes end -/

/-- What the exits of the lanes `ls`, of which `ms` have left the rejoin masks, make of a group. -/
structure EndsLanes (ms ls : List Nat) (g g' : Group) : Prop where
  within : g.Within g'
  lanes : ∀ j, (g'.lanes.get? j).map (·.exited) = (g.lanes.get? j).map fun t => t.exited || decide (j ∈ ls)
  masks : ∀ n < 4, ∀ l < 32, bitOf (g.rmask n) l = false ∨ l ∈ ms → bitOf (g'.rmask n) l = false
  sorted : g.lanes.sorted = true → g'.lanes.sorted = true
  idle : g'.idle = g.idle
  launches : g'.launches = g.launches

/-- A group without a trap entry has none afterwards either, and its counters stand. -/
def KeepsCounters (g g' : Group) : Prop :=
  g.trapEntry = none → g'.trapEntry = none ∧ ∀ j, (g'.lanes.get? j).map (·.lpc) = (g.lanes.get? j).map (·.lpc)

theorem KeepsCounters.trans {g g' g'' : Group} (h : KeepsCounters g g') (h' : KeepsCounters g' g'') : KeepsCounters g g'' := fun untrapped =>
  ⟨(h' (h untrapped).1).1, fun j => ((h' (h untrapped).1).2 j).trans ((h untrapped).2 j)⟩

theorem EndsLanes.of_lanes {g g' : Group} (same : g'.lanes = g.lanes) (masks : g'.rm = g.rm) (idle : g'.idle = g.idle)
    (launches : g'.launches = g.launches) : EndsLanes [] [] g g' where
  within := .of_lanes same
  lanes := fun j => by simp [same]
  masks := fun n _ l _ h => by
    rw [Group.rmask, masks]
    exact h.resolve_right List.not_mem_nil
  sorted := fun sorted => same ▸ sorted
  idle := idle
  launches := launches

theorem EndsLanes.refl (g : Group) : EndsLanes [] [] g g := .of_lanes rfl rfl rfl rfl

theorem EndsLanes.trans {ms ms' ls ls' : List Nat} {g g' g'' : Group} (h : EndsLanes ms ls g g') (h' : EndsLanes ms' ls' g' g'') :
    EndsLanes (ms ++ ms') (ls ++ ls') g g'' where
  within := h.within.trans h'.within
  lanes := fun j => by
    have first := congrArg (Option.map (· || decide (j ∈ ls'))) (h.lanes j)
    rw [Option.map_map, Option.map_map] at first
    rw [h'.lanes j]
    refine first.trans ?_
    simp [Function.comp_def, Bool.or_assoc]
  masks := fun n small l low out => h'.masks n small l low <| by
    rcases out with out | out
    · exact .inl (h.masks n small l low (.inl out))
    · exact (List.mem_append.1 out).imp (fun here => h.masks n small l low (.inr here)) id
  sorted := fun sorted => h'.sorted (h.sorted sorted)
  idle := h'.idle.trans h.idle
  launches := h'.launches.trans h.launches

theorem EndsLanes.lane {ms ls : List Nat} {g g' : Group} (h : EndsLanes ms ls g g') {j : Nat} {t : Thread}
    (lane : g.lanes.get? j = some t) : ∃ u, g'.lanes.get? j = some u ∧ u.exited = (t.exited || decide (j ∈ ls)) := by
  have ended := h.lanes j
  rw [lane] at ended
  exact Option.map_eq_some_iff.1 ended

/-- A change of a thread that neither ends it nor makes it wait. -/
theorem EndsLanes.modThread (g : Group) (l : Nat) {f : Thread → Thread} (home : ∀ t, (f t).home = t.home)
    (ended : ∀ t, (f t).exited = t.exited) (waits : ∀ t, (f t).wait = t.wait ∨ (f t).wait = .none) :
    EndsLanes [] [] g (g.modThread l f) where
  within := .modThread g l home (fun t => .inl (ended t)) waits
  lanes := fun j => by
    rw [modThread_at]
    split <;> simp [Function.comp_def, ended]
  masks := fun n _ l _ h => h.resolve_right List.not_mem_nil
  sorted := Tbl.sorted_modify
  idle := rfl
  launches := rfl

theorem EndsLanes.foldl {α : Type} {f : Group → α → Group} (each : ∀ g a, EndsLanes [] [] g (f g a)) (l : List α) (g : Group) :
    EndsLanes [] [] g (l.foldl f g) := by
  induction l generalizing g with
  | nil => exact .refl g
  | cons a l ih => exact (each g a).trans (ih (f g a))

theorem EndsLanes.advanceAll (g : Group) (ls : List Nat) : EndsLanes [] [] g (g.advanceAll ls) :=
  .foldl (f := Group.advance) (fun g l => .modThread g l (fun _ => rfl) (fun _ => rfl) fun _ => .inr rfl) ls g

theorem EndsLanes.popEmpty (g : Group) : EndsLanes [] [] g g.popEmpty := by
  unfold Group.popEmpty
  split
  next p _ _ _ =>
    split
    · unfold Group.popTrap
      split
      · extract_lets g'
        have filtered : EndsLanes [] [] g g' := .of_lanes rfl rfl rfl rfl
        refine filtered.trans (.foldl (fun k l => ?_) _ _)
        refine .modThread k l (fun t => ?_) (fun t => ?_) fun t => .inl ?_ <;> split <;> rfl
      · exact .refl g
    · exact .refl g
  · exact .refl g

end Sys2Proof.Machine
end

section
/-! SUPPORT and PROOFS. `exit` ends the threads of its lanes, and the last one frees the slot (O16). -/

namespace Sys2Proof.Machine

/-! ## A state in which lanes of a group end -/

/-- No thread of a group collects at a barrier. -/
def State.Still (s : State) : Prop := ∀ gk g, s.groups.get? gk = some g → g.collections = []

theorem collectAgain_still {s : State} (still : s.Still) (gk : Nat) : s.collectAgain gk = s := by
  have none : (s.group gk).collections = [] := by
    unfold State.group
    cases found : s.groups.get? gk with
    | none => rfl
    | some g => exact still gk g found
  unfold State.collectAgain
  rw [none]
  rfl

/-- The threads of every group of a state come from those of a group of another. -/
def State.Within (s u : State) : Prop := ∀ e ∈ u.groups, ∃ d ∈ s.groups, d.2.Within e.2

theorem State.Within.refl (s : State) : s.Within s := fun e listed => ⟨e, listed, .of_lanes rfl⟩

theorem State.Within.trans {s u v : State} (h : s.Within u) (h' : u.Within v) : s.Within v := fun e listed => by
  obtain ⟨d, listed', within'⟩ := h' e listed
  obtain ⟨c, listed'', within⟩ := h d listed'
  exact ⟨c, listed'', within.trans within'⟩

theorem State.Within.modGroup (s : State) (k : Nat) {f : Group → Group} (within : ∀ g : Group, g.Within (f g)) :
    s.Within (s.modGroup k f) := fun e listed => by
  unfold State.modGroup Tbl.modify at listed
  cases found : s.groups.get? k with
  | none =>
    rw [found] at listed
    exact ⟨e, listed, .of_lanes rfl⟩
  | some g =>
    rw [found] at listed
    rcases Tbl.mem_put listed with rfl | old
    · exact ⟨(k, g), Tbl.mem_of_get? found, within g⟩
    · exact ⟨e, old, .of_lanes rfl⟩

/-- A slot that is no thread's home stays so. -/
theorem State.Within.hasConts {s u : State} (h : s.Within u) (teams : u.teams = s.teams) {k : Nat}
    (none : s.hasConts k = false) : u.hasConts k = false := by
  unfold State.hasConts at none ⊢
  rw [teams]
  rw [Bool.or_eq_false_iff] at none ⊢
  refine ⟨none.1, List.any_eq_false.2 fun e listed => ?_⟩
  rw [List.any_eq_true]
  rintro ⟨x, lane, lives⟩
  obtain ⟨d, listed', within⟩ := h e listed
  obtain ⟨y, lane', home, ended, -⟩ := within x lane
  have free := List.any_eq_false.1 none.2 d listed'
  rw [Bool.not_eq_true, List.any_eq_false] at free
  refine free y lane' ?_
  rw [← home]
  rcases ended with e | e
  · rwa [← e]
  · rw [e] at lives
    cases lives

/-- What the exits of lanes of the group `gk` make of a state: threads end and wait no longer, and requests for the serial token
go. -/
structure Exits (gk : Nat) (ms ls : List Nat) (s u : State) : Prop where
  rest : u = { s with groups := u.groups, tokens := u.tokens }
  here : ∀ g, s.groups.get? gk = some g → ∃ g', u.groups.get? gk = some g' ∧ EndsLanes ms ls g g' ∧ KeepsCounters g g'
  found : ∀ k g', u.groups.get? k = some g' → ∃ g, s.groups.get? k = some g ∧ g.Within g'
  listed : s.Within u

section

variable {gk : Nat} {ms ms' ls ls' : List Nat} {s u v : State}

theorem Exits.refl (gk : Nat) (s : State) : Exits gk [] [] s s where
  rest := rfl
  here := fun g found => ⟨g, found, .refl g, fun untrapped => ⟨untrapped, fun _ => rfl⟩⟩
  found := fun _ g found => ⟨g, found, .of_lanes rfl⟩
  listed := .refl s

theorem Exits.trans (h : Exits gk ms ls s u) (h' : Exits gk ms' ls' u v) : Exits gk (ms ++ ms') (ls ++ ls') s v where
  rest := by rw [h'.rest, h.rest]
  here := fun g found => by
    obtain ⟨g', found', ends, steady⟩ := h.here g found
    obtain ⟨g'', found'', ends', steady'⟩ := h'.here g' found'
    exact ⟨g'', found'', ends.trans ends', steady.trans steady'⟩
  found := fun k g'' found'' => by
    obtain ⟨g', found', within'⟩ := h'.found k g'' found''
    obtain ⟨g, found, within⟩ := h.found k g' found'
    exact ⟨g, found, within.trans within'⟩
  listed := h.listed.trans h'.listed

/-- A change of one group; where that is not the issuing one, no lane of the issuing one ends. -/
theorem Exits.modGroup (s : State) (k : Nat) {f : Group → Group} (ends : ∀ g, EndsLanes ms ls g (f g))
    (steady : ∀ g, KeepsCounters g (f g)) (mine : k = gk ∨ ms = [] ∧ ls = []) : Exits gk ms ls s (s.modGroup k f) where
  rest := rfl
  here := fun g found => by
    refine ⟨if k = gk then f g else g, ?_⟩
    rw [State.modGroup, Tbl.get?_modify, found]
    split
    next => exact ⟨rfl, ends g, steady g⟩
    next other =>
      obtain ⟨rfl, rfl⟩ := mine.resolve_left other
      exact ⟨rfl, .refl g, fun untrapped => ⟨untrapped, fun _ => rfl⟩⟩
  found := fun j g' found => by
    rw [State.modGroup, Tbl.get?_modify] at found
    split at found
    next =>
      obtain ⟨g, before, rfl⟩ := Option.map_eq_some_iff.1 found
      exact ⟨g, before, (ends g).within⟩
    next => exact ⟨g', found, .of_lanes rfl⟩
  listed := .modGroup s k fun g => (ends g).within

/-- A change of a group that leaves its threads and masks, and brings no trap entry. -/
theorem Exits.of_lanes (s : State) (k : Nat) {f : Group → Group} (lanes : ∀ g, (f g).lanes = g.lanes)
    (masks : ∀ g, (f g).rm = g.rm) (idle : ∀ g, (f g).idle = g.idle) (launches : ∀ g, (f g).launches = g.launches)
    (untrapped : ∀ g, g.trapEntry = none → (f g).trapEntry = none) : Exits gk [] [] s (s.modGroup k f) :=
  .modGroup s k (fun g => .of_lanes (lanes g) (masks g) (idle g) (launches g))
    (fun g none => ⟨untrapped g none, fun j => by rw [lanes]⟩) (.inr ⟨rfl, rfl⟩)

theorem Exits.still (h : Exits gk ms ls s u) (still : s.Still) : u.Still := fun k g' found => by
  obtain ⟨g, before, within⟩ := h.found k g' found
  exact within.collections (still k g before)

end

/-! ## The exit of a lane -/

section

variable (g : Group) (l : Nat)

/-- The lane leaves the rejoin masks. -/
def Group.unmask : Group :=
  { g with rm := (List.range 4).foldl (fun m n => m.write 0 n (g.rmask n &&& ~~~(maskOf [l]))) g.rm }

theorem rmask_unmask {n : Nat} (small : n < 4) : (g.unmask l).rmask n = g.rmask n &&& ~~~(maskOf [l]) := by
  rw [Group.unmask, Group.rmask, show List.range 4 = [0, 1, 2, 3] from rfl]
  simp only [List.foldl_cons, List.foldl_nil, Tbl.read_write]
  obtain rfl | rfl | rfl | rfl : n = 0 ∨ n = 1 ∨ n = 2 ∨ n = 3 := by omega
  all_goals rfl

theorem unmask_ends : EndsLanes [l] [] g (g.unmask l) where
  within := .of_lanes rfl
  lanes := fun j => by simp [Group.unmask]
  masks := fun n small j low out => by
    rw [rmask_unmask g l small, bitOf_and_not _ _ _ low, bitOf_maskOf _ _ low]
    rcases out with out | out
    · rw [out]
      rfl
    · simp [out]
  sorted := id
  idle := rfl
  launches := rfl

/-- The thread ends. -/
theorem modThread_ends : EndsLanes [] [l] g (g.modThread l fun t => { t with exited := true, wait := .none }) where
  within := .modThread g l (fun _ => rfl) (fun _ => .inr rfl) fun _ => .inr rfl
  lanes := fun j => by
    rw [modThread_at]
    split
    next same => simp [Function.comp_def, same]
    next other => simp [Ne.symm other]
  masks := fun n _ j _ out => out.resolve_right List.not_mem_nil
  sorted := Tbl.sorted_modify
  idle := rfl
  launches := rfl

end

/-- The exit of a lane, where no thread collects at a barrier. -/
theorem exitLane_exits {s : State} (still : s.Still) (k : Cursor) (l : Nat) : Exits k.gk [l] [l] s (s.exitLane k l) := by
  unfold State.exitLane
  extract_lets g t s1 s2 s3 s4 s5 s6
  have unmasked : Exits k.gk [l] [] s s1 := .modGroup s k.gk (fun g => unmask_ends g l)
    (fun g none => ⟨none, fun _ => rfl⟩) (.inl rfl)
  have counted : Exits k.gk [] [] s1 s2 := by
    unfold s2
    split
    next h _ =>
      refine .of_lanes s1 h.gk (fun _ => rfl) (fun _ => rfl) (fun _ => rfl) (fun _ => rfl) fun g none => ?_
      rw [Group.trapEntry_eq_none] at none ⊢
      intro e listed
      obtain ⟨i, low, rfl⟩ := List.mem_mapIdx.1 listed
      obtain ⟨c, m, tgt, a, entry⟩ := none _ (List.getElem_mem low)
      rw [entry]
      split
      · exact ⟨_, _, _, _, rfl⟩
      · exact ⟨_, _, _, _, rfl⟩
    next => exact .refl ..
  have unparked : Exits k.gk [] [] s2 s3 := by
    unfold s3
    split
    · refine .of_lanes s2 k.gk (fun _ => rfl) (fun _ => rfl) (fun _ => rfl) (fun _ => rfl) fun g none => ?_
      rw [Group.trapEntry_eq_none] at none ⊢
      intro e listed
      obtain ⟨d, before, rfl⟩ := List.mem_map.1 listed
      obtain ⟨c, m, tgt, a, rfl⟩ := none d before
      exact ⟨_, _, _, _, rfl⟩
    · exact .refl ..
  have dropped : Exits k.gk [] [] s3 s4 :=
    { Exits.refl k.gk s3 with rest := rfl }
  have ended : Exits k.gk [] [l] s4 s5 := .modGroup s4 k.gk (fun g => modThread_ends g l)
    (fun g none => ⟨none, fun j => by
      rw [modThread_at]
      split
      · rw [Option.map_map]
        rfl
      · rfl⟩) (.inl rfl)
  have all : Exits k.gk [l] [l] s s5 := unmasked.trans (counted.trans (unparked.trans (dropped.trans ended)))
  have same : s6 = s5 := collectAgain_still (all.still still) k.gk
  rw [same]
  split
  · rwa [collectAgain_still (all.still still)]
  · exact all

theorem exitLanes_exits {s : State} (still : s.Still) (k : Cursor) (ls : List Nat) :
    Exits k.gk ls ls s (ls.foldl (fun s l => s.exitLane k l) s) := by
  induction ls generalizing s with
  | nil => exact .refl ..
  | cons l ls ih =>
    have first := exitLane_exits still k l
    exact first.trans (ih (first.still still))

/-! ## The freeing of a slot -/

section

variable (s : State) (gk : Nat)

/-- Freeing a slot leaves the memory, the standing instruction and every other group. -/
theorem reap_leaves : (s.reap gk).cur = s.cur ∧ (s.reap gk).mem = s.mem ∧ (s.reap gk).scratch = s.scratch ∧
    ∀ k, (s.reap gk).groups.get? k = s.groups.get? k ∨ k = gk ∧ (s.reap gk).groups.get? k = none := by
  unfold State.reap
  split
  · exact ⟨rfl, rfl, rfl, fun _ => .inl rfl⟩
  · split
    · exact ⟨rfl, rfl, rfl, fun _ => .inl rfl⟩
    · extract_lets u out v
      have bound : u.cur = s.cur ∧ u.mem = s.mem ∧ u.scratch = s.scratch ∧ u.groups = s.groups := by
        unfold u
        split <;> exact ⟨rfl, rfl, rfl, rfl⟩
      obtain ⟨cur, mem, scratch, groups⟩ := bound
      split
      · exact ⟨cur, mem, scratch, fun _ => .inl (by rw [groups])⟩
      · refine ⟨cur, mem, scratch, fun k => ?_⟩
        show (u.groups.del gk).get? k = _ ∨ _
        rw [groups, Tbl.get?_del]
        split
        next here =>
          subst here
          exact .inr ⟨rfl, Tbl.get?_del_same ..⟩
        next => exact .inl rfl

variable {s gk}

/-- A slot without live threads, continuations and launches is freed. -/
theorem reap_frees {g : Group} (group : s.groups.get? gk = some g) (ended : ∀ x ∈ g.lanes, x.2.exited = true)
    (idle : g.idle = false) (launches : g.launches = []) (conts : s.hasConts gk = false) :
    (s.reap gk).groups.get? gk = none := by
  unfold State.reap
  have lanes : (g.lanes.any fun e => !e.2.exited) = false := List.any_eq_false.2 fun x here => by simp [ended x here]
  simp only [group, lanes, Bool.false_eq_true, if_false, idle, launches, List.isEmpty_nil, Bool.not_true, Bool.or_self, Bool.false_or]
  have conts' : (if s.hasOps gk s.nextId = true then s else s.endBind gk).hasConts gk = false := by
    split <;> exact conts
  rw [if_neg (by rw [conts']; decide)]
  exact Tbl.get?_del_same ..

/-- Freeing other slots leaves a slot with a live thread, and a slot that is free. -/
theorem foldl_reap_leaves (homes : List Nat) (s : State) :
    let t := homes.foldl State.reap s
    t.cur = s.cur ∧ t.mem = s.mem ∧ t.scratch = s.scratch ∧ ∀ k,
      (s.groups.get? k = none → t.groups.get? k = none) ∧
      ∀ g l u, s.groups.get? k = some g → g.lanes.get? l = some u → u.exited = false → t.groups.get? k = some g := by
  induction homes generalizing s with
  | nil => exact ⟨rfl, rfl, rfl, fun _ => ⟨id, fun _ _ _ found _ _ => found⟩⟩
  | cons h homes ih =>
    obtain ⟨cur, mem, scratch, slots⟩ := reap_leaves s h
    obtain ⟨cur', mem', scratch', slots'⟩ := ih (s.reap h)
    refine ⟨cur'.trans cur, mem'.trans mem, scratch'.trans scratch, fun k => ⟨fun free => ?_, fun g l u found lane live => ?_⟩⟩
    · refine (slots' k).1 ?_
      rcases slots k with same | ⟨-, gone⟩
      · rw [same, free]
      · exact gone
    · refine (slots' k).2 g l u ?_ lane live
      rcases slots k with same | ⟨rfl, -⟩
      · rw [same, found]
      · rw [reap_live found lane live, found]

end

/-! ## `exit` -/

theorem finish_untrapped {k : Cursor} (clean : k.traps = []) (s : State) :
    s.finish k [] = ({ s with cur := none } : State).reap k.gk := by
  rw [State.finish, clean, List.append_nil, raise_nil]

/-- The lanes that execute but do not exit advance. -/
def Group.afterExit (g : Group) (k : Cursor) (cs : List Nat) : Group :=
  g.popEmpty.advanceAll ((lanesOf k.active).filter fun l => !cs.contains l)

theorem afterExit_ends (g : Group) (k : Cursor) (cs : List Nat) : EndsLanes [] [] g (g.afterExit k cs) :=
  (EndsLanes.popEmpty g).trans (.advanceAll _ _)

/-- Without a trap entry the counters advance in the lanes that execute and do not exit. -/
theorem afterExit_lpc {g : Group} (none : g.trapEntry = none) (k : Cursor) (cs : List Nat) {l : Nat} (stays : l ∉ cs) :
    ((g.afterExit k cs).lanes.get? l).map (·.lpc) =
      (g.lanes.get? l).map fun t => if l ∈ lanesOf k.active then t.lpc + 1 else t.lpc := by
  have same : g.popEmpty = g := by
    unfold Group.popEmpty
    rw [none]
  rw [Group.afterExit, same, advanceAll_lanes _ _ _ ((lanesOf_nodup _).filter _)]
  simp only [List.mem_filter, List.contains_eq_mem, stays, decide_false, Bool.not_false, and_true]
  split
  · rw [Option.map_map]
    rfl
  · rfl

/-- `exit` ends the threads of C in its group, and slots that wait for the last of their threads may be freed. -/
theorem exec_exit_eq {f : Op3} {s : State} {k : Cursor} {g : Group} (hi : Issuing s k g) (still : s.Still) :
    ∃ (homes : List Nat) (u : State) (g1 : Group), exec (.exit f) s =
        .next (homes.foldl State.reap ((u.setGroup k.gk (g1.afterExit k (guarded g f.h k))).finish k [])) ∧
      Exits k.gk (guarded g f.h k) (guarded g f.h k) s u ∧ u.groups.get? k.gk = some g1 := by
  have exits := exitLanes_exits still k (guarded g f.h k)
  obtain ⟨g1, found, -⟩ := exits.here g hi.group
  refine ⟨((guarded g f.h k).filterMap fun l => (s.thread k.gk l).home.map (·.gk)).dedup, _, g1, ?_, exits, found⟩
  rw [exec_exit, execExit, withIssuer, hi.cur]
  simp only [group_of hi.group, modGroup_of found, State.advanceOthers, setGroup_modGroup]
  rfl

/-- Settles O16: the exits of the lanes end their threads one by one; the end of the issue frees the slot where none lives. -/
theorem exitEndsThreads : Obligations.ExitEndsThreads := by
  unfold Obligations.ExitEndsThreads
  intro f s k g hi still stays
  obtain ⟨homes, u, g1, issue, exits, found⟩ := exec_exit_eq (f := f) hi still
  obtain ⟨_, same, ends, steady⟩ := exits.here g hi.group
  obtain rfl := Option.some.inj (found.symm.trans same)
  generalize hcs : guarded g f.h k = cs at issue exits ends
  have member (l : Nat) : InC k g f.h l ↔ l ∈ cs := hcs ▸ inC_iff_mem_guarded
  have after : EndsLanes cs cs g (g1.afterExit k cs) := by
    have h := ends.trans (afterExit_ends g1 k cs)
    rwa [List.append_nil] at h
  have lives {l : Nat} {t : Thread} (h : stays l t) : ∃ w, (g1.afterExit k cs).lanes.get? l = some w ∧ w.exited = false := by
    obtain ⟨lane, live, out⟩ := h
    obtain ⟨w, found, e⟩ := after.lane lane
    exact ⟨w, found, by rw [e, live, decide_eq_false (mt (member l).2 out)]; rfl⟩
  refine ⟨fun ⟨l, t, here⟩ => ?_, fun sorted none idle launches conts => ?_⟩
  · obtain ⟨w, lane, live⟩ := lives here
    rw [finish_clean hi.clean (setGroup_get ..) lane live] at issue
    obtain ⟨cur, mem, scratch, slots⟩ :=
      foldl_reap_leaves homes { u.setGroup k.gk (g1.afterExit k cs) with cur := none }
    refine ⟨_, g1.afterExit k cs, issue, cur, (slots k.gk).2 _ l w (setGroup_get ..) lane live, fun j runs => ⟨?_, fun n small => ?_⟩,
      fun j u stay => ?_, mem.trans ?_, scratch.trans ?_⟩
    · obtain ⟨t', lane', -⟩ := hi.present j runs.1
      obtain ⟨v, found', e⟩ := after.lane lane'
      exact ⟨v, found', by rw [e, decide_eq_true ((member j).1 runs), Bool.or_true]⟩
    · exact after.masks n small j ((mem_lanesOf _ _).1 runs.1).1 (.inr ((member j).1 runs))
    · obtain ⟨v, lane', live'⟩ := lives stay
      refine ⟨v, lane', live', fun untrapped => ?_⟩
      obtain ⟨untrapped', counters⟩ := steady untrapped
      have lpc := afterExit_lpc untrapped' k cs (mt (member j).2 stay.2.2)
      have before := counters j
      rw [stay.1] at before
      obtain ⟨x, found', same⟩ := Option.map_eq_some_iff.1 before
      rw [lane', found'] at lpc
      have same : x.lpc = u.lpc := same
      refine (Option.some.inj lpc).trans ?_
      dsimp only
      rw [same]
    · show u.mem = s.mem
      rw [exits.rest]
    · show u.scratch = s.scratch
      rw [exits.rest]
  · have ended (x : Nat × Thread) (here : x ∈ (g1.afterExit k cs).lanes) : x.2.exited = true := by
      have ended := after.lanes x.1
      rw [Tbl.get?_of_mem (after.sorted sorted) here] at ended
      obtain ⟨t, lane, e⟩ := Option.map_eq_some_iff.1 ended.symm
      have ended : (t.exited || decide (x.1 ∈ cs)) = true := by
        rw [Bool.or_eq_true, decide_eq_true_iff, ← member]
        by_contra stay
        rw [not_or, Bool.not_eq_true] at stay
        exact none x.1 t ⟨lane, stay.1, stay.2⟩
      exact e.symm.trans ended
    have within : s.Within (u.setGroup k.gk (g1.afterExit k cs)) := by
      rw [← modGroup_of found (·.afterExit k cs)]
      exact exits.listed.trans (.modGroup u k.gk fun g => (afterExit_ends g k cs).within)
    have teams : u.teams = s.teams := by rw [exits.rest]
    rw [finish_untrapped hi.clean] at issue
    have freed := reap_frees (s := { u.setGroup k.gk (g1.afterExit k cs) with cur := .none }) (setGroup_get ..) ended
      (after.idle.trans idle) (after.launches.trans launches) (within.hasConts teams conts)
    obtain ⟨cur, -, -, slots⟩ := foldl_reap_leaves homes (State.reap { u.setGroup k.gk (g1.afterExit k cs) with cur := .none } k.gk)
    exact ⟨_, issue, cur.trans (reap_leaves _ k.gk).1, (slots k.gk).1 freed⟩

end Sys2Proof.Machine
end

section
/-! SUPPORT and PROOFS. Loads by lanes where the L1 of the core lists a line twice (O18). No state that the machine reaches has such
an L1, but the statement speaks of every state. -/

namespace Sys2Proof.Machine

/-! ## Two lanes that load from a line listed twice -/

/-- `ld.gl.b32 w4, [w0.d]`. -/
def twiceLoad : MemF := ⟨⟨false, 0, false⟩, .gl, .s32, .plain, .none, .natural, 0, .win 4, .win 0, .zero, 0, none⟩

/-- Lanes 0 and 1 hold the addresses of the two sectors of line 0. -/
def twiceGroup : Group := { lanes := [(0, {}), (1, { tid := 1, stack := [(0, 64)] })] }

/-- The issue of the two lanes. -/
def twiceCursor : Cursor := { gk := 0, full := 3, active := 3, handler := false, word := 0, pc := 0, traps := [] }

/-- The packet of the team's grid. -/
def twicePacket : Packet :=
  { hdr := 0, tbase := 0, code := 0, gridx := 1, gridy := 1, gridz := 1, teamx := 32, teamy := 1, teamz := 1, res := 0, scratch := 0,
    bars := 0, psize := 0, param := 0, spill := 0, spillsz := 0, rsv := 0, w0addr := 0, w0val := 0, w1addr := 0, w1val := 0,
    sigaddr := 0, sigval := 0, ring := 0, corrid := 0 }

/-- Pages 0 to 15 stand where they are mapped, with every permission. -/
def twicePages : TlbEntry := ⟨0, 0, 16, BitVec.ofNat 64 (15 * 2 ^ 55 + 0x3F)⟩

/-- Line 0 stands twice in the L1, first with its sector 0, then with its sector 1. -/
def twiceCore : Core :=
  { tlb := [twicePages]
    l1 := [⟨0, some (List.replicate 64 0), none, 0⟩, ⟨0, none, some (List.replicate 64 0), 0⟩] }

/-- An earlier load of lane 0 from the bytes that it loads now. -/
def twiceFlight : Flight :=
  { kind := .load 95 1 .s32 0 0, core := 0, gk := 0, team := 0, tid := 0, ck := 0, space := .gl, loc := 0, size := 4, va := 0
    strong := false, scope := .none, acq := false, rel := false, promote := false, tx := false, remote := none, run := (0, 16)
    slice := 0 }

/-- The two lanes issue the load. -/
def twiceState : State :=
  { grids := [(0, { pkt := twicePacket, ck := 0, q := 0, dev := false, depth := 1, parent := none, stage := .released })]
    teams := [(0, { grid := 0, idx := 0, d := 0, cores := [0], b := 0, laneRuns := [], tiles := [], wrun := [], bars := []
                    started := true, startAt := 0 })]
    groups := [(0, twiceGroup)]
    cores := [(0, twiceCore)]
    flights := [(0, twiceFlight)]
    nextId := 1
    cur := some twiceCursor }

/-- What the checks answer to a lane. -/
def twiceChecked (l : Nat) : Req × Checked :=
  (⟨l, l, .gl, 64 * l, 4, .read, 1⟩, .ok (64 * l) (0, 16) (homeSlice (64 * l) twicePages.leaf))

/-- What the checks answer to both lanes. -/
def twiceAnswers : List (Req × Checked) := [twiceChecked 0, twiceChecked 1]

/-! ## The premises -/

theorem twice_issuing : Issuing twiceState twiceCursor twiceGroup where
  cur := rfl
  clean := rfl
  group := rfl
  nonempty := by decide
  within := fun _ => id
  present := fun l runs => by
    have lanes : ∀ l ∈ lanesOf twiceCursor.active, l = 0 ∨ l = 1 := by decide
    obtain rfl | rfl := lanes l runs
    · exact ⟨_, rfl, rfl⟩
    · exact ⟨_, rfl, rfl⟩

theorem twice_lanesFree : lanesFree twiceState twiceCursor twiceGroup twiceLoad.h false := by
  unfold lanesFree
  decide +kernel

theorem twice_checked : (twiceState.checkAll 0 (laneReqs twiceGroup twiceCursor twiceLoad 4 .read 1)).2 = some twiceAnswers := by
  decide +kernel

theorem twice_accessFree : ∀ rc ∈ twiceAnswers, accessFree twiceState twiceCursor twiceLoad false rc := by
  unfold accessFree
  decide +kernel

theorem twice_passes : ∀ rc ∈ twiceAnswers, ∃ loc run slice, rc.2 = .ok loc run slice ∧
    (nearSpace twiceLoad.space = true → twiceState.poisoned .pad loc twiceLoad.size.bytes = false) := by
  intro rc listed
  obtain rfl | rfl := List.mem_pair.1 listed
  · exact ⟨_, _, _, rfl, nofun⟩
  · exact ⟨_, _, _, rfl, nofun⟩

/-- A weak access meets no undefined byte where none stands noted. -/
theorem mixedBytes_of_weak {s : State} {f : Flight} (weak : f.strong = false) (clean : s.hazy = []) (tid : Nat) :
    s.mixedBytes f tid = [] := by
  have apart : s.clashing f tid = [] := by
    unfold State.clashing
    rw [weak]
    rfl
  unfold State.mixedBytes State.vague
  split
  · rfl
  · simp [apart, State.hazyFor, clean]

theorem twice_accessClear : ∀ rc ∈ twiceAnswers, accessClear twiceState twiceCursor twiceLoad twiceAnswers rc := by
  intro rc listed
  refine ⟨fun q _ => mixedBytes_of_weak rfl rfl _, ⟨rfl, rfl, rfl⟩, ?_⟩
  revert rc
  decide +kernel

/-- The load of lane 1 misses the L1 as it stands. -/
theorem twice_misses : twiceState.l1Hits (twiceState.loadFlight twiceCursor twiceLoad 0 0 (twiceChecked 1).1 (twiceChecked 1).2) = false := by
  decide +kernel

/-- But no access of lane 1 goes in flight: the load of lane 0, which may not use the L1, empties the first entry of the line. -/
theorem twice_noFlight : (match exec (.ldVector twiceLoad) twiceState with
    | .next t => t.flights.all fun e => e.2.tid ≠ 1
    | _ => false) = true := by
  decide +kernel

/-- Refutes O18: the L1 lists line 0 twice, first with its sector 0 alone. Lane 0 may not use the L1, and drops sector 0, with which
the first entry leaves; lane 1, which missed on that entry, now hits sector 1 in the second, and its access does not go in
flight. -/
theorem not_vectorLoads : ¬ Obligations.VectorLoads := by
  unfold Obligations.VectorLoads
  intro h
  obtain ⟨t, g', run, -, -, -, -, lanes⟩ := h twiceLoad (.ldVector twiceLoad) 0 twiceState _ twiceCursor twiceGroup twiceAnswers
    twice_issuing (.inl ⟨rfl, rfl⟩) (fun _ => ⟨by decide +kernel, by decide +kernel⟩) twice_lanesFree (Prod.ext rfl twice_checked)
    fun rc listed => ⟨twice_accessFree rc listed, twice_accessClear rc listed, .inl (twice_passes rc listed)⟩
  obtain ⟨w, -, -, claim⟩ := lanes (twiceChecked 1) (by simp [twiceAnswers]) _ rfl
  obtain ⟨id, fl, -, found, -, -, -, tid, -⟩ := (claim _ _ _ rfl).2.2 rfl twice_misses
  have none := twice_noFlight
  rw [run] at none
  have other := List.all_eq_true.1 none _ (Tbl.mem_of_get? found)
  rw [tid] at other
  exact absurd other (by decide)

end Sys2Proof.Machine
end
